-- ==== Sys2Proof/Word.lean ====
section
/-! DEFINITION. The word types of the module: bytes, 64-bit control-space words and the index types of R16. -/
namespace Sys2Proof

/-- One byte of memory. -/
abbrev Byte := BitVec 8
/-- A control-space word (R12), a scalar register (R102) or a doubleword. -/
abbrev Word := BitVec 64
/-- A 32-bit lane (R176) or an FP32 bit pattern. -/
abbrev Lane := BitVec 32

/-- Region r (R16). -/
abbrev RegionIx := Fin 16
/-- Block n, with its block steward (R16). -/
abbrev BlockIx := Fin 80
/-- Global physical cell (R16). -/
abbrev CellIx := Fin 1360
/-- Vault v (R16). -/
abbrev VaultIx := Fin 8
/-- Global vault engine (R16). -/
abbrev EngineIx := Fin 256
/-- Steward: 0 to 79 are BS0 to BS79, 80 to 83 are HS0 to HS3 (R16). -/
abbrev StewardIx := Fin 84
/-- Head steward HSk (R16). -/
abbrev HeadIx := Fin 4
/-- Link port Ln (R16). -/
abbrev PortIx := Fin 18
/-- Ethernet port E0 or E1 (R16). -/
abbrev EthIx := Fin 2
/-- Power domain (R18). -/
abbrev DomainIx := Fin 112
/-- Tenancy 0 to 15 (R101). -/
abbrev TenancyIx := Fin 16
/-- Image slot 0 to 3 (R101). -/
abbrev SlotIx := Fin 4
/-- Belfry command slot 0 to 7 (R66). -/
abbrev CmdSlotIx := Fin 8

end Sys2Proof
end

