-- ==== Sys2Proof/Syntax.lean ====
section
/-! DEFINITION. The commands that the module takes from outside: one constructor per row of spec/opcode_table.json, with the
operands that the rule of the row gives it. -/
namespace Sys2Proof

/-- A received TIME control unit (R41 and the TIME row of the control units): times in 2^-16 tick. -/
structure TimeUnit where
  state : Nat
  role : Nat
  locTxrx : Int
  bound : Nat
  tDep : Nat
  arrValid : Bool
  tArr : Nat
  deriving DecidableEq, Repr

/-- A memory error met by a cell in an rc (R515 to R517): uncorrectable or corrected, and the granule or word: store
granule g of 32 bytes as g, coffer granule g as 0x10000 + g, and a 32-bit register word as 0x20000 + 2r + k for word k of
sr or 0x20100 + 64r + l for lane l of vr. -/
structure MemErr where
  ue : Bool
  code : Nat
  deriving DecidableEq, Repr

/-- A DRAM error met by a vault access: uncorrectable or corrected, and the vault address of its granule (R224, R225). -/
structure VaultErr where
  ue : Bool
  addr : BitVec 39
  deriving DecidableEq, Repr


/-- A RoCE response for a queue pair (R452, R453): an acknowledgement, a NAK that asks for PSNs again or that is fatal, or a
packet of READ data. -/
inductive RoceResponse where
  | ack (psn : Nat)
  | nak (psn : Nat) (fatal : Bool)
  | readData (psn : Nat) (data : List (BitVec 8))
  deriving DecidableEq, Repr

/-- A PTP message (R457): a master's dataset in the order of its comparison; a Sync; a Follow_Up; a Delay_Resp with the time
that its request left and the time that the master received it. Times in ps. -/
inductive PtpMessage where
  | announce (dataset : List Nat)
  | sync (seq : Nat) (origin : Option Int)
  | followUp (seq : Nat) (origin : Int)
  | delayResp (left received : Int)
  deriving DecidableEq, Repr

/-- Who makes an access to the control space: head steward k, block steward n, the host, or JTAG (R251, R438, R541). -/
inductive Requester where
  | head (k : Nat)
  | block (n : Nat)
  | host
  | jtag
  deriving DecidableEq, Repr

/-- An SPDM request (R510): the certificate's slot, offset and length; a challenge's slot and nonce; the measurement asked
for, 0xFF for all, with its nonce; any other by its code. -/
inductive SpdmRequest where
  | getVersion
  | getCapabilities
  | negotiateAlgorithms
  | getDigests
  | getCertificate (slot offset length : Nat)
  | challenge (slot : Nat) (nonce : List (BitVec 8))
  | getMeasurements (index : Nat) (nonce : List (BitVec 8))
  | other (code : Nat)
  deriving DecidableEq, Repr

/-- What a REG_WRITE carries: the 64 bits that it writes, and the W1C bits of the register that hardware sets in the very cycle of
the write (R10). -/
structure WriteData where
  value : Word
  same : Word
  deriving DecidableEq, Repr

/-- The commands of the module, in the table's order. -/
inductive Instr where
  /-- REG_WRITE (R9). A write to a register field that has no behaviour of its own sets or ignores the field by its access code. -/
  | regWrite (who : Requester) (addr : BitVec 48) (value : WriteData)
  /-- COUNTER_SNAP (R13). Writing a group's SNAP copies every live counter of the group into its latch at one instant. -/
  | counterSnap (addr : BitVec 48)
  /-- OVF_CLEAR (R528). Writing 1 to an error counter's OVF clears OVF and sets COUNT to zero in the same access. -/
  | ovfClear (addr : BitVec 48)
  /-- BELL (R37). At the fc edge where the counter reaches a multiple of 4,000 the Belfry issues the Bell and every frame schedule restarts. -/
  | bell (fillLate : Bool)
  /-- LOCK_GAINED (R40). After 256 frames below 100 ps with the bound within BOUND_LIM the Belfry enters LOCKED. -/
  | lockGained
  /-- BLF_SNAP (R36). BLF_CTRL.SNAP latches counter, fc position, steering, bound and port times on one fc edge. -/
  | blfSnap
  /-- RESTART (R40). BLF_CTRL.RESTART returns the Belfry to FREERUN without stepping the counter, unless a plan is active. -/
  | restart
  /-- BLF_LEAVE_FREERUN (R40). With ENABLE set the Belfry leaves FREERUN for COARSE, FINE or LOCKED as its role and PTP setting give. -/
  | blfLeaveFreerun
  /-- PTP_COARSE_STEP (R40). At the first fc edge in COARSE with PTP_VALID the counter is stepped once to PTP time. -/
  | ptpCoarseStep
  /-- TIME_RECEIVE (R42). A received TIME control unit completes an exchange, giving rtt and theta for the port. -/
  | timeReceive (port : PortIx) (unit : TimeUnit) (t4 own : Nat)
  /-- PARENT_LOST (R48). When the active parent becomes invalid the Belfry moves to the next valid candidate or enters HOLDOVER. -/
  | parentLost
  /-- HOLDOVER_BOUND_GROW (R49). Each millisecond in HOLDOVER the error bound grows by HOLD_RATE, raising TIME_FAULT past BOUND_LIM. -/
  | holdoverBoundGrow
  /-- SLOT_ARM (R51). Writing ARM checks KIND, lateness and alignment and arms the command slot or records a refusal. -/
  | slotArm (slot : CmdSlotIx)
  /-- SLOT_CANCEL (R52). Writing CANCEL makes an armed slot CANCELLED, with no effect once its tick is reached. -/
  | slotCancel (slot : CmdSlotIx)
  /-- ACTIVATE_PLAN (R86). At its tick the slot checks the activation conditions and switches the incoming image in, or records ACT_FAIL. -/
  | activatePlan (slot : CmdSlotIx)
  /-- SWITCH_BANK (R373). At its tick the slot records a bank switch of a tenancy as PENDING or as refused. -/
  | switchBank (slot : CmdSlotIx)
  /-- FREEZE (R530). At its tick a FREEZE slot sets the freeze tick, making other slots due on that edge MISSED. -/
  | freeze (slot : CmdSlotIx)
  /-- EVENT (R66). At its tick an EVENT slot passes its ARG to the head stewards. -/
  | event (slot : CmdSlotIx)
  /-- SLOT_MISSED_FROZEN (R53). A slot whose tick passes during a freeze becomes MISSED and raises CMD_MISSED with no activation attempt. -/
  | slotMissedFrozen (slot : CmdSlotIx)
  /-- PLAN_STEP_WRITE (R55). A PLAN_STEP write records the step and, in calibrated mode, starts a retune at the next Bell. -/
  | planStepWrite (region : RegionIx) (clkStep : BitVec 7)
  /-- MODE_CALIBRATED_WRITE (R55). A write of MODE = 0 outside a plan runs the retune and calibration from the next Bell. -/
  | modeCalibratedWrite (region : RegionIx)
  /-- MODE_ALIGNED_WRITE (R63). A write of MODE = 1 outside a plan puts the region into aligned mode at the next Bell. -/
  | modeAlignedWrite (region : RegionIx)
  /-- ALIGN_DONE (R64). At the 65th Bell after power good the region selects its alignment tap and sets ALIGN_DONE or raises XCAL_FAIL. -/
  | alignDone (region : RegionIx) (passing : BitVec 64)
  /-- MONITOR_EVALUATE (R473). At each 1 µs evaluation the input averages are formed and protective levels rise where a cause holds. -/
  | monitorEvaluate (margins : List Byte) (sensors vaults : List Int)
  /-- DROOP_DETECT (R57). A sentinel detecting droop makes the region remove its next rc edge. -/
  | droopDetect (region : RegionIx)
  /-- PLAN_LOAD (R270). PLN_CTRL LOAD starts the loader on a slot: checks, binding, capacity and domain switch-ons. -/
  | planLoad (slot : SlotIx)
  /-- LOAD_DOMAINS_READY (R270). Once the image's domains are on and vaults READY the loader checks and writes each section and makes the slot READY. -/
  | loadDomainsReady
  /-- UNLOAD (R69). PLN_CTRL UNLOAD returns a READY or FAILED slot to EMPTY. -/
  | unload (slot : SlotIx)
  /-- ABORT (R69). PLN_CTRL ABORT returns a LOADING slot to EMPTY at the loader's next step boundary. -/
  | abort (slot : SlotIx)
  /-- SLIP_BEYOND_SLACK (R91). When the frame position reaches PROG_RC + SLACK_RC + 1 before the sync the partition faults. -/
  | slipBeyondSlack (tenancy : TenancyIx) (region : RegionIx)
  /-- BUNDLE_ISSUE (R104). In a delivered rc the cell decodes, guards and issues one bundle, or stalls, waits or faults. -/
  | bundleIssue (cell : CellIx) (errs : List MemErr)
  /-- IDLE_REPEAT (R109). An idle-repeat bundle issues nothing for COUNT + 1 delivered rc. -/
  | idleRepeat (cell : CellIx) (count : BitVec 16)
  /-- RESULT_LAND (R104). An issued operation's result lands at issue + λ and releases its guard records. -/
  | resultLand (cell : CellIx) (errs : List MemErr)
  /-- ADD (R114). Scalar add modulo 2^64. -/
  | add (cell : CellIx) (body : BitVec 32) (ext : Option (BitVec 32))
  /-- SUB (R114). Scalar subtract modulo 2^64. -/
  | sub (cell : CellIx) (body : BitVec 32) (ext : Option (BitVec 32))
  /-- AND (R114). Scalar bitwise AND. -/
  | and (cell : CellIx) (body : BitVec 32) (ext : Option (BitVec 32))
  /-- OR (R114). Scalar bitwise OR. -/
  | or (cell : CellIx) (body : BitVec 32) (ext : Option (BitVec 32))
  /-- XOR (R114). Scalar bitwise XOR. -/
  | xor (cell : CellIx) (body : BitVec 32) (ext : Option (BitVec 32))
  /-- SLL (R114). Scalar shift left by rb[5:0]. -/
  | sll (cell : CellIx) (body : BitVec 32) (ext : Option (BitVec 32))
  /-- SRL (R114). Scalar logical shift right by rb[5:0]. -/
  | srl (cell : CellIx) (body : BitVec 32) (ext : Option (BitVec 32))
  /-- SRA (R114). Scalar arithmetic shift right by rb[5:0]. -/
  | sra (cell : CellIx) (body : BitVec 32) (ext : Option (BitVec 32))
  /-- MIN (R114). Scalar signed minimum. -/
  | min (cell : CellIx) (body : BitVec 32) (ext : Option (BitVec 32))
  /-- MAX (R114). Scalar signed maximum. -/
  | max (cell : CellIx) (body : BitVec 32) (ext : Option (BitVec 32))
  /-- MINU (R114). Scalar unsigned minimum. -/
  | minu (cell : CellIx) (body : BitVec 32) (ext : Option (BitVec 32))
  /-- MAXU (R114). Scalar unsigned maximum. -/
  | maxu (cell : CellIx) (body : BitVec 32) (ext : Option (BitVec 32))
  /-- MUL (R114). Low 64 bits of the scalar product. -/
  | mul (cell : CellIx) (body : BitVec 32) (ext : Option (BitVec 32))
  /-- MULHU (R114). High 64 bits of the unsigned scalar product. -/
  | mulhu (cell : CellIx) (body : BitVec 32) (ext : Option (BitVec 32))
  /-- ADDI (R114). Scalar add immediate. -/
  | addi (cell : CellIx) (body : BitVec 32) (ext : Option (BitVec 32))
  /-- ANDI (R114). Scalar AND immediate. -/
  | andi (cell : CellIx) (body : BitVec 32) (ext : Option (BitVec 32))
  /-- ORI (R114). Scalar OR immediate. -/
  | ori (cell : CellIx) (body : BitVec 32) (ext : Option (BitVec 32))
  /-- XORI (R114). Scalar XOR immediate. -/
  | xori (cell : CellIx) (body : BitVec 32) (ext : Option (BitVec 32))
  /-- SLLI (R114). Scalar shift left by immediate. -/
  | slli (cell : CellIx) (body : BitVec 32) (ext : Option (BitVec 32))
  /-- SRLI (R114). Scalar logical shift right by immediate. -/
  | srli (cell : CellIx) (body : BitVec 32) (ext : Option (BitVec 32))
  /-- SRAI (R114). Scalar arithmetic shift right by immediate. -/
  | srai (cell : CellIx) (body : BitVec 32) (ext : Option (BitVec 32))
  /-- CMP_EQ (R114). Sets a predicate to ra = rb. -/
  | cmpEq (cell : CellIx) (body : BitVec 32) (ext : Option (BitVec 32))
  /-- CMP_NE (R114). Sets a predicate to ra ≠ rb. -/
  | cmpNe (cell : CellIx) (body : BitVec 32) (ext : Option (BitVec 32))
  /-- CMP_LT (R114). Sets a predicate to signed ra < rb. -/
  | cmpLt (cell : CellIx) (body : BitVec 32) (ext : Option (BitVec 32))
  /-- CMP_GE (R114). Sets a predicate to signed ra ≥ rb. -/
  | cmpGe (cell : CellIx) (body : BitVec 32) (ext : Option (BitVec 32))
  /-- CMP_LTU (R114). Sets a predicate to unsigned ra < rb. -/
  | cmpLtu (cell : CellIx) (body : BitVec 32) (ext : Option (BitVec 32))
  /-- CMP_GEU (R114). Sets a predicate to unsigned ra ≥ rb. -/
  | cmpGeu (cell : CellIx) (body : BitVec 32) (ext : Option (BitVec 32))
  /-- CMPEQI (R114). Sets a predicate to ra = imm. -/
  | cmpeqi (cell : CellIx) (body : BitVec 32) (ext : Option (BitVec 32))
  /-- CMPLTI (R114). Sets a predicate to signed ra < imm. -/
  | cmplti (cell : CellIx) (body : BitVec 32) (ext : Option (BitVec 32))
  /-- CMPGEI (R114). Sets a predicate to signed ra ≥ imm. -/
  | cmpgei (cell : CellIx) (body : BitVec 32) (ext : Option (BitVec 32))
  /-- CMPLTUI (R114). Sets a predicate to unsigned ra < imm. -/
  | cmpltui (cell : CellIx) (body : BitVec 32) (ext : Option (BitVec 32))
  /-- PLOG_AND (R114). Predicate AND. -/
  | plogAnd (cell : CellIx) (body : BitVec 32) (ext : Option (BitVec 32))
  /-- PLOG_OR (R114). Predicate OR. -/
  | plogOr (cell : CellIx) (body : BitVec 32) (ext : Option (BitVec 32))
  /-- PLOG_XOR (R114). Predicate XOR. -/
  | plogXor (cell : CellIx) (body : BitVec 32) (ext : Option (BitVec 32))
  /-- PLOG_ANDN (R114). Predicate pa AND NOT pb. -/
  | plogAndn (cell : CellIx) (body : BitVec 32) (ext : Option (BitVec 32))
  /-- FADD (R115). Scalar FP32 add. -/
  | fadd (cell : CellIx) (body : BitVec 32) (ext : Option (BitVec 32))
  /-- FSUB (R115). Scalar FP32 subtract. -/
  | fsub (cell : CellIx) (body : BitVec 32) (ext : Option (BitVec 32))
  /-- FMUL (R115). Scalar FP32 multiply. -/
  | fmul (cell : CellIx) (body : BitVec 32) (ext : Option (BitVec 32))
  /-- FMIN (R115). Scalar FP32 minimumNumber. -/
  | fmin (cell : CellIx) (body : BitVec 32) (ext : Option (BitVec 32))
  /-- FMAX (R115). Scalar FP32 maximumNumber. -/
  | fmax (cell : CellIx) (body : BitVec 32) (ext : Option (BitVec 32))
  /-- FCVTFI (R115). FP32 from signed 64-bit integer. -/
  | fcvtfi (cell : CellIx) (body : BitVec 32) (ext : Option (BitVec 32))
  /-- FCVTIF (R115). Signed 64-bit integer from FP32, saturating. -/
  | fcvtif (cell : CellIx) (body : BitVec 32) (ext : Option (BitVec 32))
  /-- MFS (R116). Reads a special register into a scalar register. -/
  | mfs (cell : CellIx) (body : BitVec 32) (ext : Option (BitVec 32))
  /-- B (R117). Relative branch with two delay positions. -/
  | b (cell : CellIx) (body : BitVec 32) (ext : Option (BitVec 32))
  /-- BAL (R117). Relative branch that writes the return address. -/
  | bal (cell : CellIx) (body : BitVec 32) (ext : Option (BitVec 32))
  /-- JR (R117). Branch to the address in ra. -/
  | jr (cell : CellIx) (body : BitVec 32) (ext : Option (BitVec 32))
  /-- JALR (R117). Branch to the address in ra writing the return address. -/
  | jalr (cell : CellIx) (body : BitVec 32) (ext : Option (BitVec 32))
  /-- VIADD (R180). Vector INT32 add. -/
  | viadd (cell : CellIx) (body : BitVec 64)
  /-- VISUB (R180). Vector INT32 subtract. -/
  | visub (cell : CellIx) (body : BitVec 64)
  /-- VAND (R180). Vector bitwise AND. -/
  | vand (cell : CellIx) (body : BitVec 64)
  /-- VOR (R180). Vector bitwise OR. -/
  | vor (cell : CellIx) (body : BitVec 64)
  /-- VXOR (R180). Vector bitwise XOR. -/
  | vxor (cell : CellIx) (body : BitVec 64)
  /-- VIMIN (R180). Vector INT32 minimum. -/
  | vimin (cell : CellIx) (body : BitVec 64)
  /-- VIMAX (R180). Vector INT32 maximum. -/
  | vimax (cell : CellIx) (body : BitVec 64)
  /-- VSLL (R180). Vector shift left. -/
  | vsll (cell : CellIx) (body : BitVec 64)
  /-- VSRL (R180). Vector logical shift right. -/
  | vsrl (cell : CellIx) (body : BitVec 64)
  /-- VSRA (R180). Vector arithmetic shift right. -/
  | vsra (cell : CellIx) (body : BitVec 64)
  /-- VIMUL (R180). Vector INT32 multiply, low 32 bits. -/
  | vimul (cell : CellIx) (body : BitVec 64)
  /-- VMOV (R180). Vector move of operand B. -/
  | vmov (cell : CellIx) (body : BitVec 64)
  /-- VSEL (R180). Lane select by vc. -/
  | vsel (cell : CellIx) (body : BitVec 64)
  /-- VMOVM (R180). Masked lane move by sVC bits. -/
  | vmovm (cell : CellIx) (body : BitVec 64)
  /-- VICMP_EQ (R180). Vector integer compare equal. -/
  | vicmpEq (cell : CellIx) (body : BitVec 64)
  /-- VICMP_NE (R180). Vector integer compare not equal. -/
  | vicmpNe (cell : CellIx) (body : BitVec 64)
  /-- VICMP_LT (R180). Vector signed compare less than. -/
  | vicmpLt (cell : CellIx) (body : BitVec 64)
  /-- VICMP_LTU (R180). Vector unsigned compare less than. -/
  | vicmpLtu (cell : CellIx) (body : BitVec 64)
  /-- VFCMP_EQ (R180). Vector FP32 compare equal. -/
  | vfcmpEq (cell : CellIx) (body : BitVec 64)
  /-- VFCMP_LT (R180). Vector FP32 compare less than. -/
  | vfcmpLt (cell : CellIx) (body : BitVec 64)
  /-- VFCMP_LE (R180). Vector FP32 compare less or equal. -/
  | vfcmpLe (cell : CellIx) (body : BitVec 64)
  /-- VFCMP_UN (R180). Vector FP32 unordered test. -/
  | vfcmpUn (cell : CellIx) (body : BitVec 64)
  /-- VFADD (R180). Vector FP32 add. -/
  | vfadd (cell : CellIx) (body : BitVec 64)
  /-- VFSUB (R180). Vector FP32 subtract. -/
  | vfsub (cell : CellIx) (body : BitVec 64)
  /-- VFMUL (R180). Vector FP32 multiply. -/
  | vfmul (cell : CellIx) (body : BitVec 64)
  /-- VFMIN (R180). Vector FP32 minimum. -/
  | vfmin (cell : CellIx) (body : BitVec 64)
  /-- VFMAX (R180). Vector FP32 maximum. -/
  | vfmax (cell : CellIx) (body : BitVec 64)
  /-- VFMA (R180). Vector fused multiply-add. -/
  | vfma (cell : CellIx) (body : BitVec 64)
  /-- VFNMA (R180). Vector negated fused multiply-add. -/
  | vfnma (cell : CellIx) (body : BitVec 64)
  /-- VFABS (R176). Clears the sign bit of each lane. -/
  | vfabs (cell : CellIx) (body : BitVec 64)
  /-- VFNEG (R176). Inverts the sign bit of each lane. -/
  | vfneg (cell : CellIx) (body : BitVec 64)
  /-- VCVTFI (R180). FP32 from INT32 lanes. -/
  | vcvtfi (cell : CellIx) (body : BitVec 64)
  /-- VCVTIF (R180). INT32 from FP32 lanes, saturating. -/
  | vcvtif (cell : CellIx) (body : BitVec 64)
  /-- VPACK (R183). Converts FP32 lanes to a narrow format in a register. -/
  | vpack (cell : CellIx) (body : BitVec 64)
  /-- VUNPK (R183). Converts narrow elements to FP32 lanes. -/
  | vunpk (cell : CellIx) (body : BitVec 64)
  /-- VMXSC (R183). Computes MX block scale bytes of 32-lane blocks. -/
  | vmxsc (cell : CellIx) (body : BitVec 64)
  /-- VPERM (R180). Vector permute by index. -/
  | vperm (cell : CellIx) (body : BitVec 64)
  /-- VROT (R180). Vector lane rotate. -/
  | vrot (cell : CellIx) (body : BitVec 64)
  /-- VBCL (R180). Broadcasts one lane. -/
  | vbcl (cell : CellIx) (body : BitVec 64)
  /-- VEXP (R182). Lane-wise e^x. -/
  | vexp (cell : CellIx) (body : BitVec 64)
  /-- VEXP2 (R182). Lane-wise 2^x. -/
  | vexp2 (cell : CellIx) (body : BitVec 64)
  /-- VLOG (R182). Lane-wise natural logarithm. -/
  | vlog (cell : CellIx) (body : BitVec 64)
  /-- VLOG2 (R182). Lane-wise base-2 logarithm. -/
  | vlog2 (cell : CellIx) (body : BitVec 64)
  /-- VRCP (R182). Lane-wise reciprocal. -/
  | vrcp (cell : CellIx) (body : BitVec 64)
  /-- VRSQRT (R182). Lane-wise reciprocal square root. -/
  | vrsqrt (cell : CellIx) (body : BitVec 64)
  /-- VRSUM (R181). FP32 tree sum across lanes. -/
  | vrsum (cell : CellIx) (body : BitVec 64)
  /-- VRMAX (R181). Maximum across lanes. -/
  | vrmax (cell : CellIx) (body : BitVec 64)
  /-- VRMIN (R181). Minimum across lanes. -/
  | vrmin (cell : CellIx) (body : BitVec 64)
  /-- VRISUM (R181). INT32 tree sum across lanes. -/
  | vrisum (cell : CellIx) (body : BitVec 64)
  /-- VRMSK (R181). Writes a 64-bit nonzero-lane mask to a scalar register. -/
  | vrmsk (cell : CellIx) (body : BitVec 64)
  /-- VSTAT (R186). Folds a chunk into a softmax or moment row state. -/
  | vstat (cell : CellIx) (body : BitVec 64)
  /-- VSMXP (R187). Finishes softmax probabilities from a row state. -/
  | vsmxp (cell : CellIx) (body : BitVec 64)
  /-- VLSE (R187). Log-sum-exp of 16 row states. -/
  | vlse (cell : CellIx) (body : BitVec 64)
  /-- VPMRG (R187). Merges two softmax row states. -/
  | vpmrg (cell : CellIx) (body : BitVec 64)
  /-- VONRM (R187). Divides lanes by a row's l. -/
  | vonrm (cell : CellIx) (body : BitVec 64)
  /-- VNRMF (R190). Computes norm parameters from a moment state. -/
  | vnrmf (cell : CellIx) (body : BitVec 64)
  /-- VSLLI (R180). Vector shift left by immediate. -/
  | vslli (cell : CellIx) (body : BitVec 64)
  /-- VSRLI (R180). Vector logical shift right by immediate. -/
  | vsrli (cell : CellIx) (body : BitVec 64)
  /-- VSRAI (R180). Vector arithmetic shift right by immediate. -/
  | vsrai (cell : CellIx) (body : BitVec 64)
  /-- VMOVMI (R180). Moves a lane range given by immediate. -/
  | vmovmi (cell : CellIx) (body : BitVec 64)
  /-- VRNG (R184). Writes Tally generator words into lanes. -/
  | vrng (cell : CellIx) (body : BitVec 64)
  /-- VSCL2 (R180). Scales lanes by a power of two. -/
  | vscl2 (cell : CellIx) (body : BitVec 64)
  /-- VCLAMPI (R180). Clamps lanes to BF16 immediate bounds. -/
  | vclampi (cell : CellIx) (body : BitVec 64)
  /-- MMA (R146). Multiplies coffer panels A and B into an accumulator bank in FP32 or exact mode. -/
  | mma (cell : CellIx) (body : BitVec 64)
  /-- DRAIN (R167). Sends a bank's elements through the tail chain to the cell store or coffer. -/
  | drain (cell : CellIx) (body : BitVec 64)
  /-- DRAINL (R168). Writes a ledger bank as ledger wire words. -/
  | drainl (cell : CellIx) (body : BitVec 64)
  /-- MLADD (R169). Adds ledger wire words from the coffer into a ledger bank. -/
  | mladd (cell : CellIx) (body : BitVec 64)
  /-- BINIT (R166). Sets a bank to zero in a given mode, shape and window. -/
  | binit (cell : CellIx) (body : BitVec 64)
  /-- LDV (R212). Loads 256 bytes into a vector register. -/
  | ldv (cell : CellIx) (body : BitVec 64)
  /-- LDS (R212). Loads 8 bytes into a scalar register. -/
  | lds (cell : CellIx) (body : BitVec 64)
  /-- LDW (R212). Loads 4 bytes zero-extended into a scalar register. -/
  | ldw (cell : CellIx) (body : BitVec 64)
  /-- LDC (R213). Loads cell-store bytes into coffer lines. -/
  | ldc (cell : CellIx) (body : BitVec 64)
  /-- STV (R212). Stores a vector register. -/
  | stv (cell : CellIx) (body : BitVec 64)
  /-- STS (R212). Stores a scalar register. -/
  | sts (cell : CellIx) (body : BitVec 64)
  /-- STW (R212). Stores the low 32 bits of a scalar register. -/
  | stw (cell : CellIx) (body : BitVec 64)
  /-- STC (R213). Stores a coffer line to the cell store. -/
  | stc (cell : CellIx) (body : BitVec 64)
  /-- WAITPOS (R126). Holds its bundle until the frame position reaches POS. -/
  | waitpos (cell : CellIx) (body : BitVec 32)
  /-- EFS (R123). Ends the cell frame, or the step with LAST, and resumes at RESUME of the next frame. -/
  | efs (cell : CellIx) (body : BitVec 32)
  /-- TWAIT (R128). Waits until a tally reaches N and subtracts N. -/
  | twait (cell : CellIx) (body : BitVec 32)
  /-- TADD (R128). Adds N to a tally. -/
  | tadd (cell : CellIx) (body : BitVec 32)
  /-- TTEST (R128). Sets a predicate from a tally comparison. -/
  | ttest (cell : CellIx) (body : BitVec 32)
  /-- SEND (R129). Checks a descriptor and launches its transfer through the send queue. -/
  | send (cell : CellIx) (body : BitVec 32)
  /-- COFFER_SCHEDULED_READ (R204). A port reads its scheduled coffer line in an rc of an operation's occupancy. -/
  | cofferScheduledRead (cell : CellIx)
  /-- CELL_START (R137). CEL_CTRL START starts the cell at ENTRY outside a plan. -/
  | cellStart (cell : CellIx)
  /-- CELL_STOP (R138). CEL_CTRL STOP stops issue and lets issued operations land. -/
  | cellStop (cell : CellIx)
  /-- CELL_STEP (R141). CEL_CTRL STEP issues one bundle from STOPPED and stops again. -/
  | cellStep (cell : CellIx)
  /-- CELL_STOPPED (R138). When its issued operations have landed and sends are settled a stopping cell enters STOPPED. -/
  | cellStopped (cell : CellIx)
  /-- TALLY_ADD_WRITE (R127). A write to CEL_TALLY_ADD adds N to a tally at the next rc edge. -/
  | tallyAddWrite (cell : CellIx) (value : Word)
  /-- ARRIVAL_LAND (R127). A scheduled arrival or engine result lands in the cell store and adds to its tally. -/
  | arrivalLand (cell : CellIx)
  /-- VAULT_READY (R217). A switched-on vault finishes training and zeroing and sets READY. -/
  | vaultReady (vault : VaultIx)
  /-- VAULT_SCHEDULED_READ (R222). A scheduled vault read accesses DRAM 96 fc before its slot, with ECC. -/
  | vaultScheduledRead (tenancy : TenancyIx) (entry member : BitVec 16) (errs : List VaultErr)
  /-- VAULT_SCHEDULED_WRITE (R222). A scheduled vault write accesses DRAM 64 fc after its last byte, subject to the slot mask. -/
  | vaultScheduledWrite (vault : VaultIx) (errs : List VaultErr)
  /-- REFRESH_WINDOW (R223). In W1 and W2 every channel refreshes or scrubs and engines pause. -/
  | refreshWindow (vault : VaultIx) (opens second : Bool) (errs : List VaultErr)
  /-- VAULT_BAND_CHANGE (R223). A vault's hottest layer moves into another temperature band. -/
  | vaultBandChange (vault : VaultIx) (temperature : Int)
  /-- ENGINE_CMD_ARRIVE (R230). A command record reaches an engine's scheduled or unscheduled queue. -/
  | engineCmdArrive (engine : EngineIx)
  /-- ENGINE_CMD_START (R230). An engine starts its next command once due and free. -/
  | engineCmdStart (engine : EngineIx)
  /-- ENGINE_SUSPEND (R230). A running unscheduled command suspends at its next suspend point when a scheduled one is due. -/
  | engineSuspend (engine : EngineIx)
  /-- ENGINE_CMD_COMPLETE (R231). A command completes after D active ec. -/
  | engineCmdComplete (engine : EngineIx)
  /-- ENGINE_RESULT_SLOT (R232). At its result slot a command's result leaves the vault, or the slot is missed. -/
  | engineResultSlot (engine : EngineIx) (tenancy : TenancyIx) (entry : BitVec 16) (ue : List Nat)
  /-- ATTN (R237). Computes decode attention partials over the engine's KV rows. -/
  | attn (engine : EngineIx) (errs : List VaultErr)
  /-- REDUCE (R240). Reduces C sources into a destination. -/
  | reduce (engine : EngineIx) (errs : List VaultErr)
  /-- GATHER (R241). Copies indexed rows to a cell. -/
  | gather (engine : EngineIx) (errs : List VaultErr)
  /-- SCATTER (R241). Writes rows to indexed places. -/
  | scatter (engine : EngineIx) (errs : List VaultErr)
  /-- ATOMIC (R242). Adds entry values into indexed elements. -/
  | atomic (engine : EngineIx) (errs : List VaultErr)
  /-- CRING_WRITE (R245). The fabric writes a received control packet into CR0 or CR1, or drops it. -/
  | cringWrite (ring : Fin 2) (packet : BitVec 512)
  /-- CRING_CONS_WRITE (R245). A head steward writes CONS, ignored beyond PROD. -/
  | cringConsWrite (ring : Fin 2) (cons : BitVec 32)
  /-- STEWARD_INSTRUCTION (R249). A steward executes one RV64IMAC instruction, faulting on disallowed accesses. -/
  | stewardInstruction (steward : StewardIx) (errs : List VaultErr)
  /-- WFI (R249). Stops steward issue until an enabled interrupt is pending. -/
  | wfi (steward : StewardIx)
  /-- WIDE_WRITE (R254). A write to vwidego writes 32 bytes as one write. -/
  | wideWrite (steward : StewardIx)
  /-- STEWARD_TIMER (R253). Hall time reaching vtimecmp sets MTIP. -/
  | stewardTimer (steward : StewardIx)
  /-- STEWARD_INTERRUPT (R255). A steward takes a pending enabled interrupt. -/
  | stewardInterrupt (steward : StewardIx)
  /-- ACQUIRE (R256). Takes a free block mailbox. -/
  | acquire (block : BlockIx) (head : Bool)
  /-- HAND (R256). Passes mailbox ownership to the other side and increments SEQ. -/
  | hand (block : BlockIx) (head : Bool)
  /-- RELEASE (R256). Frees the mailbox. -/
  | release (block : BlockIx) (head : Bool)
  /-- MBOX_DATA_WRITE (R256). Writes mailbox data, ignored unless by the owner. -/
  | mboxDataWrite (block : BlockIx) (head : Bool) (index : Fin 8) (value : Word)
  /-- WDOG_KICK (R257). Restarts a block steward watchdog count. -/
  | wdogKick (block : BlockIx)
  /-- WDOG_EXPIRE (R257). The watchdog reaches LIMIT, sets EXPIRED and may raise STW_HANG. -/
  | wdogExpire (block : BlockIx)
  /-- STEWARD_RESET (R258). BLK_STW_CTRL RESET holds a block steward in reset and frees a BLOCK-owned mailbox. -/
  | stewardReset (block : BlockIx)
  /-- STEWARD_HALT (R258). HALT holds a block steward in reset while set. -/
  | stewardHalt (block : BlockIx) (on : Bool)
  /-- STEWARD_RESET_RELEASE (R258). After 64 cycles a reset steward starts at its reset vector. -/
  | stewardResetRelease (steward : StewardIx)
  /-- LINK_ENABLE_WRITE (R298). Setting ENABLE moves a port from DISABLED to DETECT; clearing it disables the port. -/
  | linkEnableWrite (port : PortIx) (on : Bool)
  /-- SIGNAL_DETECT (R298). Signal found on a half of the lanes moves the port to EQUALISE. -/
  | signalDetect (port : PortIx) (lanes : BitVec 16)
  /-- EQUALISE_DONE (R299). Both directions reach a usable width and the port moves to CONFIG. -/
  | equaliseDone (port : PortIx) (rx tx polarity : BitVec 16) (reversed : Bool)
  /-- EQUALISE_TIMEOUT (R298). No usable width within 50 ms raises TRAIN_FAIL. -/
  | equaliseTimeout (port : PortIx)
  /-- CONFIG_RECEIVE (R300). A CONFIG unit agrees version and widths and moves the port to CALIBRATE. -/
  | configReceive (port : PortIx) (flit : BitVec 512) (txrx : Int)
  /-- CALIBRATE_DONE (R301). After two frames of exchanges the reach check passes or fails. -/
  | calibrateDone (port : PortIx)
  /-- LINK_UNIT_TRANSMIT (R282). In each unit time an ACTIVE port sends the first ready item of its priority list. -/
  | linkUnitTransmit (port : PortIx)
  /-- FLIT_UNIT_RECEIVE (R286). A received flit unit is accepted in order or discarded with a NAK. -/
  | flitUnitReceive (port : PortIx) (unit : BitVec 544)
  /-- LSTAT_RECEIVE (R295). An LSTAT frees acknowledged units and updates credit limits. -/
  | lstatReceive (port : PortIx) (flit : BitVec 512)
  /-- NAK_RECEIVE (R287). A NAK schedules a replay or, at the limit, a retrain. -/
  | nakReceive (port : PortIx) (flit : BitVec 512)
  /-- REPLAY_START (R287). Within 8 unit times of a NAK the transmitter replays from the named unit. -/
  | replayStart (port : PortIx)
  /-- NAK_TIMEOUT (R286). No acceptance within rtt + 256 unit times resends the NAK. -/
  | nakTimeout (port : PortIx)
  /-- CARRY_EXCEEDED (R291). A held VC0 unit's lateness passes CARRY_UT and its partition faults. -/
  | carryExceeded (port : PortIx)
  /-- PROBATION_END (R289). After 256 frames a port's probation ends. -/
  | probationEnd (port : PortIx)
  /-- FRT_REQ_RECEIVE (R303). A received FRT_REQ starts or answers a fast retrain. -/
  | frtReqReceive (port : PortIx) (flit : BitVec 512)
  /-- CAL_NOTICE_RECEIVE (R306). The peer holds lock detection during the announced calibration. -/
  | calNoticeReceive (port : PortIx) (flit : BitVec 512)
  /-- DOWN_NOTICE_RECEIVE (R298). A DOWN_NOTICE takes the port DOWN. -/
  | downNoticeReceive (port : PortIx) (flit : BitVec 512)
  /-- LANE_LOCK_LOSS (R303). Loss of lock on a lane starts FRT or takes the port DOWN. -/
  | laneLockLoss (port : PortIx) (good : BitVec 16)
  /-- FRT_DONE (R303). Fast retrain ends and the port returns to ACTIVE. -/
  | frtDone (port : PortIx)
  /-- FRT_TIMEOUT (R298). FRT not done within 4 µs takes the port DOWN. -/
  | frtTimeout (port : PortIx)
  /-- RETRAIN_DONE (R298). A version 1 long retrain ends and the port returns to ACTIVE at the next Bell. -/
  | retrainDone (port : PortIx) (expect : BitVec 14)
  /-- RETRAIN_TIMEOUT (R298). A long retrain not done within 100 µs takes the port DOWN. -/
  | retrainTimeout (port : PortIx)
  /-- DOWN_RETRY (R298). After 1 ms in DOWN with AUTO_TRAIN the port returns to DETECT. -/
  | downRetry (port : PortIx)
  /-- RETRAIN (R298). LNK_CTRL RETRAIN takes the port to DOWN and then to DETECT. -/
  | retrain (port : PortIx)
  /-- DOWN (R298). LNK_CTRL DOWN takes the port DOWN. -/
  | down (port : PortIx)
  /-- PLL_CAL (R306). LNK_CTRL PLL_CAL sends CAL_NOTICE for a later frame. -/
  | pllCal (port : PortIx)
  /-- TEST (R298). LNK_CTRL TEST enters TEST from DISABLED or DOWN. -/
  | test (port : PortIx)
  /-- PLL_CAL_DONE (R306). After 4,687 unit times the port resumes sending. -/
  | pllCalDone (port : PortIx)
  /-- PLL_DRIFT (R306). PLL temperature drifting over 10 °C sets DRIFT. -/
  | pllDrift (port : PortIx) (temperature : Int)
  /-- TEST_START (R307). LNK_TEST START sends a raw pattern in TEST. -/
  | testStart (port : PortIx)
  /-- TEST_STOP (R307). LNK_TEST STOP stops the raw pattern. -/
  | testStop (port : PortIx) (errors : BitVec 32)
  /-- MESH_MEMBER_START (R323). A scheduled mesh entry member moves its data over its slots, missing or clashing as found. -/
  | meshMemberStart (tenancy : TenancyIx) (entry member : BitVec 16) (ue : List Nat)
  /-- UNSCHED_FLIT_FORWARD (R320). A router sends a waiting unscheduled flit in a free slot. -/
  | unschedFlitForward (router : BlockIx) (fc : BitVec 13) (ue : List Nat)
  /-- PACKET_ARRIVE (R337). A packet arriving on a port is key-checked and routed, delivered or dropped. -/
  | packetArrive (port : PortIx)
  /-- WRITE (R340). A WRITE packet is applied to its target and acknowledged if unscheduled. -/
  | write
  /-- ENGINE (R330). An ENGINE packet queues its command record. -/
  | engine
  /-- READ_DATA (R340). A READ_DATA packet writes its reply payload to its target. -/
  | readData
  /-- MGMT_WRITE (R330). A MGMT_WRITE writes the firmware work area. -/
  | mgmtWrite
  /-- ACK (R343). An ACK frees the source's re-send record. -/
  | ack
  /-- NACK (R343). A NACK triggers re-send or give-up by its reason. -/
  | nack
  /-- READ_REQ (R346). A READ_REQ is accepted by the read engine or refused BUSY. -/
  | readReq
  /-- FAULT_NOTICE (R97). A fault notice stops a RUNNING tenancy at its next Bell and sets the restart frame. -/
  | faultNotice
  /-- HALT_NOTICE (R98). A halt notice halts the partition at the next Bell. -/
  | haltNotice
  /-- MSG (R245). A MSG packet is written into CR0 or CR1. -/
  | msg
  /-- READ_ENGINE_REPLY (R346). The read engine sends READ_DATA packets for an accepted request. -/
  | readEngineReply
  /-- RESEND_TIMEOUT (R343). A re-send record's timer expires and the packet is re-sent or given up. -/
  | resendTimeout (tag : BitVec 32)
  /-- FILTER_EXPIRE (R344). A duplicate-filter pair ages out. -/
  | filterExpire (src : BitVec 14) (tag : BitVec 32)
  /-- NI_SEND (R346). A write to MOD_NI_SEND makes the network interface send the described packet. -/
  | niSend (key : BitVec 16) (addr : BitVec 39)
  /-- HOLD_WRITE (R348). Setting HOLD stops TC1 and TC2 sends and re-send timers. -/
  | holdWrite (on : Bool)
  /-- WGT_LOAD (R363). The mover fills every shard of a tenancy into a bank. -/
  | wgtLoad
  /-- VERIFY (R363). The mover checks every shard of a bank as it stands. -/
  | verify
  /-- WGT_ABORT (R363). Ends the mover's operation with the bank not valid. -/
  | wgtAbort
  /-- WGT_CHUNK_COMPLETE (R366). A fully marked chunk is read back into its shard CRC and queued for forwarding. -/
  | wgtChunkComplete
  /-- WGT_LOAD_DONE (R368). When every shard passes and every forward is acknowledged the LOAD ends DONE. -/
  | wgtLoadDone
  /-- WGT_TIMEOUT (R371). A LOAD not DONE within LIMIT seconds fails. -/
  | wgtTimeout
  /-- SQ_TAIL_WRITE (R382). A host doorbell write of the SQ tail, ignored on a module that is not lead. -/
  | sqTailWrite (tail : BitVec 16)
  /-- SQ_ENTRY_READ (R390). The lead reads an SQ entry and accepts or refuses the request. -/
  | sqEntryRead (entry : BitVec 512)
  /-- PROMPT_CHUNK_FETCHED (R391). A request's next prompt chunk arrives in the Teller state area. -/
  | promptChunkFetched (slot : BitVec 13) (tokens : List (BitVec 32))
  /-- MASK_LATCH (R399). Each module reads MASK_IN for the next frame's mask in force. -/
  | maskLatch
  /-- CANCEL (R407). Cancels a request and suppresses its later writes. -/
  | cancel (slot : BitVec 13) (tag : BitVec 32)
  /-- PAUSE (R408). Ends a request after its placed steps commit. -/
  | pause (slot : BitVec 13) (tag : BitVec 32)
  /-- ACCT_READ (R402). Refills and copies an account record to TLR_ACCT_DATA. -/
  | acctRead (account : BitVec 16)
  /-- ACCT_WRITE (R402). Refills and replaces an account's writable fields. -/
  | acctWrite (account : BitVec 16)
  /-- ACCT_ADD (R402). Refills and adds an amount to an account balance. -/
  | acctAdd (account : BitVec 16)
  /-- ENDING_FLUSH (R405). An ENDING request writes its end entries once CQ space exists. -/
  | endingFlush (slot : BitVec 13)
  /-- RING_WRITE_FAIL (R406). A failed ring write ends the request ABORTED. -/
  | ringWriteFail (slot : BitVec 13)
  /-- DIGEST_RECORD_ARRIVE (R428). A partner record in the inbox is compared with the own record. -/
  | digestRecordArrive (index : BitVec 15)
  /-- DET_MISSING (R429). No matching partner record within WAIT frames raises DET_MISSING. -/
  | detMissing
  /-- CAPCLR (R430). Releases the digest capture. -/
  | capclr
  /-- HOST_BAR0_ACCESS (R438). A host control-space access through BAR0. -/
  | hostBar0Access (write : Bool) (offset : BitVec 25) (length : Nat) (value : Word)
  /-- HOST_BAR2_READ (R439). A host read of vault memory through BAR2. -/
  | hostBar2Read (offset : BitVec 36) (length : Nat) (errs : List VaultErr)
  /-- HOST_BAR2_WRITE (R439). A host write of vault memory through BAR2. -/
  | hostBar2Write (offset : BitVec 36) (data : List Byte)
  /-- MSIX_SEND (R441). A host interrupt source becoming pending sends its MSI-X message. -/
  | msixSend (source : Fin 16) (masked : Bool)
  /-- REARM (R441). REARM resends the message of a pending source, or raises source 15. -/
  | rearm (source : Fin 16) (masked : Bool)
  /-- D_STATE_CHANGE (R442). The host moves the endpoint between D-states. -/
  | dStateChange (d0 busMaster : Bool)
  /-- WAKE_REQUEST (R444). An enabled wake reason in D3 sends PME or asserts WAKE_N. -/
  | wakeRequest
  /-- WAKE_EXIT (R445). The host's exit from low power ends the wake request. -/
  | wakeExit
  /-- PERST_RESET (R446). PERST_N or a hot reset resets the endpoint's configuration and windows. -/
  | perstReset (pin : Bool)
  /-- PERST_RELEASE (R558). The endpoint leaves reset once PERST_N is high and PD110 good. -/
  | perstRelease (rate : BitVec 3) (width : BitVec 5) (flit : Bool)
  /-- FLR (R446). Function Level Reset resets the endpoint and discards the host-write queue. -/
  | flr
  /-- HWQ_DRAIN (R443). When its hold ends the host-write queue drains in order. -/
  | hwqDrain
  /-- DOORBELL (R447). Host DOORBELL hands a mailbox request to firmware. -/
  | doorbell (opcode : Byte)
  /-- POST (R447). A head steward posts a mailbox result. -/
  | post (code : BitVec 16)
  /-- MBOX_ACK (R447). Host ACK with matching SEQ consumes the result. -/
  | mboxAck (seq : BitVec 16)
  /-- MBOX_STATUS_READ (R448). A host read of mailbox status sets ALREADY_READ in READY. -/
  | mboxStatusRead
  /-- IDENT (R450). Mailbox request returning identity and versions. -/
  | ident
  /-- KEEP_ACK (R488). Mailbox request acknowledging Keep log records. -/
  | keepAck
  /-- ATTEST (R510). Mailbox request carrying one SPDM exchange. -/
  | attest (request : SpdmRequest)
  /-- FW_STAGE (R503). Mailbox request committing the staged image. -/
  | fwStage
  /-- FW_ACTIVATE (R498). Makes a STAGED slot ACTIVE in TRIAL, optionally rebooting. -/
  | fwActivate
  /-- ETH_LINK_UP (R451). An Ethernet port's link comes up. -/
  | ethLinkUp (port : EthIx) (pmd : BitVec 4)
  /-- ETH_LINK_DOWN (R451). An Ethernet port loses its link. -/
  | ethLinkDown (port : EthIx)
  /-- ETH_FEC_UE (R451). An uncorrectable FEC codeword drops its frame. -/
  | ethFecUe (port : EthIx) (corrected : BitVec 32)
  /-- ROCE_REQUEST_RECEIVE (R452). An incoming RoCE request is answered with a remote access NAK. -/
  | roceRequestReceive (port : EthIx)
  /-- ROCE_RESPONSE_RECEIVE (R453). A RoCE response advances a queue pair's operations. -/
  | roceResponseReceive (port : EthIx) (qp : BitVec 8) (response : RoceResponse)
  /-- ROCE_ACK_TIMEOUT (R453). A queue pair's acknowledgement timer expires: go-back-N retransmit or ERROR. -/
  | roceAckTimeout (port : EthIx) (qp : BitVec 8)
  /-- ECN_RECEIVE (R456). An ECN-marked packet triggers a congestion notification. -/
  | ecnReceive (port : EthIx) (qp : BitVec 8)
  /-- CNP_RECEIVE (R456). A congestion notification halves a queue pair's send rate. -/
  | cnpReceive (port : EthIx) (qp : BitVec 8)
  /-- ROCE_RATE_RAISE (R456). After 55 µs without notification the send rate rises by an eighth. -/
  | roceRateRaise (port : EthIx) (qp : BitVec 8)
  /-- PTP_MESSAGE_RECEIVE (R457). A PTP message is timestamped and updates the port's PTP time. -/
  | ptpMessageReceive (port : EthIx) (domain : Byte) (fromMaster : Bool) (message : PtpMessage) (arrival : Int)
  /-- MGMT_FRAME_RECEIVE (R452). A non-RoCE, non-PTP frame goes to firmware. -/
  | mgmtFrameReceive (port : EthIx) (frame : List Byte)
  /-- QP_CTRL_WRITE (R453). A host write of a queue pair entry, limited by its state. -/
  | qpCtrlWrite (port : EthIx) (qp : BitVec 8) (value : Word)
  /-- HOTPLUG_REMOVE (R459). EB_N opening starts the removal flush from the hold-up bank. -/
  | hotplugRemove (masked : Bool)
  /-- FLUSH_DOMAINS_OFF (R459). At 4 ms of a flush PD0 to PD110 switch off. -/
  | flushDomainsOff
  /-- INSERTION (R461). PRES_N asserted powers up and boots the module. -/
  | insertion
  /-- PD_ON (R466). PWR_PD_CTRL ON switches a domain on through the sequencer. -/
  | pdOn (domain : BitVec 7)
  /-- PD_OFF (R466). PWR_PD_CTRL OFF switches a domain off through the sequencer. -/
  | pdOff (domain : BitVec 7)
  /-- PD_SWITCH_DONE (R466). A domain switch completes and the domain reads ON or OFF. -/
  | pdSwitchDone
  /-- PD_FAIL (R469). A domain not reaching power good in twice its time returns to OFF. -/
  | pdFail
  /-- INPUT_SAMPLE (R471). Every 100 ticks the input monitor samples voltage and current, checking peak power. -/
  | inputSample (millivolts milliamps : BitVec 32)
  /-- PMBUS_POLL (R477). Every 5 ms the PMBus controller polls each rail device. -/
  | pmbusPoll (rail : Fin 12) (answer : Option (BitVec 16 × BitVec 16 × BitVec 16 × BitVec 16))
  /-- CLKEN_WRITE (R478). A write of PWR_CLKEN gates or ungates peripheral clocks. -/
  | clkenWrite (value : Word)
  /-- CPCLK_WRITE (R479). A write of PWR_CPCLK changes both control-plane dividers together. -/
  | cpclkWrite (per : BitVec 8) (steward : BitVec 4)
  /-- CMU_START (R480). START begins a clock measurement. -/
  | cmuStart
  /-- CMU_DONE (R480). The measurement gate ends and COUNT is written. -/
  | cmuDone (count : BitVec 32)
  /-- STAGE_K (R490). At PD111 power good the Keep checks retention, logs POWER_ON and releases HS0. -/
  | stageK (millivolts : BitVec 16) (retained : Bool)
  /-- STAGE_ROM (R491). The boot ROM selects and verifies a slot and boots it or enters RECOVERY. -/
  | stageRom
  /-- STAGE_HEAD (R490). Head firmware switches on PD96 to PD99 and starts its services. -/
  | stageHead
  /-- STAGE_READY (R490). Once the vaults are READY the module enters READY. -/
  | stageReady
  /-- BACKUP_CHECK (R485). Every 24 h the Keep measures the backup cell. -/
  | backupCheck (millivolts : BitVec 16)
  /-- RTC_WRITE (R486). A write of KEP_RTC sets the count and RTC_VALID. -/
  | rtcWrite (value : Word)
  /-- INTRUSION (R487). A held change of the intrusion loop writes an INTRUSION record. -/
  | intrusion (opened : Bool)
  /-- CONFIRM (R500). Confirms the running TRIAL image and raises fuses. -/
  | confirm
  /-- CONFIRM_TIMEOUT (R500). CONFIRM_S without confirmation resets the module. -/
  | confirmTimeout
  /-- ABORT_STAGE (R502). Frees the staging buffer. -/
  | abortStage
  /-- STAGE_HOLD_EXPIRE (R502). STAGE_HOLD seconds without a write free the staging buffer. -/
  | stageHoldExpire
  /-- FW_COMMIT_END (R503). A commit finishes storing the idle slot as STAGED or fails. -/
  | fwCommitEnd (mismatch : Bool)
  /-- SVC_IDENT (R504). Service-port IDENT request. -/
  | svcIdent (seq : BitVec 16)
  /-- SVC_SPDM (R504). Service-port SPDM request. -/
  | svcSpdm (seq : BitVec 16) (request : SpdmRequest)
  /-- STAGE_WRITE (R504). Writes bytes into the staging buffer. -/
  | stageWrite (seq : BitVec 16) (offset : BitVec 32) (data : List Byte)
  /-- STAGE_QUERY (R504). Returns the lowest incomplete block. -/
  | stageQuery (seq : BitVec 16)
  /-- STAGE_COMMIT (R503). Starts a commit of the staged image. -/
  | stageCommit (seq : BitVec 16) (length : BitVec 32)
  /-- SVC_FW_ACTIVATE (R498). Service-port activation of a staged slot. -/
  | svcFwActivate (seq : BitVec 16) (reboot : Bool)
  /-- SET_POSITION (R504). Writes MOD_POSID with the physical module ID. -/
  | setPosition (seq : BitVec 16) (id : BitVec 14)
  /-- LOG_READ (R504). Returns Keep log records. -/
  | logRead (seq : BitVec 16) (first count : BitVec 32)
  /-- GET_VERSION (R510). SPDM version request. -/
  | getVersion
  /-- GET_CAPABILITIES (R510). SPDM capabilities request. -/
  | getCapabilities
  /-- NEGOTIATE_ALGORITHMS (R510). SPDM algorithm negotiation. -/
  | negotiateAlgorithms
  /-- GET_DIGESTS (R510). SPDM certificate digest request. -/
  | getDigests
  /-- GET_CERTIFICATE (R510). SPDM certificate chain request. -/
  | getCertificate (slot : BitVec 4) (offset length : BitVec 16)
  /-- CHALLENGE (R510). SPDM challenge signed with the unit key. -/
  | challenge (slot : BitVec 4) (nonce : List Byte)
  /-- GET_MEASUREMENTS (R511). SPDM signed measurement report. -/
  | getMeasurements (index : Byte) (nonce : List Byte)
  /-- CHAIN_OFFER (R508). A chain OFFER is answered NEED or DONE BUSY. -/
  | chainOffer (src : BitVec 14) (version : Word) (mdigest : BitVec 128)
  /-- CHAIN_NEED (R509). A NEED makes the sender send blocks from that block onward. -/
  | chainNeed (src : BitVec 14) (block : BitVec 9)
  /-- CHAIN_DONE (R509). A DONE ends a hop as stored or failed. -/
  | chainDone (src : BitVec 14) (code : BitVec 16)
  /-- CHAIN_ABORT (R507). A chain ABORT message ends a chain transfer. -/
  | chainAbort (src : BitVec 14)
  /-- CHAIN_NEED_TIMEOUT (R509). No NEED within 1 s of an OFFER fails the hop. -/
  | chainNeedTimeout (hop : Fin 4)
  /-- CHAIN_DONE_TIMEOUT (R509). No DONE within COMMIT_S seconds fails the hop. -/
  | chainDoneTimeout (hop : Fin 4)
  /-- KEP_CHAIN_WRITE (R506). A write of KEP_CHAIN sets next hops and ACCEPT and clears the hop bits. -/
  | kepChainWrite (value : Word)
  /-- RETIRE (R519). DBG_RETIRE RETIRE retires a cell, block or region as one remap. -/
  | retire (kind : BitVec 2) (unit : BitVec 11)
  /-- HS_KICK (R523). Restarts a head-steward watchdog count. -/
  | hsKick (head : HeadIx)
  /-- HS_HANG (R523). A head-steward watchdog reaching LIMIT sets EXPIRED. -/
  | hsHang (head : HeadIx)
  /-- HS_RESET (R523). Resets a head steward from another head steward, host or JTAG. -/
  | hsReset (head : HeadIx) (who : Requester) (loads : Bool)
  /-- SMB_STUCK_DETECT (R525). SDA low for 100 µs starts clock-pulse recovery of the SMBus. -/
  | smbStuckDetect (free : Bool)
  /-- SMB_VTEL_CYCLE_DONE (R525). After the VTEL power cycle recovery runs again, ending OK or FAILED. -/
  | smbVtelCycleDone (free : Bool)
  /-- RECOVER (R526). Writing RECOVER runs the SMBus recovery from step 1. -/
  | recover (free : Bool)
  /-- FREEZE_N_FALL (R530). A FREEZE_N falling edge held 64 fc sets the freeze tick. -/
  | freezeNFall (offset : Fin 4000)
  /-- FREEZE_NOW (R530). DBG_FREEZE FREEZE_NOW arms a freeze, by pin when forwarding. -/
  | freezeNow (offset : Fin 4000)
  /-- FREEZE_TAKE_EFFECT (R532). At TZ the module stops its plan while hall time and control paths run. -/
  | freezeTakeEffect
  /-- RESUME (R534). Arms a resume at TR with a mode. -/
  | resume (fault : Bool)
  /-- RESUME_CANCEL (R534). Cancels an armed resume. -/
  | resumeCancel
  /-- RESUME_AT_TR (R535). At TR the module resumes with D frames inserted, or raises RESUME_FAIL. -/
  | resumeAtTr
  /-- RB_DATA_READ (R537). A read of the readback window returns state or a status. -/
  | rbDataRead (index : Fin 32)
  /-- CAP_START (R539). Starts a capture of selected state classes. -/
  | capStart
  /-- CAP_ABORT (R539). Aborts a running capture. -/
  | capAbort
  /-- CAP_DONE (R539). The capture writes its end record, or stops full. -/
  | capDone
  /-- EXTEST (R540). JTAG boundary-scan drive. -/
  | extest (cells : List (Nat × Bool))
  /-- IDCODE (R540). JTAG identity read. -/
  | idcode
  /-- SAMPLE_PRELOAD (R540). JTAG boundary-scan sample. -/
  | samplePreload
  /-- CTRL_ACCESS (R541). JTAG starts one control-space access. -/
  | ctrlAccess (write : Bool) (addr : BitVec 48) (data : Word)
  /-- CTRL_ACCESS_COMPLETE (R541). The JTAG control access completes with its status. -/
  | ctrlAccessComplete
  /-- JTAG_FREEZE_NOW (R540). JTAG requests a freeze. -/
  | jtagFreezeNow (offset : Fin 4000)
  /-- BYPASS (R540). JTAG bypass. -/
  | bypass
  /-- JTAG_LOCK (R541). Setting JTAG_LOCK locks JTAG access until reset. -/
  | jtagLock
  /-- HOT_SWAP_CONNECT (R546). After 100 ms of presence the input is connected and the bank charges. -/
  | hotSwapConnect
  /-- INPUT_LOSS (R559). Input below 36 V for 10 µs starts the flush. -/
  | inputLoss (masked : Bool)
  /-- HREF_LOSS (R551). Lost HREF moves the master to the internal oscillator. -/
  | hrefLoss
  /-- CLK_RET (R551). Returns the master clock to HREF when allowed. -/
  | clkRet
  /-- PPS_EDGE (R552). A PPS rising edge latches the hall-time counter. -/
  | ppsEdge (offset : Fin 4000) (ps8 : Fin 125)
  /-- PTP_LOST (R457). A port's PTP time stops being valid when its measurements no longer arrive within 2 s or within a 50 ns spread, and PTP_VALID can fall. -/
  | ptpLost (port : EthIx)
  /-- HREF_RETURN (R551). HREF comes back within its limits, setting HREF_OK and the HREF_BACK edge bit. -/
  | hrefReturn
  /-- EB_N_RECLOSE (R460). EB_N closes again during a flush, so the module resets and boots as on insertion once the flush ends. -/
  | ebNReclose
  /-- HOLDUP_EXHAUSTED (R459). The hold-up bank runs out after a flush, PD111 loses power and the Keep moves to the backup cell. -/
  | holdupExhausted
  /-- HOLDUP_BANK_CHARGED (R557). The hold-up bank reaches the input voltage less 0.5 V, the main converters start and PD110 comes on. -/
  | holdupBankCharged
  /-- VAULT_READY_TIMEOUT (R522). A switched-on vault fails to reach READY within the time of R217 and sets the VAULT replacement cause. -/
  | vaultReadyTimeout (vault : VaultIx)
  /-- PCIE_LINK_DOWN (R443). The PCIe link leaves L0, L0p or L1 other than by a D-state change, raising HST_LINK_DOWN and holding the host-write queue. -/
  | pcieLinkDown
  /-- WGT_VERIFY_DONE (R363). A VERIFY operation finishes checking every shard and sets the bank's VALID, or fails. -/
  | wgtVerifyDone
  /-- PFC_FRAME_RECEIVE (R451). A received IEEE 802.1Qbb priority flow control frame pauses transmission on priority PFC_PRIO. -/
  | pfcFrameReceive (port : EthIx) (enable : BitVec 8) (quanta : BitVec 16)
  /-- TRST_ASSERT (R548). TRST_N going low holds the JTAG TAP in reset. -/
  | trstAssert
  deriving DecidableEq, Repr

end Sys2Proof
end

