-- ==== Sys2Proof/Decode.lean ====
section
/-! DEFINITION. The command that a word spells by the table's bits: no row of spec/opcode_table.json gives bits, so a word
spells none. The encodings that the spec does give (bundles and slot bodies) are read in Machine/Operands.lean. -/
namespace Sys2Proof

/-- The command that a word of nbits bits spells: none, since the table gives no row any bits. -/
def decodeTableWord (_nbits _w : Nat) : Option Instr := none

end Sys2Proof
end

