-- ==== Sys2Proof/Machine/Registers.lean ====
section
/-! DEFINITION. The control-space registers of R3 to R13, R21 and R22: every register of the spec's register tables with
its block, offset, fields, access codes and reset value. A field that the tables call fused, kept, pins or from
flash has the reset value that notes/assumptions/2.md names. -/
namespace Sys2Proof.Machine

/-- Access codes of R9. -/
inductive Acc where
  | ro | rw | wo | w1c | w1s | rwl
  deriving DecidableEq, Repr

/-- The register blocks of R21 and R22. -/
inductive Blk where
  | mod | blf | pwr | pln | tlr | eth | hst | kep | dbg | lnk | rgn | blk | cel | vlt
  deriving DecidableEq, Repr

/-- The counter groups of R13, each latched by one SNAP field. -/
inductive Grp where
  | rgn | pln | cel | vlt | lnk | ni | wgt | tlr | det | eth | pwr | dbg
  deriving DecidableEq, Repr

/-- One register: its block, offset, index stride and count, reset value, and for a counter group the bits that read
from the latch (R13). -/
structure Reg where
  blk : Blk
  off : Nat
  stride : Nat
  count : Nat
  reset : Nat
  grp : Option Grp
  latched : Nat
  deriving DecidableEq, Repr

/-- One field of a register: bits hi to lo with an access code (R9). -/
structure Fld where
  reg : Reg
  hi : Nat
  lo : Nat
  acc : Acc
  deriving DecidableEq, Repr

/-- The base of block instance u (R21, R22). -/
def blkBase : Blk → Nat → Nat
  | .mod, _ => 0
  | .blf, _ => 0x10000
  | .pwr, _ => 0x20000
  | .pln, _ => 0x30000
  | .tlr, _ => 0x40000
  | .eth, u => 0x50000 + u * 0x8000
  | .hst, _ => 0x60000
  | .kep, _ => 0x70000
  | .dbg, _ => 0x80000
  | .lnk, u => 0x100000 + u * 0x10000
  | .rgn, u => 0x1000000 + u * 0x100000 + 0xC0000
  | .blk, u => 0x1000000 + (u / 5) * 0x100000 + (u % 5) * 0x20000 + 0x18000
  | .cel, u => 0x1000000 + (u / 17 / 5) * 0x100000 + (u / 17 % 5) * 0x20000 + (u % 17) * 0x1000
  | .vlt, u => 0x2000000 + u * 0x100000

/-- How many instances a block has (R16). -/
def blkCount : Blk → Nat
  | .eth => 2 | .lnk => 18 | .rgn => 16 | .blk => 80 | .cel => 1360 | .vlt => 8
  | _ => 1

/-- The control-space address of entry i of register r in block instance u. -/
def Reg.addr (r : Reg) (u i : Nat) : Nat := blkBase r.blk u + r.off + r.stride * i

namespace R

/-- MOD_IDENT, R3. -/
def MOD_IDENT : Reg := ⟨.mod, 0x0, 0x0, 1, 0x12800A0105004030, .none, 0x0⟩
/-- BLF_CTRL, R66. -/
def BLF_CTRL : Reg := ⟨.blf, 0x0, 0x0, 1, 0x500000022, .none, 0x0⟩
/-- BLF_STATUS, R66. -/
def BLF_STATUS : Reg := ⟨.blf, 0x8, 0x0, 1, 0xBE0, .none, 0x0⟩
/-- BLF_EVENT, R66. -/
def BLF_EVENT : Reg := ⟨.blf, 0x10, 0x0, 1, 0x0, .none, 0x0⟩
/-- BLF_SNAP_TICK, R66. -/
def BLF_SNAP_TICK : Reg := ⟨.blf, 0x18, 0x0, 1, 0x0, .none, 0x0⟩
/-- BLF_SNAP_FRAC, R66. -/
def BLF_SNAP_FRAC : Reg := ⟨.blf, 0x20, 0x0, 1, 0x0, .none, 0x0⟩
/-- BLF_EPOCH_TAI, R66. -/
def BLF_EPOCH_TAI : Reg := ⟨.blf, 0x28, 0x0, 1, 0x0, .none, 0x0⟩
/-- BLF_STEER, R66. -/
def BLF_STEER : Reg := ⟨.blf, 0x30, 0x0, 1, 0x0, .none, 0x0⟩
/-- BLF_ERR_BOUND, R66. -/
def BLF_ERR_BOUND : Reg := ⟨.blf, 0x38, 0x0, 1, 0xFFFFFFFF, .none, 0x0⟩
/-- BLF_PARENT, R66. -/
def BLF_PARENT : Reg := ⟨.blf, 0x40, 0x0, 1, 0x0, .none, 0x0⟩
/-- BLF_LIMITS, R66. -/
def BLF_LIMITS : Reg := ⟨.blf, 0x48, 0x0, 1, 0x19000C801F4, .none, 0x0⟩
/-- BLF_PTIME, R66. -/
def BLF_PTIME : Reg := ⟨.blf, 0x100, 0x10, 18, 0x8000000000000000, .none, 0x0⟩
/-- BLF_PCAL, R66. -/
def BLF_PCAL : Reg := ⟨.blf, 0x108, 0x10, 18, 0x0, .none, 0x0⟩
/-- BLF_CMD_TICK, R66. -/
def BLF_CMD_TICK : Reg := ⟨.blf, 0x400, 0x10, 8, 0x0, .none, 0x0⟩
/-- BLF_CMD_CTRL, R66. -/
def BLF_CMD_CTRL : Reg := ⟨.blf, 0x408, 0x10, 8, 0x0, .none, 0x0⟩
/-- RGN_CLK, R67. -/
def RGN_CLK : Reg := ⟨.rgn, 0x0, 0x0, 1, 0x50000010005, .none, 0x0⟩
/-- RGN_VMON, R67. -/
def RGN_VMON : Reg := ⟨.rgn, 0x8, 0x0, 1, 0x1, .none, 0x0⟩
/-- RGN_THERM, R67. -/
def RGN_THERM : Reg := ⟨.rgn, 0x10, 0x0, 1, 0x0, .none, 0x0⟩
/-- RGN_XCAL, R67. -/
def RGN_XCAL : Reg := ⟨.rgn, 0x18, 0x0, 1, 0x620000, .none, 0x0⟩
/-- RGN_XRAW, R67. -/
def RGN_XRAW : Reg := ⟨.rgn, 0x20, 0x0, 1, 0x0, .none, 0x0⟩
/-- RGN_FSTAT, R67. -/
def RGN_FSTAT : Reg := ⟨.rgn, 0x28, 0x0, 1, 0xFFFF0000, .none, 0x0⟩
/-- RGN_DROOP_CNT, R67. -/
def RGN_DROOP_CNT : Reg := ⟨.rgn, 0x30, 0x0, 1, 0x0, (.some .rgn), 0xFFFFFFFFFFFFFFFF⟩
/-- RGN_SWALLOW_CNT, R67. -/
def RGN_SWALLOW_CNT : Reg := ⟨.rgn, 0x38, 0x0, 1, 0x0, (.some .rgn), 0xFFFFFFFFFFFFFFFF⟩
/-- RGN_OVERRUN_CNT, R67. -/
def RGN_OVERRUN_CNT : Reg := ⟨.rgn, 0x40, 0x0, 1, 0x0, (.some .rgn), 0xFFFFFFFFFFFFFFFF⟩
/-- PLN_CTRL, R101. -/
def PLN_CTRL : Reg := ⟨.pln, 0x0, 0x0, 1, 0x0, .none, 0x0⟩
/-- PLN_EVENT, R101. -/
def PLN_EVENT : Reg := ⟨.pln, 0x8, 0x0, 1, 0x0, .none, 0x0⟩
/-- PLN_ACT, R101. -/
def PLN_ACT : Reg := ⟨.pln, 0x10, 0x0, 1, 0x0, .none, 0x0⟩
/-- PLN_ACT_FRAME, R101. -/
def PLN_ACT_FRAME : Reg := ⟨.pln, 0x18, 0x0, 1, 0x0, .none, 0x0⟩
/-- PLN_SLIP_CNT, R101. -/
def PLN_SLIP_CNT : Reg := ⟨.pln, 0x40, 0x0, 1, 0x0, (.some .pln), 0xFFFFFFFFFFFFFFFF⟩
/-- PLN_PFAULT_CNT, R101. -/
def PLN_PFAULT_CNT : Reg := ⟨.pln, 0x48, 0x0, 1, 0x0, (.some .pln), 0xFFFFFFFF⟩
/-- PLN_SLIP_LAST, R101. -/
def PLN_SLIP_LAST : Reg := ⟨.pln, 0x50, 0x0, 1, 0x0, (.some .pln), 0xFFFFFFFFFFFF0001⟩
/-- PLN_SLOT_STAT, R101. -/
def PLN_SLOT_STAT : Reg := ⟨.pln, 0x100, 0x20, 4, 0xFFF0, .none, 0x0⟩
/-- PLN_SLOT_ID, R101. -/
def PLN_SLOT_ID : Reg := ⟨.pln, 0x108, 0x20, 4, 0x0, .none, 0x0⟩
/-- PLN_SLOT_DETAIL, R101. -/
def PLN_SLOT_DETAIL : Reg := ⟨.pln, 0x110, 0x20, 4, 0x0, .none, 0x0⟩
/-- PLN_TEN_STAT, R101. -/
def PLN_TEN_STAT : Reg := ⟨.pln, 0x200, 0x10, 16, 0x0, .none, 0x0⟩
/-- PLN_TEN_STEP, R101. -/
def PLN_TEN_STEP : Reg := ⟨.pln, 0x208, 0x10, 16, 0x0, (.some .pln), 0xFFFFFFFFFFFFFFFF⟩
/-- CEL_CTRL, R141. -/
def CEL_CTRL : Reg := ⟨.cel, 0x0, 0x0, 1, 0x0, .none, 0x0⟩
/-- CEL_STATUS, R141. -/
def CEL_STATUS : Reg := ⟨.cel, 0x8, 0x0, 1, 0x0, .none, 0x0⟩
/-- CEL_PC, R141. -/
def CEL_PC : Reg := ⟨.cel, 0x10, 0x0, 1, 0x0, .none, 0x0⟩
/-- CEL_PROG, R141. -/
def CEL_PROG : Reg := ⟨.cel, 0x18, 0x0, 1, 0x10000000000000, .none, 0x0⟩
/-- CEL_FAULT, R141. -/
def CEL_FAULT : Reg := ⟨.cel, 0x20, 0x0, 1, 0xFFFF00000000, .none, 0x0⟩
/-- CEL_GUARD_LAST, R141. -/
def CEL_GUARD_LAST : Reg := ⟨.cel, 0x28, 0x0, 1, 0xFFF00000000, .none, 0x0⟩
/-- CEL_ISSUE_CNT, R141. -/
def CEL_ISSUE_CNT : Reg := ⟨.cel, 0x40, 0x0, 1, 0x0, (.some .cel), 0xFFFFFFFFFFFFFFFF⟩
/-- CEL_FETCH_CNT, R141. -/
def CEL_FETCH_CNT : Reg := ⟨.cel, 0x48, 0x0, 1, 0x0, (.some .cel), 0xFFFFFFFFFFFFFFFF⟩
/-- CEL_GUARD_CNT, R141. -/
def CEL_GUARD_CNT : Reg := ⟨.cel, 0x50, 0x8, 4, 0x0, (.some .cel), 0xFFFFFFFFFFFFFFFF⟩
/-- CEL_WAIT_CNT, R141. -/
def CEL_WAIT_CNT : Reg := ⟨.cel, 0x70, 0x0, 1, 0x0, (.some .cel), 0xFFFFFFFFFFFFFFFF⟩
/-- CEL_FRAME_STAT, R141. -/
def CEL_FRAME_STAT : Reg := ⟨.cel, 0x78, 0x0, 1, 0xFFFF000000000000, (.some .cel), 0xFFFFFFFFFFFF0000⟩
/-- CEL_EVENT, R141. -/
def CEL_EVENT : Reg := ⟨.cel, 0x80, 0x0, 1, 0x0, .none, 0x0⟩
/-- CEL_TALLY, R141. -/
def CEL_TALLY : Reg := ⟨.cel, 0x100, 0x8, 16, 0x0, .none, 0x0⟩
/-- CEL_TALLY_ADD, R141. -/
def CEL_TALLY_ADD : Reg := ⟨.cel, 0x180, 0x0, 1, 0x0, .none, 0x0⟩
/-- CEL_BANK, R175. -/
def CEL_BANK : Reg := ⟨.cel, 0x200, 0x10, 2, 0xF000000000, .none, 0x0⟩
/-- CEL_ESC_CNT, R175. -/
def CEL_ESC_CNT : Reg := ⟨.cel, 0x220, 0x8, 4, 0x0, (.some .cel), 0xFFFFFFFFFFFFFFFF⟩
/-- CEL_MTX_EVENT, R175. -/
def CEL_MTX_EVENT : Reg := ⟨.cel, 0x240, 0x0, 1, 0x0, .none, 0x0⟩
/-- CEL_MTX_CTRL, R175. -/
def CEL_MTX_CTRL : Reg := ⟨.cel, 0x248, 0x0, 1, 0x0, .none, 0x0⟩
/-- CEL_VEC_EVENT, R208. -/
def CEL_VEC_EVENT : Reg := ⟨.cel, 0x280, 0x0, 1, 0x0, .none, 0x0⟩
/-- CEL_VEC_CTRL, R208. -/
def CEL_VEC_CTRL : Reg := ⟨.cel, 0x288, 0x0, 1, 0x0, .none, 0x0⟩
/-- CEL_ROW_CNT, R208. -/
def CEL_ROW_CNT : Reg := ⟨.cel, 0x2A0, 0x8, 4, 0x0, (.some .cel), 0xFFFFFFFFFFFFFFFF⟩
/-- VLT_CTRL, R247. -/
def VLT_CTRL : Reg := ⟨.vlt, 0x0, 0x0, 1, 0x1, .none, 0x0⟩
/-- VLT_STATUS, R247. -/
def VLT_STATUS : Reg := ⟨.vlt, 0x8, 0x0, 1, 0x0, .none, 0x0⟩
/-- VLT_EVENT, R247. -/
def VLT_EVENT : Reg := ⟨.vlt, 0x10, 0x0, 1, 0x0, .none, 0x0⟩
/-- VLT_ECC_CE_CNT, R247. -/
def VLT_ECC_CE_CNT : Reg := ⟨.vlt, 0x40, 0x0, 1, 0x0, (.some .vlt), 0xFFFFFFFF⟩
/-- VLT_ECC_UE_CNT, R247. -/
def VLT_ECC_UE_CNT : Reg := ⟨.vlt, 0x48, 0x0, 1, 0x0, (.some .vlt), 0xFFFFFFFF⟩
/-- VLT_ECC_LAST, R247. -/
def VLT_ECC_LAST : Reg := ⟨.vlt, 0x50, 0x0, 1, 0x0, .none, 0x0⟩
/-- VLT_SUPPRESS_CNT, R247. -/
def VLT_SUPPRESS_CNT : Reg := ⟨.vlt, 0x58, 0x0, 1, 0x0, (.some .vlt), 0xFFFFFFFFFFFFFFFF⟩
/-- VLT_MISMATCH_CNT, R247. -/
def VLT_MISMATCH_CNT : Reg := ⟨.vlt, 0x60, 0x0, 1, 0x0, (.some .vlt), 0xFFFFFFFFFFFFFFFF⟩
/-- VLT_OOB_CNT, R247. -/
def VLT_OOB_CNT : Reg := ⟨.vlt, 0x68, 0x0, 1, 0x0, (.some .vlt), 0xFFFFFFFFFFFFFFFF⟩
/-- VLT_ENG_STAT, R247. -/
def VLT_ENG_STAT : Reg := ⟨.vlt, 0x100, 0x10, 32, 0x0, .none, 0x0⟩
/-- VLT_ENG_ACT, R247. -/
def VLT_ENG_ACT : Reg := ⟨.vlt, 0x108, 0x10, 32, 0x0, (.some .vlt), 0xFFFFFFFFFFFFFFFF⟩
/-- VLT_CRING, R247. -/
def VLT_CRING : Reg := ⟨.vlt, 0x400, 0x10, 2, 0x0, .none, 0x0⟩
/-- VLT_CRING_DROP, R247. -/
def VLT_CRING_DROP : Reg := ⟨.vlt, 0x420, 0x0, 1, 0x0, (.some .vlt), 0xFFFFFFFF⟩
/-- CEL_DESC, R248. -/
def CEL_DESC : Reg := ⟨.cel, 0x300, 0x0, 1, 0x0, .none, 0x0⟩
/-- BLK_STW_CTRL, R275. -/
def BLK_STW_CTRL : Reg := ⟨.blk, 0x0, 0x0, 1, 0x202, .none, 0x0⟩
/-- BLK_STW_WDOG, R275. -/
def BLK_STW_WDOG : Reg := ⟨.blk, 0x8, 0x0, 1, 0x0, .none, 0x0⟩
/-- BLK_MBOX_CTRL, R275. -/
def BLK_MBOX_CTRL : Reg := ⟨.blk, 0x10, 0x0, 1, 0x0, .none, 0x0⟩
/-- BLK_MBOX_DATA, R275. -/
def BLK_MBOX_DATA : Reg := ⟨.blk, 0x40, 0x8, 8, 0x0, .none, 0x0⟩
/-- MOD_MBOX_PEND, R275. -/
def MOD_MBOX_PEND : Reg := ⟨.mod, 0x100, 0x8, 2, 0x0, .none, 0x0⟩
/-- LNK_CTRL, R314. -/
def LNK_CTRL : Reg := ⟨.lnk, 0x0, 0x0, 1, 0x4F00, .none, 0x0⟩
/-- LNK_STATUS, R314. -/
def LNK_STATUS : Reg := ⟨.lnk, 0x8, 0x0, 1, 0x3E00300000000, .none, 0x0⟩
/-- LNK_EVENT, R314. -/
def LNK_EVENT : Reg := ⟨.lnk, 0x10, 0x0, 1, 0x0, .none, 0x0⟩
/-- LNK_LANES, R314. -/
def LNK_LANES : Reg := ⟨.lnk, 0x18, 0x0, 1, 0x0, .none, 0x0⟩
/-- LNK_SEQ, R314. -/
def LNK_SEQ : Reg := ⟨.lnk, 0x20, 0x0, 1, 0xFFFC000, .none, 0x0⟩
/-- LNK_LAG, R314. -/
def LNK_LAG : Reg := ⟨.lnk, 0x28, 0x0, 1, 0x0, (.some .lnk), 0xFFFFFFFF00000000⟩
/-- LNK_SCHED, R314. -/
def LNK_SCHED : Reg := ⟨.lnk, 0x30, 0x0, 1, 0x0, .none, 0x0⟩
/-- LNK_PLL, R314. -/
def LNK_PLL : Reg := ⟨.lnk, 0x38, 0x0, 1, 0x0, .none, 0x0⟩
/-- LNK_CREDIT_TX, R314. -/
def LNK_CREDIT_TX : Reg := ⟨.lnk, 0x40, 0x8, 4, 0x0, .none, 0x0⟩
/-- LNK_CREDIT_RX, R314. -/
def LNK_CREDIT_RX : Reg := ⟨.lnk, 0x60, 0x8, 4, 0x0, .none, 0x0⟩
/-- LNK_TEST, R314. -/
def LNK_TEST : Reg := ⟨.lnk, 0x80, 0x0, 1, 0xFFFF0200, .none, 0x0⟩
/-- LNK_TEST_ERR, R314. -/
def LNK_TEST_ERR : Reg := ⟨.lnk, 0x88, 0x0, 1, 0x0, .none, 0x0⟩
/-- LNK_PARITY_CNT, R314. -/
def LNK_PARITY_CNT : Reg := ⟨.lnk, 0x100, 0x0, 1, 0x0, (.some .lnk), 0xFFFFFFFF⟩
/-- LNK_REPLAY_CNT, R314. -/
def LNK_REPLAY_CNT : Reg := ⟨.lnk, 0x108, 0x0, 1, 0x0, (.some .lnk), 0xFFFFFFFF⟩
/-- LNK_RETRAIN_CNT, R314. -/
def LNK_RETRAIN_CNT : Reg := ⟨.lnk, 0x110, 0x0, 1, 0x0, (.some .lnk), 0xFFFFFFFF⟩
/-- LNK_DOWN_CNT, R314. -/
def LNK_DOWN_CNT : Reg := ⟨.lnk, 0x118, 0x0, 1, 0x0, (.some .lnk), 0xFFFFFFFF⟩
/-- LNK_CTLBAD_CNT, R314. -/
def LNK_CTLBAD_CNT : Reg := ⟨.lnk, 0x120, 0x0, 1, 0x0, (.some .lnk), 0xFFFFFFFF⟩
/-- LNK_CARRY_CNT, R314. -/
def LNK_CARRY_CNT : Reg := ⟨.lnk, 0x128, 0x0, 1, 0x0, (.some .lnk), 0xFFFFFFFFFFFFFFFF⟩
/-- LNK_TX_UNITS, R314. -/
def LNK_TX_UNITS : Reg := ⟨.lnk, 0x130, 0x0, 1, 0x0, (.some .lnk), 0xFFFFFFFFFFFFFFFF⟩
/-- LNK_RX_UNITS, R314. -/
def LNK_RX_UNITS : Reg := ⟨.lnk, 0x138, 0x0, 1, 0x0, (.some .lnk), 0xFFFFFFFFFFFFFFFF⟩
/-- MOD_NI_CTRL, R355. -/
def MOD_NI_CTRL : Reg := ⟨.mod, 0x200, 0x0, 1, 0x8000640000, .none, 0x0⟩
/-- MOD_NI_STATUS, R355. -/
def MOD_NI_STATUS : Reg := ⟨.mod, 0x208, 0x0, 1, 0x0, .none, 0x0⟩
/-- MOD_NI_EVENT, R355. -/
def MOD_NI_EVENT : Reg := ⟨.mod, 0x210, 0x0, 1, 0x0, .none, 0x0⟩
/-- MOD_NI_SEND, R355. -/
def MOD_NI_SEND : Reg := ⟨.mod, 0x218, 0x0, 1, 0x0, .none, 0x0⟩
/-- MOD_NI_DONE, R355. -/
def MOD_NI_DONE : Reg := ⟨.mod, 0x220, 0x0, 1, 0x0, (.some .ni), 0xFFFFFFFFFFFFFFFF⟩
/-- MOD_MESH_LAST, R355. -/
def MOD_MESH_LAST : Reg := ⟨.mod, 0x228, 0x0, 1, 0x0, .none, 0x0⟩
/-- MOD_NI_CNT, R355. -/
def MOD_NI_CNT : Reg := ⟨.mod, 0x240, 0x8, 8, 0x0, (.some .ni), 0xFFFFFFFF⟩
/-- MOD_RANK, R355. -/
def MOD_RANK : Reg := ⟨.mod, 0x8000, 0x8, 4096, 0x0, .none, 0x0⟩
/-- LNK_PEER_EXP, R356. -/
def LNK_PEER_EXP : Reg := ⟨.lnk, 0x140, 0x0, 1, 0x0, .none, 0x0⟩
/-- LNK_FAB, R356. -/
def LNK_FAB : Reg := ⟨.lnk, 0x148, 0x0, 1, 0x0, .none, 0x0⟩
/-- LNK_PKEY_CNT, R356. -/
def LNK_PKEY_CNT : Reg := ⟨.lnk, 0x150, 0x0, 1, 0x0, (.some .lnk), 0xFFFFFFFF⟩
/-- LNK_ROUTE, R356. -/
def LNK_ROUTE : Reg := ⟨.lnk, 0x8000, 0x8, 4096, 0x0, .none, 0x0⟩
/-- MOD_WGT_CTRL, R381. -/
def MOD_WGT_CTRL : Reg := ⟨.mod, 0x400, 0x0, 1, 0x2580000, .none, 0x0⟩
/-- MOD_WGT_STATUS, R381. -/
def MOD_WGT_STATUS : Reg := ⟨.mod, 0x408, 0x0, 1, 0xFFFF00000000, .none, 0x0⟩
/-- MOD_WGT_EVENT, R381. -/
def MOD_WGT_EVENT : Reg := ⟨.mod, 0x410, 0x0, 1, 0x0, .none, 0x0⟩
/-- MOD_WGT_BYTES, R381. -/
def MOD_WGT_BYTES : Reg := ⟨.mod, 0x418, 0x0, 1, 0x0, (.some .wgt), 0xFFFFFFFFFFFFFFFF⟩
/-- MOD_WGT_FWD, R381. -/
def MOD_WGT_FWD : Reg := ⟨.mod, 0x420, 0x0, 1, 0x0, (.some .wgt), 0xFFFFFFFFFFFFFFFF⟩
/-- MOD_WGT_TEN, R381. -/
def MOD_WGT_TEN : Reg := ⟨.mod, 0x440, 0x8, 16, 0x0, .none, 0x0⟩
/-- TLR_CTRL, R413. -/
def TLR_CTRL : Reg := ⟨.tlr, 0x0, 0x0, 1, 0x0, .none, 0x0⟩
/-- TLR_STATUS, R413. -/
def TLR_STATUS : Reg := ⟨.tlr, 0x8, 0x0, 1, 0x0, .none, 0x0⟩
/-- TLR_EVENT, R413. -/
def TLR_EVENT : Reg := ⟨.tlr, 0x10, 0x0, 1, 0x0, .none, 0x0⟩
/-- TLR_SQ_BASE, R413. -/
def TLR_SQ_BASE : Reg := ⟨.tlr, 0x18, 0x0, 1, 0x0, .none, 0x0⟩
/-- TLR_CQ_BASE, R413. -/
def TLR_CQ_BASE : Reg := ⟨.tlr, 0x28, 0x0, 1, 0x0, .none, 0x0⟩
/-- TLR_SQ_PTR, R413. -/
def TLR_SQ_PTR : Reg := ⟨.tlr, 0x20, 0x0, 1, 0x0, .none, 0x0⟩
/-- TLR_CQ_PTR, R413. -/
def TLR_CQ_PTR : Reg := ⟨.tlr, 0x30, 0x0, 1, 0x0, .none, 0x0⟩
/-- TLR_REQ_CMD, R413. -/
def TLR_REQ_CMD : Reg := ⟨.tlr, 0x38, 0x0, 1, 0x0, .none, 0x0⟩
/-- TLR_VARIANT, R413. -/
def TLR_VARIANT : Reg := ⟨.tlr, 0x40, 0x0, 1, 0x0, .none, 0x0⟩
/-- TLR_SLOT_QUERY, R413. -/
def TLR_SLOT_QUERY : Reg := ⟨.tlr, 0x48, 0x0, 1, 0x0, .none, 0x0⟩
/-- TLR_ACCT_CMD, R413. -/
def TLR_ACCT_CMD : Reg := ⟨.tlr, 0x50, 0x0, 1, 0x0, .none, 0x0⟩
/-- TLR_ACCT_DATA, R413. -/
def TLR_ACCT_DATA : Reg := ⟨.tlr, 0x80, 0x8, 8, 0x0, .none, 0x0⟩
/-- TLR_CNT, R413. -/
def TLR_CNT : Reg := ⟨.tlr, 0x100, 0x8, 8, 0x0, (.some .tlr), 0xFFFFFFFFFFFFFFFF⟩
/-- TLR_MASK, R413. -/
def TLR_MASK : Reg := ⟨.tlr, 0x1000, 0x8, 128, 0x0, .none, 0x0⟩
/-- MOD_TALLY_SEED0, R433. -/
def MOD_TALLY_SEED0 : Reg := ⟨.mod, 0x600, 0x10, 16, 0x0, .none, 0x0⟩
/-- MOD_TALLY_SEED1, R433. -/
def MOD_TALLY_SEED1 : Reg := ⟨.mod, 0x608, 0x10, 16, 0x0, .none, 0x0⟩
/-- MOD_DET_CTRL, R433. -/
def MOD_DET_CTRL : Reg := ⟨.mod, 0x700, 0x0, 1, 0x400C00000000, .none, 0x0⟩
/-- MOD_DET_STATUS, R433. -/
def MOD_DET_STATUS : Reg := ⟨.mod, 0x708, 0x0, 1, 0x0, .none, 0x0⟩
/-- MOD_DET_EVENT, R433. -/
def MOD_DET_EVENT : Reg := ⟨.mod, 0x710, 0x0, 1, 0x0, .none, 0x0⟩
/-- MOD_DET_CAP_AT, R433. -/
def MOD_DET_CAP_AT : Reg := ⟨.mod, 0x718, 0x0, 1, 0x0, .none, 0x0⟩
/-- MOD_DET_CAP_OWN, R433. -/
def MOD_DET_CAP_OWN : Reg := ⟨.mod, 0x720, 0x0, 1, 0x0, .none, 0x0⟩
/-- MOD_DET_CAP_PEER, R433. -/
def MOD_DET_CAP_PEER : Reg := ⟨.mod, 0x728, 0x0, 1, 0x0, .none, 0x0⟩
/-- MOD_DET_CNT, R433. -/
def MOD_DET_CNT : Reg := ⟨.mod, 0x740, 0x8, 4, 0x0, (.some .det), 0xFFFFFFFFFFFFFFFF⟩
/-- MOD_DET_PSEL, R433. -/
def MOD_DET_PSEL : Reg := ⟨.mod, 0x780, 0x0, 1, 0x0, .none, 0x0⟩
/-- MOD_DET_PDATA, R433. -/
def MOD_DET_PDATA : Reg := ⟨.mod, 0x788, 0x0, 1, 0x0, .none, 0x0⟩
/-- HST_ID, R464. -/
def HST_ID : Reg := ⟨.hst, 0x0, 0x0, 1, 0x128001120000, .none, 0x0⟩
/-- HST_IFVER, R464. -/
def HST_IFVER : Reg := ⟨.hst, 0x8, 0x0, 1, 0x10001000100, .none, 0x0⟩
/-- HST_STATUS, R464. -/
def HST_STATUS : Reg := ⟨.hst, 0x10, 0x0, 1, 0x40000, .none, 0x0⟩
/-- HST_EVENT, R464. -/
def HST_EVENT : Reg := ⟨.hst, 0x18, 0x0, 1, 0x0, .none, 0x0⟩
/-- HST_CTRL, R464. -/
def HST_CTRL : Reg := ⟨.hst, 0x20, 0x0, 1, 0x0, .none, 0x0⟩
/-- HST_CWIN, R464. -/
def HST_CWIN : Reg := ⟨.hst, 0x28, 0x0, 1, 0x1, .none, 0x0⟩
/-- HST_MWIN, R464. -/
def HST_MWIN : Reg := ⟨.hst, 0x30, 0x0, 1, 0x0, .none, 0x0⟩
/-- HST_WAKE, R464. -/
def HST_WAKE : Reg := ⟨.hst, 0x38, 0x0, 1, 0x0, .none, 0x0⟩
/-- HST_HWQ, R464. -/
def HST_HWQ : Reg := ⟨.hst, 0x40, 0x0, 1, 0x0, .none, 0x0⟩
/-- HST_BUSERR, R464. -/
def HST_BUSERR : Reg := ⟨.hst, 0x48, 0x0, 1, 0x0, .none, 0x0⟩
/-- HST_IRQ_MAP, R464. -/
def HST_IRQ_MAP : Reg := ⟨.hst, 0x100, 0x8, 16, 0x0, .none, 0x0⟩
/-- HST_MBOX_CTRL, R464. -/
def HST_MBOX_CTRL : Reg := ⟨.hst, 0x200, 0x0, 1, 0x0, .none, 0x0⟩
/-- HST_MBOX_STATUS, R464. -/
def HST_MBOX_STATUS : Reg := ⟨.hst, 0x208, 0x0, 1, 0x0, .none, 0x0⟩
/-- HST_MBOX_REQ, R464. -/
def HST_MBOX_REQ : Reg := ⟨.hst, 0x240, 0x8, 8, 0x0, .none, 0x0⟩
/-- HST_MBOX_RES, R464. -/
def HST_MBOX_RES : Reg := ⟨.hst, 0x280, 0x8, 8, 0x0, .none, 0x0⟩
/-- MOD_POSID, R464. -/
def MOD_POSID : Reg := ⟨.mod, 0x80, 0x0, 1, 0x3FFF, .none, 0x0⟩
/-- MOD_SVC, R464. -/
def MOD_SVC : Reg := ⟨.mod, 0x88, 0x0, 1, 0x0, .none, 0x0⟩
/-- ETH_CTRL, R465. -/
def ETH_CTRL : Reg := ⟨.eth, 0x0, 0x0, 1, 0x70670002, .none, 0x0⟩
/-- ETH_STATUS, R465. -/
def ETH_STATUS : Reg := ⟨.eth, 0x8, 0x0, 1, 0x0, .none, 0x0⟩
/-- ETH_EVENT, R465. -/
def ETH_EVENT : Reg := ⟨.eth, 0x10, 0x0, 1, 0x0, .none, 0x0⟩
/-- ETH_ADDR, R465. -/
def ETH_ADDR : Reg := ⟨.eth, 0x18, 0x0, 1, 0x0, .none, 0x0⟩
/-- ETH_NH_MAC, R465. -/
def ETH_NH_MAC : Reg := ⟨.eth, 0x20, 0x0, 1, 0x0, .none, 0x0⟩
/-- ETH_GID_HI, R465. -/
def ETH_GID_HI : Reg := ⟨.eth, 0x28, 0x0, 1, 0x0, .none, 0x0⟩
/-- ETH_GID_LO, R465. -/
def ETH_GID_LO : Reg := ⟨.eth, 0x30, 0x0, 1, 0x0, .none, 0x0⟩
/-- ETH_PTP, R465. -/
def ETH_PTP : Reg := ⟨.eth, 0x38, 0x0, 1, 0x8000000000000100, .none, 0x0⟩
/-- ETH_STORE, R465. -/
def ETH_STORE : Reg := ⟨.eth, 0x100, 0x8, 16, 0x0, .none, 0x0⟩
/-- ETH_FEC_CE_CNT, R465. -/
def ETH_FEC_CE_CNT : Reg := ⟨.eth, 0x200, 0x0, 1, 0x0, (.some .eth), 0xFFFFFFFFFFFFFFFF⟩
/-- ETH_RETX_CNT, R465. -/
def ETH_RETX_CNT : Reg := ⟨.eth, 0x210, 0x0, 1, 0x0, (.some .eth), 0xFFFFFFFFFFFFFFFF⟩
/-- ETH_FEC_UE_CNT, R465. -/
def ETH_FEC_UE_CNT : Reg := ⟨.eth, 0x208, 0x0, 1, 0x0, (.some .eth), 0xFFFFFFFF⟩
/-- ETH_QP_CTRL, R465. -/
def ETH_QP_CTRL : Reg := ⟨.eth, 0x4000, 0x20, 256, 0x2800000000000000, .none, 0x0⟩
/-- ETH_QP_KEY, R465. -/
def ETH_QP_KEY : Reg := ⟨.eth, 0x4008, 0x20, 256, 0x0, .none, 0x0⟩
/-- ETH_QP_GID_HI, R465. -/
def ETH_QP_GID_HI : Reg := ⟨.eth, 0x4010, 0x20, 256, 0x0, .none, 0x0⟩
/-- ETH_QP_GID_LO, R465. -/
def ETH_QP_GID_LO : Reg := ⟨.eth, 0x4018, 0x20, 256, 0x0, .none, 0x0⟩
/-- PWR_THERM, R475. -/
def PWR_THERM : Reg := ⟨.pwr, 0x200, 0x8, 24, 0x0, .none, 0x0⟩
/-- PWR_CTRL, R482. -/
def PWR_CTRL : Reg := ⟨.pwr, 0x0, 0x0, 1, 0x0, .none, 0x0⟩
/-- PWR_EVENT, R482. -/
def PWR_EVENT : Reg := ⟨.pwr, 0x8, 0x0, 1, 0x0, .none, 0x0⟩
/-- PWR_PD_CTRL, R482. -/
def PWR_PD_CTRL : Reg := ⟨.pwr, 0x10, 0x0, 1, 0x0, .none, 0x0⟩
/-- PWR_PD_STAT, R482. -/
def PWR_PD_STAT : Reg := ⟨.pwr, 0x18, 0x8, 2, 0x0, .none, 0x0⟩
/-- PWR_CLKEN, R482. -/
def PWR_CLKEN : Reg := ⟨.pwr, 0x28, 0x0, 1, 0x0, .none, 0x0⟩
/-- PWR_CPCLK, R482. -/
def PWR_CPCLK : Reg := ⟨.pwr, 0x30, 0x0, 1, 0x602, .none, 0x0⟩
/-- PWR_ENV, R482. -/
def PWR_ENV : Reg := ⟨.pwr, 0x38, 0x0, 1, 0xBB8, .none, 0x0⟩
/-- PWR_INPUT, R482. -/
def PWR_INPUT : Reg := ⟨.pwr, 0x40, 0x0, 1, 0x0, .none, 0x0⟩
/-- PWR_FRAME, R482. -/
def PWR_FRAME : Reg := ⟨.pwr, 0x48, 0x0, 1, 0x0, .none, 0x0⟩
/-- PWR_PROT, R482. -/
def PWR_PROT : Reg := ⟨.pwr, 0x50, 0x0, 1, 0x0, .none, 0x0⟩
/-- PWR_CONFLICT_CNT, R482. -/
def PWR_CONFLICT_CNT : Reg := ⟨.pwr, 0x60, 0x0, 1, 0x0, (.some .pwr), 0xFFFFFFFFFFFFFFFF⟩
/-- PWR_PROT_CNT, R482. -/
def PWR_PROT_CNT : Reg := ⟨.pwr, 0x68, 0x0, 1, 0x0, (.some .pwr), 0xFFFFFFFFFFFFFFFF⟩
/-- PWR_RAIL, R482. -/
def PWR_RAIL : Reg := ⟨.pwr, 0x100, 0x8, 12, 0x4000, .none, 0x0⟩
/-- PWR_PMB_CTRL, R482. -/
def PWR_PMB_CTRL : Reg := ⟨.pwr, 0x1000, 0x0, 1, 0x1, .none, 0x0⟩
/-- PWR_CMU_CTRL, R482. -/
def PWR_CMU_CTRL : Reg := ⟨.pwr, 0x1800, 0x0, 1, 0x1000, .none, 0x0⟩
/-- PWR_CMU_RES, R482. -/
def PWR_CMU_RES : Reg := ⟨.pwr, 0x1808, 0x0, 1, 0x0, .none, 0x0⟩
/-- KEP_STATUS, R513. -/
def KEP_STATUS : Reg := ⟨.kep, 0x0, 0x0, 1, 0x0, .none, 0x0⟩
/-- KEP_EVENT, R513. -/
def KEP_EVENT : Reg := ⟨.kep, 0x8, 0x0, 1, 0x0, .none, 0x0⟩
/-- KEP_CTRL, R513. -/
def KEP_CTRL : Reg := ⟨.kep, 0x10, 0x0, 1, 0xF00258012C0000, .none, 0x0⟩
/-- KEP_UNIT, R513. -/
def KEP_UNIT : Reg := ⟨.kep, 0x18, 0x8, 2, 0x0, .none, 0x0⟩
/-- KEP_RTC, R513. -/
def KEP_RTC : Reg := ⟨.kep, 0x28, 0x0, 1, 0x0, .none, 0x0⟩
/-- KEP_FUSE, R513. -/
def KEP_FUSE : Reg := ⟨.kep, 0x30, 0x0, 1, 0x0, .none, 0x0⟩
/-- KEP_SLOT_VER, R513. -/
def KEP_SLOT_VER : Reg := ⟨.kep, 0x40, 0x10, 2, 0x0, .none, 0x0⟩
/-- KEP_SLOT_STAT, R513. -/
def KEP_SLOT_STAT : Reg := ⟨.kep, 0x48, 0x10, 2, 0x0, .none, 0x0⟩
/-- KEP_STAGE, R513. -/
def KEP_STAGE : Reg := ⟨.kep, 0x60, 0x0, 1, 0x0, .none, 0x0⟩
/-- KEP_CHAIN, R513. -/
def KEP_CHAIN : Reg := ⟨.kep, 0x68, 0x0, 1, 0x0, .none, 0x0⟩
/-- KEP_LOG_CTRL, R513. -/
def KEP_LOG_CTRL : Reg := ⟨.kep, 0x70, 0x0, 1, 0x0, .none, 0x0⟩
/-- KEP_LOG_LOST, R513. -/
def KEP_LOG_LOST : Reg := ⟨.kep, 0x78, 0x0, 1, 0x0, .none, 0x0⟩
/-- KEP_LOG_DATA, R513. -/
def KEP_LOG_DATA : Reg := ⟨.kep, 0x80, 0x8, 4, 0x0, .none, 0x0⟩
/-- DBG_CTRL, R543. -/
def DBG_CTRL : Reg := ⟨.dbg, 0x0, 0x0, 1, 0x2, .none, 0x0⟩
/-- DBG_STATUS, R543. -/
def DBG_STATUS : Reg := ⟨.dbg, 0x8, 0x0, 1, 0xA00000000000, .none, 0x0⟩
/-- DBG_EVENT, R543. -/
def DBG_EVENT : Reg := ⟨.dbg, 0x10, 0x0, 1, 0x0, .none, 0x0⟩
/-- DBG_FAULT_LAST, R543. -/
def DBG_FAULT_LAST : Reg := ⟨.dbg, 0x18, 0x0, 1, 0x0, .none, 0x0⟩
/-- DBG_FAULT_CNT, R543. -/
def DBG_FAULT_CNT : Reg := ⟨.dbg, 0x20, 0x0, 1, 0x0, (.some .dbg), 0xFFFFFFFF⟩
/-- DBG_SMB_CNT, R543. -/
def DBG_SMB_CNT : Reg := ⟨.dbg, 0x50, 0x0, 1, 0x0, (.some .dbg), 0xFFFFFFFF⟩
/-- DBG_FREEZE, R543. -/
def DBG_FREEZE : Reg := ⟨.dbg, 0x28, 0x0, 1, 0x0, .none, 0x0⟩
/-- DBG_FREEZE_AT, R543. -/
def DBG_FREEZE_AT : Reg := ⟨.dbg, 0x30, 0x0, 1, 0x0, .none, 0x0⟩
/-- DBG_RESUME_AT, R543. -/
def DBG_RESUME_AT : Reg := ⟨.dbg, 0x38, 0x0, 1, 0x0, .none, 0x0⟩
/-- DBG_RETIRE, R543. -/
def DBG_RETIRE : Reg := ⟨.dbg, 0x40, 0x0, 1, 0x20E1000000000, .none, 0x0⟩
/-- DBG_SMB, R543. -/
def DBG_SMB : Reg := ⟨.dbg, 0x48, 0x0, 1, 0x8, .none, 0x0⟩
/-- DBG_OVF_LAST, R543. -/
def DBG_OVF_LAST : Reg := ⟨.dbg, 0x58, 0x0, 1, 0x0, .none, 0x0⟩
/-- DBG_HS, R543. -/
def DBG_HS : Reg := ⟨.dbg, 0x80, 0x8, 4, 0x0, .none, 0x0⟩
/-- DBG_RB_ADDR, R543. -/
def DBG_RB_ADDR : Reg := ⟨.dbg, 0x100, 0x0, 1, 0x0, .none, 0x0⟩
/-- DBG_RB_STAT, R543. -/
def DBG_RB_STAT : Reg := ⟨.dbg, 0x108, 0x0, 1, 0x0, .none, 0x0⟩
/-- DBG_RB_DATA, R543. -/
def DBG_RB_DATA : Reg := ⟨.dbg, 0x200, 0x8, 32, 0x0, .none, 0x0⟩
/-- DBG_CAP_CTRL, R543. -/
def DBG_CAP_CTRL : Reg := ⟨.dbg, 0x300, 0x0, 1, 0x0, .none, 0x0⟩
/-- DBG_CAP_STAT, R543. -/
def DBG_CAP_STAT : Reg := ⟨.dbg, 0x308, 0x0, 1, 0x0, .none, 0x0⟩
/-- DBG_CAP_HOST, R543. -/
def DBG_CAP_HOST : Reg := ⟨.dbg, 0x310, 0x0, 1, 0x0, .none, 0x0⟩
/-- DBG_BLOCK, R543. -/
def DBG_BLOCK : Reg := ⟨.dbg, 0x1000, 0x8, 80, 0xFFFF, .none, 0x0⟩
/-- CEL_CE_CNT, R544. -/
def CEL_CE_CNT : Reg := ⟨.cel, 0x380, 0x0, 1, 0x0, (.some .cel), 0xFFFFFFFF⟩
/-- CEL_UE_CNT, R544. -/
def CEL_UE_CNT : Reg := ⟨.cel, 0x388, 0x0, 1, 0x0, (.some .cel), 0xFFFFFFFF⟩
/-- MOD_PINS, R565. -/
def MOD_PINS : Reg := ⟨.mod, 0x90, 0x0, 1, 0xE00, .none, 0x0⟩
/-- MOD_PPS_TICK, R565. -/
def MOD_PPS_TICK : Reg := ⟨.mod, 0x98, 0x0, 1, 0x0, .none, 0x0⟩
/-- MOD_PPS_FRAC, R565. -/
def MOD_PPS_FRAC : Reg := ⟨.mod, 0xA0, 0x0, 1, 0x0, .none, 0x0⟩
/-- MOD_LED, R565. -/
def MOD_LED : Reg := ⟨.mod, 0xA8, 0x0, 1, 0x0, .none, 0x0⟩

end R

namespace F

def MOD_IDENT_PART_CODE : Fld := ⟨R.MOD_IDENT, 63, 48, .ro⟩
def MOD_IDENT_GRADE : Fld := ⟨R.MOD_IDENT, 47, 40, .ro⟩
def MOD_IDENT_STEPPING : Fld := ⟨R.MOD_IDENT, 39, 32, .ro⟩
def MOD_IDENT_CELLS_GRADE : Fld := ⟨R.MOD_IDENT, 31, 16, .ro⟩
def MOD_IDENT_CLK_STEP_MAX : Fld := ⟨R.MOD_IDENT, 15, 8, .ro⟩
def MOD_IDENT_LINK_PROTO_MAX : Fld := ⟨R.MOD_IDENT, 7, 4, .ro⟩
def BLF_CTRL_HOLD_RATE : Fld := ⟨R.BLF_CTRL, 39, 32, .rw⟩
def BLF_CTRL_EVENT_EN : Fld := ⟨R.BLF_CTRL, 15, 8, .rw⟩
def BLF_CTRL_ROLE : Fld := ⟨R.BLF_CTRL, 5, 4, .rwl⟩
def BLF_CTRL_SNAP : Fld := ⟨R.BLF_CTRL, 3, 3, .wo⟩
def BLF_CTRL_RESTART : Fld := ⟨R.BLF_CTRL, 2, 2, .wo⟩
def BLF_CTRL_PTP_EN : Fld := ⟨R.BLF_CTRL, 1, 1, .rw⟩
def BLF_CTRL_ENABLE : Fld := ⟨R.BLF_CTRL, 0, 0, .rw⟩
def BLF_STATUS_STATE : Fld := ⟨R.BLF_STATUS, 15, 12, .ro⟩
def BLF_STATUS_ROLE_ACT : Fld := ⟨R.BLF_STATUS, 11, 10, .ro⟩
def BLF_STATUS_PARENT_PORT : Fld := ⟨R.BLF_STATUS, 9, 5, .ro⟩
def BLF_STATUS_PTP_VALID : Fld := ⟨R.BLF_STATUS, 4, 4, .ro⟩
def BLF_STATUS_BOUND_OK : Fld := ⟨R.BLF_STATUS, 3, 3, .ro⟩
def BLF_EVENT_CMD_MISSED : Fld := ⟨R.BLF_EVENT, 7, 7, .w1c⟩
def BLF_EVENT_CMD_LATE : Fld := ⟨R.BLF_EVENT, 6, 6, .w1c⟩
def BLF_EVENT_TIME_FAULT : Fld := ⟨R.BLF_EVENT, 5, 5, .w1c⟩
def BLF_EVENT_TIME_DRIFT : Fld := ⟨R.BLF_EVENT, 4, 4, .w1c⟩
def BLF_EVENT_HOLDOVER : Fld := ⟨R.BLF_EVENT, 3, 3, .w1c⟩
def BLF_EVENT_PARENT_LOST : Fld := ⟨R.BLF_EVENT, 2, 2, .w1c⟩
def BLF_EVENT_LOCK_GAINED : Fld := ⟨R.BLF_EVENT, 1, 1, .w1c⟩
def BLF_EVENT_PTP_LOST : Fld := ⟨R.BLF_EVENT, 0, 0, .w1c⟩
def BLF_SNAP_TICK_TICK : Fld := ⟨R.BLF_SNAP_TICK, 63, 0, .ro⟩
def BLF_SNAP_FRAC_FC_IN_FRAME : Fld := ⟨R.BLF_SNAP_FRAC, 28, 16, .ro⟩
def BLF_SNAP_FRAC_FRAC : Fld := ⟨R.BLF_SNAP_FRAC, 15, 0, .ro⟩
def BLF_EPOCH_TAI_EPOCH : Fld := ⟨R.BLF_EPOCH_TAI, 63, 0, .rwl⟩
def BLF_STEER_STEER : Fld := ⟨R.BLF_STEER, 31, 0, .ro⟩
def BLF_ERR_BOUND_PARENT_BOUND : Fld := ⟨R.BLF_ERR_BOUND, 31, 16, .ro⟩
def BLF_ERR_BOUND_BOUND : Fld := ⟨R.BLF_ERR_BOUND, 15, 0, .ro⟩
def BLF_PARENT_CAND3 : Fld := ⟨R.BLF_PARENT, 31, 24, .rwl⟩
def BLF_PARENT_CAND2 : Fld := ⟨R.BLF_PARENT, 23, 16, .rwl⟩
def BLF_PARENT_CAND1 : Fld := ⟨R.BLF_PARENT, 15, 8, .rwl⟩
def BLF_PARENT_CAND0 : Fld := ⟨R.BLF_PARENT, 7, 0, .rwl⟩
def BLF_LIMITS_FAULT_LIM : Fld := ⟨R.BLF_LIMITS, 47, 32, .rwl⟩
def BLF_LIMITS_DRIFT_LIM : Fld := ⟨R.BLF_LIMITS, 31, 16, .rwl⟩
def BLF_LIMITS_BOUND_LIM : Fld := ⟨R.BLF_LIMITS, 15, 0, .rwl⟩
def BLF_PTIME_OFS : Fld := ⟨R.BLF_PTIME, 63, 32, .ro⟩
def BLF_PTIME_RTT : Fld := ⟨R.BLF_PTIME, 31, 0, .ro⟩
def BLF_PCAL_ASYM_CFG : Fld := ⟨R.BLF_PCAL, 63, 48, .rwl⟩
def BLF_PCAL_LOC_TXRX : Fld := ⟨R.BLF_PCAL, 47, 32, .ro⟩
def BLF_PCAL_PEER_TXRX : Fld := ⟨R.BLF_PCAL, 31, 16, .ro⟩
def BLF_PCAL_PEER_LOCKED : Fld := ⟨R.BLF_PCAL, 1, 1, .ro⟩
def BLF_PCAL_VALID : Fld := ⟨R.BLF_PCAL, 0, 0, .ro⟩
def BLF_CMD_TICK_TICK : Fld := ⟨R.BLF_CMD_TICK, 63, 0, .rw⟩
def BLF_CMD_CTRL_ARG : Fld := ⟨R.BLF_CMD_CTRL, 63, 32, .rw⟩
def BLF_CMD_CTRL_STAT : Fld := ⟨R.BLF_CMD_CTRL, 19, 16, .ro⟩
def BLF_CMD_CTRL_KIND : Fld := ⟨R.BLF_CMD_CTRL, 15, 8, .rw⟩
def BLF_CMD_CTRL_CANCEL : Fld := ⟨R.BLF_CMD_CTRL, 1, 1, .wo⟩
def BLF_CMD_CTRL_ARM : Fld := ⟨R.BLF_CMD_CTRL, 0, 0, .wo⟩
def RGN_CLK_SNAP : Fld := ⟨R.RGN_CLK, 63, 63, .wo⟩
def RGN_CLK_PROT_LEVEL : Fld := ⟨R.RGN_CLK, 55, 48, .ro⟩
def RGN_CLK_ACT_STEP : Fld := ⟨R.RGN_CLK, 47, 40, .ro⟩
def RGN_CLK_RETUNE : Fld := ⟨R.RGN_CLK, 32, 32, .ro⟩
def RGN_CLK_MODE : Fld := ⟨R.RGN_CLK, 16, 16, .rwl⟩
def RGN_CLK_PLAN_STEP : Fld := ⟨R.RGN_CLK, 6, 0, .rwl⟩
def RGN_VMON_VMAX : Fld := ⟨R.RGN_VMON, 63, 48, .ro⟩
def RGN_VMON_VMIN : Fld := ⟨R.RGN_VMON, 47, 32, .ro⟩
def RGN_VMON_VOUT : Fld := ⟨R.RGN_VMON, 31, 16, .ro⟩
def RGN_VMON_MARGIN_MIN : Fld := ⟨R.RGN_VMON, 15, 8, .ro⟩
def RGN_VMON_VMAX_HIT : Fld := ⟨R.RGN_VMON, 1, 1, .ro⟩
def RGN_VMON_LOOP_EN : Fld := ⟨R.RGN_VMON, 0, 0, .rw⟩
def RGN_THERM_TS3 : Fld := ⟨R.RGN_THERM, 63, 48, .ro⟩
def RGN_THERM_TS2 : Fld := ⟨R.RGN_THERM, 47, 32, .ro⟩
def RGN_THERM_TS1 : Fld := ⟨R.RGN_THERM, 31, 16, .ro⟩
def RGN_THERM_TS0 : Fld := ⟨R.RGN_THERM, 15, 0, .ro⟩
def RGN_XCAL_LAT_PLAN : Fld := ⟨R.RGN_XCAL, 23, 20, .rwl⟩
def RGN_XCAL_LAT_ACT : Fld := ⟨R.RGN_XCAL, 19, 16, .ro⟩
def RGN_XCAL_PHASE : Fld := ⟨R.RGN_XCAL, 15, 8, .ro⟩
def RGN_XCAL_XCAL_LONG : Fld := ⟨R.RGN_XCAL, 3, 3, .ro⟩
def RGN_XCAL_XCAL_FAIL : Fld := ⟨R.RGN_XCAL, 2, 2, .ro⟩
def RGN_XCAL_ALIGN_DONE : Fld := ⟨R.RGN_XCAL, 1, 1, .ro⟩
def RGN_XCAL_XCAL_DONE : Fld := ⟨R.RGN_XCAL, 0, 0, .ro⟩
def RGN_XRAW_RAW : Fld := ⟨R.RGN_XRAW, 59, 0, .ro⟩
def RGN_FSTAT_MAX_SYNC_RC : Fld := ⟨R.RGN_FSTAT, 47, 32, .ro⟩
def RGN_FSTAT_LAST_SYNC_RC : Fld := ⟨R.RGN_FSTAT, 31, 16, .ro⟩
def RGN_FSTAT_LOST_RC : Fld := ⟨R.RGN_FSTAT, 15, 0, .ro⟩
def RGN_DROOP_CNT_WRAP : Fld := ⟨R.RGN_DROOP_CNT, 63, 48, .ro⟩
def RGN_DROOP_CNT_COUNT : Fld := ⟨R.RGN_DROOP_CNT, 47, 0, .ro⟩
def RGN_SWALLOW_CNT_WRAP : Fld := ⟨R.RGN_SWALLOW_CNT, 63, 48, .ro⟩
def RGN_SWALLOW_CNT_COUNT : Fld := ⟨R.RGN_SWALLOW_CNT, 47, 0, .ro⟩
def RGN_OVERRUN_CNT_WRAP : Fld := ⟨R.RGN_OVERRUN_CNT, 63, 48, .ro⟩
def RGN_OVERRUN_CNT_COUNT : Fld := ⟨R.RGN_OVERRUN_CNT, 47, 0, .ro⟩
def PLN_CTRL_SNAP : Fld := ⟨R.PLN_CTRL, 63, 63, .wo⟩
def PLN_CTRL_EVENT_EN : Fld := ⟨R.PLN_CTRL, 15, 8, .rw⟩
def PLN_CTRL_SLOT : Fld := ⟨R.PLN_CTRL, 5, 4, .rw⟩
def PLN_CTRL_CMD : Fld := ⟨R.PLN_CTRL, 1, 0, .wo⟩
def PLN_EVENT_HALT : Fld := ⟨R.PLN_EVENT, 7, 7, .w1c⟩
def PLN_EVENT_RETRY : Fld := ⟨R.PLN_EVENT, 6, 6, .w1c⟩
def PLN_EVENT_PFAULT : Fld := ⟨R.PLN_EVENT, 5, 5, .w1c⟩
def PLN_EVENT_SLIP : Fld := ⟨R.PLN_EVENT, 4, 4, .w1c⟩
def PLN_EVENT_ACT_FAIL : Fld := ⟨R.PLN_EVENT, 3, 3, .w1c⟩
def PLN_EVENT_ACT_DONE : Fld := ⟨R.PLN_EVENT, 2, 2, .w1c⟩
def PLN_EVENT_LOAD_FAIL : Fld := ⟨R.PLN_EVENT, 1, 1, .w1c⟩
def PLN_EVENT_LOAD_DONE : Fld := ⟨R.PLN_EVENT, 0, 0, .w1c⟩
def PLN_ACT_HANDLE : Fld := ⟨R.PLN_ACT, 63, 32, .ro⟩
def PLN_ACT_REASON : Fld := ⟨R.PLN_ACT, 23, 16, .ro⟩
def PLN_ACT_RESULT : Fld := ⟨R.PLN_ACT, 15, 12, .ro⟩
def PLN_ACT_FRAME_FRAME : Fld := ⟨R.PLN_ACT_FRAME, 63, 0, .ro⟩
def PLN_SLIP_CNT_WRAP : Fld := ⟨R.PLN_SLIP_CNT, 63, 48, .ro⟩
def PLN_SLIP_CNT_COUNT : Fld := ⟨R.PLN_SLIP_CNT, 47, 0, .ro⟩
def PLN_PFAULT_CNT_OVF : Fld := ⟨R.PLN_PFAULT_CNT, 32, 32, .w1c⟩
def PLN_PFAULT_CNT_COUNT : Fld := ⟨R.PLN_PFAULT_CNT, 31, 0, .ro⟩
def PLN_SLIP_LAST_LATENESS : Fld := ⟨R.PLN_SLIP_LAST, 63, 48, .ro⟩
def PLN_SLIP_LAST_FRAME_LO : Fld := ⟨R.PLN_SLIP_LAST, 47, 32, .ro⟩
def PLN_SLIP_LAST_SITE : Fld := ⟨R.PLN_SLIP_LAST, 31, 24, .ro⟩
def PLN_SLIP_LAST_TENANCY : Fld := ⟨R.PLN_SLIP_LAST, 23, 20, .ro⟩
def PLN_SLIP_LAST_CAUSE : Fld := ⟨R.PLN_SLIP_LAST, 19, 16, .ro⟩
def PLN_SLIP_LAST_BEYOND : Fld := ⟨R.PLN_SLIP_LAST, 0, 0, .ro⟩
def PLN_SLOT_STAT_HANDLE : Fld := ⟨R.PLN_SLOT_STAT, 63, 32, .ro⟩
def PLN_SLOT_STAT_CODE : Fld := ⟨R.PLN_SLOT_STAT, 31, 16, .ro⟩
def PLN_SLOT_STAT_SECTION : Fld := ⟨R.PLN_SLOT_STAT, 15, 4, .ro⟩
def PLN_SLOT_STAT_STATE : Fld := ⟨R.PLN_SLOT_STAT, 2, 0, .ro⟩
def PLN_SLOT_ID_PLAN_ID : Fld := ⟨R.PLN_SLOT_ID, 63, 0, .ro⟩
def PLN_SLOT_DETAIL_DETAIL : Fld := ⟨R.PLN_SLOT_DETAIL, 63, 0, .ro⟩
def PLN_TEN_STAT_PKEY : Fld := ⟨R.PLN_TEN_STAT, 63, 48, .ro⟩
def PLN_TEN_STAT_RETRIES : Fld := ⟨R.PLN_TEN_STAT, 47, 44, .ro⟩
def PLN_TEN_STAT_STATE : Fld := ⟨R.PLN_TEN_STAT, 35, 32, .ro⟩
def PLN_TEN_STAT_RESTART_FRAME : Fld := ⟨R.PLN_TEN_STAT, 31, 0, .ro⟩
def PLN_TEN_STEP_STEP : Fld := ⟨R.PLN_TEN_STEP, 63, 0, .ro⟩
def CEL_CTRL_SNAP : Fld := ⟨R.CEL_CTRL, 63, 63, .wo⟩
def CEL_CTRL_EVENT_EN : Fld := ⟨R.CEL_CTRL, 23, 16, .rw⟩
def CEL_CTRL_STRICT : Fld := ⟨R.CEL_CTRL, 8, 8, .rwl⟩
def CEL_CTRL_CMD : Fld := ⟨R.CEL_CTRL, 2, 0, .wo⟩
def CEL_STATUS_FPOS : Fld := ⟨R.CEL_STATUS, 63, 48, .ro⟩
def CEL_STATUS_CFRAME : Fld := ⟨R.CEL_STATUS, 47, 32, .ro⟩
def CEL_STATUS_WHY : Fld := ⟨R.CEL_STATUS, 7, 4, .ro⟩
def CEL_STATUS_STATE : Fld := ⟨R.CEL_STATUS, 3, 0, .ro⟩
def CEL_PC_ENTRY : Fld := ⟨R.CEL_PC, 51, 32, .rwl⟩
def CEL_PC_PC : Fld := ⟨R.CEL_PC, 19, 0, .ro⟩
def CEL_PROG_LIMIT : Fld := ⟨R.CEL_PROG, 52, 32, .rwl⟩
def CEL_PROG_BASE : Fld := ⟨R.CEL_PROG, 19, 0, .rwl⟩
def CEL_FAULT_CODE : Fld := ⟨R.CEL_FAULT, 63, 48, .ro⟩
def CEL_FAULT_SLOT : Fld := ⟨R.CEL_FAULT, 47, 44, .ro⟩
def CEL_FAULT_RESOURCE : Fld := ⟨R.CEL_FAULT, 43, 32, .ro⟩
def CEL_FAULT_PC : Fld := ⟨R.CEL_FAULT, 19, 0, .ro⟩
def CEL_GUARD_LAST_LEN : Fld := ⟨R.CEL_GUARD_LAST, 63, 48, .ro⟩
def CEL_GUARD_LAST_KIND : Fld := ⟨R.CEL_GUARD_LAST, 47, 44, .ro⟩
def CEL_GUARD_LAST_RESOURCE : Fld := ⟨R.CEL_GUARD_LAST, 43, 32, .ro⟩
def CEL_GUARD_LAST_PC : Fld := ⟨R.CEL_GUARD_LAST, 19, 0, .ro⟩
def CEL_ISSUE_CNT_WRAP : Fld := ⟨R.CEL_ISSUE_CNT, 63, 48, .ro⟩
def CEL_ISSUE_CNT_COUNT : Fld := ⟨R.CEL_ISSUE_CNT, 47, 0, .ro⟩
def CEL_FETCH_CNT_WRAP : Fld := ⟨R.CEL_FETCH_CNT, 63, 48, .ro⟩
def CEL_FETCH_CNT_COUNT : Fld := ⟨R.CEL_FETCH_CNT, 47, 0, .ro⟩
def CEL_GUARD_CNT_WRAP : Fld := ⟨R.CEL_GUARD_CNT, 63, 48, .ro⟩
def CEL_GUARD_CNT_COUNT : Fld := ⟨R.CEL_GUARD_CNT, 47, 0, .ro⟩
def CEL_WAIT_CNT_WRAP : Fld := ⟨R.CEL_WAIT_CNT, 63, 48, .ro⟩
def CEL_WAIT_CNT_COUNT : Fld := ⟨R.CEL_WAIT_CNT, 47, 0, .ro⟩
def CEL_FRAME_STAT_SYNC_POS : Fld := ⟨R.CEL_FRAME_STAT, 63, 48, .ro⟩
def CEL_FRAME_STAT_GUARD_RC : Fld := ⟨R.CEL_FRAME_STAT, 47, 32, .ro⟩
def CEL_FRAME_STAT_WAIT_RC : Fld := ⟨R.CEL_FRAME_STAT, 31, 16, .ro⟩
def CEL_EVENT_SYNC_LATE : Fld := ⟨R.CEL_EVENT, 3, 3, .w1c⟩
def CEL_EVENT_STOPPED : Fld := ⟨R.CEL_EVENT, 2, 2, .w1c⟩
def CEL_EVENT_GUARD : Fld := ⟨R.CEL_EVENT, 1, 1, .w1c⟩
def CEL_EVENT_FAULT : Fld := ⟨R.CEL_EVENT, 0, 0, .w1c⟩
def CEL_TALLY_VALUE : Fld := ⟨R.CEL_TALLY, 15, 0, .ro⟩
def CEL_TALLY_ADD_TALLY : Fld := ⟨R.CEL_TALLY_ADD, 19, 16, .wo⟩
def CEL_TALLY_ADD_N : Fld := ⟨R.CEL_TALLY_ADD, 15, 0, .wo⟩
def CEL_BANK_WE : Fld := ⟨R.CEL_BANK, 53, 44, .ro⟩
def CEL_BANK_MQ : Fld := ⟨R.CEL_BANK, 39, 38, .ro⟩
def CEL_BANK_NQ : Fld := ⟨R.CEL_BANK, 37, 36, .ro⟩
def CEL_BANK_MODE : Fld := ⟨R.CEL_BANK, 32, 32, .ro⟩
def CEL_BANK_OVER_SEEN : Fld := ⟨R.CEL_BANK, 4, 4, .ro⟩
def CEL_BANK_HIGH_SEEN : Fld := ⟨R.CEL_BANK, 3, 3, .ro⟩
def CEL_BANK_LOW_SEEN : Fld := ⟨R.CEL_BANK, 2, 2, .ro⟩
def CEL_BANK_SPECIAL_SEEN : Fld := ⟨R.CEL_BANK, 1, 1, .ro⟩
def CEL_ESC_CNT_WRAP : Fld := ⟨R.CEL_ESC_CNT, 63, 48, .ro⟩
def CEL_ESC_CNT_COUNT : Fld := ⟨R.CEL_ESC_CNT, 47, 0, .ro⟩
def CEL_MTX_EVENT_NAN_OUT : Fld := ⟨R.CEL_MTX_EVENT, 4, 4, .w1c⟩
def CEL_MTX_EVENT_MISMATCH : Fld := ⟨R.CEL_MTX_EVENT, 3, 3, .w1c⟩
def CEL_MTX_EVENT_OVER : Fld := ⟨R.CEL_MTX_EVENT, 2, 2, .w1c⟩
def CEL_MTX_EVENT_HIGH : Fld := ⟨R.CEL_MTX_EVENT, 1, 1, .w1c⟩
def CEL_MTX_EVENT_LOW : Fld := ⟨R.CEL_MTX_EVENT, 0, 0, .w1c⟩
def CEL_MTX_CTRL_EVENT_EN : Fld := ⟨R.CEL_MTX_CTRL, 15, 8, .rw⟩
def CEL_MTX_CTRL_FAULT_OVER : Fld := ⟨R.CEL_MTX_CTRL, 1, 1, .rwl⟩
def CEL_MTX_CTRL_FAULT_HIGH : Fld := ⟨R.CEL_MTX_CTRL, 0, 0, .rwl⟩
def CEL_VEC_EVENT_NAN_DROP : Fld := ⟨R.CEL_VEC_EVENT, 5, 5, .w1c⟩
def CEL_VEC_EVENT_QSAT : Fld := ⟨R.CEL_VEC_EVENT, 4, 4, .w1c⟩
def CEL_VEC_EVENT_NORM_ZERO : Fld := ⟨R.CEL_VEC_EVENT, 3, 3, .w1c⟩
def CEL_VEC_EVENT_ROW_INF : Fld := ⟨R.CEL_VEC_EVENT, 2, 2, .w1c⟩
def CEL_VEC_EVENT_ROW_NAN : Fld := ⟨R.CEL_VEC_EVENT, 1, 1, .w1c⟩
def CEL_VEC_EVENT_EMPTY : Fld := ⟨R.CEL_VEC_EVENT, 0, 0, .w1c⟩
def CEL_VEC_CTRL_EVENT_EN : Fld := ⟨R.CEL_VEC_CTRL, 15, 8, .rw⟩
def CEL_ROW_CNT_WRAP : Fld := ⟨R.CEL_ROW_CNT, 63, 48, .ro⟩
def CEL_ROW_CNT_COUNT : Fld := ⟨R.CEL_ROW_CNT, 47, 0, .ro⟩
def VLT_CTRL_SNAP : Fld := ⟨R.VLT_CTRL, 63, 63, .wo⟩
def VLT_CTRL_EVENT_EN : Fld := ⟨R.VLT_CTRL, 15, 8, .rw⟩
def VLT_CTRL_SCRUB_EN : Fld := ⟨R.VLT_CTRL, 0, 0, .rw⟩
def VLT_STATUS_TEMP : Fld := ⟨R.VLT_STATUS, 63, 48, .ro⟩
def VLT_STATUS_BAND : Fld := ⟨R.VLT_STATUS, 7, 6, .ro⟩
def VLT_STATUS_READY : Fld := ⟨R.VLT_STATUS, 0, 0, .ro⟩
def VLT_EVENT_READY : Fld := ⟨R.VLT_EVENT, 7, 7, .w1c⟩
def VLT_EVENT_MISMATCH : Fld := ⟨R.VLT_EVENT, 6, 6, .w1c⟩
def VLT_EVENT_VAULT_HOT : Fld := ⟨R.VLT_EVENT, 5, 5, .w1c⟩
def VLT_EVENT_CRING_DROP : Fld := ⟨R.VLT_EVENT, 4, 4, .w1c⟩
def VLT_EVENT_ENGINE_CMD : Fld := ⟨R.VLT_EVENT, 3, 3, .w1c⟩
def VLT_EVENT_ENGINE_QFULL : Fld := ⟨R.VLT_EVENT, 2, 2, .w1c⟩
def VLT_EVENT_MEM_UE : Fld := ⟨R.VLT_EVENT, 1, 1, .w1c⟩
def VLT_EVENT_MEM_CE : Fld := ⟨R.VLT_EVENT, 0, 0, .w1c⟩
def VLT_ECC_CE_CNT_OVF : Fld := ⟨R.VLT_ECC_CE_CNT, 32, 32, .w1c⟩
def VLT_ECC_CE_CNT_COUNT : Fld := ⟨R.VLT_ECC_CE_CNT, 31, 0, .ro⟩
def VLT_ECC_UE_CNT_OVF : Fld := ⟨R.VLT_ECC_UE_CNT, 32, 32, .w1c⟩
def VLT_ECC_UE_CNT_COUNT : Fld := ⟨R.VLT_ECC_UE_CNT, 31, 0, .ro⟩
def VLT_ECC_LAST_UE : Fld := ⟨R.VLT_ECC_LAST, 63, 63, .ro⟩
def VLT_ECC_LAST_ADDR : Fld := ⟨R.VLT_ECC_LAST, 38, 0, .ro⟩
def VLT_SUPPRESS_CNT_WRAP : Fld := ⟨R.VLT_SUPPRESS_CNT, 63, 48, .ro⟩
def VLT_SUPPRESS_CNT_COUNT : Fld := ⟨R.VLT_SUPPRESS_CNT, 47, 0, .ro⟩
def VLT_MISMATCH_CNT_WRAP : Fld := ⟨R.VLT_MISMATCH_CNT, 63, 48, .ro⟩
def VLT_MISMATCH_CNT_COUNT : Fld := ⟨R.VLT_MISMATCH_CNT, 47, 0, .ro⟩
def VLT_OOB_CNT_WRAP : Fld := ⟨R.VLT_OOB_CNT, 63, 48, .ro⟩
def VLT_OOB_CNT_COUNT : Fld := ⟨R.VLT_OOB_CNT, 47, 0, .ro⟩
def VLT_ENG_STAT_LAST_OP : Fld := ⟨R.VLT_ENG_STAT, 63, 56, .ro⟩
def VLT_ENG_STAT_UQ : Fld := ⟨R.VLT_ENG_STAT, 22, 16, .ro⟩
def VLT_ENG_STAT_SQ : Fld := ⟨R.VLT_ENG_STAT, 12, 8, .ro⟩
def VLT_ENG_STAT_STATE : Fld := ⟨R.VLT_ENG_STAT, 1, 0, .ro⟩
def VLT_ENG_ACT_WRAP : Fld := ⟨R.VLT_ENG_ACT, 63, 48, .ro⟩
def VLT_ENG_ACT_COUNT : Fld := ⟨R.VLT_ENG_ACT, 47, 0, .ro⟩
def VLT_CRING_PROD : Fld := ⟨R.VLT_CRING, 55, 32, .ro⟩
def VLT_CRING_CONS : Fld := ⟨R.VLT_CRING, 23, 0, .rw⟩
def VLT_CRING_DROP_OVF : Fld := ⟨R.VLT_CRING_DROP, 32, 32, .w1c⟩
def VLT_CRING_DROP_COUNT : Fld := ⟨R.VLT_CRING_DROP, 31, 0, .ro⟩
def CEL_DESC_BASE : Fld := ⟨R.CEL_DESC, 19, 0, .rwl⟩
def BLK_STW_CTRL_STATE : Fld := ⟨R.BLK_STW_CTRL, 9, 8, .ro⟩
def BLK_STW_CTRL_HALT : Fld := ⟨R.BLK_STW_CTRL, 1, 1, .rw⟩
def BLK_STW_CTRL_RESET : Fld := ⟨R.BLK_STW_CTRL, 0, 0, .wo⟩
def BLK_STW_WDOG_EXPIRED : Fld := ⟨R.BLK_STW_WDOG, 32, 32, .ro⟩
def BLK_STW_WDOG_LIMIT : Fld := ⟨R.BLK_STW_WDOG, 31, 1, .rw⟩
def BLK_STW_WDOG_KICK : Fld := ⟨R.BLK_STW_WDOG, 0, 0, .wo⟩
def BLK_MBOX_CTRL_SEQ : Fld := ⟨R.BLK_MBOX_CTRL, 31, 16, .ro⟩
def BLK_MBOX_CTRL_LOST : Fld := ⟨R.BLK_MBOX_CTRL, 8, 8, .w1c⟩
def BLK_MBOX_CTRL_OWNER : Fld := ⟨R.BLK_MBOX_CTRL, 5, 4, .ro⟩
def BLK_MBOX_CTRL_CMD : Fld := ⟨R.BLK_MBOX_CTRL, 1, 0, .wo⟩
def BLK_MBOX_DATA_DATA : Fld := ⟨R.BLK_MBOX_DATA, 63, 0, .rw⟩
def MOD_MBOX_PEND_PEND : Fld := ⟨R.MOD_MBOX_PEND, 63, 0, .ro⟩
def LNK_CTRL_SNAP : Fld := ⟨R.LNK_CTRL, 63, 63, .wo⟩
def LNK_CTRL_EVENT_EN : Fld := ⟨R.LNK_CTRL, 26, 16, .rw⟩
def LNK_CTRL_REPLAY_MAX : Fld := ⟨R.LNK_CTRL, 15, 12, .rw⟩
def LNK_CTRL_VER_MAX : Fld := ⟨R.LNK_CTRL, 11, 10, .rw⟩
def LNK_CTRL_AUTO_TRAIN : Fld := ⟨R.LNK_CTRL, 9, 9, .rw⟩
def LNK_CTRL_HALF_EN : Fld := ⟨R.LNK_CTRL, 8, 8, .rw⟩
def LNK_CTRL_CMD : Fld := ⟨R.LNK_CTRL, 3, 1, .wo⟩
def LNK_CTRL_ENABLE : Fld := ⟨R.LNK_CTRL, 0, 0, .rw⟩
def LNK_STATUS_PEER_ID : Fld := ⟨R.LNK_STATUS, 63, 50, .ro⟩
def LNK_STATUS_PEER_PORT : Fld := ⟨R.LNK_STATUS, 49, 45, .ro⟩
def LNK_STATUS_PROBATION : Fld := ⟨R.LNK_STATUS, 44, 44, .ro⟩
def LNK_STATUS_VERSION : Fld := ⟨R.LNK_STATUS, 43, 42, .ro⟩
def LNK_STATUS_RX_HALF : Fld := ⟨R.LNK_STATUS, 41, 41, .ro⟩
def LNK_STATUS_TX_HALF : Fld := ⟨R.LNK_STATUS, 40, 40, .ro⟩
def LNK_STATUS_RX_WIDTH : Fld := ⟨R.LNK_STATUS, 39, 38, .ro⟩
def LNK_STATUS_TX_WIDTH : Fld := ⟨R.LNK_STATUS, 37, 36, .ro⟩
def LNK_STATUS_HALF_OVER : Fld := ⟨R.LNK_STATUS, 35, 35, .ro⟩
def LNK_STATUS_PLL : Fld := ⟨R.LNK_STATUS, 34, 32, .ro⟩
def LNK_STATUS_LAST_CODE : Fld := ⟨R.LNK_STATUS, 31, 16, .ro⟩
def LNK_STATUS_RETIRED : Fld := ⟨R.LNK_STATUS, 15, 15, .ro⟩
def LNK_STATUS_STATE : Fld := ⟨R.LNK_STATUS, 3, 0, .ro⟩
def LNK_EVENT_TRAIN_FAIL : Fld := ⟨R.LNK_EVENT, 10, 10, .w1c⟩
def LNK_EVENT_HALF_OVER : Fld := ⟨R.LNK_EVENT, 9, 9, .w1c⟩
def LNK_EVENT_CTL_BAD : Fld := ⟨R.LNK_EVENT, 8, 8, .w1c⟩
def LNK_EVENT_PLL_DRIFT : Fld := ⟨R.LNK_EVENT, 7, 7, .w1c⟩
def LNK_EVENT_CREDIT_VIOL : Fld := ⟨R.LNK_EVENT, 6, 6, .w1c⟩
def LNK_EVENT_ACTIVE : Fld := ⟨R.LNK_EVENT, 5, 5, .w1c⟩
def LNK_EVENT_DOWN : Fld := ⟨R.LNK_EVENT, 4, 4, .w1c⟩
def LNK_EVENT_LANE_LOSS : Fld := ⟨R.LNK_EVENT, 3, 3, .w1c⟩
def LNK_EVENT_RETRAIN : Fld := ⟨R.LNK_EVENT, 2, 2, .w1c⟩
def LNK_EVENT_REPLAY : Fld := ⟨R.LNK_EVENT, 1, 1, .w1c⟩
def LNK_EVENT_PARITY : Fld := ⟨R.LNK_EVENT, 0, 0, .w1c⟩
def LNK_LANES_REVERSED : Fld := ⟨R.LNK_LANES, 48, 48, .ro⟩
def LNK_LANES_POLARITY : Fld := ⟨R.LNK_LANES, 47, 32, .ro⟩
def LNK_LANES_TX_GOOD : Fld := ⟨R.LNK_LANES, 31, 16, .ro⟩
def LNK_LANES_RX_GOOD : Fld := ⟨R.LNK_LANES, 15, 0, .ro⟩
def LNK_SEQ_REPLAYS : Fld := ⟨R.LNK_SEQ, 63, 60, .ro⟩
def LNK_SEQ_REPLAY_FROM : Fld := ⟨R.LNK_SEQ, 59, 46, .ro⟩
def LNK_SEQ_RX_EXPECT : Fld := ⟨R.LNK_SEQ, 45, 32, .ro⟩
def LNK_SEQ_DISCARD : Fld := ⟨R.LNK_SEQ, 31, 31, .ro⟩
def LNK_SEQ_TX_ACKED : Fld := ⟨R.LNK_SEQ, 27, 14, .ro⟩
def LNK_SEQ_TX_NEXT : Fld := ⟨R.LNK_SEQ, 13, 0, .ro⟩
def LNK_LAG_LAG_MAX : Fld := ⟨R.LNK_LAG, 63, 48, .ro⟩
def LNK_LAG_LATE_MAX : Fld := ⟨R.LNK_LAG, 47, 32, .ro⟩
def LNK_LAG_CAUSE : Fld := ⟨R.LNK_LAG, 31, 28, .ro⟩
def LNK_LAG_LAG : Fld := ⟨R.LNK_LAG, 15, 0, .ro⟩
def LNK_SCHED_SCHED_MAX : Fld := ⟨R.LNK_SCHED, 47, 32, .ro⟩
def LNK_SCHED_CARRY_UT : Fld := ⟨R.LNK_SCHED, 15, 0, .rwl⟩
def LNK_PLL_TEMP : Fld := ⟨R.LNK_PLL, 63, 48, .ro⟩
def LNK_PLL_TEMP_CAL : Fld := ⟨R.LNK_PLL, 47, 32, .ro⟩
def LNK_PLL_DRIFT : Fld := ⟨R.LNK_PLL, 0, 0, .ro⟩
def LNK_CREDIT_TX_HDR_LIM : Fld := ⟨R.LNK_CREDIT_TX, 63, 48, .ro⟩
def LNK_CREDIT_TX_HDR_CONS : Fld := ⟨R.LNK_CREDIT_TX, 47, 32, .ro⟩
def LNK_CREDIT_TX_DATA_LIM : Fld := ⟨R.LNK_CREDIT_TX, 31, 16, .ro⟩
def LNK_CREDIT_TX_DATA_CONS : Fld := ⟨R.LNK_CREDIT_TX, 15, 0, .ro⟩
def LNK_CREDIT_RX_HDR_CAP : Fld := ⟨R.LNK_CREDIT_RX, 63, 48, .ro⟩
def LNK_CREDIT_RX_HDR_FREED : Fld := ⟨R.LNK_CREDIT_RX, 47, 32, .ro⟩
def LNK_CREDIT_RX_DATA_CAP : Fld := ⟨R.LNK_CREDIT_RX, 31, 16, .ro⟩
def LNK_CREDIT_RX_DATA_FREED : Fld := ⟨R.LNK_CREDIT_RX, 15, 0, .ro⟩
def LNK_TEST_STATUS : Fld := ⟨R.LNK_TEST, 39, 32, .ro⟩
def LNK_TEST_LANES : Fld := ⟨R.LNK_TEST, 31, 16, .rw⟩
def LNK_TEST_PATTERN : Fld := ⟨R.LNK_TEST, 11, 8, .rw⟩
def LNK_TEST_CMD : Fld := ⟨R.LNK_TEST, 1, 0, .wo⟩
def LNK_TEST_ERR_OVF : Fld := ⟨R.LNK_TEST_ERR, 32, 32, .w1c⟩
def LNK_TEST_ERR_COUNT : Fld := ⟨R.LNK_TEST_ERR, 31, 0, .ro⟩
def LNK_PARITY_CNT_OVF : Fld := ⟨R.LNK_PARITY_CNT, 32, 32, .w1c⟩
def LNK_PARITY_CNT_COUNT : Fld := ⟨R.LNK_PARITY_CNT, 31, 0, .ro⟩
def LNK_REPLAY_CNT_OVF : Fld := ⟨R.LNK_REPLAY_CNT, 32, 32, .w1c⟩
def LNK_REPLAY_CNT_COUNT : Fld := ⟨R.LNK_REPLAY_CNT, 31, 0, .ro⟩
def LNK_RETRAIN_CNT_OVF : Fld := ⟨R.LNK_RETRAIN_CNT, 32, 32, .w1c⟩
def LNK_RETRAIN_CNT_COUNT : Fld := ⟨R.LNK_RETRAIN_CNT, 31, 0, .ro⟩
def LNK_DOWN_CNT_OVF : Fld := ⟨R.LNK_DOWN_CNT, 32, 32, .w1c⟩
def LNK_DOWN_CNT_COUNT : Fld := ⟨R.LNK_DOWN_CNT, 31, 0, .ro⟩
def LNK_CTLBAD_CNT_OVF : Fld := ⟨R.LNK_CTLBAD_CNT, 32, 32, .w1c⟩
def LNK_CTLBAD_CNT_COUNT : Fld := ⟨R.LNK_CTLBAD_CNT, 31, 0, .ro⟩
def LNK_CARRY_CNT_WRAP : Fld := ⟨R.LNK_CARRY_CNT, 63, 48, .ro⟩
def LNK_CARRY_CNT_COUNT : Fld := ⟨R.LNK_CARRY_CNT, 47, 0, .ro⟩
def LNK_TX_UNITS_WRAP : Fld := ⟨R.LNK_TX_UNITS, 63, 48, .ro⟩
def LNK_TX_UNITS_COUNT : Fld := ⟨R.LNK_TX_UNITS, 47, 0, .ro⟩
def LNK_RX_UNITS_WRAP : Fld := ⟨R.LNK_RX_UNITS, 63, 48, .ro⟩
def LNK_RX_UNITS_COUNT : Fld := ⟨R.LNK_RX_UNITS, 47, 0, .ro⟩
def MOD_NI_CTRL_SNAP : Fld := ⟨R.MOD_NI_CTRL, 63, 63, .wo⟩
def MOD_NI_CTRL_EVENT_EN : Fld := ⟨R.MOD_NI_CTRL, 47, 40, .rw⟩
def MOD_NI_CTRL_RESEND_MAX : Fld := ⟨R.MOD_NI_CTRL, 39, 36, .rw⟩
def MOD_NI_CTRL_RESEND_TO : Fld := ⟨R.MOD_NI_CTRL, 31, 16, .rw⟩
def MOD_NI_CTRL_HOLD : Fld := ⟨R.MOD_NI_CTRL, 0, 0, .rw⟩
def MOD_NI_STATUS_RECORDS : Fld := ⟨R.MOD_NI_STATUS, 47, 32, .ro⟩
def MOD_NI_STATUS_FILTER : Fld := ⟨R.MOD_NI_STATUS, 31, 16, .ro⟩
def MOD_NI_STATUS_NOTICES : Fld := ⟨R.MOD_NI_STATUS, 15, 8, .ro⟩
def MOD_NI_STATUS_HELD : Fld := ⟨R.MOD_NI_STATUS, 0, 0, .ro⟩
def MOD_NI_EVENT_MESH : Fld := ⟨R.MOD_NI_EVENT, 7, 7, .w1c⟩
def MOD_NI_EVENT_NOTICE_DROP : Fld := ⟨R.MOD_NI_EVENT, 6, 6, .w1c⟩
def MOD_NI_EVENT_E2E_REFUSED : Fld := ⟨R.MOD_NI_EVENT, 5, 5, .w1c⟩
def MOD_NI_EVENT_E2E_GIVEUP : Fld := ⟨R.MOD_NI_EVENT, 4, 4, .w1c⟩
def MOD_NI_EVENT_E2E_CRC : Fld := ⟨R.MOD_NI_EVENT, 3, 3, .w1c⟩
def MOD_NI_EVENT_HOP_LIMIT : Fld := ⟨R.MOD_NI_EVENT, 2, 2, .w1c⟩
def MOD_NI_EVENT_NO_ROUTE : Fld := ⟨R.MOD_NI_EVENT, 1, 1, .w1c⟩
def MOD_NI_EVENT_PKEY_DROP : Fld := ⟨R.MOD_NI_EVENT, 0, 0, .w1c⟩
def MOD_NI_SEND_PKEY : Fld := ⟨R.MOD_NI_SEND, 63, 48, .wo⟩
def MOD_NI_SEND_ADDR : Fld := ⟨R.MOD_NI_SEND, 38, 0, .wo⟩
def MOD_NI_DONE_WRAP : Fld := ⟨R.MOD_NI_DONE, 63, 48, .ro⟩
def MOD_NI_DONE_COUNT : Fld := ⟨R.MOD_NI_DONE, 47, 0, .ro⟩
def MOD_MESH_LAST_MSLOT : Fld := ⟨R.MOD_MESH_LAST, 63, 48, .ro⟩
def MOD_MESH_LAST_SITE : Fld := ⟨R.MOD_MESH_LAST, 47, 40, .ro⟩
def MOD_MESH_LAST_TENANCY : Fld := ⟨R.MOD_MESH_LAST, 39, 36, .ro⟩
def MOD_MESH_LAST_CODE : Fld := ⟨R.MOD_MESH_LAST, 31, 16, .ro⟩
def MOD_MESH_LAST_FC : Fld := ⟨R.MOD_MESH_LAST, 15, 0, .ro⟩
def MOD_NI_CNT_OVF : Fld := ⟨R.MOD_NI_CNT, 32, 32, .w1c⟩
def MOD_NI_CNT_COUNT : Fld := ⟨R.MOD_NI_CNT, 31, 0, .ro⟩
def MOD_RANK_E3 : Fld := ⟨R.MOD_RANK, 63, 48, .rwl⟩
def MOD_RANK_E2 : Fld := ⟨R.MOD_RANK, 47, 32, .rwl⟩
def MOD_RANK_E1 : Fld := ⟨R.MOD_RANK, 31, 16, .rwl⟩
def MOD_RANK_E0 : Fld := ⟨R.MOD_RANK, 15, 0, .rwl⟩
def LNK_PEER_EXP_EN : Fld := ⟨R.LNK_PEER_EXP, 16, 16, .rwl⟩
def LNK_PEER_EXP_ID : Fld := ⟨R.LNK_PEER_EXP, 13, 0, .rwl⟩
def LNK_FAB_VC1_HELD : Fld := ⟨R.LNK_FAB, 47, 32, .ro⟩
def LNK_FAB_DRAINED : Fld := ⟨R.LNK_FAB, 0, 0, .ro⟩
def LNK_PKEY_CNT_OVF : Fld := ⟨R.LNK_PKEY_CNT, 32, 32, .w1c⟩
def LNK_PKEY_CNT_COUNT : Fld := ⟨R.LNK_PKEY_CNT, 31, 0, .ro⟩
def LNK_ROUTE_E3 : Fld := ⟨R.LNK_ROUTE, 63, 48, .rwl⟩
def LNK_ROUTE_E2 : Fld := ⟨R.LNK_ROUTE, 47, 32, .rwl⟩
def LNK_ROUTE_E1 : Fld := ⟨R.LNK_ROUTE, 31, 16, .rwl⟩
def LNK_ROUTE_E0 : Fld := ⟨R.LNK_ROUTE, 15, 0, .rwl⟩
def MOD_WGT_CTRL_SNAP : Fld := ⟨R.MOD_WGT_CTRL, 63, 63, .wo⟩
def MOD_WGT_CTRL_EVENT_EN : Fld := ⟨R.MOD_WGT_CTRL, 47, 40, .rw⟩
def MOD_WGT_CTRL_LIMIT : Fld := ⟨R.MOD_WGT_CTRL, 31, 16, .rw⟩
def MOD_WGT_CTRL_IMG : Fld := ⟨R.MOD_WGT_CTRL, 15, 15, .rw⟩
def MOD_WGT_CTRL_SLOT : Fld := ⟨R.MOD_WGT_CTRL, 14, 13, .rw⟩
def MOD_WGT_CTRL_SRC_OVR : Fld := ⟨R.MOD_WGT_CTRL, 12, 12, .rw⟩
def MOD_WGT_CTRL_TENANCY : Fld := ⟨R.MOD_WGT_CTRL, 11, 8, .rw⟩
def MOD_WGT_CTRL_BANK : Fld := ⟨R.MOD_WGT_CTRL, 4, 4, .rw⟩
def MOD_WGT_CTRL_CMD : Fld := ⟨R.MOD_WGT_CTRL, 1, 0, .wo⟩
def MOD_WGT_STATUS_CODE : Fld := ⟨R.MOD_WGT_STATUS, 63, 48, .ro⟩
def MOD_WGT_STATUS_SHARD : Fld := ⟨R.MOD_WGT_STATUS, 47, 32, .ro⟩
def MOD_WGT_STATUS_OPEN : Fld := ⟨R.MOD_WGT_STATUS, 24, 16, .ro⟩
def MOD_WGT_STATUS_STATE : Fld := ⟨R.MOD_WGT_STATUS, 3, 0, .ro⟩
def MOD_WGT_EVENT_UNBOUND : Fld := ⟨R.MOD_WGT_EVENT, 4, 4, .w1c⟩
def MOD_WGT_EVENT_PROTECT : Fld := ⟨R.MOD_WGT_EVENT, 3, 3, .w1c⟩
def MOD_WGT_EVENT_SWITCH : Fld := ⟨R.MOD_WGT_EVENT, 2, 2, .w1c⟩
def MOD_WGT_EVENT_FAILED : Fld := ⟨R.MOD_WGT_EVENT, 1, 1, .w1c⟩
def MOD_WGT_EVENT_DONE : Fld := ⟨R.MOD_WGT_EVENT, 0, 0, .w1c⟩
def MOD_WGT_BYTES_WRAP : Fld := ⟨R.MOD_WGT_BYTES, 63, 48, .ro⟩
def MOD_WGT_BYTES_COUNT : Fld := ⟨R.MOD_WGT_BYTES, 47, 0, .ro⟩
def MOD_WGT_FWD_WRAP : Fld := ⟨R.MOD_WGT_FWD, 63, 48, .ro⟩
def MOD_WGT_FWD_COUNT : Fld := ⟨R.MOD_WGT_FWD, 47, 0, .ro⟩
def MOD_WGT_TEN_SW_STEP : Fld := ⟨R.MOD_WGT_TEN, 63, 40, .ro⟩
def MOD_WGT_TEN_SW : Fld := ⟨R.MOD_WGT_TEN, 34, 32, .ro⟩
def MOD_WGT_TEN_UNBOUND : Fld := ⟨R.MOD_WGT_TEN, 5, 5, .ro⟩
def MOD_WGT_TEN_VALID_B : Fld := ⟨R.MOD_WGT_TEN, 4, 4, .ro⟩
def MOD_WGT_TEN_VALID_A : Fld := ⟨R.MOD_WGT_TEN, 3, 3, .ro⟩
def MOD_WGT_TEN_BANK : Fld := ⟨R.MOD_WGT_TEN, 0, 0, .ro⟩
def TLR_CTRL_SNAP : Fld := ⟨R.TLR_CTRL, 63, 63, .wo⟩
def TLR_CTRL_EVENT_EN : Fld := ⟨R.TLR_CTRL, 15, 8, .rw⟩
def TLR_CTRL_ENABLE : Fld := ⟨R.TLR_CTRL, 0, 0, .rw⟩
def TLR_STATUS_LEAD : Fld := ⟨R.TLR_STATUS, 63, 63, .ro⟩
def TLR_STATUS_TENANCY : Fld := ⟨R.TLR_STATUS, 59, 56, .ro⟩
def TLR_STATUS_VARIANT : Fld := ⟨R.TLR_STATUS, 50, 48, .ro⟩
def TLR_STATUS_FREE : Fld := ⟨R.TLR_STATUS, 45, 32, .ro⟩
def TLR_STATUS_COMMIT_STEP : Fld := ⟨R.TLR_STATUS, 31, 0, .ro⟩
def TLR_EVENT_VARIANT : Fld := ⟨R.TLR_EVENT, 7, 7, .w1c⟩
def TLR_EVENT_RING_FAIL : Fld := ⟨R.TLR_EVENT, 6, 6, .w1c⟩
def TLR_EVENT_NOT_LEAD : Fld := ⟨R.TLR_EVENT, 5, 5, .w1c⟩
def TLR_EVENT_RESULT_BAD : Fld := ⟨R.TLR_EVENT, 4, 4, .w1c⟩
def TLR_EVENT_CQ_FULL : Fld := ⟨R.TLR_EVENT, 3, 3, .w1c⟩
def TLR_EVENT_FILL_LATE : Fld := ⟨R.TLR_EVENT, 2, 2, .w1c⟩
def TLR_EVENT_CQ_WRITTEN : Fld := ⟨R.TLR_EVENT, 1, 1, .w1c⟩
def TLR_EVENT_COMMIT : Fld := ⟨R.TLR_EVENT, 0, 0, .w1c⟩
def TLR_SQ_BASE_ADDR : Fld := ⟨R.TLR_SQ_BASE, 63, 6, .rwl⟩
def TLR_CQ_BASE_ADDR : Fld := ⟨R.TLR_CQ_BASE, 63, 6, .rwl⟩
def TLR_SQ_PTR_SIZE : Fld := ⟨R.TLR_SQ_PTR, 35, 32, .rwl⟩
def TLR_SQ_PTR_HEAD : Fld := ⟨R.TLR_SQ_PTR, 31, 16, .ro⟩
def TLR_SQ_PTR_TAIL : Fld := ⟨R.TLR_SQ_PTR, 15, 0, .rw⟩
def TLR_CQ_PTR_SIZE : Fld := ⟨R.TLR_CQ_PTR, 35, 32, .rwl⟩
def TLR_CQ_PTR_TAIL : Fld := ⟨R.TLR_CQ_PTR, 31, 16, .ro⟩
def TLR_CQ_PTR_HEAD : Fld := ⟨R.TLR_CQ_PTR, 15, 0, .rw⟩
def TLR_REQ_CMD_TAG : Fld := ⟨R.TLR_REQ_CMD, 63, 32, .rw⟩
def TLR_REQ_CMD_SLOT : Fld := ⟨R.TLR_REQ_CMD, 28, 16, .rw⟩
def TLR_REQ_CMD_STATUS : Fld := ⟨R.TLR_REQ_CMD, 5, 4, .ro⟩
def TLR_REQ_CMD_CMD : Fld := ⟨R.TLR_REQ_CMD, 1, 0, .wo⟩
def TLR_VARIANT_UPC : Fld := ⟨R.TLR_VARIANT, 31, 24, .ro⟩
def TLR_VARIANT_DNC : Fld := ⟨R.TLR_VARIANT, 23, 16, .ro⟩
def TLR_VARIANT_PIN_EN : Fld := ⟨R.TLR_VARIANT, 8, 8, .rw⟩
def TLR_VARIANT_PIN : Fld := ⟨R.TLR_VARIANT, 2, 0, .rw⟩
def TLR_SLOT_QUERY_SLOT : Fld := ⟨R.TLR_SLOT_QUERY, 60, 48, .rw⟩
def TLR_SLOT_QUERY_STATE : Fld := ⟨R.TLR_SLOT_QUERY, 47, 44, .ro⟩
def TLR_SLOT_QUERY_ACCOUNT : Fld := ⟨R.TLR_SLOT_QUERY, 39, 24, .ro⟩
def TLR_SLOT_QUERY_GENERATED : Fld := ⟨R.TLR_SLOT_QUERY, 23, 0, .ro⟩
def TLR_ACCT_CMD_ACCOUNT : Fld := ⟨R.TLR_ACCT_CMD, 47, 32, .rw⟩
def TLR_ACCT_CMD_CMD : Fld := ⟨R.TLR_ACCT_CMD, 1, 0, .wo⟩
def TLR_ACCT_DATA_DATA : Fld := ⟨R.TLR_ACCT_DATA, 63, 0, .rw⟩
def TLR_CNT_WRAP : Fld := ⟨R.TLR_CNT, 63, 48, .ro⟩
def TLR_CNT_COUNT : Fld := ⟨R.TLR_CNT, 47, 0, .ro⟩
def TLR_MASK_MASK : Fld := ⟨R.TLR_MASK, 63, 0, .ro⟩
def MOD_TALLY_SEED0_SEED : Fld := ⟨R.MOD_TALLY_SEED0, 63, 0, .rw⟩
def MOD_TALLY_SEED1_SEED : Fld := ⟨R.MOD_TALLY_SEED1, 63, 0, .rw⟩
def MOD_DET_CTRL_SNAP : Fld := ⟨R.MOD_DET_CTRL, 63, 63, .wo⟩
def MOD_DET_CTRL_CAPCLR : Fld := ⟨R.MOD_DET_CTRL, 62, 62, .wo⟩
def MOD_DET_CTRL_EVENT_EN : Fld := ⟨R.MOD_DET_CTRL, 55, 48, .rw⟩
def MOD_DET_CTRL_WAIT : Fld := ⟨R.MOD_DET_CTRL, 47, 40, .rw⟩
def MOD_DET_CTRL_ON_DIV : Fld := ⟨R.MOD_DET_CTRL, 37, 36, .rw⟩
def MOD_DET_CTRL_SEL : Fld := ⟨R.MOD_DET_CTRL, 35, 34, .rw⟩
def MOD_DET_CTRL_PARTNER : Fld := ⟨R.MOD_DET_CTRL, 29, 16, .rw⟩
def MOD_DET_CTRL_TENANCY : Fld := ⟨R.MOD_DET_CTRL, 11, 8, .rw⟩
def MOD_DET_CTRL_EN : Fld := ⟨R.MOD_DET_CTRL, 0, 0, .rw⟩
def MOD_DET_STATUS_LAST_STEP : Fld := ⟨R.MOD_DET_STATUS, 63, 24, .ro⟩
def MOD_DET_STATUS_LAST_CFRAME : Fld := ⟨R.MOD_DET_STATUS, 23, 8, .ro⟩
def MOD_DET_STATUS_PART_OK : Fld := ⟨R.MOD_DET_STATUS, 2, 2, .ro⟩
def MOD_DET_STATUS_CAPTURED : Fld := ⟨R.MOD_DET_STATUS, 1, 1, .ro⟩
def MOD_DET_STATUS_ACTIVE : Fld := ⟨R.MOD_DET_STATUS, 0, 0, .ro⟩
def MOD_DET_EVENT_MISSING : Fld := ⟨R.MOD_DET_EVENT, 2, 2, .w1c⟩
def MOD_DET_EVENT_DIVERGE : Fld := ⟨R.MOD_DET_EVENT, 1, 1, .w1c⟩
def MOD_DET_EVENT_MATCH : Fld := ⟨R.MOD_DET_EVENT, 0, 0, .w1c⟩
def MOD_DET_CAP_AT_STEP : Fld := ⟨R.MOD_DET_CAP_AT, 63, 24, .ro⟩
def MOD_DET_CAP_AT_CFRAME : Fld := ⟨R.MOD_DET_CAP_AT, 23, 8, .ro⟩
def MOD_DET_CAP_AT_RUN : Fld := ⟨R.MOD_DET_CAP_AT, 7, 0, .ro⟩
def MOD_DET_CAP_OWN_DIGEST : Fld := ⟨R.MOD_DET_CAP_OWN, 63, 0, .ro⟩
def MOD_DET_CAP_PEER_DIGEST : Fld := ⟨R.MOD_DET_CAP_PEER, 63, 0, .ro⟩
def MOD_DET_CNT_WRAP : Fld := ⟨R.MOD_DET_CNT, 63, 48, .ro⟩
def MOD_DET_CNT_COUNT : Fld := ⟨R.MOD_DET_CNT, 47, 0, .ro⟩
def MOD_DET_PSEL_AGE : Fld := ⟨R.MOD_DET_PSEL, 13, 8, .rw⟩
def MOD_DET_PSEL_SOURCE : Fld := ⟨R.MOD_DET_PSEL, 6, 0, .rw⟩
def MOD_DET_PDATA_PARTIAL : Fld := ⟨R.MOD_DET_PDATA, 63, 0, .ro⟩
def HST_ID_VENDOR : Fld := ⟨R.HST_ID, 63, 48, .ro⟩
def HST_ID_DEVICE : Fld := ⟨R.HST_ID, 47, 32, .ro⟩
def HST_ID_REV : Fld := ⟨R.HST_ID, 31, 24, .ro⟩
def HST_ID_CLASS : Fld := ⟨R.HST_ID, 23, 0, .ro⟩
def HST_IFVER_REG_MAJOR : Fld := ⟨R.HST_IFVER, 47, 40, .ro⟩
def HST_IFVER_REG_MINOR : Fld := ⟨R.HST_IFVER, 39, 32, .ro⟩
def HST_IFVER_MBOX_MAJOR : Fld := ⟨R.HST_IFVER, 31, 24, .ro⟩
def HST_IFVER_MBOX_MINOR : Fld := ⟨R.HST_IFVER, 23, 16, .ro⟩
def HST_IFVER_QUEUE_MAJOR : Fld := ⟨R.HST_IFVER, 15, 8, .ro⟩
def HST_IFVER_QUEUE_MINOR : Fld := ⟨R.HST_IFVER, 7, 0, .ro⟩
def HST_STATUS_RATE : Fld := ⟨R.HST_STATUS, 31, 28, .ro⟩
def HST_STATUS_WIDTH : Fld := ⟨R.HST_STATUS, 27, 23, .ro⟩
def HST_STATUS_FLIT : Fld := ⟨R.HST_STATUS, 22, 22, .ro⟩
def HST_STATUS_DSTATE : Fld := ⟨R.HST_STATUS, 21, 20, .ro⟩
def HST_STATUS_LSTATE : Fld := ⟨R.HST_STATUS, 19, 16, .ro⟩
def HST_STATUS_BME : Fld := ⟨R.HST_STATUS, 0, 0, .ro⟩
def HST_EVENT_REMOVAL : Fld := ⟨R.HST_EVENT, 7, 7, .w1c⟩
def HST_EVENT_WAKE_SAT : Fld := ⟨R.HST_EVENT, 6, 6, .w1c⟩
def HST_EVENT_FLR : Fld := ⟨R.HST_EVENT, 5, 5, .w1c⟩
def HST_EVENT_LINK_DOWN : Fld := ⟨R.HST_EVENT, 4, 4, .w1c⟩
def HST_EVENT_HWQ_FULL : Fld := ⟨R.HST_EVENT, 3, 3, .w1c⟩
def HST_EVENT_MBOX_REFUSED : Fld := ⟨R.HST_EVENT, 2, 2, .w1c⟩
def HST_EVENT_MBOX_DOOR : Fld := ⟨R.HST_EVENT, 1, 1, .w1c⟩
def HST_EVENT_BUS_ERR : Fld := ⟨R.HST_EVENT, 0, 0, .w1c⟩
def HST_CTRL_EVENT_EN : Fld := ⟨R.HST_CTRL, 15, 8, .rw⟩
def HST_CWIN_BASE : Fld := ⟨R.HST_CWIN, 23, 0, .rw⟩
def HST_MWIN_VAULT : Fld := ⟨R.HST_MWIN, 2, 0, .rw⟩
def HST_WAKE_ASSERTING : Fld := ⟨R.HST_WAKE, 32, 32, .ro⟩
def HST_WAKE_EN : Fld := ⟨R.HST_WAKE, 23, 16, .rw⟩
def HST_WAKE_REASON : Fld := ⟨R.HST_WAKE, 7, 0, .w1c⟩
def HST_HWQ_DEPTH_MAX : Fld := ⟨R.HST_HWQ, 44, 32, .ro⟩
def HST_HWQ_DEPTH : Fld := ⟨R.HST_HWQ, 12, 0, .ro⟩
def HST_BUSERR_SPACE : Fld := ⟨R.HST_BUSERR, 63, 63, .ro⟩
def HST_BUSERR_ADDR : Fld := ⟨R.HST_BUSERR, 47, 0, .ro⟩
def HST_IRQ_MAP_REARM : Fld := ⟨R.HST_IRQ_MAP, 8, 8, .wo⟩
def HST_IRQ_MAP_EN : Fld := ⟨R.HST_IRQ_MAP, 7, 7, .rw⟩
def HST_IRQ_MAP_VECTOR : Fld := ⟨R.HST_IRQ_MAP, 5, 0, .rw⟩
def HST_MBOX_CTRL_SEQ : Fld := ⟨R.HST_MBOX_CTRL, 31, 16, .wo⟩
def HST_MBOX_CTRL_ARG : Fld := ⟨R.HST_MBOX_CTRL, 15, 8, .wo⟩
def HST_MBOX_CTRL_CMD : Fld := ⟨R.HST_MBOX_CTRL, 1, 0, .wo⟩
def HST_MBOX_STATUS_SEQ : Fld := ⟨R.HST_MBOX_STATUS, 47, 32, .ro⟩
def HST_MBOX_STATUS_OPCODE : Fld := ⟨R.HST_MBOX_STATUS, 31, 24, .ro⟩
def HST_MBOX_STATUS_CODE : Fld := ⟨R.HST_MBOX_STATUS, 23, 16, .ro⟩
def HST_MBOX_STATUS_ALREADY_READ : Fld := ⟨R.HST_MBOX_STATUS, 3, 3, .ro⟩
def HST_MBOX_STATUS_READY : Fld := ⟨R.HST_MBOX_STATUS, 2, 2, .ro⟩
def HST_MBOX_STATUS_BUSY : Fld := ⟨R.HST_MBOX_STATUS, 1, 1, .ro⟩
def HST_MBOX_REQ_DATA : Fld := ⟨R.HST_MBOX_REQ, 63, 0, .rw⟩
def HST_MBOX_RES_DATA : Fld := ⟨R.HST_MBOX_RES, 63, 0, .rw⟩
def MOD_POSID_VALID : Fld := ⟨R.MOD_POSID, 14, 14, .ro⟩
def MOD_POSID_ID : Fld := ⟨R.MOD_POSID, 13, 0, .rwl⟩
def MOD_SVC_LINK_UP : Fld := ⟨R.MOD_SVC, 63, 63, .ro⟩
def MOD_SVC_MAC : Fld := ⟨R.MOD_SVC, 47, 0, .ro⟩
def ETH_CTRL_SNAP : Fld := ⟨R.ETH_CTRL, 63, 63, .wo⟩
def ETH_CTRL_EVENT_EN : Fld := ⟨R.ETH_CTRL, 47, 40, .rw⟩
def ETH_CTRL_PFC_PRIO : Fld := ⟨R.ETH_CTRL, 31, 29, .rw⟩
def ETH_CTRL_PFC_EN : Fld := ⟨R.ETH_CTRL, 28, 28, .rw⟩
def ETH_CTRL_ACK_TO : Fld := ⟨R.ETH_CTRL, 23, 19, .rw⟩
def ETH_CTRL_RETRY : Fld := ⟨R.ETH_CTRL, 18, 16, .rw⟩
def ETH_CTRL_PTP_EN : Fld := ⟨R.ETH_CTRL, 2, 2, .rw⟩
def ETH_CTRL_AN_EN : Fld := ⟨R.ETH_CTRL, 1, 1, .rw⟩
def ETH_CTRL_ENABLE : Fld := ⟨R.ETH_CTRL, 0, 0, .rw⟩
def ETH_STATUS_PMD : Fld := ⟨R.ETH_STATUS, 11, 8, .ro⟩
def ETH_STATUS_PTP_VALID : Fld := ⟨R.ETH_STATUS, 2, 2, .ro⟩
def ETH_STATUS_FEC_LOCK : Fld := ⟨R.ETH_STATUS, 1, 1, .ro⟩
def ETH_STATUS_LINK_UP : Fld := ⟨R.ETH_STATUS, 0, 0, .ro⟩
def ETH_EVENT_QP_ERR : Fld := ⟨R.ETH_EVENT, 5, 5, .w1c⟩
def ETH_EVENT_PTP_VALID : Fld := ⟨R.ETH_EVENT, 4, 4, .w1c⟩
def ETH_EVENT_FEC_UE : Fld := ⟨R.ETH_EVENT, 3, 3, .w1c⟩
def ETH_EVENT_LINK_UP : Fld := ⟨R.ETH_EVENT, 2, 2, .w1c⟩
def ETH_EVENT_LINK_DOWN : Fld := ⟨R.ETH_EVENT, 1, 1, .w1c⟩
def ETH_EVENT_RX_MGMT : Fld := ⟨R.ETH_EVENT, 0, 0, .w1c⟩
def ETH_ADDR_MAC : Fld := ⟨R.ETH_ADDR, 47, 0, .ro⟩
def ETH_NH_MAC_MAC : Fld := ⟨R.ETH_NH_MAC, 47, 0, .rw⟩
def ETH_GID_HI_GID : Fld := ⟨R.ETH_GID_HI, 63, 0, .rw⟩
def ETH_GID_LO_GID : Fld := ⟨R.ETH_GID_LO, 63, 0, .rw⟩
def ETH_PTP_OFS : Fld := ⟨R.ETH_PTP, 63, 32, .ro⟩
def ETH_PTP_DOMAIN : Fld := ⟨R.ETH_PTP, 23, 16, .rw⟩
def ETH_PTP_TRANSPORT : Fld := ⟨R.ETH_PTP, 9, 8, .rw⟩
def ETH_PTP_COUNT : Fld := ⟨R.ETH_PTP, 4, 0, .ro⟩
def ETH_STORE_VALID : Fld := ⟨R.ETH_STORE, 63, 63, .rw⟩
def ETH_STORE_PORT : Fld := ⟨R.ETH_STORE, 16, 16, .rw⟩
def ETH_STORE_QP : Fld := ⟨R.ETH_STORE, 7, 0, .rw⟩
def ETH_FEC_CE_CNT_WRAP : Fld := ⟨R.ETH_FEC_CE_CNT, 63, 48, .ro⟩
def ETH_FEC_CE_CNT_COUNT : Fld := ⟨R.ETH_FEC_CE_CNT, 47, 0, .ro⟩
def ETH_RETX_CNT_WRAP : Fld := ⟨R.ETH_RETX_CNT, 63, 48, .ro⟩
def ETH_RETX_CNT_COUNT : Fld := ⟨R.ETH_RETX_CNT, 47, 0, .ro⟩
def ETH_FEC_UE_CNT_OVF : Fld := ⟨R.ETH_FEC_UE_CNT, 32, 32, .w1c⟩
def ETH_FEC_UE_CNT_COUNT : Fld := ⟨R.ETH_FEC_UE_CNT, 31, 0, .ro⟩
def ETH_QP_CTRL_STATE : Fld := ⟨R.ETH_QP_CTRL, 63, 62, .rw⟩
def ETH_QP_CTRL_PMTU : Fld := ⟨R.ETH_QP_CTRL, 61, 59, .rw⟩
def ETH_QP_CTRL_DSCP : Fld := ⟨R.ETH_QP_CTRL, 58, 53, .rw⟩
def ETH_QP_CTRL_PSN_TX : Fld := ⟨R.ETH_QP_CTRL, 47, 24, .rw⟩
def ETH_QP_CTRL_DQPN : Fld := ⟨R.ETH_QP_CTRL, 23, 0, .rw⟩
def ETH_QP_KEY_PSN_RX : Fld := ⟨R.ETH_QP_KEY, 55, 32, .rw⟩
def ETH_QP_KEY_RKEY : Fld := ⟨R.ETH_QP_KEY, 31, 0, .rw⟩
def ETH_QP_GID_HI_GID : Fld := ⟨R.ETH_QP_GID_HI, 63, 0, .rw⟩
def ETH_QP_GID_LO_GID : Fld := ⟨R.ETH_QP_GID_LO, 63, 0, .rw⟩
def PWR_THERM_TRIPPED : Fld := ⟨R.PWR_THERM, 16, 16, .ro⟩
def PWR_THERM_TEMP : Fld := ⟨R.PWR_THERM, 15, 0, .ro⟩
def PWR_CTRL_SNAP : Fld := ⟨R.PWR_CTRL, 63, 63, .wo⟩
def PWR_CTRL_EVENT_EN : Fld := ⟨R.PWR_CTRL, 15, 8, .rw⟩
def PWR_EVENT_CMU_DONE : Fld := ⟨R.PWR_EVENT, 7, 7, .w1c⟩
def PWR_EVENT_PMB_ERR : Fld := ⟨R.PWR_EVENT, 6, 6, .w1c⟩
def PWR_EVENT_VIN_LOW : Fld := ⟨R.PWR_EVENT, 5, 5, .w1c⟩
def PWR_EVENT_TRIP : Fld := ⟨R.PWR_EVENT, 4, 4, .w1c⟩
def PWR_EVENT_CAP_CONFLICT : Fld := ⟨R.PWR_EVENT, 3, 3, .w1c⟩
def PWR_EVENT_PROT : Fld := ⟨R.PWR_EVENT, 2, 2, .w1c⟩
def PWR_EVENT_PD_FAIL : Fld := ⟨R.PWR_EVENT, 1, 1, .w1c⟩
def PWR_EVENT_PD_DONE : Fld := ⟨R.PWR_EVENT, 0, 0, .w1c⟩
def PWR_PD_CTRL_STATUS : Fld := ⟨R.PWR_PD_CTRL, 19, 16, .ro⟩
def PWR_PD_CTRL_DOMAIN : Fld := ⟨R.PWR_PD_CTRL, 14, 8, .rw⟩
def PWR_PD_CTRL_CMD : Fld := ⟨R.PWR_PD_CTRL, 1, 0, .wo⟩
def PWR_PD_STAT_ON : Fld := ⟨R.PWR_PD_STAT, 63, 0, .ro⟩
def PWR_CLKEN_EN : Fld := ⟨R.PWR_CLKEN, 3, 0, .rw⟩
def PWR_CPCLK_PER_DIV : Fld := ⟨R.PWR_CPCLK, 15, 8, .rw⟩
def PWR_CPCLK_STW_DIV : Fld := ⟨R.PWR_CPCLK, 3, 0, .rw⟩
def PWR_ENV_SW_W : Fld := ⟨R.PWR_ENV, 15, 0, .rw⟩
def PWR_INPUT_PIN : Fld := ⟨R.PWR_INPUT, 47, 32, .ro⟩
def PWR_INPUT_IIN : Fld := ⟨R.PWR_INPUT, 31, 16, .ro⟩
def PWR_INPUT_VIN : Fld := ⟨R.PWR_INPUT, 15, 0, .ro⟩
def PWR_FRAME_MEAS_OVER : Fld := ⟨R.PWR_FRAME, 33, 33, .ro⟩
def PWR_FRAME_DECL_OVER : Fld := ⟨R.PWR_FRAME, 32, 32, .ro⟩
def PWR_FRAME_DECL_W : Fld := ⟨R.PWR_FRAME, 31, 16, .ro⟩
def PWR_FRAME_MEAS : Fld := ⟨R.PWR_FRAME, 15, 0, .ro⟩
def PWR_PROT_FRAME_LO : Fld := ⟨R.PWR_PROT, 63, 32, .ro⟩
def PWR_PROT_MAX_LEVEL : Fld := ⟨R.PWR_PROT, 23, 16, .ro⟩
def PWR_PROT_REGION : Fld := ⟨R.PWR_PROT, 15, 8, .ro⟩
def PWR_PROT_CAUSE : Fld := ⟨R.PWR_PROT, 7, 0, .ro⟩
def PWR_CONFLICT_CNT_WRAP : Fld := ⟨R.PWR_CONFLICT_CNT, 63, 48, .ro⟩
def PWR_CONFLICT_CNT_COUNT : Fld := ⟨R.PWR_CONFLICT_CNT, 47, 0, .ro⟩
def PWR_PROT_CNT_WRAP : Fld := ⟨R.PWR_PROT_CNT, 63, 48, .ro⟩
def PWR_PROT_CNT_COUNT : Fld := ⟨R.PWR_PROT_CNT, 47, 0, .ro⟩
def PWR_RAIL_VOUT : Fld := ⟨R.PWR_RAIL, 63, 48, .ro⟩
def PWR_RAIL_IOUT : Fld := ⟨R.PWR_RAIL, 47, 32, .ro⟩
def PWR_RAIL_TEMP : Fld := ⟨R.PWR_RAIL, 31, 16, .ro⟩
def PWR_RAIL_FAULT : Fld := ⟨R.PWR_RAIL, 15, 15, .ro⟩
def PWR_RAIL_STALE : Fld := ⟨R.PWR_RAIL, 14, 14, .ro⟩
def PWR_PMB_CTRL_POLL_EN : Fld := ⟨R.PWR_PMB_CTRL, 0, 0, .rw⟩
def PWR_CMU_CTRL_SRC : Fld := ⟨R.PWR_CMU_CTRL, 23, 16, .rw⟩
def PWR_CMU_CTRL_GATE : Fld := ⟨R.PWR_CMU_CTRL, 12, 8, .rw⟩
def PWR_CMU_CTRL_REF : Fld := ⟨R.PWR_CMU_CTRL, 1, 1, .rw⟩
def PWR_CMU_CTRL_START : Fld := ⟨R.PWR_CMU_CTRL, 0, 0, .wo⟩
def PWR_CMU_RES_BADSEL : Fld := ⟨R.PWR_CMU_RES, 33, 33, .ro⟩
def PWR_CMU_RES_DONE : Fld := ⟨R.PWR_CMU_RES, 32, 32, .ro⟩
def PWR_CMU_RES_COUNT : Fld := ⟨R.PWR_CMU_RES, 31, 0, .ro⟩
def KEP_STATUS_UNACKED_CNT : Fld := ⟨R.KEP_STATUS, 63, 48, .ro⟩
def KEP_STATUS_STAGE : Fld := ⟨R.KEP_STATUS, 39, 36, .ro⟩
def KEP_STATUS_PENDING_TRIAL : Fld := ⟨R.KEP_STATUS, 34, 34, .ro⟩
def KEP_STATUS_TRIAL : Fld := ⟨R.KEP_STATUS, 33, 33, .ro⟩
def KEP_STATUS_SLOT : Fld := ⟨R.KEP_STATUS, 32, 32, .ro⟩
def KEP_STATUS_BACKUP_LOW : Fld := ⟨R.KEP_STATUS, 3, 3, .ro⟩
def KEP_STATUS_RTC_VALID : Fld := ⟨R.KEP_STATUS, 2, 2, .ro⟩
def KEP_STATUS_LOOP_OPEN : Fld := ⟨R.KEP_STATUS, 1, 1, .ro⟩
def KEP_STATUS_UNACKED : Fld := ⟨R.KEP_STATUS, 0, 0, .ro⟩
def KEP_EVENT_CHAIN_DONE : Fld := ⟨R.KEP_EVENT, 6, 6, .w1c⟩
def KEP_EVENT_CHAIN_FAIL : Fld := ⟨R.KEP_EVENT, 5, 5, .w1c⟩
def KEP_EVENT_STAGE_DONE : Fld := ⟨R.KEP_EVENT, 4, 4, .w1c⟩
def KEP_EVENT_FW_FALLBACK : Fld := ⟨R.KEP_EVENT, 3, 3, .w1c⟩
def KEP_EVENT_BACKUP_LOW : Fld := ⟨R.KEP_EVENT, 2, 2, .w1c⟩
def KEP_EVENT_RTC_LOST : Fld := ⟨R.KEP_EVENT, 1, 1, .w1c⟩
def KEP_EVENT_INTRUSION : Fld := ⟨R.KEP_EVENT, 0, 0, .w1c⟩
def KEP_CTRL_COMMIT_S : Fld := ⟨R.KEP_CTRL, 63, 48, .rw⟩
def KEP_CTRL_STAGE_HOLD : Fld := ⟨R.KEP_CTRL, 47, 32, .rw⟩
def KEP_CTRL_CONFIRM_S : Fld := ⟨R.KEP_CTRL, 31, 16, .rw⟩
def KEP_CTRL_EVENT_EN : Fld := ⟨R.KEP_CTRL, 15, 8, .rw⟩
def KEP_CTRL_ABORT_STAGE : Fld := ⟨R.KEP_CTRL, 1, 1, .wo⟩
def KEP_CTRL_CONFIRM : Fld := ⟨R.KEP_CTRL, 0, 0, .wo⟩
def KEP_UNIT_ID : Fld := ⟨R.KEP_UNIT, 63, 0, .ro⟩
def KEP_RTC_SEC : Fld := ⟨R.KEP_RTC, 63, 15, .rw⟩
def KEP_RTC_SUB : Fld := ⟨R.KEP_RTC, 14, 0, .rw⟩
def KEP_FUSE_REVOKE : Fld := ⟨R.KEP_FUSE, 35, 32, .ro⟩
def KEP_FUSE_CNT3 : Fld := ⟨R.KEP_FUSE, 31, 24, .ro⟩
def KEP_FUSE_CNT2 : Fld := ⟨R.KEP_FUSE, 23, 16, .ro⟩
def KEP_FUSE_CNT1 : Fld := ⟨R.KEP_FUSE, 15, 8, .ro⟩
def KEP_FUSE_CNT0 : Fld := ⟨R.KEP_FUSE, 7, 0, .ro⟩
def KEP_SLOT_VER_VERSION : Fld := ⟨R.KEP_SLOT_VER, 63, 0, .ro⟩
def KEP_SLOT_STAT_CODE : Fld := ⟨R.KEP_SLOT_STAT, 47, 32, .ro⟩
def KEP_SLOT_STAT_COUNTER : Fld := ⟨R.KEP_SLOT_STAT, 25, 24, .ro⟩
def KEP_SLOT_STAT_SVN : Fld := ⟨R.KEP_SLOT_STAT, 23, 16, .ro⟩
def KEP_SLOT_STAT_ATTEMPTS : Fld := ⟨R.KEP_SLOT_STAT, 15, 8, .ro⟩
def KEP_SLOT_STAT_STATE : Fld := ⟨R.KEP_SLOT_STAT, 2, 0, .ro⟩
def KEP_STAGE_CODE : Fld := ⟨R.KEP_STAGE, 47, 32, .ro⟩
def KEP_STAGE_BLOCKS : Fld := ⟨R.KEP_STAGE, 24, 16, .ro⟩
def KEP_STAGE_STATE : Fld := ⟨R.KEP_STAGE, 7, 4, .ro⟩
def KEP_STAGE_OWNER : Fld := ⟨R.KEP_STAGE, 1, 0, .ro⟩
def KEP_CHAIN_HOP_DONE : Fld := ⟨R.KEP_CHAIN, 43, 40, .ro⟩
def KEP_CHAIN_HOP_FAIL : Fld := ⟨R.KEP_CHAIN, 39, 36, .ro⟩
def KEP_CHAIN_ACCEPT : Fld := ⟨R.KEP_CHAIN, 32, 32, .rw⟩
def KEP_CHAIN_NEXT3 : Fld := ⟨R.KEP_CHAIN, 31, 24, .rw⟩
def KEP_CHAIN_NEXT2 : Fld := ⟨R.KEP_CHAIN, 23, 16, .rw⟩
def KEP_CHAIN_NEXT1 : Fld := ⟨R.KEP_CHAIN, 15, 8, .rw⟩
def KEP_CHAIN_NEXT0 : Fld := ⟨R.KEP_CHAIN, 7, 0, .rw⟩
def KEP_LOG_CTRL_HEAD : Fld := ⟨R.KEP_LOG_CTRL, 63, 32, .ro⟩
def KEP_LOG_CTRL_SEL : Fld := ⟨R.KEP_LOG_CTRL, 31, 0, .rw⟩
def KEP_LOG_LOST_OVF : Fld := ⟨R.KEP_LOG_LOST, 32, 32, .w1c⟩
def KEP_LOG_LOST_COUNT : Fld := ⟨R.KEP_LOG_LOST, 31, 0, .ro⟩
def KEP_LOG_DATA_DATA : Fld := ⟨R.KEP_LOG_DATA, 63, 0, .ro⟩
def DBG_CTRL_SNAP : Fld := ⟨R.DBG_CTRL, 63, 63, .wo⟩
def DBG_CTRL_EVENT_EN : Fld := ⟨R.DBG_CTRL, 24, 16, .rw⟩
def DBG_CTRL_JTAG_LOCK : Fld := ⟨R.DBG_CTRL, 2, 2, .w1s⟩
def DBG_CTRL_AUTO_RETIRE : Fld := ⟨R.DBG_CTRL, 1, 1, .rw⟩
def DBG_STATUS_P : Fld := ⟨R.DBG_STATUS, 47, 37, .ro⟩
def DBG_STATUS_REPLACE_CAUSE : Fld := ⟨R.DBG_STATUS, 36, 32, .w1s⟩
def DBG_STATUS_REPLACE_REQUESTED : Fld := ⟨R.DBG_STATUS, 31, 31, .ro⟩
def DBG_STATUS_FREEZE_SRC : Fld := ⟨R.DBG_STATUS, 7, 4, .ro⟩
def DBG_STATUS_RESUME_ARMED : Fld := ⟨R.DBG_STATUS, 1, 1, .ro⟩
def DBG_STATUS_FROZEN : Fld := ⟨R.DBG_STATUS, 0, 0, .ro⟩
def DBG_EVENT_CAP_DONE : Fld := ⟨R.DBG_EVENT, 8, 8, .w1c⟩
def DBG_EVENT_CNT_OVF : Fld := ⟨R.DBG_EVENT, 7, 7, .w1c⟩
def DBG_EVENT_FREEZE : Fld := ⟨R.DBG_EVENT, 6, 6, .w1c⟩
def DBG_EVENT_SMB : Fld := ⟨R.DBG_EVENT, 5, 5, .w1c⟩
def DBG_EVENT_HS_HANG : Fld := ⟨R.DBG_EVENT, 4, 4, .w1c⟩
def DBG_EVENT_DEGRADED : Fld := ⟨R.DBG_EVENT, 3, 3, .w1c⟩
def DBG_EVENT_RETIRED : Fld := ⟨R.DBG_EVENT, 2, 2, .w1c⟩
def DBG_EVENT_CELL_CE : Fld := ⟨R.DBG_EVENT, 1, 1, .w1c⟩
def DBG_EVENT_FAULT : Fld := ⟨R.DBG_EVENT, 0, 0, .w1c⟩
def DBG_FAULT_LAST_CODE : Fld := ⟨R.DBG_FAULT_LAST, 63, 48, .ro⟩
def DBG_FAULT_LAST_LEVEL : Fld := ⟨R.DBG_FAULT_LAST, 47, 44, .ro⟩
def DBG_FAULT_LAST_UNIT : Fld := ⟨R.DBG_FAULT_LAST, 43, 32, .ro⟩
def DBG_FAULT_LAST_FRAME_LO : Fld := ⟨R.DBG_FAULT_LAST, 31, 0, .ro⟩
def DBG_FAULT_CNT_OVF : Fld := ⟨R.DBG_FAULT_CNT, 32, 32, .w1c⟩
def DBG_FAULT_CNT_COUNT : Fld := ⟨R.DBG_FAULT_CNT, 31, 0, .ro⟩
def DBG_SMB_CNT_OVF : Fld := ⟨R.DBG_SMB_CNT, 32, 32, .w1c⟩
def DBG_SMB_CNT_COUNT : Fld := ⟨R.DBG_SMB_CNT, 31, 0, .ro⟩
def DBG_FREEZE_RESULT : Fld := ⟨R.DBG_FREEZE, 11, 8, .ro⟩
def DBG_FREEZE_MODE : Fld := ⟨R.DBG_FREEZE, 4, 4, .rw⟩
def DBG_FREEZE_CMD : Fld := ⟨R.DBG_FREEZE, 1, 0, .wo⟩
def DBG_FREEZE_AT_TICK : Fld := ⟨R.DBG_FREEZE_AT, 63, 0, .ro⟩
def DBG_RESUME_AT_TICK : Fld := ⟨R.DBG_RESUME_AT, 63, 0, .rw⟩
def DBG_RETIRE_UE_LIMIT : Fld := ⟨R.DBG_RETIRE, 51, 48, .rw⟩
def DBG_RETIRE_WIN : Fld := ⟨R.DBG_RETIRE, 47, 32, .rw⟩
def DBG_RETIRE_UNIT : Fld := ⟨R.DBG_RETIRE, 26, 16, .rw⟩
def DBG_RETIRE_KIND : Fld := ⟨R.DBG_RETIRE, 3, 2, .rw⟩
def DBG_RETIRE_CMD : Fld := ⟨R.DBG_RETIRE, 1, 0, .wo⟩
def DBG_SMB_SDA : Fld := ⟨R.DBG_SMB, 3, 3, .ro⟩
def DBG_SMB_STATE : Fld := ⟨R.DBG_SMB, 2, 1, .ro⟩
def DBG_SMB_RECOVER : Fld := ⟨R.DBG_SMB, 0, 0, .wo⟩
def DBG_OVF_LAST_ADDR : Fld := ⟨R.DBG_OVF_LAST, 47, 0, .ro⟩
def DBG_HS_EXPIRED : Fld := ⟨R.DBG_HS, 32, 32, .ro⟩
def DBG_HS_LIMIT : Fld := ⟨R.DBG_HS, 31, 2, .rw⟩
def DBG_HS_RESET : Fld := ⟨R.DBG_HS, 1, 1, .wo⟩
def DBG_HS_KICK : Fld := ⟨R.DBG_HS, 0, 0, .wo⟩
def DBG_RB_ADDR_CLASS : Fld := ⟨R.DBG_RB_ADDR, 63, 56, .rw⟩
def DBG_RB_ADDR_UNIT : Fld := ⟨R.DBG_RB_ADDR, 55, 40, .rw⟩
def DBG_RB_ADDR_OFFSET : Fld := ⟨R.DBG_RB_ADDR, 39, 0, .rw⟩
def DBG_RB_STAT_STATUS : Fld := ⟨R.DBG_RB_STAT, 1, 0, .ro⟩
def DBG_RB_DATA_DATA : Fld := ⟨R.DBG_RB_DATA, 63, 0, .ro⟩
def DBG_CAP_CTRL_CLASSES : Fld := ⟨R.DBG_CAP_CTRL, 47, 33, .rw⟩
def DBG_CAP_CTRL_DEST : Fld := ⟨R.DBG_CAP_CTRL, 2, 2, .rw⟩
def DBG_CAP_CTRL_CMD : Fld := ⟨R.DBG_CAP_CTRL, 1, 0, .wo⟩
def DBG_CAP_STAT_BYTES : Fld := ⟨R.DBG_CAP_STAT, 63, 32, .ro⟩
def DBG_CAP_STAT_CODE : Fld := ⟨R.DBG_CAP_STAT, 31, 16, .ro⟩
def DBG_CAP_STAT_STATE : Fld := ⟨R.DBG_CAP_STAT, 3, 0, .ro⟩
def DBG_CAP_HOST_ADDR : Fld := ⟨R.DBG_CAP_HOST, 63, 12, .rw⟩
def DBG_BLOCK_FUSED : Fld := ⟨R.DBG_BLOCK, 50, 34, .ro⟩
def DBG_BLOCK_RETIRED : Fld := ⟨R.DBG_BLOCK, 33, 17, .ro⟩
def DBG_BLOCK_ACTIVE : Fld := ⟨R.DBG_BLOCK, 16, 0, .ro⟩
def CEL_CE_CNT_OVF : Fld := ⟨R.CEL_CE_CNT, 32, 32, .w1c⟩
def CEL_CE_CNT_COUNT : Fld := ⟨R.CEL_CE_CNT, 31, 0, .ro⟩
def CEL_UE_CNT_OVF : Fld := ⟨R.CEL_UE_CNT, 32, 32, .w1c⟩
def CEL_UE_CNT_COUNT : Fld := ⟨R.CEL_UE_CNT, 31, 0, .ro⟩
def MOD_PINS_EVENT_EN : Fld := ⟨R.MOD_PINS, 46, 40, .rw⟩
def MOD_PINS_FORWARD : Fld := ⟨R.MOD_PINS, 33, 33, .rw⟩
def MOD_PINS_CLK_RET : Fld := ⟨R.MOD_PINS, 32, 32, .wo⟩
def MOD_PINS_INPUT_LOSS : Fld := ⟨R.MOD_PINS, 30, 30, .w1c⟩
def MOD_PINS_HREF_BACK : Fld := ⟨R.MOD_PINS, 29, 29, .w1c⟩
def MOD_PINS_HREF_LOST : Fld := ⟨R.MOD_PINS, 28, 28, .w1c⟩
def MOD_PINS_PERST_RISE : Fld := ⟨R.MOD_PINS, 27, 27, .w1c⟩
def MOD_PINS_PPS_RISE : Fld := ⟨R.MOD_PINS, 26, 26, .w1c⟩
def MOD_PINS_FREEZE_FALL : Fld := ⟨R.MOD_PINS, 25, 25, .w1c⟩
def MOD_PINS_EB_OPEN : Fld := ⟨R.MOD_PINS, 24, 24, .w1c⟩
def MOD_PINS_CLK_SRC : Fld := ⟨R.MOD_PINS, 15, 15, .ro⟩
def MOD_PINS_HREF_OK : Fld := ⟨R.MOD_PINS, 14, 14, .ro⟩
def MOD_PINS_WAKE : Fld := ⟨R.MOD_PINS, 13, 13, .ro⟩
def MOD_PINS_FREEZE : Fld := ⟨R.MOD_PINS, 12, 12, .ro⟩
def MOD_PINS_PERST : Fld := ⟨R.MOD_PINS, 11, 11, .ro⟩
def MOD_PINS_EB : Fld := ⟨R.MOD_PINS, 10, 10, .ro⟩
def MOD_PINS_PRES : Fld := ⟨R.MOD_PINS, 9, 9, .ro⟩
def MOD_PINS_GA : Fld := ⟨R.MOD_PINS, 5, 0, .ro⟩
def MOD_PPS_TICK_TICK : Fld := ⟨R.MOD_PPS_TICK, 63, 0, .ro⟩
def MOD_PPS_FRAC_VALID : Fld := ⟨R.MOD_PPS_FRAC, 16, 16, .ro⟩
def MOD_PPS_FRAC_FRAC : Fld := ⟨R.MOD_PPS_FRAC, 15, 0, .ro⟩
def MOD_LED_LOCATE : Fld := ⟨R.MOD_LED, 6, 6, .rw⟩
def MOD_LED_STATUS : Fld := ⟨R.MOD_LED, 5, 4, .rw⟩
def MOD_LED_REPLACE : Fld := ⟨R.MOD_LED, 0, 0, .ro⟩

end F

/-- The registers of the MOD_ block with their fields. -/
def modTable : List (Reg × List Fld) := [
  (R.MOD_IDENT, [F.MOD_IDENT_PART_CODE, F.MOD_IDENT_GRADE, F.MOD_IDENT_STEPPING, F.MOD_IDENT_CELLS_GRADE, F.MOD_IDENT_CLK_STEP_MAX, F.MOD_IDENT_LINK_PROTO_MAX]),
  (R.MOD_MBOX_PEND, [F.MOD_MBOX_PEND_PEND]),
  (R.MOD_NI_CTRL, [F.MOD_NI_CTRL_SNAP, F.MOD_NI_CTRL_EVENT_EN, F.MOD_NI_CTRL_RESEND_MAX, F.MOD_NI_CTRL_RESEND_TO, F.MOD_NI_CTRL_HOLD]),
  (R.MOD_NI_STATUS, [F.MOD_NI_STATUS_RECORDS, F.MOD_NI_STATUS_FILTER, F.MOD_NI_STATUS_NOTICES, F.MOD_NI_STATUS_HELD]),
  (R.MOD_NI_EVENT, [F.MOD_NI_EVENT_MESH, F.MOD_NI_EVENT_NOTICE_DROP, F.MOD_NI_EVENT_E2E_REFUSED, F.MOD_NI_EVENT_E2E_GIVEUP, F.MOD_NI_EVENT_E2E_CRC, F.MOD_NI_EVENT_HOP_LIMIT, F.MOD_NI_EVENT_NO_ROUTE, F.MOD_NI_EVENT_PKEY_DROP]),
  (R.MOD_NI_SEND, [F.MOD_NI_SEND_PKEY, F.MOD_NI_SEND_ADDR]),
  (R.MOD_NI_DONE, [F.MOD_NI_DONE_WRAP, F.MOD_NI_DONE_COUNT]),
  (R.MOD_MESH_LAST, [F.MOD_MESH_LAST_MSLOT, F.MOD_MESH_LAST_SITE, F.MOD_MESH_LAST_TENANCY, F.MOD_MESH_LAST_CODE, F.MOD_MESH_LAST_FC]),
  (R.MOD_NI_CNT, [F.MOD_NI_CNT_OVF, F.MOD_NI_CNT_COUNT]),
  (R.MOD_RANK, [F.MOD_RANK_E3, F.MOD_RANK_E2, F.MOD_RANK_E1, F.MOD_RANK_E0]),
  (R.MOD_WGT_CTRL, [F.MOD_WGT_CTRL_SNAP, F.MOD_WGT_CTRL_EVENT_EN, F.MOD_WGT_CTRL_LIMIT, F.MOD_WGT_CTRL_IMG, F.MOD_WGT_CTRL_SLOT, F.MOD_WGT_CTRL_SRC_OVR, F.MOD_WGT_CTRL_TENANCY, F.MOD_WGT_CTRL_BANK, F.MOD_WGT_CTRL_CMD]),
  (R.MOD_WGT_STATUS, [F.MOD_WGT_STATUS_CODE, F.MOD_WGT_STATUS_SHARD, F.MOD_WGT_STATUS_OPEN, F.MOD_WGT_STATUS_STATE]),
  (R.MOD_WGT_EVENT, [F.MOD_WGT_EVENT_UNBOUND, F.MOD_WGT_EVENT_PROTECT, F.MOD_WGT_EVENT_SWITCH, F.MOD_WGT_EVENT_FAILED, F.MOD_WGT_EVENT_DONE]),
  (R.MOD_WGT_BYTES, [F.MOD_WGT_BYTES_WRAP, F.MOD_WGT_BYTES_COUNT]),
  (R.MOD_WGT_FWD, [F.MOD_WGT_FWD_WRAP, F.MOD_WGT_FWD_COUNT]),
  (R.MOD_WGT_TEN, [F.MOD_WGT_TEN_SW_STEP, F.MOD_WGT_TEN_SW, F.MOD_WGT_TEN_UNBOUND, F.MOD_WGT_TEN_VALID_B, F.MOD_WGT_TEN_VALID_A, F.MOD_WGT_TEN_BANK]),
  (R.MOD_TALLY_SEED0, [F.MOD_TALLY_SEED0_SEED]),
  (R.MOD_TALLY_SEED1, [F.MOD_TALLY_SEED1_SEED]),
  (R.MOD_DET_CTRL, [F.MOD_DET_CTRL_SNAP, F.MOD_DET_CTRL_CAPCLR, F.MOD_DET_CTRL_EVENT_EN, F.MOD_DET_CTRL_WAIT, F.MOD_DET_CTRL_ON_DIV, F.MOD_DET_CTRL_SEL, F.MOD_DET_CTRL_PARTNER, F.MOD_DET_CTRL_TENANCY, F.MOD_DET_CTRL_EN]),
  (R.MOD_DET_STATUS, [F.MOD_DET_STATUS_LAST_STEP, F.MOD_DET_STATUS_LAST_CFRAME, F.MOD_DET_STATUS_PART_OK, F.MOD_DET_STATUS_CAPTURED, F.MOD_DET_STATUS_ACTIVE]),
  (R.MOD_DET_EVENT, [F.MOD_DET_EVENT_MISSING, F.MOD_DET_EVENT_DIVERGE, F.MOD_DET_EVENT_MATCH]),
  (R.MOD_DET_CAP_AT, [F.MOD_DET_CAP_AT_STEP, F.MOD_DET_CAP_AT_CFRAME, F.MOD_DET_CAP_AT_RUN]),
  (R.MOD_DET_CAP_OWN, [F.MOD_DET_CAP_OWN_DIGEST]),
  (R.MOD_DET_CAP_PEER, [F.MOD_DET_CAP_PEER_DIGEST]),
  (R.MOD_DET_CNT, [F.MOD_DET_CNT_WRAP, F.MOD_DET_CNT_COUNT]),
  (R.MOD_DET_PSEL, [F.MOD_DET_PSEL_AGE, F.MOD_DET_PSEL_SOURCE]),
  (R.MOD_DET_PDATA, [F.MOD_DET_PDATA_PARTIAL]),
  (R.MOD_POSID, [F.MOD_POSID_VALID, F.MOD_POSID_ID]),
  (R.MOD_SVC, [F.MOD_SVC_LINK_UP, F.MOD_SVC_MAC]),
  (R.MOD_PINS, [F.MOD_PINS_EVENT_EN, F.MOD_PINS_FORWARD, F.MOD_PINS_CLK_RET, F.MOD_PINS_INPUT_LOSS, F.MOD_PINS_HREF_BACK, F.MOD_PINS_HREF_LOST, F.MOD_PINS_PERST_RISE, F.MOD_PINS_PPS_RISE, F.MOD_PINS_FREEZE_FALL, F.MOD_PINS_EB_OPEN, F.MOD_PINS_CLK_SRC, F.MOD_PINS_HREF_OK, F.MOD_PINS_WAKE, F.MOD_PINS_FREEZE, F.MOD_PINS_PERST, F.MOD_PINS_EB, F.MOD_PINS_PRES, F.MOD_PINS_GA]),
  (R.MOD_PPS_TICK, [F.MOD_PPS_TICK_TICK]),
  (R.MOD_PPS_FRAC, [F.MOD_PPS_FRAC_VALID, F.MOD_PPS_FRAC_FRAC]),
  (R.MOD_LED, [F.MOD_LED_LOCATE, F.MOD_LED_STATUS, F.MOD_LED_REPLACE])]

/-- The registers of the BLF_ block with their fields. -/
def blfTable : List (Reg × List Fld) := [
  (R.BLF_CTRL, [F.BLF_CTRL_HOLD_RATE, F.BLF_CTRL_EVENT_EN, F.BLF_CTRL_ROLE, F.BLF_CTRL_SNAP, F.BLF_CTRL_RESTART, F.BLF_CTRL_PTP_EN, F.BLF_CTRL_ENABLE]),
  (R.BLF_STATUS, [F.BLF_STATUS_STATE, F.BLF_STATUS_ROLE_ACT, F.BLF_STATUS_PARENT_PORT, F.BLF_STATUS_PTP_VALID, F.BLF_STATUS_BOUND_OK]),
  (R.BLF_EVENT, [F.BLF_EVENT_CMD_MISSED, F.BLF_EVENT_CMD_LATE, F.BLF_EVENT_TIME_FAULT, F.BLF_EVENT_TIME_DRIFT, F.BLF_EVENT_HOLDOVER, F.BLF_EVENT_PARENT_LOST, F.BLF_EVENT_LOCK_GAINED, F.BLF_EVENT_PTP_LOST]),
  (R.BLF_SNAP_TICK, [F.BLF_SNAP_TICK_TICK]),
  (R.BLF_SNAP_FRAC, [F.BLF_SNAP_FRAC_FC_IN_FRAME, F.BLF_SNAP_FRAC_FRAC]),
  (R.BLF_EPOCH_TAI, [F.BLF_EPOCH_TAI_EPOCH]),
  (R.BLF_STEER, [F.BLF_STEER_STEER]),
  (R.BLF_ERR_BOUND, [F.BLF_ERR_BOUND_PARENT_BOUND, F.BLF_ERR_BOUND_BOUND]),
  (R.BLF_PARENT, [F.BLF_PARENT_CAND3, F.BLF_PARENT_CAND2, F.BLF_PARENT_CAND1, F.BLF_PARENT_CAND0]),
  (R.BLF_LIMITS, [F.BLF_LIMITS_FAULT_LIM, F.BLF_LIMITS_DRIFT_LIM, F.BLF_LIMITS_BOUND_LIM]),
  (R.BLF_PTIME, [F.BLF_PTIME_OFS, F.BLF_PTIME_RTT]),
  (R.BLF_PCAL, [F.BLF_PCAL_ASYM_CFG, F.BLF_PCAL_LOC_TXRX, F.BLF_PCAL_PEER_TXRX, F.BLF_PCAL_PEER_LOCKED, F.BLF_PCAL_VALID]),
  (R.BLF_CMD_TICK, [F.BLF_CMD_TICK_TICK]),
  (R.BLF_CMD_CTRL, [F.BLF_CMD_CTRL_ARG, F.BLF_CMD_CTRL_STAT, F.BLF_CMD_CTRL_KIND, F.BLF_CMD_CTRL_CANCEL, F.BLF_CMD_CTRL_ARM])]

/-- The registers of the RGN_ block with their fields. -/
def rgnTable : List (Reg × List Fld) := [
  (R.RGN_CLK, [F.RGN_CLK_SNAP, F.RGN_CLK_PROT_LEVEL, F.RGN_CLK_ACT_STEP, F.RGN_CLK_RETUNE, F.RGN_CLK_MODE, F.RGN_CLK_PLAN_STEP]),
  (R.RGN_VMON, [F.RGN_VMON_VMAX, F.RGN_VMON_VMIN, F.RGN_VMON_VOUT, F.RGN_VMON_MARGIN_MIN, F.RGN_VMON_VMAX_HIT, F.RGN_VMON_LOOP_EN]),
  (R.RGN_THERM, [F.RGN_THERM_TS3, F.RGN_THERM_TS2, F.RGN_THERM_TS1, F.RGN_THERM_TS0]),
  (R.RGN_XCAL, [F.RGN_XCAL_LAT_PLAN, F.RGN_XCAL_LAT_ACT, F.RGN_XCAL_PHASE, F.RGN_XCAL_XCAL_LONG, F.RGN_XCAL_XCAL_FAIL, F.RGN_XCAL_ALIGN_DONE, F.RGN_XCAL_XCAL_DONE]),
  (R.RGN_XRAW, [F.RGN_XRAW_RAW]),
  (R.RGN_FSTAT, [F.RGN_FSTAT_MAX_SYNC_RC, F.RGN_FSTAT_LAST_SYNC_RC, F.RGN_FSTAT_LOST_RC]),
  (R.RGN_DROOP_CNT, [F.RGN_DROOP_CNT_WRAP, F.RGN_DROOP_CNT_COUNT]),
  (R.RGN_SWALLOW_CNT, [F.RGN_SWALLOW_CNT_WRAP, F.RGN_SWALLOW_CNT_COUNT]),
  (R.RGN_OVERRUN_CNT, [F.RGN_OVERRUN_CNT_WRAP, F.RGN_OVERRUN_CNT_COUNT])]

/-- The registers of the PLN_ block with their fields. -/
def plnTable : List (Reg × List Fld) := [
  (R.PLN_CTRL, [F.PLN_CTRL_SNAP, F.PLN_CTRL_EVENT_EN, F.PLN_CTRL_SLOT, F.PLN_CTRL_CMD]),
  (R.PLN_EVENT, [F.PLN_EVENT_HALT, F.PLN_EVENT_RETRY, F.PLN_EVENT_PFAULT, F.PLN_EVENT_SLIP, F.PLN_EVENT_ACT_FAIL, F.PLN_EVENT_ACT_DONE, F.PLN_EVENT_LOAD_FAIL, F.PLN_EVENT_LOAD_DONE]),
  (R.PLN_ACT, [F.PLN_ACT_HANDLE, F.PLN_ACT_REASON, F.PLN_ACT_RESULT]),
  (R.PLN_ACT_FRAME, [F.PLN_ACT_FRAME_FRAME]),
  (R.PLN_SLIP_CNT, [F.PLN_SLIP_CNT_WRAP, F.PLN_SLIP_CNT_COUNT]),
  (R.PLN_PFAULT_CNT, [F.PLN_PFAULT_CNT_OVF, F.PLN_PFAULT_CNT_COUNT]),
  (R.PLN_SLIP_LAST, [F.PLN_SLIP_LAST_LATENESS, F.PLN_SLIP_LAST_FRAME_LO, F.PLN_SLIP_LAST_SITE, F.PLN_SLIP_LAST_TENANCY, F.PLN_SLIP_LAST_CAUSE, F.PLN_SLIP_LAST_BEYOND]),
  (R.PLN_SLOT_STAT, [F.PLN_SLOT_STAT_HANDLE, F.PLN_SLOT_STAT_CODE, F.PLN_SLOT_STAT_SECTION, F.PLN_SLOT_STAT_STATE]),
  (R.PLN_SLOT_ID, [F.PLN_SLOT_ID_PLAN_ID]),
  (R.PLN_SLOT_DETAIL, [F.PLN_SLOT_DETAIL_DETAIL]),
  (R.PLN_TEN_STAT, [F.PLN_TEN_STAT_PKEY, F.PLN_TEN_STAT_RETRIES, F.PLN_TEN_STAT_STATE, F.PLN_TEN_STAT_RESTART_FRAME]),
  (R.PLN_TEN_STEP, [F.PLN_TEN_STEP_STEP])]

/-- The registers of the CEL_ block with their fields. -/
def celTable : List (Reg × List Fld) := [
  (R.CEL_CTRL, [F.CEL_CTRL_SNAP, F.CEL_CTRL_EVENT_EN, F.CEL_CTRL_STRICT, F.CEL_CTRL_CMD]),
  (R.CEL_STATUS, [F.CEL_STATUS_FPOS, F.CEL_STATUS_CFRAME, F.CEL_STATUS_WHY, F.CEL_STATUS_STATE]),
  (R.CEL_PC, [F.CEL_PC_ENTRY, F.CEL_PC_PC]),
  (R.CEL_PROG, [F.CEL_PROG_LIMIT, F.CEL_PROG_BASE]),
  (R.CEL_FAULT, [F.CEL_FAULT_CODE, F.CEL_FAULT_SLOT, F.CEL_FAULT_RESOURCE, F.CEL_FAULT_PC]),
  (R.CEL_GUARD_LAST, [F.CEL_GUARD_LAST_LEN, F.CEL_GUARD_LAST_KIND, F.CEL_GUARD_LAST_RESOURCE, F.CEL_GUARD_LAST_PC]),
  (R.CEL_ISSUE_CNT, [F.CEL_ISSUE_CNT_WRAP, F.CEL_ISSUE_CNT_COUNT]),
  (R.CEL_FETCH_CNT, [F.CEL_FETCH_CNT_WRAP, F.CEL_FETCH_CNT_COUNT]),
  (R.CEL_GUARD_CNT, [F.CEL_GUARD_CNT_WRAP, F.CEL_GUARD_CNT_COUNT]),
  (R.CEL_WAIT_CNT, [F.CEL_WAIT_CNT_WRAP, F.CEL_WAIT_CNT_COUNT]),
  (R.CEL_FRAME_STAT, [F.CEL_FRAME_STAT_SYNC_POS, F.CEL_FRAME_STAT_GUARD_RC, F.CEL_FRAME_STAT_WAIT_RC]),
  (R.CEL_EVENT, [F.CEL_EVENT_SYNC_LATE, F.CEL_EVENT_STOPPED, F.CEL_EVENT_GUARD, F.CEL_EVENT_FAULT]),
  (R.CEL_TALLY, [F.CEL_TALLY_VALUE]),
  (R.CEL_TALLY_ADD, [F.CEL_TALLY_ADD_TALLY, F.CEL_TALLY_ADD_N]),
  (R.CEL_BANK, [F.CEL_BANK_WE, F.CEL_BANK_MQ, F.CEL_BANK_NQ, F.CEL_BANK_MODE, F.CEL_BANK_OVER_SEEN, F.CEL_BANK_HIGH_SEEN, F.CEL_BANK_LOW_SEEN, F.CEL_BANK_SPECIAL_SEEN]),
  (R.CEL_ESC_CNT, [F.CEL_ESC_CNT_WRAP, F.CEL_ESC_CNT_COUNT]),
  (R.CEL_MTX_EVENT, [F.CEL_MTX_EVENT_NAN_OUT, F.CEL_MTX_EVENT_MISMATCH, F.CEL_MTX_EVENT_OVER, F.CEL_MTX_EVENT_HIGH, F.CEL_MTX_EVENT_LOW]),
  (R.CEL_MTX_CTRL, [F.CEL_MTX_CTRL_EVENT_EN, F.CEL_MTX_CTRL_FAULT_OVER, F.CEL_MTX_CTRL_FAULT_HIGH]),
  (R.CEL_VEC_EVENT, [F.CEL_VEC_EVENT_NAN_DROP, F.CEL_VEC_EVENT_QSAT, F.CEL_VEC_EVENT_NORM_ZERO, F.CEL_VEC_EVENT_ROW_INF, F.CEL_VEC_EVENT_ROW_NAN, F.CEL_VEC_EVENT_EMPTY]),
  (R.CEL_VEC_CTRL, [F.CEL_VEC_CTRL_EVENT_EN]),
  (R.CEL_ROW_CNT, [F.CEL_ROW_CNT_WRAP, F.CEL_ROW_CNT_COUNT]),
  (R.CEL_DESC, [F.CEL_DESC_BASE]),
  (R.CEL_CE_CNT, [F.CEL_CE_CNT_OVF, F.CEL_CE_CNT_COUNT]),
  (R.CEL_UE_CNT, [F.CEL_UE_CNT_OVF, F.CEL_UE_CNT_COUNT])]

/-- The registers of the VLT_ block with their fields. -/
def vltTable : List (Reg × List Fld) := [
  (R.VLT_CTRL, [F.VLT_CTRL_SNAP, F.VLT_CTRL_EVENT_EN, F.VLT_CTRL_SCRUB_EN]),
  (R.VLT_STATUS, [F.VLT_STATUS_TEMP, F.VLT_STATUS_BAND, F.VLT_STATUS_READY]),
  (R.VLT_EVENT, [F.VLT_EVENT_READY, F.VLT_EVENT_MISMATCH, F.VLT_EVENT_VAULT_HOT, F.VLT_EVENT_CRING_DROP, F.VLT_EVENT_ENGINE_CMD, F.VLT_EVENT_ENGINE_QFULL, F.VLT_EVENT_MEM_UE, F.VLT_EVENT_MEM_CE]),
  (R.VLT_ECC_CE_CNT, [F.VLT_ECC_CE_CNT_OVF, F.VLT_ECC_CE_CNT_COUNT]),
  (R.VLT_ECC_UE_CNT, [F.VLT_ECC_UE_CNT_OVF, F.VLT_ECC_UE_CNT_COUNT]),
  (R.VLT_ECC_LAST, [F.VLT_ECC_LAST_UE, F.VLT_ECC_LAST_ADDR]),
  (R.VLT_SUPPRESS_CNT, [F.VLT_SUPPRESS_CNT_WRAP, F.VLT_SUPPRESS_CNT_COUNT]),
  (R.VLT_MISMATCH_CNT, [F.VLT_MISMATCH_CNT_WRAP, F.VLT_MISMATCH_CNT_COUNT]),
  (R.VLT_OOB_CNT, [F.VLT_OOB_CNT_WRAP, F.VLT_OOB_CNT_COUNT]),
  (R.VLT_ENG_STAT, [F.VLT_ENG_STAT_LAST_OP, F.VLT_ENG_STAT_UQ, F.VLT_ENG_STAT_SQ, F.VLT_ENG_STAT_STATE]),
  (R.VLT_ENG_ACT, [F.VLT_ENG_ACT_WRAP, F.VLT_ENG_ACT_COUNT]),
  (R.VLT_CRING, [F.VLT_CRING_PROD, F.VLT_CRING_CONS]),
  (R.VLT_CRING_DROP, [F.VLT_CRING_DROP_OVF, F.VLT_CRING_DROP_COUNT])]

/-- The registers of the BLK_ block with their fields. -/
def blkTable : List (Reg × List Fld) := [
  (R.BLK_STW_CTRL, [F.BLK_STW_CTRL_STATE, F.BLK_STW_CTRL_HALT, F.BLK_STW_CTRL_RESET]),
  (R.BLK_STW_WDOG, [F.BLK_STW_WDOG_EXPIRED, F.BLK_STW_WDOG_LIMIT, F.BLK_STW_WDOG_KICK]),
  (R.BLK_MBOX_CTRL, [F.BLK_MBOX_CTRL_SEQ, F.BLK_MBOX_CTRL_LOST, F.BLK_MBOX_CTRL_OWNER, F.BLK_MBOX_CTRL_CMD]),
  (R.BLK_MBOX_DATA, [F.BLK_MBOX_DATA_DATA])]

/-- The registers of the LNK_ block with their fields. -/
def lnkTable : List (Reg × List Fld) := [
  (R.LNK_CTRL, [F.LNK_CTRL_SNAP, F.LNK_CTRL_EVENT_EN, F.LNK_CTRL_REPLAY_MAX, F.LNK_CTRL_VER_MAX, F.LNK_CTRL_AUTO_TRAIN, F.LNK_CTRL_HALF_EN, F.LNK_CTRL_CMD, F.LNK_CTRL_ENABLE]),
  (R.LNK_STATUS, [F.LNK_STATUS_PEER_ID, F.LNK_STATUS_PEER_PORT, F.LNK_STATUS_PROBATION, F.LNK_STATUS_VERSION, F.LNK_STATUS_RX_HALF, F.LNK_STATUS_TX_HALF, F.LNK_STATUS_RX_WIDTH, F.LNK_STATUS_TX_WIDTH, F.LNK_STATUS_HALF_OVER, F.LNK_STATUS_PLL, F.LNK_STATUS_LAST_CODE, F.LNK_STATUS_RETIRED, F.LNK_STATUS_STATE]),
  (R.LNK_EVENT, [F.LNK_EVENT_TRAIN_FAIL, F.LNK_EVENT_HALF_OVER, F.LNK_EVENT_CTL_BAD, F.LNK_EVENT_PLL_DRIFT, F.LNK_EVENT_CREDIT_VIOL, F.LNK_EVENT_ACTIVE, F.LNK_EVENT_DOWN, F.LNK_EVENT_LANE_LOSS, F.LNK_EVENT_RETRAIN, F.LNK_EVENT_REPLAY, F.LNK_EVENT_PARITY]),
  (R.LNK_LANES, [F.LNK_LANES_REVERSED, F.LNK_LANES_POLARITY, F.LNK_LANES_TX_GOOD, F.LNK_LANES_RX_GOOD]),
  (R.LNK_SEQ, [F.LNK_SEQ_REPLAYS, F.LNK_SEQ_REPLAY_FROM, F.LNK_SEQ_RX_EXPECT, F.LNK_SEQ_DISCARD, F.LNK_SEQ_TX_ACKED, F.LNK_SEQ_TX_NEXT]),
  (R.LNK_LAG, [F.LNK_LAG_LAG_MAX, F.LNK_LAG_LATE_MAX, F.LNK_LAG_CAUSE, F.LNK_LAG_LAG]),
  (R.LNK_SCHED, [F.LNK_SCHED_SCHED_MAX, F.LNK_SCHED_CARRY_UT]),
  (R.LNK_PLL, [F.LNK_PLL_TEMP, F.LNK_PLL_TEMP_CAL, F.LNK_PLL_DRIFT]),
  (R.LNK_CREDIT_TX, [F.LNK_CREDIT_TX_HDR_LIM, F.LNK_CREDIT_TX_HDR_CONS, F.LNK_CREDIT_TX_DATA_LIM, F.LNK_CREDIT_TX_DATA_CONS]),
  (R.LNK_CREDIT_RX, [F.LNK_CREDIT_RX_HDR_CAP, F.LNK_CREDIT_RX_HDR_FREED, F.LNK_CREDIT_RX_DATA_CAP, F.LNK_CREDIT_RX_DATA_FREED]),
  (R.LNK_TEST, [F.LNK_TEST_STATUS, F.LNK_TEST_LANES, F.LNK_TEST_PATTERN, F.LNK_TEST_CMD]),
  (R.LNK_TEST_ERR, [F.LNK_TEST_ERR_OVF, F.LNK_TEST_ERR_COUNT]),
  (R.LNK_PARITY_CNT, [F.LNK_PARITY_CNT_OVF, F.LNK_PARITY_CNT_COUNT]),
  (R.LNK_REPLAY_CNT, [F.LNK_REPLAY_CNT_OVF, F.LNK_REPLAY_CNT_COUNT]),
  (R.LNK_RETRAIN_CNT, [F.LNK_RETRAIN_CNT_OVF, F.LNK_RETRAIN_CNT_COUNT]),
  (R.LNK_DOWN_CNT, [F.LNK_DOWN_CNT_OVF, F.LNK_DOWN_CNT_COUNT]),
  (R.LNK_CTLBAD_CNT, [F.LNK_CTLBAD_CNT_OVF, F.LNK_CTLBAD_CNT_COUNT]),
  (R.LNK_CARRY_CNT, [F.LNK_CARRY_CNT_WRAP, F.LNK_CARRY_CNT_COUNT]),
  (R.LNK_TX_UNITS, [F.LNK_TX_UNITS_WRAP, F.LNK_TX_UNITS_COUNT]),
  (R.LNK_RX_UNITS, [F.LNK_RX_UNITS_WRAP, F.LNK_RX_UNITS_COUNT]),
  (R.LNK_PEER_EXP, [F.LNK_PEER_EXP_EN, F.LNK_PEER_EXP_ID]),
  (R.LNK_FAB, [F.LNK_FAB_VC1_HELD, F.LNK_FAB_DRAINED]),
  (R.LNK_PKEY_CNT, [F.LNK_PKEY_CNT_OVF, F.LNK_PKEY_CNT_COUNT]),
  (R.LNK_ROUTE, [F.LNK_ROUTE_E3, F.LNK_ROUTE_E2, F.LNK_ROUTE_E1, F.LNK_ROUTE_E0])]

/-- The registers of the TLR_ block with their fields. -/
def tlrTable : List (Reg × List Fld) := [
  (R.TLR_CTRL, [F.TLR_CTRL_SNAP, F.TLR_CTRL_EVENT_EN, F.TLR_CTRL_ENABLE]),
  (R.TLR_STATUS, [F.TLR_STATUS_LEAD, F.TLR_STATUS_TENANCY, F.TLR_STATUS_VARIANT, F.TLR_STATUS_FREE, F.TLR_STATUS_COMMIT_STEP]),
  (R.TLR_EVENT, [F.TLR_EVENT_VARIANT, F.TLR_EVENT_RING_FAIL, F.TLR_EVENT_NOT_LEAD, F.TLR_EVENT_RESULT_BAD, F.TLR_EVENT_CQ_FULL, F.TLR_EVENT_FILL_LATE, F.TLR_EVENT_CQ_WRITTEN, F.TLR_EVENT_COMMIT]),
  (R.TLR_SQ_BASE, [F.TLR_SQ_BASE_ADDR]),
  (R.TLR_CQ_BASE, [F.TLR_CQ_BASE_ADDR]),
  (R.TLR_SQ_PTR, [F.TLR_SQ_PTR_SIZE, F.TLR_SQ_PTR_HEAD, F.TLR_SQ_PTR_TAIL]),
  (R.TLR_CQ_PTR, [F.TLR_CQ_PTR_SIZE, F.TLR_CQ_PTR_TAIL, F.TLR_CQ_PTR_HEAD]),
  (R.TLR_REQ_CMD, [F.TLR_REQ_CMD_TAG, F.TLR_REQ_CMD_SLOT, F.TLR_REQ_CMD_STATUS, F.TLR_REQ_CMD_CMD]),
  (R.TLR_VARIANT, [F.TLR_VARIANT_UPC, F.TLR_VARIANT_DNC, F.TLR_VARIANT_PIN_EN, F.TLR_VARIANT_PIN]),
  (R.TLR_SLOT_QUERY, [F.TLR_SLOT_QUERY_SLOT, F.TLR_SLOT_QUERY_STATE, F.TLR_SLOT_QUERY_ACCOUNT, F.TLR_SLOT_QUERY_GENERATED]),
  (R.TLR_ACCT_CMD, [F.TLR_ACCT_CMD_ACCOUNT, F.TLR_ACCT_CMD_CMD]),
  (R.TLR_ACCT_DATA, [F.TLR_ACCT_DATA_DATA]),
  (R.TLR_CNT, [F.TLR_CNT_WRAP, F.TLR_CNT_COUNT]),
  (R.TLR_MASK, [F.TLR_MASK_MASK])]

/-- The registers of the HST_ block with their fields. -/
def hstTable : List (Reg × List Fld) := [
  (R.HST_ID, [F.HST_ID_VENDOR, F.HST_ID_DEVICE, F.HST_ID_REV, F.HST_ID_CLASS]),
  (R.HST_IFVER, [F.HST_IFVER_REG_MAJOR, F.HST_IFVER_REG_MINOR, F.HST_IFVER_MBOX_MAJOR, F.HST_IFVER_MBOX_MINOR, F.HST_IFVER_QUEUE_MAJOR, F.HST_IFVER_QUEUE_MINOR]),
  (R.HST_STATUS, [F.HST_STATUS_RATE, F.HST_STATUS_WIDTH, F.HST_STATUS_FLIT, F.HST_STATUS_DSTATE, F.HST_STATUS_LSTATE, F.HST_STATUS_BME]),
  (R.HST_EVENT, [F.HST_EVENT_REMOVAL, F.HST_EVENT_WAKE_SAT, F.HST_EVENT_FLR, F.HST_EVENT_LINK_DOWN, F.HST_EVENT_HWQ_FULL, F.HST_EVENT_MBOX_REFUSED, F.HST_EVENT_MBOX_DOOR, F.HST_EVENT_BUS_ERR]),
  (R.HST_CTRL, [F.HST_CTRL_EVENT_EN]),
  (R.HST_CWIN, [F.HST_CWIN_BASE]),
  (R.HST_MWIN, [F.HST_MWIN_VAULT]),
  (R.HST_WAKE, [F.HST_WAKE_ASSERTING, F.HST_WAKE_EN, F.HST_WAKE_REASON]),
  (R.HST_HWQ, [F.HST_HWQ_DEPTH_MAX, F.HST_HWQ_DEPTH]),
  (R.HST_BUSERR, [F.HST_BUSERR_SPACE, F.HST_BUSERR_ADDR]),
  (R.HST_IRQ_MAP, [F.HST_IRQ_MAP_REARM, F.HST_IRQ_MAP_EN, F.HST_IRQ_MAP_VECTOR]),
  (R.HST_MBOX_CTRL, [F.HST_MBOX_CTRL_SEQ, F.HST_MBOX_CTRL_ARG, F.HST_MBOX_CTRL_CMD]),
  (R.HST_MBOX_STATUS, [F.HST_MBOX_STATUS_SEQ, F.HST_MBOX_STATUS_OPCODE, F.HST_MBOX_STATUS_CODE, F.HST_MBOX_STATUS_ALREADY_READ, F.HST_MBOX_STATUS_READY, F.HST_MBOX_STATUS_BUSY]),
  (R.HST_MBOX_REQ, [F.HST_MBOX_REQ_DATA]),
  (R.HST_MBOX_RES, [F.HST_MBOX_RES_DATA])]

/-- The registers of the ETH_ block with their fields. -/
def ethTable : List (Reg × List Fld) := [
  (R.ETH_CTRL, [F.ETH_CTRL_SNAP, F.ETH_CTRL_EVENT_EN, F.ETH_CTRL_PFC_PRIO, F.ETH_CTRL_PFC_EN, F.ETH_CTRL_ACK_TO, F.ETH_CTRL_RETRY, F.ETH_CTRL_PTP_EN, F.ETH_CTRL_AN_EN, F.ETH_CTRL_ENABLE]),
  (R.ETH_STATUS, [F.ETH_STATUS_PMD, F.ETH_STATUS_PTP_VALID, F.ETH_STATUS_FEC_LOCK, F.ETH_STATUS_LINK_UP]),
  (R.ETH_EVENT, [F.ETH_EVENT_QP_ERR, F.ETH_EVENT_PTP_VALID, F.ETH_EVENT_FEC_UE, F.ETH_EVENT_LINK_UP, F.ETH_EVENT_LINK_DOWN, F.ETH_EVENT_RX_MGMT]),
  (R.ETH_ADDR, [F.ETH_ADDR_MAC]),
  (R.ETH_NH_MAC, [F.ETH_NH_MAC_MAC]),
  (R.ETH_GID_HI, [F.ETH_GID_HI_GID]),
  (R.ETH_GID_LO, [F.ETH_GID_LO_GID]),
  (R.ETH_PTP, [F.ETH_PTP_OFS, F.ETH_PTP_DOMAIN, F.ETH_PTP_TRANSPORT, F.ETH_PTP_COUNT]),
  (R.ETH_STORE, [F.ETH_STORE_VALID, F.ETH_STORE_PORT, F.ETH_STORE_QP]),
  (R.ETH_FEC_CE_CNT, [F.ETH_FEC_CE_CNT_WRAP, F.ETH_FEC_CE_CNT_COUNT]),
  (R.ETH_RETX_CNT, [F.ETH_RETX_CNT_WRAP, F.ETH_RETX_CNT_COUNT]),
  (R.ETH_FEC_UE_CNT, [F.ETH_FEC_UE_CNT_OVF, F.ETH_FEC_UE_CNT_COUNT]),
  (R.ETH_QP_CTRL, [F.ETH_QP_CTRL_STATE, F.ETH_QP_CTRL_PMTU, F.ETH_QP_CTRL_DSCP, F.ETH_QP_CTRL_PSN_TX, F.ETH_QP_CTRL_DQPN]),
  (R.ETH_QP_KEY, [F.ETH_QP_KEY_PSN_RX, F.ETH_QP_KEY_RKEY]),
  (R.ETH_QP_GID_HI, [F.ETH_QP_GID_HI_GID]),
  (R.ETH_QP_GID_LO, [F.ETH_QP_GID_LO_GID])]

/-- The registers of the PWR_ block with their fields. -/
def pwrTable : List (Reg × List Fld) := [
  (R.PWR_THERM, [F.PWR_THERM_TRIPPED, F.PWR_THERM_TEMP]),
  (R.PWR_CTRL, [F.PWR_CTRL_SNAP, F.PWR_CTRL_EVENT_EN]),
  (R.PWR_EVENT, [F.PWR_EVENT_CMU_DONE, F.PWR_EVENT_PMB_ERR, F.PWR_EVENT_VIN_LOW, F.PWR_EVENT_TRIP, F.PWR_EVENT_CAP_CONFLICT, F.PWR_EVENT_PROT, F.PWR_EVENT_PD_FAIL, F.PWR_EVENT_PD_DONE]),
  (R.PWR_PD_CTRL, [F.PWR_PD_CTRL_STATUS, F.PWR_PD_CTRL_DOMAIN, F.PWR_PD_CTRL_CMD]),
  (R.PWR_PD_STAT, [F.PWR_PD_STAT_ON]),
  (R.PWR_CLKEN, [F.PWR_CLKEN_EN]),
  (R.PWR_CPCLK, [F.PWR_CPCLK_PER_DIV, F.PWR_CPCLK_STW_DIV]),
  (R.PWR_ENV, [F.PWR_ENV_SW_W]),
  (R.PWR_INPUT, [F.PWR_INPUT_PIN, F.PWR_INPUT_IIN, F.PWR_INPUT_VIN]),
  (R.PWR_FRAME, [F.PWR_FRAME_MEAS_OVER, F.PWR_FRAME_DECL_OVER, F.PWR_FRAME_DECL_W, F.PWR_FRAME_MEAS]),
  (R.PWR_PROT, [F.PWR_PROT_FRAME_LO, F.PWR_PROT_MAX_LEVEL, F.PWR_PROT_REGION, F.PWR_PROT_CAUSE]),
  (R.PWR_CONFLICT_CNT, [F.PWR_CONFLICT_CNT_WRAP, F.PWR_CONFLICT_CNT_COUNT]),
  (R.PWR_PROT_CNT, [F.PWR_PROT_CNT_WRAP, F.PWR_PROT_CNT_COUNT]),
  (R.PWR_RAIL, [F.PWR_RAIL_VOUT, F.PWR_RAIL_IOUT, F.PWR_RAIL_TEMP, F.PWR_RAIL_FAULT, F.PWR_RAIL_STALE]),
  (R.PWR_PMB_CTRL, [F.PWR_PMB_CTRL_POLL_EN]),
  (R.PWR_CMU_CTRL, [F.PWR_CMU_CTRL_SRC, F.PWR_CMU_CTRL_GATE, F.PWR_CMU_CTRL_REF, F.PWR_CMU_CTRL_START]),
  (R.PWR_CMU_RES, [F.PWR_CMU_RES_BADSEL, F.PWR_CMU_RES_DONE, F.PWR_CMU_RES_COUNT])]

/-- The registers of the KEP_ block with their fields. -/
def kepTable : List (Reg × List Fld) := [
  (R.KEP_STATUS, [F.KEP_STATUS_UNACKED_CNT, F.KEP_STATUS_STAGE, F.KEP_STATUS_PENDING_TRIAL, F.KEP_STATUS_TRIAL, F.KEP_STATUS_SLOT, F.KEP_STATUS_BACKUP_LOW, F.KEP_STATUS_RTC_VALID, F.KEP_STATUS_LOOP_OPEN, F.KEP_STATUS_UNACKED]),
  (R.KEP_EVENT, [F.KEP_EVENT_CHAIN_DONE, F.KEP_EVENT_CHAIN_FAIL, F.KEP_EVENT_STAGE_DONE, F.KEP_EVENT_FW_FALLBACK, F.KEP_EVENT_BACKUP_LOW, F.KEP_EVENT_RTC_LOST, F.KEP_EVENT_INTRUSION]),
  (R.KEP_CTRL, [F.KEP_CTRL_COMMIT_S, F.KEP_CTRL_STAGE_HOLD, F.KEP_CTRL_CONFIRM_S, F.KEP_CTRL_EVENT_EN, F.KEP_CTRL_ABORT_STAGE, F.KEP_CTRL_CONFIRM]),
  (R.KEP_UNIT, [F.KEP_UNIT_ID]),
  (R.KEP_RTC, [F.KEP_RTC_SEC, F.KEP_RTC_SUB]),
  (R.KEP_FUSE, [F.KEP_FUSE_REVOKE, F.KEP_FUSE_CNT3, F.KEP_FUSE_CNT2, F.KEP_FUSE_CNT1, F.KEP_FUSE_CNT0]),
  (R.KEP_SLOT_VER, [F.KEP_SLOT_VER_VERSION]),
  (R.KEP_SLOT_STAT, [F.KEP_SLOT_STAT_CODE, F.KEP_SLOT_STAT_COUNTER, F.KEP_SLOT_STAT_SVN, F.KEP_SLOT_STAT_ATTEMPTS, F.KEP_SLOT_STAT_STATE]),
  (R.KEP_STAGE, [F.KEP_STAGE_CODE, F.KEP_STAGE_BLOCKS, F.KEP_STAGE_STATE, F.KEP_STAGE_OWNER]),
  (R.KEP_CHAIN, [F.KEP_CHAIN_HOP_DONE, F.KEP_CHAIN_HOP_FAIL, F.KEP_CHAIN_ACCEPT, F.KEP_CHAIN_NEXT3, F.KEP_CHAIN_NEXT2, F.KEP_CHAIN_NEXT1, F.KEP_CHAIN_NEXT0]),
  (R.KEP_LOG_CTRL, [F.KEP_LOG_CTRL_HEAD, F.KEP_LOG_CTRL_SEL]),
  (R.KEP_LOG_LOST, [F.KEP_LOG_LOST_OVF, F.KEP_LOG_LOST_COUNT]),
  (R.KEP_LOG_DATA, [F.KEP_LOG_DATA_DATA])]

/-- The registers of the DBG_ block with their fields. -/
def dbgTable : List (Reg × List Fld) := [
  (R.DBG_CTRL, [F.DBG_CTRL_SNAP, F.DBG_CTRL_EVENT_EN, F.DBG_CTRL_JTAG_LOCK, F.DBG_CTRL_AUTO_RETIRE]),
  (R.DBG_STATUS, [F.DBG_STATUS_P, F.DBG_STATUS_REPLACE_CAUSE, F.DBG_STATUS_REPLACE_REQUESTED, F.DBG_STATUS_FREEZE_SRC, F.DBG_STATUS_RESUME_ARMED, F.DBG_STATUS_FROZEN]),
  (R.DBG_EVENT, [F.DBG_EVENT_CAP_DONE, F.DBG_EVENT_CNT_OVF, F.DBG_EVENT_FREEZE, F.DBG_EVENT_SMB, F.DBG_EVENT_HS_HANG, F.DBG_EVENT_DEGRADED, F.DBG_EVENT_RETIRED, F.DBG_EVENT_CELL_CE, F.DBG_EVENT_FAULT]),
  (R.DBG_FAULT_LAST, [F.DBG_FAULT_LAST_CODE, F.DBG_FAULT_LAST_LEVEL, F.DBG_FAULT_LAST_UNIT, F.DBG_FAULT_LAST_FRAME_LO]),
  (R.DBG_FAULT_CNT, [F.DBG_FAULT_CNT_OVF, F.DBG_FAULT_CNT_COUNT]),
  (R.DBG_SMB_CNT, [F.DBG_SMB_CNT_OVF, F.DBG_SMB_CNT_COUNT]),
  (R.DBG_FREEZE, [F.DBG_FREEZE_RESULT, F.DBG_FREEZE_MODE, F.DBG_FREEZE_CMD]),
  (R.DBG_FREEZE_AT, [F.DBG_FREEZE_AT_TICK]),
  (R.DBG_RESUME_AT, [F.DBG_RESUME_AT_TICK]),
  (R.DBG_RETIRE, [F.DBG_RETIRE_UE_LIMIT, F.DBG_RETIRE_WIN, F.DBG_RETIRE_UNIT, F.DBG_RETIRE_KIND, F.DBG_RETIRE_CMD]),
  (R.DBG_SMB, [F.DBG_SMB_SDA, F.DBG_SMB_STATE, F.DBG_SMB_RECOVER]),
  (R.DBG_OVF_LAST, [F.DBG_OVF_LAST_ADDR]),
  (R.DBG_HS, [F.DBG_HS_EXPIRED, F.DBG_HS_LIMIT, F.DBG_HS_RESET, F.DBG_HS_KICK]),
  (R.DBG_RB_ADDR, [F.DBG_RB_ADDR_CLASS, F.DBG_RB_ADDR_UNIT, F.DBG_RB_ADDR_OFFSET]),
  (R.DBG_RB_STAT, [F.DBG_RB_STAT_STATUS]),
  (R.DBG_RB_DATA, [F.DBG_RB_DATA_DATA]),
  (R.DBG_CAP_CTRL, [F.DBG_CAP_CTRL_CLASSES, F.DBG_CAP_CTRL_DEST, F.DBG_CAP_CTRL_CMD]),
  (R.DBG_CAP_STAT, [F.DBG_CAP_STAT_BYTES, F.DBG_CAP_STAT_CODE, F.DBG_CAP_STAT_STATE]),
  (R.DBG_CAP_HOST, [F.DBG_CAP_HOST_ADDR]),
  (R.DBG_BLOCK, [F.DBG_BLOCK_FUSED, F.DBG_BLOCK_RETIRED, F.DBG_BLOCK_ACTIVE])]

/-- The register table of a block. -/
def regsOf : Blk → List (Reg × List Fld)
  | .mod => modTable
  | .blf => blfTable
  | .rgn => rgnTable
  | .pln => plnTable
  | .cel => celTable
  | .vlt => vltTable
  | .blk => blkTable
  | .lnk => lnkTable
  | .tlr => tlrTable
  | .hst => hstTable
  | .eth => ethTable
  | .pwr => pwrTable
  | .kep => kepTable
  | .dbg => dbgTable

/-- The register entry at an offset of a block, with its index. -/
def findEntry : List (Reg × List Fld) → Nat → Option (Reg × List Fld × Nat)
  | [], _ => none
  | (r, fs) :: t, o =>
    if r.off ≤ o then
      if r.stride = 0 then (if o = r.off then some (r, fs, 0) else findEntry t o)
      else if (o - r.off) % r.stride = 0 ∧ (o - r.off) / r.stride < r.count then
        some (r, fs, (o - r.off) / r.stride)
      else findEntry t o
    else findEntry t o

/-- The block, its instance and the offset that an address falls in (R21, R22); none where no block maps it (R23). -/
def findBlock (a : Nat) : Option (Blk × Nat × Nat) :=
  if a < 0x10000 then some (.mod, 0, a)
  else if a < 0x20000 then some (.blf, 0, a - 0x10000)
  else if a < 0x30000 then some (.pwr, 0, a - 0x20000)
  else if a < 0x40000 then some (.pln, 0, a - 0x30000)
  else if a < 0x50000 then some (.tlr, 0, a - 0x40000)
  else if a < 0x60000 then some (.eth, (a - 0x50000) / 0x8000, (a - 0x50000) % 0x8000)
  else if a < 0x70000 then some (.hst, 0, a - 0x60000)
  else if a < 0x80000 then some (.kep, 0, a - 0x70000)
  else if a < 0x100000 then some (.dbg, 0, a - 0x80000)
  else if a < 0x100000 + 18 * 0x10000 then some (.lnk, (a - 0x100000) / 0x10000, (a - 0x100000) % 0x10000)
  else if 0x1000000 ≤ a ∧ a < 0x2000000 then
    let r := (a - 0x1000000) / 0x100000
    let o := (a - 0x1000000) % 0x100000
    if 0xC0000 ≤ o ∧ o < 0xD0000 then some (.rgn, r, o - 0xC0000)
    else if o < 0xA0000 then
      let b := r * 5 + o / 0x20000
      let p := o % 0x20000
      if 0x18000 ≤ p then some (.blk, b, p - 0x18000)
      else if p < 17 * 0x1000 then some (.cel, b * 17 + p / 0x1000, p % 0x1000)
      else none
    else none
  else if 0x2000000 ≤ a ∧ a < 0x2000000 + 8 * 0x100000 then
    some (.vlt, (a - 0x2000000) / 0x100000, (a - 0x2000000) % 0x100000)
  else none

/-- The register at a control-space address: its entry, fields, block instance and index. The registers VLT_CRING and
VLT_CRING_DROP stand in vault 0 alone (R247). -/
def findReg (a : Nat) : Option (Reg × List Fld × Nat × Nat) :=
  match findBlock a with
  | none => none
  | some (b, u, o) =>
    match findEntry (regsOf b) o with
    | none => none
    | some (r, fs, i) =>
      if (r = R.VLT_CRING ∨ r = R.VLT_CRING_DROP) ∧ u ≠ 0 then none else some (r, fs, u, i)

end Sys2Proof.Machine
end

