-- ==== Sys2Proof/Config.lean ====
section
/-! DEFINITION. What one implementation fixes and the free values: constants without a body, so that a claim holds whatever
they are. -/
namespace Sys2Proof.Config

/-- The fused VMAX of region r at a step, in 0.1 mV (R56, RGN_VMON). -/
opaque vmax : Nat → Nat → BitVec 16
/-- The fused VMIN of region r at a step, in 0.1 mV (R56, RGN_VMON). -/
opaque vmin : Nat → Nat → BitVec 16
/-- Free value: the worst raw latency of crossing k in a calibration, in 1/8 fc (R61). -/
opaque rawLatency : Nat → Nat → BitVec 6
/-- Free value: the frame start offset that start-up alignment leaves, in 1/256 rc (R38, R64). -/
opaque alignPhase : Nat → BitVec 8
/-- Free value: the filtered offset to the parent after one frame, in ps, of the last filtered offset and the newest
measured offset (R44 gives no filter). -/
opaque servoFilter : Int → Int → Int
/-- Free value: the servo's integral part after one frame, of the one before and the newest filtered offset (R44 gives no
gains). -/
opaque servoIntegral : Int → Int → Int
/-- Free value: the steering that the servo asks for, in parts per 10^12, before its limit, of the newest filtered offset and
the integral part (R44 gives no gains). -/
opaque servoSteer : Int → Int → Int
/-- Free value: the 32 bits that a port's offset or rtt shows where it does not fit them (R42 gives no result there). -/
opaque wideTime : Int → BitVec 32
/-- Free value: the fc point that a counter step below hall time 0 reaches (R40 gives no result there). -/
opaque stepPoint : Nat → Nat
/-- Free value: how a result between two values of a register's unit is rounded (R42, R40 give no rounding). -/
opaque roundUp : Nat → Bool
/-- Free value: of two equally wide passing runs of taps, the one at the later tap is taken (R64 names no order). -/
opaque tapTie : Nat → Nat → Bool
/-- Free value: a special function at an ordinary input, where the spec gives a largest error and no bits (R182, R194);
the first argument numbers the function. -/
opaque special : Nat → BitVec 32 → BitVec 32

/-- Free value: what MFS reads from a special register of the tenancy in a cell that no tenancy runs (R116 gives none). -/
opaque mfsNoTenancy : Nat → BitVec 64
/-- Free value: how many bundles the run-ahead fetch of a taken branch has read, 0 to 2 (R120). -/
opaque runAhead : Nat → Fin 3
/-- Free value: the seed of a lane's scrambler at a training (R279 gives none). -/
opaque scramblerSeed : Nat → Nat → BitVec 31
/-- Free value: CAUSE of a lag episode that begins for a reason R292 does not list. -/
opaque lagCause : Nat → BitVec 4
/-- How many flits, above one, an input of a router holds in a virtual channel: router, input and channel; the buffers' depth is not
given (R320). -/
opaque meshBuffer : Nat → Nat → Nat → BitVec 16
/-- Free value: the bridge port of an unscheduled packet between dies (R320 names none). -/
opaque bridge : Nat → Fin 16
/-- Free value: LATENESS of a missed mesh slot, which R101 measures in no unit that a mesh slot has. -/
opaque meshLateness : Nat → BitVec 16
/-- Free value: a balance that an operation takes out of its 64 signed bits (R401 gives no result there). -/
opaque ledger : Nat → BitVec 64
/-- Free value: the last accepted token of a request that has none (R386 gives none). -/
opaque noToken : Nat → BitVec 32

/-- SHA-384, which the spec takes as given (R496, R511). -/
opaque sha384 : List (BitVec 8) → List (BitVec 8)
/-- An ECDSA P-384 signature verifies: public key, signed bytes, signature (R496). -/
opaque ecdsaOk : List (BitVec 8) → List (BitVec 8) → List (BitVec 8) → Bool
/-- A signature with the unit key (R484, R510). -/
opaque unitSign : List (BitVec 8) → List (BitVec 8)
/-- The fused ROOT_HASH j (R483). -/
opaque rootHash : Nat → List (BitVec 8)
/-- The boot ROM (R490). -/
opaque bootRom : List (BitVec 8)
/-- The certificate chain of slot 0 (R510). -/
opaque certChain : List (BitVec 8)
/-- An SPDM 1.2 response as DMTF lays it out: its request's code and what it carries (R510). -/
opaque spdm : Nat → List (BitVec 8) → List (BitVec 8)
/-- Free value: how far the real-time clock has counted since it was last observed, in 1/32,768 s (R486). -/
opaque rtcElapsed : Nat → BitVec 64
/-- Free value: a byte that the spec leaves open. -/
opaque freeByte : Nat → BitVec 8
/-- Free value: a byte of a readback layout that R537 does not give; class, unit, offset and draw. -/
opaque readback : Nat → Nat → Nat → Nat → BitVec 8
/-- The manufacturer identity of IDCODE, which the spec does not give (R540). -/
opaque manufacturer : BitVec 11
/-- Free value: what a read through the steward bridge returns once R479's rule has been broken. -/
opaque bridgeRead : Nat → BitVec 64
/-- The identity CSRs of a steward's core: mvendorid, marchid and mimpid, which the spec does not give (R253). -/
opaque coreId : Nat → BitVec 64
/-- A trap writes the address or the instruction concerned to mtval, or zero; the privileged specification leaves it to the
implementation (R249). -/
opaque trapValue : Bool
/-- Free value: the steward cycles that an instruction takes beyond its first (R249). -/
opaque stall : Nat → BitVec 16
/-- Free value: byte k of an instruction fetched after its SRAM was written and before FENCE.I is the new one (R252). -/
opaque fetchNew : Nat → Nat → Bool
/-- Free value: the pattern errors that a test of a link has counted, where STOP is a register write (R307). -/
opaque testErrors : Nat → BitVec 32
/-- Free value: a choice between two outcomes that the spec leaves open. -/
opaque freeBit : Nat → Bool
/-- Free value: what a register that only the firmware may use reads (R566). -/
opaque firmwareReg : Nat → BitVec 64
/-- The bytes of a readback layout that R537 names without a size: class and unit. -/
opaque layoutBytes : Nat → Nat → BitVec 32
/-- Free value: what becomes of a write through the steward bridge once R479's rule has been broken: it arrives, is lost, or
goes to the register at the address given. -/
opaque bridgeWrite : Nat → Option (Option (BitVec 48))

end Sys2Proof.Config
end

