-- ==== Sys2Proof/Machine/Store.lean ====
section
/-! DEFINITION. Sparse stores: lists of (key, value) pairs in one canonical form, keys strictly rising and no entry equal
to what an unlisted key reads as. -/
namespace Sys2Proof.Machine

/-- The value at key n, or d where n is not listed. -/
def sget {α : Type} (d : α) : List (Nat × α) → Nat → α
  | [], _ => d
  | (k, v) :: m, n => if n = k then v else sget d m n

/-- Sets key n to v; where v is d, what the key reads as unlisted, its entry goes. -/
def sset {α : Type} [DecidableEq α] (d : α) : List (Nat × α) → Nat → α → List (Nat × α)
  | [], n, v => if v = d then [] else [(n, v)]
  | (k, w) :: m, n, v =>
    if v = d then (if n = k then sset d m n v else (k, w) :: sset d m n v)
    else if n < k then (n, v) :: (k, w) :: m
    else if n = k then (n, v) :: m
    else (k, w) :: sset d m n v

/-- The canonical form: keys strictly rising from lo on, and no entry equal to its key's unlisted value. -/
def swf {α : Type} [DecidableEq α] (d : Nat → α) : Nat → List (Nat × α) → Bool
  | _, [] => true
  | lo, (k, v) :: m => decide (lo ≤ k) && decide (v ≠ d k) && swf d (k + 1) m

/-- An addressed memory: bytes by address. -/
abbrev Memory := List (Nat × BitVec 8)

/-- A memory whose unlisted bytes read d is in canonical form. -/
def Memory.wf (m : Memory) (d : BitVec 8 := 0#8) : Bool := swf (fun _ => d) 0 m

/-- Sets consecutive keys from n on. -/
def ssets {α : Type} [DecidableEq α] (d : α) : List (Nat × α) → Nat → List α → List (Nat × α)
  | m, _, [] => m
  | m, n, v :: vs => ssets d (sset d m n v) (n + 1) vs

/-- The k values at keys n onward. -/
def sgets {α : Type} (d : α) (m : List (Nat × α)) (n : Nat) : Nat → List α
  | 0 => []
  | k + 1 => sget d m n :: sgets d m (n + 1) k

/-- Bits hi to lo of w. -/
def bitsOf (w hi lo : Nat) : Nat := (w >>> lo) % 2 ^ (hi - lo + 1)

/-- w with bits hi to lo replaced by v. -/
def setBits (w hi lo v : Nat) : Nat :=
  (w >>> (hi + 1)) <<< (hi + 1) + (v % 2 ^ (hi - lo + 1)) <<< lo + w % 2 ^ lo

/-- The value of w bits as a signed number. -/
def toSigned (w n : Nat) : Int := if n < 2 ^ (w - 1) then (n : Int) else (n : Int) - (2 : Int) ^ w

/-- The low w bits of a signed number. -/
def ofSigned (w : Nat) (i : Int) : Nat := (i % (2 : Int) ^ w).toNat

/-- n rounded up to a multiple of m. -/
def roundUp (n m : Nat) : Nat := (n + m - 1) / m * m

/-- Ceiling division. -/
def ceilDiv (a b : Nat) : Nat := (a + b - 1) / b

/-- A little-endian number from bytes (R4). -/
def leNat : List (BitVec 8) → Nat
  | [] => 0
  | b :: bs => b.toNat + 256 * leNat bs

/-- The k little-endian bytes of a number (R4). -/
def leBytes : Nat → Nat → List (BitVec 8)
  | 0, _ => []
  | k + 1, n => BitVec.ofNat 8 n :: leBytes k (n / 256)

/-- A big-endian number from bytes. -/
def beNat (bs : List (BitVec 8)) : Nat := leNat bs.reverse

/-- A little-endian field of len bytes at offset off of a record. -/
def fieldAt (bs : List (BitVec 8)) (off len : Nat) : Nat := leNat ((bs.drop off).take len)

/-- The list with entry n replaced, where it has one. -/
def listSet {α : Type} : List α → Nat → α → List α
  | [], _, _ => []
  | _ :: t, 0, v => v :: t
  | h :: t, n + 1, v => h :: listSet t n v

/-- The entry n of a list, or d. -/
def listGet {α : Type} (d : α) : List α → Nat → α
  | [], _ => d
  | h :: _, 0 => h
  | _ :: t, n + 1 => listGet d t n

/-- Applies a function to the numbers from i up to i + n - 1 in order, threading a value. -/
def forN {σ : Type} (f : Nat → σ → σ) : Nat → Nat → σ → σ
  | _, 0, s => s
  | i, n + 1, s => forN f (i + 1) n (f i s)

end Sys2Proof.Machine
end

