-- ==== Sys2Proof/Machine/State.lean ====
section
/-! DEFINITION. The state of the module as plain data, the reasons a command can stop, and the state after reset. -/
namespace Sys2Proof.Machine

/-- A command never faults: the module's faults are its own codes, recorded in registers. Safe. -/
inductive Fault where
  | none
  deriving DecidableEq, Repr

/-- Why a command is refused. -/
inductive Refusal where
  /-- The command has no meaning yet (Dispatch.lean). Safe. -/
  | notModelled (mnemonic : String)
  deriving DecidableEq, Repr

/-- The time exchange of one port (R41 to R43, R48), live; the BLF_PTIME and BLF_PCAL registers show the snapshot. -/
structure PortTime where
  arrive : Option Nat := none -- arrival of the last TIME unit from the peer, in 2^-16 tick of our counter
  since : Nat := 5           -- Bells since an exchange completed
  done : Bool := false       -- an exchange has completed
  ofs : Int := 0             -- theta, in ps
  rtt : Int := 0             -- rtt, in ps
  locTxrx : Int := 0         -- own transmit less receive latency, in ps
  peerTxrx : Int := 0        -- the same as the peer reports it
  peerState : Nat := 0       -- the peer's Belfry state
  peerBound : Nat := 0xFFFF  -- the peer's error bound, in ps
  run : Nat := 0             -- consecutive frames with a completed exchange, up to 2 (R298)
  deriving DecidableEq, Repr

/-- The Belfry (R35 to R50), beyond its registers. -/
structure Hall where
  lat : Nat := 0             -- the hall-time counter in units of 16/25 tick (R35)
  steer : Int := 0           -- master steering, parts per 10^12
  bound : Nat := 0xFFFF      -- this module's error bound in ps, 0xFFFF for none
  parentBound : Nat := 0xFFFF
  filtered : Int := 0        -- filtered offset to the active parent, in ps
  integ : Int := 0           -- the servo's integral part (R44)
  holdAt : Nat := 0          -- HOLDOVER: the counter up to which the bound has grown, in units of 16/25 tick (R49)
  holdFrac : Nat := 0        -- and the growth below 1 ps, in units of 1/1,562,500 ps
  lockFrames : Nat := 0      -- consecutive frames below 100 ps (R40)
  faultFrames : Nat := 0     -- consecutive frames above FAULT_LIM (R47)
  ptpStepped : Bool := false -- the COARSE step has been made since FREERUN
  fineStepped : Bool := false -- the FINE step has been made since FREERUN
  stepFrame : Bool := false  -- the present frame holds a counter step (R37)
  timeFault : Bool := false  -- TIME_FAULT raised: every partition faults at the next Bell (R50)
  ports : List (Nat × PortTime) := []
  headEvents : List (BitVec 32) := [] -- ARG values passed to the head stewards by EVENT slots, oldest first
  deriving DecidableEq, Repr

/-- A region's shell (R55 to R64), beyond its registers. -/
structure Region where
  aligned : Bool := true     -- the mode in force
  bells : Nat := 0           -- Bells since the shell's power good (R64)
  tap : Nat := 0             -- the tap that start-up alignment selected
  alignPhase : Nat := 0      -- frame start offset on the selected tap, in 1/256 rc
  modeReq : Option Bool := none -- a MODE write waiting for the next Bell: true is aligned
  stepReq : Bool := false    -- a PLAN_STEP change waiting for the next Bell to start a retune
  retune : Option Nat := none -- frames since F of a retune in progress
  oldStep : Nat := 5         -- the step before the retune
  vdrop : Nat := 0           -- the rail's distance below VMAX, in steps of 2.5 mV
  streak : Nat := 0          -- consecutive evaluations with margin above 24
  droopSeen : Bool := false  -- droop detected since the last evaluation
  calFail : Bool := false    -- the calibration of the retune in progress failed
  alignFail : Bool := false  -- start-up alignment found no passing tap (R64)
  pos : Nat := 0             -- the frame position of the region's next edge
  droops : List Nat := []    -- frame positions removed for droop in this frame
  prevDroop : Nat := 0       -- edges removed for droop and by the limit in the frame before
  prevProt : Nat := 0
  lastRemoved : Bool := false -- the last edge of the frame before was removed by the protective limit
  levels : List (Nat × Nat) := [] -- protective level from a frame position on, newest first
  deriving DecidableEq, Repr

/-- One element of an accumulator bank (R153, R157, R160). -/
structure Elem where
  f : BitVec 32 := 0#32      -- the value in FP32 mode
  x : Int := 0               -- X of LEDGER mode, a 136-bit two's complement value
  w : Int := 0               -- the wrap count W
  nan : Bool := false
  pinf : Bool := false
  ninf : Bool := false
  isOver : Bool := false
  low : Bool := false
  held : Bool := false       -- W has stayed at its limit (R160 case 2)
  deriving DecidableEq, Repr

/-- An accumulator bank (R153). -/
structure Bank where
  ledger : Bool := false
  mq : Nat := 3
  nq : Nat := 3
  we : Int := 0
  high : Bool := false       -- a HIGH escape entered since it was cleared
  els : List (Nat × Elem) := []
  deriving DecidableEq, Repr

/-- What an issued operation writes when it lands (R104). -/
inductive Write where
  | none
  | sreg (r : Nat) (v : BitVec 64)
  | preg (p : Nat) (v : Bool)
  | vreg (r : Nat) (vs : List (BitVec 32))
  | coffer (a : Nat) (bs : List (BitVec 8))
  | store (a : Nat) (bs : List (BitVec 8))
  | bank (b : Nat) (v : Bank)
  | tally (t n : Nat)
  | escape
  deriving DecidableEq, Repr

/-- An issued operation that has not landed: its landing rc, slot, destination resource (as CEL_GUARD_LAST codes it), the
plan frame it issued in, its bundle's address, and what it writes. -/
structure Flight where
  due : Nat
  slot : Nat
  res : Nat
  step : Nat
  frame : Nat
  pc : Nat
  w : Write
  deriving DecidableEq, Repr

/-- A coffer read that a port makes at a later rc (R204): port 0 M, 1 T, 2 V. -/
structure PortRead where
  due : Nat
  port : Nat
  line : Nat
  pc : Nat
  deriving DecidableEq, Repr

/-- An entry of the send queue (R129, R538): the descriptor as read at SEND, bytes left in the cell store, the fc counted from
hall frame 0 from which its first data can be at the mesh and the fc at which its transfer began, and its group where it
leaves as unscheduled packets; and the bytes that it gives up in an fc. -/
structure SendEntry where
  desc : List (BitVec 8)
  left : Nat
  step : Nat
  frame : Nat
  ready : Nat := 0
  start : Option Nat := none
  grp : Option Nat := none
  rate : Nat := 256
  deriving DecidableEq, Repr

/-- A cell (R102) with the state that its execution needs. -/
structure Cell where
  st : Nat := 0              -- CEL_STATUS.STATE: 0 IDLE, 1 RUN, 2 STOPPED, 3 FAULTED, 4 RETIRED
  why : Nat := 0             -- CEL_STATUS.WHY
  sregs : List (Nat × BitVec 64) := []
  preds : List (Nat × Bool) := []
  vregs : List (Nat × BitVec 32) := []  -- lane l of register r at 64 r + l
  bank0 : Bank := {}
  bank1 : Bank := {}
  lastMma : Option (Nat × Bool) := none -- bank and mode of the operation issued last on the matrix engine (R152)
  tail : List (Nat × BitVec 8) := []    -- tail-chain records, record i at 64 i (R192)
  tailRecs : Nat := 1                   -- how many tail-chain records are loaded
  tallies : List (Nat × BitVec 16) := []
  sendq : List SendEntry := []
  pc : Nat := 0
  cframe : Nat := 0
  pos : Nat := 0             -- frame position of the next rc edge
  base : Nat := 0            -- the positions of the cell frame that lie before the present region frame (R122)
  fetched : Bool := false    -- the bundle at the pc has been fetched and counted (R120)
  rc : Nat := 0              -- STEP_RC: delivered rc since step entry
  frc : Nat := 0             -- delivered rc in the present region frame
  done : Nat := 0            -- cell frames closed since the cell started
  coffer : List (Nat × BitVec 8) := []
  store : List (Nat × BitVec 8) := []
  ready : List (Nat × Nat) := []        -- READY + 1 by resource; 0 is a cleared record (R132)
  free : List (Nat × Nat) := []         -- FREE + 1 by resource
  busy : List (Nat × Nat) := []
  pend : List (Nat × Nat) := []         -- pending-store granules with their landing rc
  flights : List Flight := []
  reads : List PortRead := []
  delay : Option Nat := none            -- the target of a taken branch whose delay positions are not over
  delayLeft : Nat := 0                  -- delay positions left of any branch, taken or not
  idle : Nat := 0                       -- idle rc left of an idle-repeat
  resume : Nat := 0                     -- the position at which the next bundle may issue
  sync : Bool := false                  -- at end-of-frame sync, waiting for the Bell
  lastSync : Bool := false              -- that sync ended the step
  late : Bool := false                  -- a Bell has passed since the cell frame began
  syncRc : Option Nat := none           -- delivered rc of the region frame at which this frame's sync came
  guardRc : Nat := 0
  waitRc : Nat := 0
  stall : Nat := 0                      -- length of the guard stall in progress
  stopping : Bool := false
  oneStep : Bool := false               -- CMD = STEP: stop after one bundle
  meshWr : List (Nat × Nat × List (BitVec 8)) := [] -- mesh-port writes by landing rc, address and the bytes before (R209)
  ueAt : List Nat := []                 -- frames at which CEL_UE_CNT rose, newest first (R519)
  poison : List Nat := []               -- poisoned store granules g, coffer granules 0x10000 + g, register words 0x20000 + w
  deriving DecidableEq, Repr

/-- One section of a plan image (R74) with its body. -/
structure Section where
  ty : Nat
  flags : Nat
  ver : Nat
  ten : Nat
  off : Nat
  size : Nat
  crc : Nat
  body : List (BitVec 8)
  deriving DecidableEq, Repr

/-- Where a tenancy's program stands in its cells (R269). -/
structure Prog where
  base : Nat := 0
  desc : Nat := 0
  limit : Nat := 0
  entry : Nat := 0
  deriving DecidableEq, Repr

/-- A plan image as the loader read it (R72 to R75), with the cells that were active when it was bound, in ascending order
(R17), the physical cells that each tenancy is bound to (R71), and the place of its program. -/
structure Image where
  header : List (BitVec 8) := []
  secs : List Section := []
  act : List Nat := []
  bound : List (Nat × List Nat) := []
  progs : List (Nat × Prog) := []
  deriving DecidableEq, Repr

/-- A tenancy of the active image as it runs (R85 to R98). -/
structure Ten where
  live : Bool := false               -- the active image has the tenancy
  step : Nat := 0                    -- index of the present step
  frameIn : Nat := 0                 -- frame of its step
  running : Bool := false            -- its first step has begun and it is not done
  stepsRun : Nat := 0
  startAt : Option Nat := none       -- hall frame of its first step, while it waits for it
  fault : Option Nat := none         -- a partition fault in hall frame Ff, acted on at the next Bell
  notice : Option Nat := none        -- a fault notice's Ff, acted on at the next Bell
  halt : Option Nat := none          -- a code: enters HALTED at the next Bell
  haltQuiet : Bool := false          -- that halt came by notice: none is sent
  ff : Nat := 0                      -- the earliest Ff learned for the present step
  fr : Nat := 0                      -- the restart frame
  startStep : Nat := 0               -- the step of the last start or restart
  released : Nat := 0                -- steps released since then
  opened : Nat := 0                  -- one more than the latest step that a Bell has opened
  retriesBefore : Nat := 0           -- RETRIES of the step before
  seed0 : BitVec 64 := 0#64          -- MOD_TALLY_SEED at the activation Bell (R419)
  seed1 : BitVec 64 := 0#64
  deriving DecidableEq, Repr

/-- An activation in progress (R88): frame F and the slot of the incoming image, none for the empty plan. -/
structure Act where
  f : Nat
  slot : Option Nat
  deriving DecidableEq, Repr

/-- A load in progress (R270): its slot, ABORT, and whether its switch-ons wait for the end of a freeze. -/
structure Load where
  slot : Nat
  abort : Bool := false
  deriving DecidableEq, Repr

/-- A tenancy's weight banks (R357, R373, R374): false is bank A. -/
structure WgtTen where
  bank : Bool := false               -- the bank in force before a pending switch
  pend : Option (Nat × Bool) := none -- a PENDING switch: s and the target
  next : Option (Nat × Bool) := none -- a COMMITTED switch whose step has not begun
  unbound : Option Nat := none       -- UNBOUND for every step from this one on
  deriving DecidableEq, Repr

/-- The plan loader and the tenancies (R68 to R99). -/
structure Plan where
  gen : Nat := 1                     -- G of R70
  images : List (Nat × Image) := []
  active : Option Nat := none        -- the slot of the active image
  act : Option Act := none
  load : Option Load := none
  held : List Nat := []              -- slots whose LOAD was written while frozen (R533)
  tens : List (Nat × Ten) := []
  wgt : List (Nat × WgtTen) := []
  syncedAll : Bool := true           -- every awaited cell had synced in the last completed frame (R86 condition 5)
  deriving DecidableEq, Repr

/-- The digests of one plan frame, by source: blocks 0 to 79 of DC, vaults 80 to 87 of DV (R423, R431). -/
structure DetFrame where
  step : Nat
  frame : Nat
  began : Nat                        -- the hall frame in which the plan frame began
  run : Nat := 0                     -- RETRIES of the run that makes it
  parts : List (Nat × BitVec 64) := []
  deriving DecidableEq, Repr

/-- An own record that awaits its partner's (R429). -/
structure DetWait where
  step : Nat
  frame : Nat
  closed : Nat
  deriving DecidableEq, Repr

/-- The digest unit (R422 to R431), beyond its registers. -/
structure Det where
  active : Bool := false
  tenancy : Nat := 0
  partner : Nat := 0
  pkey : Nat := 0
  stepFrames : Nat := 1
  sums : List DetFrame := []         -- open frames, oldest first
  hist : List DetFrame := []         -- the last 64 closed frames, newest first
  waits : List DetWait := []
  deriving DecidableEq, Repr

/-- Freeze and resume (R530 to R536), beyond the DBG_ registers. -/
structure Freeze where
  tz : Option Nat := none            -- the freeze tick, from arming until the resume
  src : Nat := 0                     -- DBG_STATUS.FREEZE_SRC's code
  timeFault : Bool := false          -- TIME_FAULT was raised since TZ
  domains : Nat := 0                 -- the domains that were ON at TZ
  drives : Bool := false             -- the module drives FREEZE_N low until TZ
  faultMode : Bool := false          -- MODE of the armed resume
  deriving DecidableEq, Repr

/-- A vault-engine command with the tenancy that sent it, none for steward and unscheduled traffic of no tenancy (R230). -/
structure EngCmd where
  bytes : List (BitVec 8)
  ten : Option Nat
  step : Nat := 0            -- the tenancy's step when the record reached the vault (R358)
  move : Nat := 0            -- the transfer that carried it
  off : Nat := 0             -- where in that transfer its bytes begin
  at_ : Nat := 0             -- the fc, counted from hall frame 0, at which its last byte reaches the vault
  deriving DecidableEq, Repr

/-- A result that waits in the result buffer for its slot (R232). -/
structure EngResult where
  ten : Option Nat
  mslot : Nat
  dcell : Nat
  tally : Nat
  addr : Nat
  data : List (BitVec 8)
  at_ : Nat := 0             -- the ec edge, counted from hall frame 0, at which its command completed
  deriving DecidableEq, Repr

/-- A command that runs or is suspended: its queue, its duration D, whether its computation has been made and with what
result, and for a scheduled one the ec, counted from hall frame 0, at which it started (R230 to R232). -/
structure EngRun where
  cmd : EngCmd
  sched : Bool
  d : Nat
  computed : Bool := false
  result : Option EngResult := none
  start : Option Nat := none
  deriving DecidableEq, Repr

/-- A vault engine (R230 to R232). -/
structure Engine where
  sq : List EngCmd := []
  uq : List EngCmd := []
  run : Option EngRun := none
  susp : Option EngRun := none
  results : List EngResult := []
  lastOp : Nat := 0
  doneAt : Nat := 0          -- the ec edge at which the previous scheduled command completed
  deriving DecidableEq, Repr

/-- A vault (R214 to R225): DRAM bytes and poisoned granules by offset, refresh and training. -/
structure Vault where
  dram : List (Nat × BitVec 8) := []
  poison : List Nat := []
  training : Bool := false   -- switched on and not yet READY
  window : Bool := false     -- in W1 or W2
  deriving DecidableEq, Repr

/-- A scheduled transfer of the present frame: its place in R325's order, the slots that it still uses as slot, link and fc,
its bytes per slot, and its number. -/
structure Move where
  id : Nat
  mslot : Nat
  member : Nat
  ten : Nat
  rate : Nat
  uses : List (Nat × Nat × Nat)
  deriving DecidableEq, Repr

/-- A scheduled arrival or engine result on its way into a cell store (R127, R323). -/
structure Arrival where
  cell : Nat
  addr : Nat
  data : List (BitVec 8)
  tally : Option Nat
  step : Nat
  frame : Nat
  move : Nat                         -- the transfer that carries it
  off : Nat := 0                     -- where in that transfer its bytes begin
  deriving DecidableEq, Repr

/-- A scheduled vault write on its way to DRAM: pieces of vault address and bytes, its Teller slot where it is slot-checked,
its tenancy, and the step and frame of its entry's frame (R222, R229, R358). -/
structure VaultWrite where
  ten : Nat
  pieces : List (Nat × List (BitVec 8))
  tslot : Option Nat
  move : Nat
  off : Nat := 0                     -- where in that transfer its bytes begin
  step : Nat := 0
  frame : Nat := 0
  deriving DecidableEq, Repr

/-- The data of a scheduled vault read, read 96 fc before its slot (R222). -/
structure VaultRead where
  ten : Nat
  entry : Nat
  member : Nat
  data : List (BitVec 8)
  deriving DecidableEq, Repr

/-- What the mesh carries (R316 to R325), beyond the MOD_MESH registers. -/
structure Mesh where
  arrivals : List Arrival := []
  vwrites : List VaultWrite := []
  vreads : List VaultRead := []
  ecmds : List (Nat × EngCmd) := []  -- scheduled commands on their way to a global engine
  moves : List Move := []            -- the transfers of the present frame (R325)
  nextMove : Nat := 0
  deriving DecidableEq, Repr

/-- A packet: its header flit or control packet, its payload, and the port that it arrived on (R327 to R329). -/
structure Packet where
  hdr : List (BitVec 8)
  data : List (BitVec 8) := []
  port : Option Nat := none
  deriving DecidableEq, Repr

/-- A flit of VC0 for a port's windows: tenancy, hall frame, bytes, for a header its number of data flits, the transfer that
carries it with the bytes that must have come for it, and the fc, counted from hall frame 0, from which it can leave (R333). -/
structure VcFlit where
  ten : Nat
  frame : Nat
  bytes : List (BitVec 8)
  nflit : Option Nat
  move : Nat
  upto : Nat := 0
  ready : Nat := 0
  deriving DecidableEq, Repr

/-- A VC0 unit of a window in the due queue (R290): its scheduled unit time counted from hall frame 0. -/
structure DueUnit where
  ten : Nat
  sched : Nat
  win : Nat
  deriving DecidableEq, Repr

/-- A sent flit unit in the replay buffer (R285): KIND, SEQ, flit, how many replays began from it, and for VC0 its place in
the schedule. -/
structure TxUnit where
  kind : Nat
  seq : Nat
  bytes : List (BitVec 8)
  count : Nat := 0
  due : Option DueUnit := none
  deriving DecidableEq, Repr

/-- A link port (R276 to R310), beyond its registers. -/
structure Port where
  ut : Nat := 0                      -- the next unit time of the present frame
  due : List DueUnit := []
  flits : List VcFlit := []
  vc1 : List Packet := []
  vc2 : List Packet := []
  rest : List (List (BitVec 8)) := [] -- data flits left of the VC1 packet whose header was sent
  restFrom : Option Nat := none      -- the port on which that packet arrived
  nakOut : Option (List (BitVec 8)) := none
  ctl : List (List (BitVec 8)) := []  -- other control units that wait
  buffer : List TxUnit := []         -- the replay buffer, oldest first
  nak : Option Nat := none           -- the unit that the newest NAK names, until its replay begins
  replay : Option Nat := none        -- the next unit of the replay in progress
  replayEnd : Nat := 0               -- where that replay ends
  accepted : Bool := false           -- a unit has been accepted since training
  parts : List (Nat × Packet) := []  -- packets that are arriving, by virtual channel
  arrived : List Packet := []        -- whole packets of VC1 and VC2 in the receive buffer
  rx0 : List Packet := []            -- whole VC0 packets in the receive buffer
  leaves : List (Nat × Nat × Bool) := [] -- credits to free: the fc from hall frame 0, the class, and whether it is a header's (R297)
  peerCaps : List (Nat × Nat) := []  -- the peer's capacities: header of TC t at 2t, data at 2t + 1
  peerSeen : Bool := false
  peerVer : Nat := 0                 -- the versions that the peer's CONFIG advertised
  peerExpect : Option Nat := none    -- RX_EXPECT of the peer's FRT_REQ
  toActive : Bool := false           -- ACTIVE at the next Bell
  frtLanes : Bool := false           -- the FRT in progress, or the replay that follows it, is for lane loss
  probEnd : Nat := 0                 -- the frame in which probation ends
  calFrame : Option Nat := none      -- the frame of an announced transmit PLL calibration
  peerCal : Option Nat := none       -- the frame in which the peer calibrates
  cause : Option Nat := none         -- CAUSE of the lag episode in progress
  lateMax : Nat := 0                 -- its largest lateness
  lateWins : List (Nat × Nat) := []  -- the windows carried in it: tenancy and window
  scramblers : List (BitVec 31) := [] -- the transmit lanes' scrambler states (R279)
  wire : List (Nat × List (BitVec 2)) := [] -- the PAM4 levels that each lane sent in the last unit, symbol 0 first (R279, R304)
  cal : Nat := 0                     -- CAL_NOTICE units left to send (R283, R306)
  nakAt : Nat := 0                   -- the unit time, counted from hall frame 0, at which the last NAK left (R286)
  limit : Bool := false              -- the retrain in progress is for the replay limit: probation follows it (R289)
  reConf : Bool := false             -- RETRAIN has equalised again and sends CONFIG units (R298)
  deriving DecidableEq, Repr

/-- Where a re-send reads a payload again, and who learns of the outcome (R331, R343, R346). -/
inductive Sender where
  | steward
  | cell (c : Nat) (tally : Option Nat) (grp : Nat)
  | notice
  | reader
  | mover (fwd : Bool) (op : Nat)
  | chain (hop : Nat)
  deriving DecidableEq, Repr

/-- A re-send record (R343): the packet's header, where its payload lies, and its attempts. -/
structure Resend where
  tag : Nat
  hdr : List (BitVec 8)
  src : Nat            -- cell-store address of a cell's send, else vault address
  mask : Nat := 0      -- of an interleaved source, the vaults that it spreads over (R218)
  bytes : Nat
  attempt : Nat := 1
  from_ : Sender
  deriving DecidableEq, Repr

/-- A READ_REQ that the read engine serves (R346). -/
structure ReadReq where
  dst : Nat
  pkey : Nat
  src : Nat
  bytes : Nat
  target : Nat
  rtally : Nat
  deriving DecidableEq, Repr

/-- An unscheduled packet in an input of a router (R320): its flits that wait here and those still to leave, the routers still to
pass, and where it leaves the mesh: a port, or 18 for the network interface. -/
structure MeshPkt where
  pkt : Packet
  id : Nat
  total : Nat
  here : Nat
  left : Nat
  path : List Nat
  dest : Nat
  vc : Nat
  bridge : Nat
  deriving DecidableEq, Repr

/-- The network interface (R335 to R348), beyond its registers. -/
structure Ni where
  nextTag : Nat := 0
  nextGrp : Nat := 0
  nextPkt : Nat := 0                 -- tells the packets on the mesh apart
  records : List Resend := []
  waiting : List Resend := []        -- unscheduled packets that wait for a record or for HOLD to end
  again : List Nat := []             -- tags whose packets are to be sent again
  filter : List (Nat × Nat) := []    -- SRC_ID and TAG of the packets applied, newest first
  notices : List Packet := []        -- replies in the notice buffer
  inbox : List Packet := []          -- packets delivered to the interface
  reads : List ReadReq := []
  ucmds : List (Nat × EngCmd × Packet) := [] -- unscheduled commands on their way to an engine, with their packets
  routers : List (Nat × List (Nat × List MeshPkt)) := [] -- per router, the waiting packets of each input
  deriving DecidableEq, Repr

/-- A chunk that the mover tracks (R365): shard record, chunk and marked granules. -/
structure Chunk where
  shard : Nat
  chunk : Nat
  marks : List Nat
  deriving DecidableEq, Repr

/-- The weight mover (R363 to R371), beyond the MOD_WGT registers. -/
structure Mover where
  op : Nat := 0                      -- tells operations apart
  slot : Option Nat := none          -- the image slot of an IMG = 1 operation
  ten : Nat := 0
  bank : Bool := false
  srcOvr : Bool := false             -- SRC_OVR when the LOAD was written
  done : List (Nat × Nat) := []      -- done bits: shard record and chunk
  crcs : List ((Nat × Nat) × Nat) := [] -- the CRC-32C of each done chunk as it was read back (R366)
  open_ : List Chunk := []
  fetching : List (Nat × Nat) := []  -- chunks whose data has been asked for
  forward : List (Nat × Nat × Nat) := [] -- what is to be forwarded: shard record, chunk and child, in order (R368)
  unacked : Nat := 0                 -- forwarded packets not acknowledged
  passed : List Nat := []            -- shards whose check passed
  failed : Bool := false             -- the last operation was a LOAD that failed: its done bits stay (R371)
  held : Option Nat := none          -- MOD_WGT_CTRL of a LOAD written while frozen (R533)
  deriving DecidableEq, Repr

/-- A steward (R249 to R258). CSRs that are not listed hold their reset values. -/
structure Steward where
  x : List (Nat × BitVec 64) := []
  pc : Nat := 0x1000000000000
  csrs : List (Nat × BitVec 64) := []
  isram : List (Nat × BitVec 8) := []
  dsram : List (Nat × BitVec 8) := []
  stale : List (Nat × BitVec 8) := [] -- bytes of the instruction SRAM as they were before writes since the last FENCE.I
  resv : Option (Nat × Nat) := none  -- the LR reservation: address and length
  wfi : Bool := false
  reset : Bool := true               -- held in reset by RESET or since power-up
  wdog : Nat := 0                    -- the hall frame of the last KICK
  handed : Bool := false             -- the block's mailbox: an odd number of HANDs since the last ACQUIRE
  opened : Bool := false             -- a Bell opened a new step of the block's tenancy (source 18)
  changed : Bool := false            -- the tenancy's state changed (source 19)
  deriving DecidableEq, Repr

/-- A job of the power sequencer (R466 to R468): who asked, 0 software, 1 the loader, 2 an activation, and the switches left,
the first of them in progress. -/
structure PdJob where
  src : Nat
  todo : List (Nat × Bool)
  deriving DecidableEq, Repr

/-- Power, input monitor, thermal and clock units (R466 to R480), beyond the PWR_ registers. -/
structure Power where
  job : Option PdJob := none
  wait : List PdJob := []
  samples : List (Nat × Nat) := []   -- samples since the last evaluation, oldest first: mV and mA
  frameUw : Nat := 0                 -- the sum of the frame's sample powers in µW, and how many
  frameN : Nat := 0
  caused : List Nat := []            -- regions on which a cause held in this frame
  prevCause : Bool := false          -- a cause held in the frame before
  vinLow : Bool := false             -- the last evaluation found the input voltage low
  conflict : Bool := false           -- the frame before was a conflicting frame
  measuring : Bool := false          -- a clock measurement runs
  missed : List (Nat × Nat) := []    -- polls missed in a row, by rail
  ruleKept : Bool := true            -- PWR_CPCLK has kept to its rule since reset (R479)
  deriving DecidableEq, Repr

/-- Whose a RoCE operation is: a chunk of the mover's load, or an entry of a request's ring (R454, R455). -/
inductive RoceOwner where
  | chunk (op shard chunk : Nat)
  | ring (slot req : Nat)
  deriving DecidableEq, Repr

/-- A pending RDMA READ or WRITE of a queue pair (R452 to R455): its PSNs, remote address, bytes to write or received. -/
structure RoceOp where
  read : Bool
  psn : Nat
  n : Nat
  addr : Nat
  len : Nat
  data : List (BitVec 8)
  got : Nat := 0                     -- response packets received
  owner : RoceOwner
  deriving DecidableEq, Repr

/-- A queue pair's transport state (R453, R456): pending operations oldest first, retries used, send rate in bit/s, and when
the last congestion notification was sent. -/
structure Qp where
  ops : List RoceOp := []
  tries : Nat := 0
  rate : Nat := 800000000000
  cnpAt : Option Nat := none
  deriving DecidableEq, Repr

/-- An Ethernet port (R451 to R457), beyond its registers: the PTP clock follows the best announced master; times in ps. -/
structure Eth where
  qps : List (Nat × Qp) := []
  master : Option (List Nat) := none -- the dataset of the best master announced
  sync : Option (Nat × Option Int × Int) := none -- the last Sync: sequence, origin time once known, and arrival
  meas : List (Nat × Int) := []      -- the last 16 offset measurements, newest first: the counter, and PTP time less it
  pause : Nat := 0                   -- pause quanta in force on PFC_PRIO
  mgmt : List (List (BitVec 8)) := [] -- frames for the firmware, oldest first
  cnps : Nat := 0                    -- congestion notifications sent
  naks : Nat := 0                    -- remote-access NAKs sent (R452)
  deriving DecidableEq, Repr

/-- A write that waits in the host-write queue (R443): host address, bytes, and the ring's slot and request or none. -/
structure HostWrite where
  addr : Nat
  data : List (BitVec 8)
  owner : Option (Nat × Nat) := none
  deriving DecidableEq, Repr

/-- The PCIe endpoint (R434 to R449), beyond the HST_ registers. -/
structure HostIf where
  hwq : List HostWrite := []
  mem : List (Nat × BitVec 8) := []  -- host memory as the module has written it
  signalled : List Nat := []         -- sources whose message was sent and that have stayed pending
  pba : List Nat := []               -- vectors whose message waits behind a mask
  msgs : List Nat := []              -- vectors of the messages sent, oldest first
  pme : Bool := false                -- PME_Status
  pmeSent : Nat := 0                 -- PME messages sent
  inReset : Bool := true             -- the endpoint is held in reset
  served : List Nat := []            -- reasons latched before the host's last exit from low power (R445)
  answer : Option (List (BitVec 8)) := none -- the host's last read through BAR0 or BAR2; none is Completer Abort
  poisoned : Bool := false           -- that completion had EP set
  deriving DecidableEq, Repr

/-- A record of the Keep's log (R489). -/
structure LogRec where
  seq : Nat
  kind : Nat
  src : Nat
  needs : Bool
  acked : Bool := false
  time : Nat
  data : List (BitVec 8)
  deriving DecidableEq, Repr

/-- A directory record (R494): ACTIVE, the slots' states and versions, ATTEMPTS. -/
structure Dir where
  dseq : Nat
  active : Nat
  stateA : Nat
  stateB : Nat
  attempts : Nat
  verA : Nat
  verB : Nat
  deriving DecidableEq, Repr

/-- A commit in progress (R503): who asked, 1 the mailbox, 2 the service port, 3 a chain; the image length; the request's SEQ. -/
structure Commit where
  src : Nat
  len : Nat
  seq : Nat
  deriving DecidableEq, Repr

/-- An answer on the service port (R504). -/
structure SvcFrame where
  op : Nat
  seq : Nat
  status : Nat
  off : Nat := 0
  data : List (BitVec 8) := []
  deriving DecidableEq, Repr

/-- The Keep and the firmware update (R483 to R511), beyond the KEP_ registers. -/
structure Keep where
  log : List LogRec := []            -- oldest first
  flash : List (Nat × BitVec 8) := [] -- the QSPI flash by offset; an unlisted byte is erased, 0xFF
  src : Nat := 0                     -- the supply: 0 input, 1 hold-up bank, 2 backup cell
  lastStage : Nat := 0               -- the boot stage reached at the last power-down
  late : Bool := false               -- an intrusion on the backup cell waits to be raised
  got : List (Nat × Nat) := []       -- ranges of the staging buffer that have been written, as start and end, ascending
  mdigest : List (BitVec 8) := []    -- MDIGEST of the image that CHAIN owns the buffer for
  offerer : Nat := 0                 -- the module that offered it
  commit : Option Commit := none
  hops : List (Nat × Nat) := []      -- next hops: 1 offered, 2 blocks sent and DONE awaited
  svc : List SvcFrame := []          -- answers on the service port, oldest first
  spdm : List (BitVec 8) := []       -- the last SPDM response
  deriving DecidableEq, Repr

/-- The JTAG TAP (R540, R541): the instruction in force, the boundary cells that drive and that were captured, and the control
access: CMD is write, address and data of an access that runs, then its result. -/
structure Jtag where
  ir : Nat := 1
  drive : List (Nat × Bool) := []
  captured : List (Nat × Bool) := []
  dr : Nat := 0
  run : Option (Bool × Nat × Nat) := none
  data : Nat := 0
  status : Nat := 0
  deriving DecidableEq, Repr

/-- Module power as a whole (R459, R460, R546, R557, R559): a flush in progress, 1 for removal and 2 for input loss, whether
its domains are off, whether the module boots when it ends, and whether the input is connected and PD111 is powered. -/
structure Site where
  flush : Nat := 0
  off : Bool := false
  again : Bool := false
  input : Bool := true
  powered : Bool := true
  deriving DecidableEq, Repr

/-- A filled row of a batch (R386, R393): its position, slot, reservation, and whether a cancel has cleared its mask bit. -/
structure TlrRow where
  pos : Nat
  slot : Nat
  decode : Bool
  nin : Nat
  last : Bool := false
  cost : Nat
  dead : Bool := false
  deriving DecidableEq, Repr

/-- The batch of a step (R393), with what its fill changed: UPC and DNC before it, requests ended with BUDGET, and earlier
placements. -/
structure TlrBatch where
  step : Nat
  variant : Nat
  rows : List TlrRow := []
  released : Bool := false           -- its results have been applied provisionally
  upc : Nat
  dnc : Nat
  deriving DecidableEq, Repr

/-- What the release of a step decided for a request, until the commit (R392). -/
structure TlrResult where
  tokens : List (BitVec 32) := []
  prompt : Nat := 0                  -- prompt tokens processed
  decode : Bool := false             -- the prompt is complete
  drafts : List (BitVec 32) := []
  fin : Option Nat := none           -- FINISHED with this REASON
  deriving DecidableEq, Repr

/-- A request in a slot (R390, R391); committed values, and the provisional result of the released step. -/
structure TlrReq where
  account : Nat := 0
  reqId : Nat := 0
  promptAddr : Nat := 0
  promptLen : Nat := 0
  maxNew : Nat := 0
  ringAddr : Nat := 0
  qp : Nat := 0
  remote : Bool := false
  noSpec : Bool := false
  stops : List (BitVec 32) := []
  order : Nat := 0                   -- acceptance order
  decode : Bool := false
  done : Nat := 0                    -- prompt tokens processed
  gen : Nat := 0                     -- tokens written
  charged : Nat := 0
  lastTok : Option (BitVec 32) := none
  drafts : List (BitVec 32) := []
  placed : Nat := 0                  -- the step of its last placement
  placedBefore : Nat := 0
  seq : Nat := 0                     -- ring entries written
  chunkAt : Nat := 0                 -- the prompt position of the fetched chunk, and its tokens
  chunk : List (BitVec 32) := []
  result : Option TlrResult := none
  budget : Option Nat := none        -- ended with BUDGET by the fill of this step
  cancelled : Option Nat := none     -- ends with this KIND: 3 CANCELLED, 6 ABORTED after a ring failure
  paused : Bool := false
  ended : Option (Nat × Nat × Bool) := none -- KIND, REASON, and whether a ring entry is due: waits for CQ space
  deriving DecidableEq, Repr

/-- An account of the Ledger (R401). -/
structure Account where
  bal : Int := 0
  cap : Nat := 0
  resv : Int := 0
  rate : Nat := 0
  wp : Nat := 0
  wg : Nat := 0
  enabled : Bool := false
  last : Nat := 0
  rem : Nat := 0
  deriving DecidableEq, Repr

/-- The Teller (R382 to R411), beyond its registers. -/
structure Teller where
  reqs : List (Nat × Option TlrReq) := []
  batches : List TlrBatch := []      -- uncommitted, oldest first
  prev : Option TlrBatch := none     -- the batch committed last
  accounts : List (Nat × Account) := []
  latched : Option (List (BitVec 8)) := none -- the mask read for the next frame
  accepted : Nat := 0
  upc : Nat := 0
  dnc : Nat := 0
  deriving DecidableEq, Repr

/-- The module: everything the spec gives it. -/
structure Lanorun where
  /-- Control-space registers by address; an unlisted one holds its reset value. -/
  regs : List (Nat × BitVec 64) := []
  /-- Counter-group latches by address (R13); an unlisted one holds the reset value. -/
  latch : List (Nat × BitVec 64) := []
  /-- The model's own: how many free values have been drawn. -/
  freeCtr : Nat := 0
  hall : Hall := {}
  rgns : List (Nat × Region) := []
  cells : List (Nat × Cell) := []
  vaults : List (Nat × Vault) := []
  engines : List (Nat × Engine) := []
  mesh : Mesh := {}
  ports : List (Nat × Port) := []
  ni : Ni := {}
  mover : Mover := {}
  plan : Plan := {}
  det : Det := {}
  frz : Freeze := {}
  stewards : List (Nat × Steward) := []
  power : Power := {}
  eths : List (Nat × Eth) := []
  host : HostIf := {}
  teller : Teller := {}
  keep : Keep := {}
  jtag : Jtag := {}
  site : Site := {}
  deriving DecidableEq, Repr

/-- The module right after reset. -/
def Lanorun.reset : Lanorun := {}

/-- The machine's state: the module and the commands that wait for it, first in, first out. -/
structure State where
  pending : List Instr := []
  m : Lanorun := Lanorun.reset
  deriving DecidableEq, Repr

/-- The machine right after reset: no command waits. -/
def State.reset : State := {}

/-- An effect on the module, which leaves the waiting commands alone. -/
def State.on (s : State) (f : Lanorun → Lanorun) : State := { s with m := f s.m }

end Sys2Proof.Machine
end

