-- ==== Sys2Proof/Machine/Ops.lean ====
section
/-! DEFINITION. The named operations that every command uses: registers and fields, counters, events, faults and time. -/
namespace Sys2Proof.Machine

/-- The live word of a register. -/
def Lanorun.reg (s : Lanorun) (r : Reg) (u : Nat := 0) (i : Nat := 0) : Nat :=
  (sget (BitVec.ofNat 64 r.reset) s.regs (r.addr u i)).toNat

/-- Sets the live word of a register. -/
def Lanorun.setReg (s : Lanorun) (r : Reg) (v : Nat) (u : Nat := 0) (i : Nat := 0) : Lanorun :=
  { s with regs := sset (BitVec.ofNat 64 r.reset) s.regs (r.addr u i) (BitVec.ofNat 64 v) }

/-- The live value of a field. -/
def Lanorun.get (s : Lanorun) (f : Fld) (u : Nat := 0) (i : Nat := 0) : Nat := bitsOf (s.reg f.reg u i) f.hi f.lo

/-- Sets a field; the other bits of its register stay. -/
def Lanorun.put (s : Lanorun) (f : Fld) (v : Nat) (u : Nat := 0) (i : Nat := 0) : Lanorun :=
  s.setReg f.reg (setBits (s.reg f.reg u i) f.hi f.lo v) u i

/-- A one-bit field as a truth value. -/
def Lanorun.flag (s : Lanorun) (f : Fld) (u : Nat := 0) (i : Nat := 0) : Bool := s.get f u i == 1

/-- Sets an event bit (W1C) as hardware does. -/
def Lanorun.event (s : Lanorun) (f : Fld) (u : Nat := 0) (i : Nat := 0) : Lanorun := s.put f 1 u i

/-- The latched bits of a register (R13). -/
def Lanorun.latched (s : Lanorun) (r : Reg) (u : Nat := 0) (i : Nat := 0) : Nat :=
  (sget (BitVec.ofNat 64 r.reset) s.latch (r.addr u i)).toNat

/-- What a read of a register in a counter group returns: the latch on the group's bits, the live value elsewhere (R13). -/
def Lanorun.regRead (s : Lanorun) (r : Reg) (u : Nat := 0) (i : Nat := 0) : Nat :=
  ((s.reg r u i) &&& (2 ^ 64 - 1 - r.latched)) ||| (s.latched r u i &&& r.latched)

/-- Latches entry i of a register. -/
def Lanorun.latchOne (u : Nat) (r : Reg) (i : Nat) (s : Lanorun) : Lanorun :=
  { s with latch := sset (BitVec.ofNat 64 r.reset) s.latch (r.addr u i) (BitVec.ofNat 64 (s.reg r u i)) }

/-- The block that holds a counter group. -/
def Grp.blk : Grp → Blk
  | .rgn => .rgn | .pln => .pln | .cel => .cel | .vlt => .vlt | .lnk => .lnk | .ni => .mod
  | .wgt => .mod | .tlr => .tlr | .det => .mod | .eth => .eth | .pwr => .pwr | .dbg => .dbg

/-- SNAP of a counter group: every live value of the group is copied into its latch at one instant (R13, R529). -/
def Lanorun.snap (s : Lanorun) (g : Grp) (u : Nat) : Lanorun :=
  (regsOf g.blk).foldl (fun s e =>
    if e.1.grp = some g then forN (fun i s => s.latchOne u e.1 i) 0 e.1.count s else s) s

/-- The frame number (R37). -/
def Lanorun.frame (s : Lanorun) : Nat := s.hall.lat / 6250
/-- The hall-time counter in whole ticks (R35). -/
def Lanorun.ticks (s : Lanorun) : Nat := 16 * s.hall.lat / 25
/-- FRAC: the fractional part of the counter in units of 2^-16 tick, truncated (R35). -/
def Lanorun.frac (s : Lanorun) : Nat := (16 * s.hall.lat % 25) * 65536 / 25
/-- The counter in picoseconds: one unit of 16/25 tick is 640 ps. -/
def Lanorun.nowPs (s : Lanorun) : Nat := s.hall.lat * 640

/-- A plan is active: the lock of RWL fields holds (R9, R69). -/
def Lanorun.planActive (s : Lanorun) : Bool := s.get F.PLN_ACT_HANDLE != 0

/-- Changes to the parts of the module that stand outside the registers. -/
def Lanorun.setHall (s : Lanorun) (f : Hall → Hall) : Lanorun := { s with hall := f s.hall }
def Lanorun.setPlan (s : Lanorun) (f : Plan → Plan) : Lanorun := { s with plan := f s.plan }
def Lanorun.setNi (s : Lanorun) (f : Ni → Ni) : Lanorun := { s with ni := f s.ni }

/-- Where packets gather on their way out of the mesh: into port p, and into the network interface. -/
def portNode (p : Nat) : Nat := 100 + p
def niNode : Nat := 200

/-- A router, or the buffer into a port, loses the packets that it holds, and with them their flits elsewhere on the mesh. -/
def Lanorun.dropNode (s : Lanorun) (n : Nat) : Lanorun :=
  let ids := ((s.ni.routers.filter (·.1 = n)).flatMap fun r => r.2.flatMap (·.2)).map (·.id)
  if ids = [] then s
  else s.setNi fun x => { x with routers := (s.ni.routers.filter (·.1 ≠ n)).map fun r =>
    (r.1, r.2.map fun q => (q.1, q.2.filter fun m => !ids.contains m.id)) }
def Lanorun.setMover (s : Lanorun) (f : Mover → Mover) : Lanorun := { s with mover := f s.mover }
def Lanorun.setMesh (s : Lanorun) (f : Mesh → Mesh) : Lanorun := { s with mesh := f s.mesh }

/-- The next free value's index; the counter moves on. -/
def Lanorun.draw (s : Lanorun) : Nat × Lanorun := (s.freeCtr, { s with freeCtr := s.freeCtr + 1 })

/-- An error counter reached its largest value (R527). -/
def Lanorun.cntOvf (s : Lanorun) (addr : Nat) : Lanorun :=
  (s.event F.DBG_EVENT_CNT_OVF).put F.DBG_OVF_LAST_ADDR addr

/-- Counts n in an event counter: COUNT of 48 bits wraps into WRAP, which sticks at 0xFFFF (R527). -/
def Lanorun.countEvt (s : Lanorun) (r : Reg) (n : Nat := 1) (u : Nat := 0) (i : Nat := 0) : Lanorun :=
  let w := s.reg r u i
  let c := w % 2 ^ 48 + n
  let wrap := min 0xFFFF (w / 2 ^ 48 + c / 2 ^ 48)
  s.setReg r (wrap * 2 ^ 48 + c % 2 ^ 48) u i

/-- Counts n in an error counter: COUNT of 32 bits sticks at 0xFFFF_FFFF and OVF is set there (R527). -/
def Lanorun.countErr (s : Lanorun) (r : Reg) (n : Nat := 1) (u : Nat := 0) (i : Nat := 0) : Lanorun :=
  let w := s.reg r u i
  let c := w % 2 ^ 32 + n
  if n = 0 ∨ w % 2 ^ 32 = 0xFFFFFFFF then s
  else if c ≥ 0xFFFFFFFF then (s.setReg r (2 ^ 32 + 0xFFFFFFFF) u i).cntOvf (r.addr u i)
  else s.setReg r (w / 2 ^ 32 * 2 ^ 32 + c) u i

/-- Raises a level field to v where v is larger, saturating at its largest value (R527). -/
def Lanorun.putMax (s : Lanorun) (f : Fld) (v : Nat) (u : Nat := 0) (i : Nat := 0) : Lanorun :=
  let v' := min v (2 ^ (f.hi - f.lo + 1) - 1)
  if s.get f u i < v' then s.put f v' u i else s

/-- The levels of R514. -/
inductive Level where
  | cell | block | region | die | module
  deriving DecidableEq, Repr

def Level.code : Level → Nat
  | .cell => 0 | .block => 1 | .region => 2 | .die => 3 | .module => 4

/-- A wake reason occurs: bits of HST_WAKE.REASON latch (R444). A reason that occurs again after a host's exit counts as new. -/
def Lanorun.wakeReason (s : Lanorun) (bit : Nat) : Lanorun :=
  let w := s.get F.HST_WAKE_REASON
  let s := s.put F.HST_WAKE_REASON (w ||| 2 ^ bit)
  { s with host := { s.host with served := s.host.served.filter (· ≠ bit) } }

/-- A Keep event: its bit of KEP_EVENT, and the wake reason (R444). -/
def Lanorun.keepEvent (s : Lanorun) (f : Fld) : Lanorun := (s.event f).wakeReason 2

/-- A fault is recorded in DBG_FAULT_LAST and counted in DBG_FAULT_CNT (R514). -/
def Lanorun.fault (s : Lanorun) (code : Nat) (lvl : Level) (unit : Nat) : Lanorun :=
  ((((((s.put F.DBG_FAULT_LAST_CODE code).put F.DBG_FAULT_LAST_LEVEL lvl.code).put F.DBG_FAULT_LAST_UNIT unit).put
    F.DBG_FAULT_LAST_FRAME_LO (s.frame % 2 ^ 32)).countErr R.DBG_FAULT_CNT).event F.DBG_EVENT_FAULT).wakeReason 0

/-- Region r's shell. -/
def Lanorun.rgn (s : Lanorun) (r : Nat) : Region := sget {} s.rgns r
def Lanorun.setRgn (s : Lanorun) (r : Nat) (x : Region) : Lanorun := { s with rgns := sset {} s.rgns r x }

/-- The time state of a port. -/
def Lanorun.ptime (s : Lanorun) (p : Nat) : PortTime := sget {} s.hall.ports p
def Lanorun.setPtime (s : Lanorun) (p : Nat) (x : PortTime) : Lanorun :=
  s.setHall fun h' => { h' with ports := sset {} s.hall.ports p x }

/-- A generic write to one field by its access code (R9): fields whose write has an effect of its own keep their value
here (WO), or take the access code's effect. -/
def writeFld (locked : Bool) (old new : Nat) (f : Fld) : Nat :=
  let o := bitsOf old f.hi f.lo
  let n := bitsOf new f.hi f.lo
  match f.acc with
  | .ro => old
  | .wo => old
  | .rw => setBits old f.hi f.lo n
  | .rwl => if locked then old else setBits old f.hi f.lo n
  | .w1c => setBits old f.hi f.lo (o &&& (2 ^ (f.hi - f.lo + 1) - 1 - n))
  | .w1s => setBits old f.hi f.lo (o ||| n)

/-- A write of a whole register by the access codes of its fields (R9, R11). -/
def Lanorun.regWrite (s : Lanorun) (r : Reg) (fs : List Fld) (v : Nat) (u i : Nat) : Lanorun :=
  s.setReg r (fs.foldl (fun w f => writeFld s.planActive w v f) (s.reg r u i)) u i

/-- Physical cell c. -/
def Lanorun.cell (s : Lanorun) (c : Nat) : Cell := sget {} s.cells c
def Lanorun.setCell (s : Lanorun) (c : Nat) (x : Cell) : Lanorun := { s with cells := sset {} s.cells c x }

/-- Tenancy t of the active image. -/
def Lanorun.ten (s : Lanorun) (t : Nat) : Ten := sget {} s.plan.tens t
def Lanorun.setTen (s : Lanorun) (t : Nat) (x : Ten) : Lanorun :=
  s.setPlan fun p' => { p' with tens := sset {} s.plan.tens t x }

/-- The image in slot i. -/
def Lanorun.image (s : Lanorun) (i : Nat) : Image := sget {} s.plan.images i

/-- The active image, none for the empty plan. -/
def Lanorun.activeImage (s : Lanorun) : Option Image := s.plan.active.map s.image

/-- The plan's clocks stand: the module is frozen, or a flush runs (R459, R532). -/
def Lanorun.frozen (s : Lanorun) : Bool := s.flag F.DBG_STATUS_FROZEN || s.site.flush != 0

/-- A field of an image's header (R72). -/
def Image.hdr (i : Image) (off len : Nat) : Nat := fieldAt i.header off len
def Image.xlat (i : Image) : Nat := i.hdr 0x25 1
def Image.guardFrames (i : Image) : Nat := i.hdr 0x26 1
def Image.retryMax (i : Image) : Nat := i.hdr 0x27 1
def Image.retryFrames (i : Image) : Nat := i.hdr 0x28 2
def Image.tenancyCount (i : Image) : Nat := i.hdr 0x2A 1
def Image.planId (i : Image) : Nat := i.hdr 0x18 8

/-- The section of a type and tenancy, 0xFF for module-wide (R76). -/
def Image.sect (i : Image) (ty ten : Nat) : Option Section := i.secs.find? fun x => x.ty == ty && x.ten == ten

/-- Record n of a section with fixed-length records (R75). -/
def Section.record (x : Section) (n : Nat) : List (BitVec 8) :=
  let size := fieldAt x.body 4 4
  (x.body.drop (16 + n * size)).take size

/-- How many records a section has (R75). -/
def Section.count (x : Section) : Nat := fieldAt x.body 0 4

/-- Record n of a section type, empty where the section is absent. -/
def Image.recd (i : Image) (ty ten n : Nat) : List (BitVec 8) :=
  match i.sect ty ten with
  | some x => if n < x.count then x.record n else []
  | none => []

/-- The TENANCY record of tenancy t (R77). -/
def Image.tenRec (i : Image) (t : Nat) : List (BitVec 8) := i.recd 1 0xFF t
def Image.pkey (i : Image) (t : Nat) : Nat := fieldAt (i.tenRec t) 2 2
def Image.stepFrames (i : Image) (t : Nat) : Nat := fieldAt (i.tenRec t) 4 2
def Image.vaultMask (i : Image) (t : Nat) : Nat := fieldAt (i.tenRec t) 6 1
def Image.blockMask (i : Image) (t : Nat) : Nat := fieldAt (i.tenRec t) 8 16
def Image.firstStep (i : Image) (t : Nat) : Nat := fieldAt (i.tenRec t) 0x18 8
def Image.stepLimit (i : Image) (t : Nat) : Nat := fieldAt (i.tenRec t) 0x20 8
def Image.serving (i : Image) (t : Nat) : Bool := fieldAt (i.tenRec t) 1 1 % 2 == 1

/-- The tenancy of an image that block b belongs to (R78). -/
def Image.tenOfBlock (i : Image) (b : Nat) : Option Nat :=
  (List.range i.tenancyCount).find? fun t => (i.blockMask t).testBit b

/-- The cells that tenancy t of an image is bound to, in ascending physical order. -/
def Image.cellsOf (i : Image) (t : Nat) : List Nat := sget [] i.bound t

/-- The CLOCKS record's fields of region r (R81). -/
def Image.progRc (i : Image) (r : Nat) : Nat := fieldAt (i.recd 3 0xFF r) 2 2
def Image.slackRc (i : Image) (r : Nat) : Nat := fieldAt (i.recd 3 0xFF r) 4 2
def Image.clkStep (i : Image) (r : Nat) : Nat := fieldAt (i.recd 3 0xFF r) 1 1

/-- The tenancy of the active image whose bound cells include physical cell c. -/
def Lanorun.tenOfCell (s : Lanorun) (c : Nat) : Option Nat :=
  match s.activeImage with
  | none => none
  | some i => (List.range i.tenancyCount).find? fun t => (i.cellsOf t).contains c

/-- The tenancy's state code in PLN_TEN_STAT (R101). -/
def tenIdle : Nat := 0
def tenRunning : Nat := 1
def tenFaulted : Nat := 2
def tenHalted : Nat := 3
def tenDone : Nat := 4

def Lanorun.tenState (s : Lanorun) (t : Nat) : Nat := s.get F.PLN_TEN_STAT_STATE 0 t

def Lanorun.port (s : Lanorun) (p : Nat) : Port := sget {} s.ports p
def Lanorun.setPort (s : Lanorun) (p : Nat) (x : Port) : Lanorun := { s with ports := sset {} s.ports p x }

/-- A tenancy's units leave a port's due queue (R293). -/
def Port.dropTen (x : Port) (t : Nat) : Port :=
  { x with due := x.due.filter (·.ten ≠ t), flits := x.flits.filter (·.ten ≠ t) }

/-- A partition fault of tenancy t in the present frame, acted on at the next Bell; every port drops the tenancy's due units
(R94, R96, R293). -/
def Lanorun.partitionFault (s : Lanorun) (t : Nat) : Lanorun :=
  let x := s.ten t
  if s.tenState t = tenRunning ∧ x.fault = none then
    let s := s.setTen t { x with fault := some s.frame }
    let s := forN (fun p s => if (s.port p).due.any (·.ten = t) then s.setPort p ((s.port p).dropTen t) else s) 0 18 s
    let s := s.event F.PLN_EVENT_PFAULT
    let s := s.countErr R.PLN_PFAULT_CNT
    s.fault 0x0302 .region 0
  else s

/-- The partition fault of the tenancy that runs cell c, where one does. -/
def Lanorun.cellPartitionFault (s : Lanorun) (c : Nat) : Lanorun :=
  match s.tenOfCell c with
  | some t => s.partitionFault t
  | none => s

/-- TCELL: the index of a cell among its tenancy's bound cells (R116). -/
def indexOf (l : List Nat) (c : Nat) : Nat := (l.takeWhile (· ≠ c)).length

/-- Active cells by DBG_BLOCK (R518). -/
def Lanorun.cellActive (s : Lanorun) (c : Nat) : Bool := (s.get F.DBG_BLOCK_ACTIVE 0 (c / 17)).testBit (c % 17)

/-- The active physical cells in ascending order (R17). -/
def Lanorun.activeCells (s : Lanorun) : List Nat := (List.range 1360).filter s.cellActive

/-- The cells that logical numbers count: those active when the active image was bound, whatever a remap has changed since
(R17, R71, R521); with the empty plan the present ones (DESIGN CHOICE, log entry 88). -/
def Lanorun.planCells (s : Lanorun) : List Nat :=
  match s.activeImage with
  | some im => im.act
  | none => s.activeCells

/-- Domain d is ON (PWR_PD_STAT, R470). -/
def Lanorun.domainOn (s : Lanorun) (d : Nat) : Bool := (s.reg R.PWR_PD_STAT 0 (d / 64)).testBit (d % 64)

/-! ## The end of a mover's operation -/

def Lanorun.loading (s : Lanorun) : Bool := s.get F.MOD_WGT_STATUS_STATE == 1
def Lanorun.setValid (s : Lanorun) (t : Nat) (b v : Bool) : Lanorun :=
  s.put (if b then F.MOD_WGT_TEN_VALID_B else F.MOD_WGT_TEN_VALID_A) (if v then 1 else 0) 0 t

/-- An operation ends (R363, R366, R371); a LOAD that fails keeps its done bits. -/
def Lanorun.moverEnd (s : Lanorun) (st code shard : Nat) : Lanorun :=
  let load := s.loading
  let s := ((s.put F.MOD_WGT_STATUS_STATE st).put F.MOD_WGT_STATUS_CODE code).put F.MOD_WGT_STATUS_SHARD shard
  let s := s.setMover fun w => { w with failed := load && st == 4 }
  if st = 3 then (s.setValid s.mover.ten s.mover.bank true).event F.MOD_WGT_EVENT_DONE
  else
    let s := s.setValid s.mover.ten s.mover.bank false
    if st = 4 then (s.event F.MOD_WGT_EVENT_FAILED).fault code .module 0 else s

/-- CMD = ABORT, an activation, or the slot of an IMG operation leaving READY (R363, R364). -/
def Lanorun.moverAbort (s : Lanorun) : Lanorun :=
  let st := s.get F.MOD_WGT_STATUS_STATE
  let s := s.setMover fun w => { w with held := none }
  if st = 1 ∨ st = 2 then s.moverEnd 5 0 0xFFFF else s

/-- Slot i leaves READY: an operation on its image ends, and its done bits go with the image (R364). -/
def Lanorun.moverSlot (s : Lanorun) (i : Nat) : Lanorun :=
  if s.mover.slot = some i then s.moverAbort.setMover fun w => { w with failed := false } else s

end Sys2Proof.Machine
end

