-- ==== Sys2Proof/Machine/Belfry.lean ====
section
/-! DEFINITION. The Belfry: states, parents, time exchange and steering (R35 to R50). -/
namespace Sys2Proof.Machine

/-- A limit of BLF_LIMITS, whose default is also its largest value (R47, BLF_LIMITS). -/
def Lanorun.boundLim (s : Lanorun) : Nat := min (s.get F.BLF_LIMITS_BOUND_LIM) 500
def Lanorun.driftLim (s : Lanorun) : Nat := min (s.get F.BLF_LIMITS_DRIFT_LIM) 200
def Lanorun.faultLim (s : Lanorun) : Nat := min (s.get F.BLF_LIMITS_FAULT_LIM) 400

/-- Belfry states of BLF_STATUS.STATE. -/
def blfFreerun : Nat := 0
def blfCoarse : Nat := 1
def blfFine : Nat := 2
def blfLocked : Nat := 3
def blfHoldover : Nat := 4

def Lanorun.blfState (s : Lanorun) : Nat := s.get F.BLF_STATUS_STATE
def Lanorun.locked (s : Lanorun) : Bool := s.blfState == blfLocked
/-- The role in force: 0 ROOT, 1 SOURCE, otherwise FOLLOWER. -/
def Lanorun.role (s : Lanorun) : Nat := s.get F.BLF_STATUS_ROLE_ACT

/-- The port serves time exchanges: CALIBRATE, ACTIVE or FRT (R41, R48). -/
def Lanorun.portUp (s : Lanorun) (p : Nat) : Bool :=
  let st := s.get F.LNK_STATUS_STATE p
  st == 4 || st == 5 || st == 6

/-- The port is of the kind the role takes its parent on (R39). -/
def roleKind (role p : Nat) : Bool :=
  if role = 0 then false else if role = 1 then 12 ≤ p && p < 18 else p < 12

/-- An exchange has completed, and since then 4 consecutive frames have not passed without one (R48): the Bell that ends the
exchange's own frame counts as well. -/
def PortTime.fresh (t : PortTime) : Bool := t.done && decide (t.since < 5)

/-- A port is a valid parent: right kind, up, a fresh exchange, and the peer LOCKED or in HOLDOVER (R39, R48). -/
def Lanorun.validParent (s : Lanorun) (p : Nat) : Bool :=
  let t := s.ptime p
  decide (p < 18) && roleKind s.role p && s.portUp p && t.fresh && (t.peerState == 3 || t.peerState == 4)

/-- The candidate bytes of BLF_PARENT in order. -/
def Lanorun.candidates (s : Lanorun) : List Nat :=
  [s.get F.BLF_PARENT_CAND0, s.get F.BLF_PARENT_CAND1, s.get F.BLF_PARENT_CAND2, s.get F.BLF_PARENT_CAND3]

/-- The lowest-numbered valid candidate's port (R48). -/
def Lanorun.bestParent (s : Lanorun) : Option Nat :=
  (s.candidates.find? fun c => c / 128 == 1 && s.validParent (c % 32)).map (· % 32)

/-- The error bound, kept with BOUND_OK (R45). -/
def Lanorun.setBound (s : Lanorun) (b : Nat) : Lanorun :=
  let b := min b 0xFFFF
  ((s.setHall fun h' => { h' with bound := b })).put F.BLF_STATUS_BOUND_OK (if b ≤ s.boundLim then 1 else 0)

/-- Takes port p as parent: its bound plus the hop allowance is the module's bound (R45). -/
def Lanorun.setParent (s : Lanorun) (p : Nat) : Lanorun :=
  let pb := (s.ptime p).peerBound
  let s := ((s.setHall fun h' => { h' with parentBound := pb })).put F.BLF_STATUS_PARENT_PORT p
  let s := s.put F.BLF_ERR_BOUND_PARENT_BOUND pb
  s.setBound (if pb = 0xFFFF then 0xFFFF else pb + (if p < 12 then 120 else 125))

def Lanorun.noParent (s : Lanorun) : Lanorun :=
  (((s.setHall fun h' => { h' with parentBound := 0xFFFF })).put F.BLF_STATUS_PARENT_PORT 0x1F).put
    F.BLF_ERR_BOUND_PARENT_BOUND 0xFFFF

def Lanorun.setBlf (s : Lanorun) (st : Nat) : Lanorun :=
  ((s.setHall fun h' => { h' with lockFrames := 0, faultFrames := 0 })).put F.BLF_STATUS_STATE st

/-- FINE is entered: its one counter step is still to come (R40). -/
def Lanorun.enterFine (s : Lanorun) : Lanorun :=
  let s := s.setBlf blfFine
  s.setHall fun h' => { h' with fineStepped := false }

/-- HOLDOVER is entered: from here on the bound grows (R49). -/
def Lanorun.enterHoldover (s : Lanorun) : Lanorun :=
  ((s.setBlf blfHoldover).event F.BLF_EVENT_HOLDOVER).setHall fun h' => { h' with holdAt := s.hall.lat, holdFrac := 0 }

/-- LOCKED is entered. -/
def Lanorun.enterLocked (s : Lanorun) : Lanorun := (s.setBlf blfLocked).event F.BLF_EVENT_LOCK_GAINED

/-- TIME_FAULT: to FINE, and every partition faults at the next Bell (R40, R50). -/
def Lanorun.timeFault (s : Lanorun) : Lanorun :=
  let s := ((s.event F.BLF_EVENT_TIME_FAULT).fault 0x0202 .module 0).enterFine
  let s := s.setHall fun h' => { h' with timeFault := true }
  { s with frz := { s.frz with timeFault := true } }

/-- A result in a register's unit of a fraction n over d: exact where it divides, else a free choice of the two
neighbours. -/
def Lanorun.roundDiv (s : Lanorun) (n : Int) (d : Nat) : Int × Lanorun :=
  if n % (d : Int) = 0 then (n / (d : Int), s)
  else
    let (k, s) := s.draw
    (n / (d : Int) + (if Config.roundUp k then 1 else 0), s)

/-- The counter is stepped to a point of the fc lattice; the frame is irregular (R37, R40). -/
def Lanorun.stepCounter (s : Lanorun) (lat : Nat) : Lanorun :=
  s.setHall fun h' => { h' with lat := lat, stepFrame := true }

/-- A step to a point of the fc lattice; where it would lie before hall time 0, which no rule gives, the point is a free value
(log entry 83). -/
def Lanorun.stepTo (s : Lanorun) (lat : Int) : Lanorun :=
  if 0 ≤ lat then s.stepCounter lat.toNat
  else
    let (n, s) := s.draw
    s.stepCounter (Config.stepPoint n)

/-- FINE's step: with no plan active, once, by the whole-fc part of the first parent offset (R40). -/
def Lanorun.fineStep (s : Lanorun) (ofs : Int) : Lanorun :=
  if s.blfState = blfFine ∧ s.hall.fineStepped = false ∧ s.planActive = false then
    let n := ofs.tdiv 640
    let s := if n = 0 then s else s.stepTo ((s.hall.lat : Int) + n)
    s.setHall fun h' => { h' with fineStepped := true }
  else s

/-- A signed time in ps in the 32 bits that a register gives it; one that does not fit them, of which R42 and R66 state no
result, shows free bits (log entry 83). -/
def timeBits (t : Int) : Nat :=
  if -2147483648 ≤ t ∧ t < 2147483648 then ofSigned 32 t else (Config.wideTime t).toNat

/-- The state of a port's time as BLF_PTIME shows it (R36, R42). -/
def ptimeWord (t : PortTime) : Nat :=
  (if t.done then timeBits t.ofs else 0x80000000) * 2 ^ 32 + timeBits t.rtt

def Lanorun.snapPort (n : Nat) (s : Lanorun) : Lanorun :=
  let t := s.ptime n
  let s := s.setReg R.BLF_PTIME (ptimeWord t) 0 n
  let s := s.put F.BLF_PCAL_LOC_TXRX (ofSigned 16 t.locTxrx) 0 n
  let s := s.put F.BLF_PCAL_PEER_TXRX (ofSigned 16 t.peerTxrx) 0 n
  let s := s.put F.BLF_PCAL_PEER_LOCKED (if t.peerState = 3 then 1 else 0) 0 n
  s.put F.BLF_PCAL_VALID (if t.fresh then 1 else 0) 0 n

/-- The snapshot of R36. -/
def Lanorun.blfSnap (s : Lanorun) : Lanorun :=
  let s := s.put F.BLF_SNAP_TICK_TICK s.ticks
  let s := s.put F.BLF_SNAP_FRAC_FC_IN_FRAME (s.hall.lat % 6250)
  let s := s.put F.BLF_SNAP_FRAC_FRAC s.frac
  let s := s.put F.BLF_STEER_STEER (ofSigned 32 s.hall.steer)
  let s := s.put F.BLF_ERR_BOUND_BOUND s.hall.bound
  forN Lanorun.snapPort 0 18 s

/-- RESTART: back to FREERUN without a step, ignored while a plan is active; ROLE comes into force (R40, BLF_CTRL). -/
def Lanorun.blfRestart (s : Lanorun) : Lanorun :=
  if s.planActive then s
  else
    let s := (s.setBlf blfFreerun).noParent.setBound 0xFFFF
    let role := s.get F.BLF_CTRL_ROLE
    let s := s.put F.BLF_STATUS_ROLE_ACT (if role = 3 then 2 else role)
    s.setHall fun h' => { h' with steer := 0, filtered := 0, integ := 0, ptpStepped := false, fineStepped := false }

/-- FINE is entered on the lowest-numbered valid candidate, where there is one (R40). -/
def Lanorun.fineOnParent (s : Lanorun) : Lanorun :=
  match s.bestParent with
  | none => s
  | some p => (s.setParent p).enterFine.fineStep (s.ptime p).ofs

/-- FREERUN is left as the role and PTP_EN give (R40). -/
def Lanorun.leaveFreerun (s : Lanorun) : Lanorun :=
  if s.blfState = blfFreerun ∧ s.flag F.BLF_CTRL_ENABLE then
    if s.role = 0 then (s.setBound 0).enterLocked
    else if s.flag F.BLF_CTRL_PTP_EN then s.setBlf blfCoarse
    else s.fineOnParent
  else s

/-- The COARSE step, once: to PTP time less EPOCH_TAI in ns, on the fc lattice; ptp is PTP time in ns (R40). -/
def Lanorun.coarseStep (s : Lanorun) (ptp : Nat) : Lanorun :=
  if s.blfState = blfCoarse ∧ s.flag F.BLF_STATUS_PTP_VALID ∧ s.hall.ptpStepped = false ∧ s.planActive = false then
    let ns : Int := (ptp : Int) - (s.get F.BLF_EPOCH_TAI_EPOCH * 1000000000 : Nat)
    let (lat, s) := s.roundDiv (ns * 25) 16
    let s := s.stepTo lat
    s.setHall fun h' => { h' with ptpStepped := true }
  else s

/-- HOLDOVER ends on a parent: in LOCKED, or where the bound that the parent gives exceeds BOUND_LIM, with which the module
never enters LOCKED (R45), by HOLDOVER's other way out, a TIME_FAULT (R40; log entry 82). -/
def Lanorun.endHoldover (s : Lanorun) (p : Nat) : Lanorun :=
  let s := s.setParent p
  if s.hall.bound ≤ s.boundLim then s.enterLocked else s.timeFault

/-- A parent that reports may end FREERUN without PTP, COARSE or HOLDOVER (R40). -/
def Lanorun.parentReports (s : Lanorun) : Lanorun :=
  let st := s.blfState
  if st = blfCoarse ∨ (st = blfFreerun ∧ s.flag F.BLF_CTRL_ENABLE ∧ s.role ≠ 0 ∧ ¬ s.flag F.BLF_CTRL_PTP_EN) then
    s.fineOnParent
  else if st = blfHoldover then
    match s.bestParent with
    | none => s
    | some p => s.endHoldover p
  else if st = blfFine ∧ s.get F.BLF_STATUS_PARENT_PORT = 0x1F then
    match s.bestParent with
    | none => s
    | some p => (s.setParent p).fineStep (s.ptime p).ofs
  else s

/-- A TIME unit received on port p at time t4; own is the frame of the own unit that its T_ARR stamps (R41, R42). -/
def Lanorun.timeReceive (s : Lanorun) (p : Nat) (m : TimeUnit) (t4 own : Nat) : Lanorun :=
  let t := { s.ptime p with arrive := some t4, peerTxrx := m.locTxrx, peerState := m.state, peerBound := m.bound }
  if m.arrValid then
    let t1 : Int := ((4000 * own + 3999) * 65536 + 23592 : Nat)
    let out : Int := (m.tArr : Int) - t1
    let back : Int := (t4 : Int) - (m.tDep : Int)
    let asym : Int := (t.locTxrx - m.locTxrx) + toSigned 16 (s.get F.BLF_PCAL_ASYM_CFG 0 p)
    let (rtt, s) := s.roundDiv ((out + back) * 1000) 65536
    let (ofs, s) := s.roundDiv ((out - back) * 1000 - asym * 65536) 131072
    let run := if t.since = 0 then max t.run 1 else if t.since = 1 then min (t.run + 1) 2 else 1
    let s := s.setPtime p { t with since := 0, done := true, rtt := rtt, ofs := ofs, run := run }
    if s.get F.BLF_STATUS_PARENT_PORT = p ∧ (s.blfState = blfFine ∨ s.blfState = blfLocked) ∧ s.validParent p then
      (s.setParent p).fineStep ofs
    else s.parentReports
  else s.setPtime p t

/-- The active parent became invalid: to the next valid candidate by steering only, else HOLDOVER (R48). R40's table enters
HOLDOVER from LOCKED alone, so a module in FINE stays in FINE, with no parent and its last bound (DEDUCED, log entry 82). -/
def Lanorun.parentLost (s : Lanorun) : Lanorun :=
  let p := s.get F.BLF_STATUS_PARENT_PORT
  if p = 0x1F ∨ s.validParent p then s
  else
    let s := s.event F.BLF_EVENT_PARENT_LOST
    match s.bestParent with
    | some q => s.setParent q
    | none =>
      let s := s.noParent
      if s.blfState = blfLocked then s.enterHoldover else s

/-- HOLDOVER up to the present instant: the bound grows by HOLD_RATE, in 0.01 ns, in each millisecond of 1,562,500 counter
units, and in proportion within it; past BOUND_LIM it is a TIME_FAULT (R49, R40). -/
def Lanorun.holdoverGrow (s : Lanorun) : Lanorun :=
  if s.blfState = blfHoldover then
    let g := s.hall.holdFrac + 10 * s.get F.BLF_CTRL_HOLD_RATE * (s.hall.lat - s.hall.holdAt)
    let s := (s.setBound (s.hall.bound + g / 1562500)).setHall fun h' => { h' with holdAt := s.hall.lat, holdFrac := g % 1562500 }
    if s.boundLim < s.hall.bound ∨ (s.hall.bound = s.boundLim ∧ s.hall.holdFrac ≠ 0) then s.timeFault else s
  else s

/-- LOCKED after 256 frames below 100 ps with a valid parent and the bound within BOUND_LIM (R40, R45). -/
def Lanorun.lockGained (s : Lanorun) : Lanorun :=
  if s.blfState = blfFine ∧ 256 ≤ s.hall.lockFrames ∧ s.hall.bound ≤ s.boundLim ∧
      s.validParent (s.get F.BLF_STATUS_PARENT_PORT) then s.enterLocked else s

/-- The steering limit of a state, in parts per 10^12 (R40). -/
def steerLimit (st role : Nat) (ptp : Bool) : Int :=
  if st = blfCoarse ∨ st = blfFine then 25000000
  else if st = blfLocked then (if role = 0 then (if ptp then 10000 else 0) else 500000)
  else 0

def clampInt (x lim : Int) : Int := max (-lim) (min x lim)

/-- The newest valid PTP offset in ps, PTP time less EPOCH_TAI less the counter; E0's while it is valid, else E1's (R39,
R457). -/
def Lanorun.ptpOffset (s : Lanorun) : Option Int :=
  let e := if s.flag F.ETH_STATUS_PTP_VALID 0 then 0 else 1
  if s.flag F.BLF_STATUS_PTP_VALID then
    match (sget {} s.eths e).meas with
    | (_, o) :: _ => some (o - (s.get F.BLF_EPOCH_TAI_EPOCH : Int) * 1000000000000)
    | [] => none
  else none

/-- What the servo steers to in this frame: the offset to the active parent, on a ROOT with PTP_EN the offset to PTP time,
else nothing (R39, R44). -/
def Lanorun.servoInput (s : Lanorun) : Option Int :=
  let p := s.get F.BLF_STATUS_PARENT_PORT
  if s.role = 0 then (if s.flag F.BLF_CTRL_PTP_EN then s.ptpOffset else none)
  else if p ≠ 0x1F ∧ (s.ptime p).done then some (s.ptime p).ofs
  else none

/-- The proportional-integral correction of one frame, within the steering limit of the state (R44); with no offset to filter the
steering stays, within the limit, and no frame counts toward LOCKED (log entry 82). -/
def Lanorun.steerFrame (s : Lanorun) : Lanorun :=
  let lim := steerLimit s.blfState s.role (s.flag F.BLF_CTRL_PTP_EN)
  match s.servoInput with
  | some o =>
    let f := Config.servoFilter s.hall.filtered o
    let i := Config.servoIntegral s.hall.integ f
    s.setHall fun h' => { h' with filtered := f, integ := i, steer := clampInt (Config.servoSteer f i) lim }
  | none => s.setHall fun h' => { h' with steer := clampInt s.hall.steer lim, lockFrames := 0, faultFrames := 0 }

/-- The servo's work once per frame (R44), and the checks of R40 and R47 on the filtered offset to the parent; FREERUN steers by
0 and HOLDOVER keeps its steering (R40). -/
def Lanorun.servo (s : Lanorun) : Lanorun :=
  let st := s.blfState
  if st = blfFreerun ∨ st = blfHoldover then s
  else
    let on := s.servoInput.isSome
    let s := s.steerFrame
    let f := s.hall.filtered
    if s.role = 0 ∨ on = false then s
    else if st = blfFine then
      s.setHall fun h' => { h' with lockFrames := if f.natAbs < 100 then s.hall.lockFrames + 1 else 0 }
    else if st = blfLocked then
      let s := if f.natAbs > s.driftLim then s.event F.BLF_EVENT_TIME_DRIFT else s
      if f.natAbs > s.faultLim then
        let s := s.setHall fun h' => { h' with faultFrames := s.hall.faultFrames + 1 }
        if 2 ≤ s.hall.faultFrames then s.timeFault else s
      else s.setHall fun h' => { h' with faultFrames := 0 }
    else s

/-- A Bell passes for the port's exchange age (R48). -/
def Lanorun.agePort (n : Nat) (s : Lanorun) : Lanorun :=
  let t := s.ptime n
  if t.since < 5 then s.setPtime n { t with since := t.since + 1 } else s

/-- The Belfry's share of a Bell. -/
def Lanorun.belfryBell (s : Lanorun) : Lanorun :=
  let s := forN Lanorun.agePort 0 18 s
  let s := s.servo.holdoverGrow
  s.setHall fun h' => { h' with stepFrame := false }

end Sys2Proof.Machine
end

