-- ==== Sys2Proof/Machine/Addr.lean ====
section
/-! DEFINITION. Vault addresses, interleaved and channel-local addresses (R214 to R220), logical cells (R17), and the records
of the mesh schedule and of transfer descriptors (R227, R321, R331). -/
namespace Sys2Proof.Machine

def vaultOf (a : Nat) : Nat := a / 2 ^ 36 % 8
def vaultOffset (a : Nat) : Nat := a % 2 ^ 36
/-- Where a vault's reserved area begins (R215). -/
def reservedAt : Nat := 0xF80000000

/-- The vaults of a mask, ascending. -/
def maskVaults (mask : Nat) : List Nat := (List.range 8).filter fun v => mask.testBit v

/-- The vault address of an interleaved address; none where the mask is empty or the offset is reserved (R218). -/
def deinterleave (mask i : Nat) : Option Nat :=
  let vs := maskVaults mask
  let g := i / 8192
  if vs = [] then none
  else
    let off := g / vs.length * 8192 + i % 8192
    if off ≥ reservedAt then none else some (listGet 0 vs (g % vs.length) * 2 ^ 36 + off)

/-- The vault address of a plain or interleaved address. -/
def resolve (mask : Nat) (il : Bool) (a : Nat) : Option Nat :=
  if il then deinterleave mask a
  else if mask.testBit (vaultOf a) ∧ vaultOffset a < reservedAt then some a else none

/-- Every byte of a range resolves within the mask and outside the reserved area, and a plain range stays in its vault
(R215, R218, R228). -/
def rangeOk (mask : Nat) (il : Bool) (a n : Nat) : Bool :=
  if n = 0 then (resolve mask il a).isSome
  else if il then
    let vs := maskVaults mask
    decide (vs ≠ []) && decide (a + n ≤ vs.length * reservedAt)
  else mask.testBit (vaultOf a) && decide (vaultOffset a + n ≤ reservedAt)

/-- The vault address of byte i of a range from a: an interleaved range spreads, a plain one runs on. -/
def rangeByte (mask : Nat) (il : Bool) (a i : Nat) : Nat :=
  if il then (deinterleave mask (a + i)).getD 0 else a + i

/-- Every byte of a range that resolves lies in vault v (R324). -/
def vaultHolds (mask : Nat) (il : Bool) (a n v : Nat) : Bool :=
  (List.range (ceilDiv n 32)).all fun k => match resolve mask il (a + 32 * k) with
    | some q => vaultOf q == v
    | none => true

/-- The vault offset of channel-local address l of engine e (R220). -/
def localOffset (e l : Nat) : Nat := l / 256 * 8192 + e * 256 + l % 256

/-- The physical cell with logical number n (R17). -/
def Lanorun.logicalCell (s : Lanorun) (n : Nat) : Option Nat := s.planCells[n]?

/-- The tenancy's MESHSCHED records: each begins with its length (R75, R321). -/
def varRecords : Nat → Nat → List (BitVec 8) → List (List (BitVec 8))
  | 0, _, _ => []
  | f + 1, n, b =>
    if n = 0 then []
    else
      let len := fieldAt b 0 4
      if len = 0 then [] else b.take len :: varRecords f (n - 1) (b.drop len)

/-- A mesh schedule entry (R321). -/
structure MeshEntry where
  skind : Nat
  dkind : Nat
  sid : Nat
  did : Nat
  frame : Nat
  start : Nat
  cstride : Nat
  nfc : Nat
  bytes : Nat
  vaddr : Nat
  caddr : Nat
  tally : Nat
  bridge : Nat
  vdaddr : Nat
  deriving DecidableEq, Repr

def meshEntryOf (r : List (BitVec 8)) : MeshEntry :=
  { skind := fieldAt r 6 1, dkind := fieldAt r 7 1, sid := fieldAt r 8 2, did := fieldAt r 10 2, frame := fieldAt r 12 2,
    start := fieldAt r 14 2, cstride := fieldAt r 16 2, nfc := fieldAt r 18 2, bytes := fieldAt r 20 4,
    vaddr := fieldAt r 24 8, caddr := fieldAt r 32 4, tally := fieldAt r 36 1, bridge := fieldAt r 37 1,
    vdaddr := fieldAt r 40 8 }

/-- The section type of MESHSCHED (R76). -/
def secMesh : Nat := 7

/-- Mesh schedule entry x of a tenancy. -/
def Image.mesh (i : Image) (t x : Nat) : Option MeshEntry :=
  match i.sect secMesh t with
  | some sec => ((varRecords sec.count sec.count (sec.body.drop 16))[x]?).map meshEntryOf
  | none => none

/-- How many mesh schedule entries a tenancy has. -/
def Image.meshCount (i : Image) (t : Nat) : Nat := ((i.sect secMesh t).map (·.count)).getD 0

/-- A transfer descriptor (R227). -/
structure Desc where
  kind : Nat
  flags : Nat
  tslot : Nat
  src : Nat
  bytes : Nat
  mslot : Nat
  tally : Nat
  pad : Nat
  dst : Nat
  ext : Nat
  deriving DecidableEq, Repr

def descOf (r : List (BitVec 8)) : Desc :=
  { kind := fieldAt r 0 1, flags := fieldAt r 1 1, tslot := fieldAt r 2 2, src := fieldAt r 4 4, bytes := fieldAt r 8 4,
    mslot := fieldAt r 12 2, tally := fieldAt r 14 1, pad := fieldAt r 15 1, dst := fieldAt r 16 8, ext := fieldAt r 24 8 }

/-- Fields of a REMOTE descriptor (R331). -/
def Desc.tkind (d : Desc) : Nat := bitsOf d.dst 63 62
def Desc.remIl (d : Desc) : Bool := d.dst.testBit 61
def Desc.remId (d : Desc) : Nat := bitsOf d.dst 59 44
def Desc.remAddr (d : Desc) : Nat := bitsOf d.dst 38 0
def Desc.rank (d : Desc) : Nat := bitsOf d.ext 15 0
def Desc.rtally (d : Desc) : Nat := bitsOf d.ext 19 16
def Desc.stally (d : Desc) : Nat := bitsOf d.ext 23 20
def Desc.tc (d : Desc) : Nat := bitsOf d.ext 25 24

/-- The layout of a REMOTE descriptor's DST and EXT, for the TCs that its sender may use (R331). -/
def Desc.remoteBad (d : Desc) : Bool :=
  bitsOf d.dst 60 60 != 0 || bitsOf d.dst 43 39 != 0 || d.ext / 2 ^ 26 != 0 || (d.remIl && d.tkind != 1) ||
  d.remAddr % 32 != 0 || (d.tkind == 0 && d.remAddr / 2 ^ 20 != 0) || (d.tkind != 0 && d.rtally != 0) ||
  (d.tkind == 2 && (bitsOf d.dst 51 49 != 0 || bitsOf d.dst 59 55 != 0)) || (d.tkind == 1 && d.remId != 0) ||
  (d.tkind == 3 && d.remId != 0)

/-- A descriptor of a cell breaks R227 or R331, but for the cell numbers and ranges that the module must look up (R228). -/
def Desc.bad (d : Desc) : Bool :=
  d.kind == 0 || decide (4 < d.kind) || d.flags / 2 != 0 || (d.flags % 2 == 1 && decide (8191 < d.tslot)) ||
  (d.flags % 2 == 0 && d.tslot != 0) || d.src / 2 ^ 20 != 0 || d.src % 32 != 0 || d.bytes % 32 != 0 ||
  decide (d.bytes < 32) || decide (262144 < d.bytes) || d.pad != 0 || d.tally / 16 != 0 ||
  (d.kind != 2 && d.tally != 0) || (d.kind != 4 && d.ext != 0) ||
  decide (0x100000 < d.src + d.bytes) ||
  (match d.kind with
   | 1 => bitsOf d.dst 62 39 != 0 || d.dst % 32 != 0
   | 2 => bitsOf d.dst 63 48 != 0 || bitsOf d.dst 31 20 != 0 || d.dst % 32 != 0
   | 3 => d.dst / 2 ^ 11 != 0 || bitsOf d.dst 7 5 != 0
   | _ => d.remoteBad || decide (1 < d.tc) || d.tkind == 3 ||
          (d.tc == 1 && (d.mslot != 0 || d.tkind == 0)))

/-- Rank r of tenancy t: the physical module, where the entry is VALID (R335). -/
def Lanorun.rankOf (s : Lanorun) (t r : Nat) : Option Nat :=
  match s.activeImage with
  | none => none
  | some im =>
    let cnt (u : Nat) : Nat := match im.sect 5 u with
      | some x => x.count
      | none => 0
    let base := ((List.range t).map cnt).sum
    if r < cnt t then
      let e := s.reg R.MOD_RANK 0 ((base + r) / 4) / 2 ^ (16 * ((base + r) % 4)) % 2 ^ 16
      if e.testBit 15 then some (e % 2 ^ 14) else none
    else none

end Sys2Proof.Machine
end

