-- ==== Sys2Proof/Machine/Digest.lean ====
section
/-! DEFINITION. The Tally generator and the write digests (R419 to R424). -/
namespace Sys2Proof.Machine

/-- mix of R420, modulo 2^64. -/
def mix (x : BitVec 64) : BitVec 64 :=
  let x := x ^^^ (x >>> 32)
  let x := x * 0xA0C35B2F7E19D46B#64
  let x := x ^^^ (x >>> 29)
  let x := x * 0xC8E14F7329B56A0D#64
  x ^^^ (x >>> 32)

/-- The Tally word of a seed, step, position and stream (R420). -/
def tally (seed0 seed1 : BitVec 64) (step pos stream : Nat) : BitVec 32 :=
  let a := mix (seed0 + BitVec.ofNat 64 step * 0x6F2BD7A135C9E883#64)
  let b := mix (seed1 ^^^ (a + BitVec.ofNat 64 pos * 0x3D91A6F50B7EC2A7#64))
  let c := mix (a + b + BitVec.ofNat 64 (stream + 1) * 0x52E81C4B9FA3706F#64)
  (c ^^^ (c >>> 32)).setWidth 32

/-- h of R423. -/
def digestHash (a msk : Nat) (ws : List Nat) : BitVec 64 :=
  let g := mix (BitVec.ofNat 64 a ^^^ 0x7B15E2C908D4A36F#64)
  let g := mix (g + BitVec.ofNat 64 msk)
  ws.foldl (fun g w => mix (g + BitVec.ofNat 64 w)) g

/-- Adds to a frame's partial of a source. -/
def DetFrame.add (d : DetFrame) (src : Nat) (h : BitVec 64) : DetFrame :=
  { d with parts := sset 0#64 d.parts src (sget 0#64 d.parts src + h) }

/-- Adds a hash to the open plan frame (step, frame), where digests are kept and it is open (R424, R425). -/
def Lanorun.digestAdd (s : Lanorun) (step frame src : Nat) (h : BitVec 64) : Lanorun :=
  if s.det.active then
    { s with det := { s.det with sums := s.det.sums.map fun d =>
        if d.step = step ∧ d.frame = frame then d.add src h else d } }
  else s

/-- The mask and data of the part of a write that falls in granule g: bytes bs from address a, addresses modulo m. -/
def granulePart (a : Nat) (bs : List (BitVec 8)) (m g : Nat) : Nat × List Nat :=
  let byteAt (i : Nat) : Option (BitVec 8) :=
    let k := (g * 32 + i + m - a % m) % m
    if k < bs.length then some (listGet 0#8 bs k) else none
  let msk := (List.range 32).foldl (fun n i => if (byteAt i).isSome then n + 2 ^ i else n) 0
  let word (j : Nat) : Nat := leNat ((List.range 8).map fun i => (byteAt (8 * j + i)).getD 0#8)
  (msk, [word 0, word 1, word 2, word 3])

/-- The granules that a write of n bytes at address a touches, addresses modulo m. -/
def granulesOf (a n m : Nat) : List Nat :=
  if n = 0 then [] else (List.range ((a % 32 + n + 31) / 32)).map fun i => (a % m / 32 + i) % (m / 32)

/-- A cell-store write of the digest's tenancy enters DC (R422 to R424). -/
def Lanorun.digestStore (s : Lanorun) (c step frame a : Nat) (bs : List (BitVec 8)) : Lanorun :=
  match s.tenOfCell c, s.activeImage with
  | some t, some im =>
    if s.det.active ∧ t = s.det.tenancy then
      let tc := indexOf (im.cellsOf t) c
      (granulesOf a bs.length 0x100000).foldl (fun s g =>
        let (msk, ws) := granulePart a bs 0x100000 g
        s.digestAdd step frame (c / 17) (digestHash (2 ^ 62 + tc * 2 ^ 32 + g * 32) msk ws)) s
    else s
  | _, _ => s

/-- A scheduled vault write of the digest's tenancy, applied or suppressed, enters DV (R422 to R424). -/
def Lanorun.digestVault (s : Lanorun) (t step frame a : Nat) (bs : List (BitVec 8)) (suppressed : Bool) : Lanorun :=
  if s.det.active ∧ t = s.det.tenancy then
    (granulesOf a bs.length (2 ^ 39)).foldl (fun s g =>
      let (msk, ws) := granulePart a bs (2 ^ 39) g
      let h := if suppressed then digestHash (2 ^ 63 + g * 32) msk [0, 0, 0, 0] else digestHash (g * 32) msk ws
      s.digestAdd step frame (80 + g * 32 / 2 ^ 36) h) s
  else s

end Sys2Proof.Machine
end

