-- ==== Sys2Proof/Machine/Region.lean ====
section
/-! DEFINITION. Region shells: plan clocks, retunes, calibration, alignment and removed edges (R54 to R64). -/
namespace Sys2Proof.Machine

/-- The region's frame budget: f times 4 rc; 6,250 in aligned mode (R54, R63). -/
def Lanorun.budget (s : Lanorun) (r : Nat) : Nat :=
  if (s.rgn r).aligned then 6250 else 6000 + 50 * s.get F.RGN_CLK_ACT_STEP r

/-- The edge positions that level k names in each group of 32 (R58). -/
def protNames (k p : Nat) : Bool :=
  (List.range k).any fun m => p % 32 + 2 == ceilDiv (32 * (m + 1)) k

/-- The protective level in force at a frame position. -/
def levelAt : List (Nat × Nat) → Nat → Nat
  | [], _ => 0
  | (q, k) :: t, p => if q ≤ p then k else levelAt t p

/-- The protective limit removes position p: named, and it does not directly follow a removed edge (R58). -/
def protRemoves (levels : List (Nat × Nat)) (last : Bool) : Nat → Bool
  | 0 => protNames (levelAt levels 0) 0 && !last
  | p + 1 => protNames (levelAt levels (p + 1)) (p + 1) && !protRemoves levels last p

/-- The edge at position p of the region's present frame is removed by the protective limit. -/
def Region.protRemoved (g : Region) (p : Nat) : Bool := protRemoves g.levels g.lastRemoved p

/-- The edge at position p of the region's present frame is removed (R57, R58). -/
def Region.removed (g : Region) (p : Nat) : Bool := g.droops.contains p || g.protRemoved p

/-- How many positions below n satisfy f. -/
def countBelow (f : Nat → Bool) : Nat → Nat
  | 0 => 0
  | n + 1 => countBelow f n + (if f n then 1 else 0)

/-- The next delivered position from p on, within fuel positions. -/
def Region.nextEdge (g : Region) : Nat → Nat → Nat
  | 0, p => p
  | n + 1, p => if g.removed p then g.nextEdge n (p + 1) else p

/-- A droop removes the region's next rc edge and counts it; beyond the frame's last position that is an edge of the next
frame, which the Bell places (R57). While the plan's frame stands in a freeze the edge is none of it (R532). -/
def Lanorun.droop (s : Lanorun) (r : Nat) : Lanorun :=
  let g := s.rgn r
  let g' := { g with droopSeen := true }
  let s := s.setRgn r (if s.frozen then g' else { g' with droops := g.nextEdge 64 g.pos :: g.droops })
  s.countEvt R.RGN_DROOP_CNT 1 r

/-- The droops of removed edges beyond a frame of n positions fall on the next frame's first edges (R57). -/
def Region.carryDroops (g : Region) (n : Nat) (ps : List Nat) : Region :=
  (ps.filter fun p => decide (n ≤ p)).foldl (fun g _ => { g with droops := g.nextEdge 64 0 :: g.droops }) g

/-- The protective level changes from the region's present position on (R58). -/
def Lanorun.setLevel (s : Lanorun) (r k : Nat) : Lanorun :=
  let g := s.rgn r
  (s.setRgn r { g with levels := (g.pos, k) :: g.levels }).put F.RGN_CLK_PROT_LEVEL k r

/-- PLAN_STEP above CLK_STEP_MAX is ignored; a change in calibrated mode asks for a retune at the next Bell (R54, R55). -/
def Lanorun.planStepWrite (s : Lanorun) (r step : Nat) : Lanorun :=
  if step > s.get F.MOD_IDENT_CLK_STEP_MAX then s
  else
    let old := s.get F.RGN_CLK_PLAN_STEP r
    let s := s.put F.RGN_CLK_PLAN_STEP step r
    let g := s.rgn r
    if old ≠ step ∧ g.aligned = false then s.setRgn r { g with stepReq := true } else s

/-- A MODE write is recorded and takes effect at the next Bell (R55, R63). -/
def Lanorun.modeWrite (s : Lanorun) (r : Nat) (aligned : Bool) : Lanorun :=
  let s := s.put F.RGN_CLK_MODE (if aligned then 1 else 0) r
  s.setRgn r { s.rgn r with modeReq := some aligned }

/-- Frame F of a retune (R55). -/
def Lanorun.startRetune (s : Lanorun) (r : Nat) : Lanorun :=
  let g := s.rgn r
  let s := s.setRgn r { g with retune := some 0, oldStep := s.get F.RGN_CLK_ACT_STEP r, stepReq := false,
                               modeReq := none, calFail := false }
  (s.put F.RGN_CLK_RETUNE 1 r).put F.RGN_XCAL_XCAL_DONE 0 r

/-- The region enters aligned mode on its last alignment (R63, R61 case 5). The rail, of which no rule speaks here, starts from
VMAX of step 5, as it does at reset (DESIGN CHOICE, log entry 84). -/
def Lanorun.enterAligned (s : Lanorun) (r : Nat) : Lanorun :=
  let g := s.rgn r
  let s := s.setRgn r { g with aligned := true, modeReq := none, stepReq := false, vdrop := 0, streak := 0 }
  let s := s.put F.RGN_CLK_MODE 1 r
  let s := s.put F.RGN_CLK_ACT_STEP 5 r
  let s := s.put F.RGN_XCAL_LAT_ACT 2 r
  s.put F.RGN_XCAL_PHASE g.alignPhase r

/-- LAT_PLAN, where a value outside 4 to 8 acts as 6 (RGN_XCAL). -/
def Lanorun.latPlan (s : Lanorun) (r : Nat) : Nat :=
  let l := s.get F.RGN_XCAL_LAT_PLAN r
  if 4 ≤ l ∧ l ≤ 8 then l else 6

/-- The ten raw latencies as RGN_XRAW packs them. -/
def packRaw : List Nat → Nat
  | [] => 0
  | x :: t => x % 64 + 64 * packRaw t

/-- Calibration with the worst raw latencies of the ten crossings, in 1/8 fc (R61 steps 1 to 6). -/
def Lanorun.calibrate (s : Lanorun) (r : Nat) (raws : List Nat) : Lanorun :=
  let worst := raws.foldl max 0
  let req := ceilDiv (worst + 8) 8
  let lp := s.latPlan r
  let s := s.put F.RGN_XRAW_RAW (packRaw raws) r
  if req ≤ 8 then
    let s := s.put F.RGN_XCAL_LAT_ACT (max req lp) r
    let s := s.put F.RGN_XCAL_XCAL_LONG (if req ≤ lp then 0 else 1) r
    let s := s.put F.RGN_XCAL_XCAL_FAIL 0 r
    let s := s.put F.RGN_XCAL_PHASE 0 r
    s.put F.RGN_XCAL_XCAL_DONE 1 r
  else
    let s := (s.put F.RGN_XCAL_XCAL_FAIL 1 r).put F.RGN_XCAL_XCAL_LONG 0 r
    let s := s.fault 0x0205 .region r
    s.setRgn r { s.rgn r with calFail := true }

/-- Ten free raw latencies (R61 step 1 measures them). -/
def Lanorun.drawRaws (s : Lanorun) : List Nat × Lanorun :=
  let (n, s) := s.draw
  ((List.range 10).map (fun k => (Config.rawLatency n k).toNat), s)

/-- One Bell of a retune in progress; frames counts from F (R55). -/
def Lanorun.retuneBell (s : Lanorun) (r frames : Nat) : Lanorun :=
  let s := s.setRgn r { s.rgn r with retune := some frames }
  if frames = 1 then
    let s := s.setRgn r { s.rgn r with aligned := false }
    s.put F.RGN_CLK_ACT_STEP (s.get F.RGN_CLK_PLAN_STEP r) r
  else if frames = 3 then
    let (raws, s) := s.drawRaws
    let s := s.calibrate r raws
    s.setRgn r { s.rgn r with vdrop := 0, streak := 0, droopSeen := false }
  else if frames = 4 then
    let fail := (s.rgn r).calFail
    let s := s.setRgn r { s.rgn r with retune := none }
    let s := s.put F.RGN_CLK_RETUNE 0 r
    if fail then s.enterAligned r else s
  else s

/-- The region's cells do not execute: a retune is in progress (R55). -/
def Lanorun.retuning (s : Lanorun) (r : Nat) : Bool := (s.rgn r).retune.isSome

/-- The next state of a region's clock at a Bell: a retune in progress, else a mode change or the start of a retune (R55, R63).
While a retune runs, a newer PLAN_STEP is what ACT_STEP takes at F + 1, a change asks for one more retune after F + 4, and
MODE = 1 waits until then (DESIGN CHOICE, log entry 84). -/
def Lanorun.regionMode (s : Lanorun) (r : Nat) : Lanorun :=
  let g := s.rgn r
  match g.retune with
  | some f => s.retuneBell r (f + 1)
  | none =>
    match g.modeReq with
    | some true => if g.aligned then s.setRgn r { g with modeReq := none } else s.enterAligned r
    | some false => if g.aligned || g.stepReq then s.startRetune r else s.setRgn r { g with modeReq := none }
    | none => if g.stepReq then s.startRetune r else s

/-- The protective level after a Bell at which it falls or not (R58, R473). -/
def Lanorun.levelAfter (s : Lanorun) (r : Nat) (fall : Bool) : Nat :=
  s.get F.RGN_CLK_PROT_LEVEL r - (if fall then 1 else 0)

/-- A region's share of a Bell for its clock: the end of the frame's edges, the fall of the protective level, the alignment
count, retunes and mode changes (R55, R57 to R59, R63, R64). -/
def Lanorun.regionBell (s : Lanorun) (r : Nat) (fall : Bool) : Lanorun :=
  let g := s.rgn r
  let b := s.budget r
  let lost := countBelow g.removed b
  let prot := countBelow (fun p => g.protRemoved p && !g.droops.contains p) b
  let s := (s.put F.RGN_FSTAT_LOST_RC lost r).countEvt R.RGN_SWALLOW_CNT prot r
  let k := s.levelAfter r fall
  let s := s.put F.RGN_CLK_PROT_LEVEL k r
  let g' := { g with bells := g.bells + 1, pos := 0, droops := [], levels := if k = 0 then [] else [(0, k)],
                     prevDroop := lost - prot, prevProt := prot, lastRemoved := b ≠ 0 && g.protRemoved (b - 1) }
  (s.setRgn r (g'.carryDroops b g.droops)).regionMode r

/-- The share of a Bell that comes in a freeze: the region's clock runs on, and the edges that the protective limit removes in a
frame of it count; the plan's frame stands, so that a fall of the level acts on it from its present position (R58, R532;
log entry 85). -/
def Lanorun.regionFrozen (s : Lanorun) (r : Nat) (fall : Bool) : Lanorun :=
  let g := s.rgn r
  let k := s.get F.RGN_CLK_PROT_LEVEL r
  let s := s.countEvt R.RGN_SWALLOW_CNT (countBelow (protRemoves [(0, k)] false) (s.budget r)) r
  let k' := s.levelAfter r fall
  let s := s.put F.RGN_CLK_PROT_LEVEL k' r
  let g := { g with bells := g.bells + 1 }
  (s.setRgn r (if k' = k then g else { g with levels := (g.pos, k') :: g.levels })).regionMode r

/-- The widest passing run of taps: its start and length; of runs of one width a free choice. -/
def widestRun (k pass : Nat) : Nat → Nat → Nat → Nat × Nat → Nat × Nat
  | 0, _, _, best => best
  | n + 1, i, len, best =>
    if pass.testBit i then
      let len' := len + 1
      widestRun k pass n (i + 1) len'
        (if len' > best.2 ∨ (len' = best.2 ∧ Config.tapTie k i) then (i + 1 - len', len') else best)
    else widestRun k pass n (i + 1) 0 best

/-- The 65th Bell after power good: once, the tap at the centre of the widest passing run, or XCAL_FAIL (R64). -/
def Lanorun.alignDone (s : Lanorun) (r pass : Nat) : Lanorun :=
  let g := s.rgn r
  if 65 ≤ g.bells ∧ s.get F.RGN_XCAL_ALIGN_DONE r = 0 ∧ g.alignFail = false then
    let (start, len) := widestRun s.freeCtr pass 64 0 0 (0, 0)
    if len = 0 then
      ((s.setRgn r { g with alignFail := true }).put F.RGN_XCAL_XCAL_FAIL 1 r).fault 0x0205 .region r
    else
      let (n, s) := s.draw
      let phase := (Config.alignPhase n).toNat
      let s := s.setRgn r { g with tap := start + (len - 1) / 2 + (if len % 2 = 0 ∧ Config.roundUp n then 1 else 0),
                                   alignPhase := phase }
      let s := if g.aligned then s.put F.RGN_XCAL_PHASE phase r else s
      s.put F.RGN_XCAL_ALIGN_DONE 1 r
  else s

/-- The region's rail follows the loop: not in the first frames of a retune, which hold it (R55). -/
def Region.railHeld (g : Region) : Bool := match g.retune with
  | some f => decide (f < 3)
  | none => false

/-- The rail in 0.1 mV: from frame F to F + 2 of a retune the higher VMAX of the two steps, else VMAX of the step less the
loop's drop (R55, R56). -/
def Lanorun.vout (s : Lanorun) (r : Nat) : Nat :=
  let g := s.rgn r
  let step := s.get F.RGN_CLK_ACT_STEP r
  if g.railHeld then max (Config.vmax r g.oldStep).toNat (Config.vmax r (s.get F.RGN_CLK_PLAN_STEP r)).toNat
  else (Config.vmax r step).toNat - 25 * g.vdrop

/-- One evaluation of the voltage loop with the smallest sentinel margin m; the answer says whether MARGIN_EXHAUSTED is
reported. VMAX_HIT shows the rail at VMAX with a margin below 8, with the loop or without it (R56, RGN_VMON). -/
def Lanorun.voltageLoop (s : Lanorun) (r m : Nat) : Bool × Lanorun :=
  let g := s.rgn r
  let s := s.put F.RGN_VMON_MARGIN_MIN (min m 255) r
  let step := s.get F.RGN_CLK_ACT_STEP r
  let range := ((Config.vmax r step).toNat - (Config.vmin r step).toNat) / 25
  let streak := if m > 24 then g.streak + 1 else 0
  let on := s.flag F.RGN_VMON_LOOP_EN r
  let d := if on = false then 0
    else if g.droopSeen then g.vdrop - 4
    else if m < 8 then g.vdrop - 2
    else if 64 ≤ streak then min (g.vdrop + 1) range
    else g.vdrop
  let s := s.setRgn r (if g.railHeld then g else { g with vdrop := d, streak := if on then streak else 0, droopSeen := false })
  let hit := decide (s.vout r = (Config.vmax r step).toNat) && decide (m < 8)
  (on && !g.railHeld && hit, s.put F.RGN_VMON_VMAX_HIT (if hit then 1 else 0) r)

end Sys2Proof.Machine
end

