-- ==== Sys2Proof/Machine/CellOps.lean ====
section
/-! DEFINITION. What every cell operation uses: registers, coffer and store bytes, poison, faults, tallies, landings and step
entry (R102 to R106, R121, R127, R139, R209, R516, R517). -/
namespace Sys2Proof.Machine

/-- Resource codes of CEL_GUARD_LAST (R141). -/
def resS (r : Nat) : Nat := r
def resP (p : Nat) : Nat := 0x20 + p
def resT (t : Nat) : Nat := 0x30 + t
def resV (r : Nat) : Nat := 0x40 + r
def resLine (x : Nat) : Nat := 0x100 + x
def resBank (b : Nat) : Nat := 0x200 + b
def resEngine : Nat := 0x210
def resTail : Nat := 0x211
def resRead : Nat := 0x212
def resWrite : Nat := 0x213
def resCofferWrite : Nat := 0x214
def resSendq : Nat := 0x215
def resPend : Nat := 0x220
def resSendSrc : Nat := 0x221
def resNone : Nat := 0xFFF

/-- Poison codes of register words (R517). -/
def poisonS (r : Nat) : List Nat := [0x20000 + 2 * r, 0x20001 + 2 * r]
def poisonV (r : Nat) : List Nat := (List.range 64).map fun l => 0x20100 + 64 * r + l

/-- Scalar register r: s0 reads zero (R102); a poisoned word reads all ones (R517). -/
def Cell.s (x : Cell) (r : Nat) : BitVec 64 :=
  let v := if r = 0 then 0#64 else sget 0#64 x.sregs r
  if x.poison = [] then v
  else
    (if x.poison.contains (0x20000 + 2 * r) then 0xFFFFFFFF#64 else 0#64) |||
    (if x.poison.contains (0x20001 + 2 * r) then 0xFFFFFFFF00000000#64 else 0#64) ||| v

/-- Predicate p: p0 reads 1 (R102). -/
def Cell.p (x : Cell) (p : Nat) : Bool := if p = 0 then true else sget false x.preds p

/-- Vector register r as 64 lanes. -/
def Cell.v (x : Cell) (r : Nat) : List (BitVec 32) :=
  let ls := sgets 0#32 x.vregs (64 * r) 64
  if x.poison = [] then ls
  else (List.range 64).map fun l =>
    if x.poison.contains (0x20100 + 64 * r + l) then 0xFFFFFFFF#32 else listGet 0#32 ls l

/-- Register writes: those to s0 and p0 are discarded (R102). -/
def Cell.setS (x : Cell) (r : Nat) (v : BitVec 64) : Cell :=
  if r = 0 then x
  else { x with sregs := sset 0#64 x.sregs r v, poison := x.poison.filter fun c => !(poisonS r).contains c }
def Cell.setP (x : Cell) (p : Nat) (v : Bool) : Cell :=
  if p = 0 then x else { x with preds := sset false x.preds p v }
def Cell.setV (x : Cell) (r : Nat) (vs : List (BitVec 32)) : Cell :=
  { x with vregs := ssets 0#32 x.vregs (64 * r) (vs.take 64),
           poison := x.poison.filter fun c => !(poisonV r).contains c }

/-- PRED of R112: the named predicate XOR NEG. -/
def Cell.pred (x : Cell) (pr : Nat) : Bool := x.p (pr % 8) ^^ decide (8 ≤ pr)

/-- Byte a of the coffer; a poisoned granule reads 0xFF (R517). -/
def Cell.cofferByte (x : Cell) (a : Nat) : BitVec 8 :=
  if x.poison ≠ [] ∧ x.poison.contains (0x10000 + a / 32) then 0xFF#8 else sget 0#8 x.coffer a

/-- n coffer bytes from a. -/
def Cell.cofferBytes (x : Cell) (a n : Nat) : List (BitVec 8) :=
  if x.poison = [] then sgets 0#8 x.coffer a n else (List.range n).map fun i => x.cofferByte (a + i)

/-- A coffer line as 64 lanes (R176). -/
def Cell.cofferLanes (x : Cell) (line : Nat) : List (BitVec 32) :=
  (List.range 64).map fun l => BitVec.ofNat 32 (leNat (x.cofferBytes (256 * line + 4 * l) 4))

/-- n cell-store bytes from a, addresses modulo 2^20 (R211). -/
def Cell.storeBytes (x : Cell) (a n : Nat) : List (BitVec 8) :=
  let a := a % 0x100000
  if x.poison = [] then
    if a + n ≤ 0x100000 then sgets 0#8 x.store a n
    else sgets 0#8 x.store a (0x100000 - a) ++ sgets 0#8 x.store 0 (a + n - 0x100000)
  else (List.range n).map fun i =>
    let b := (a + i) % 0x100000
    if x.poison.contains (b / 32) then 0xFF#8 else sget 0#8 x.store b

/-- n cell-store bytes from a as a read in the present rc returns them: those that the mesh port writes in that rc are the ones
from before the write (R209). -/
def Cell.loadBytes (x : Cell) (a n : Nat) : List (BitVec 8) :=
  let now := (x.meshWr.filter (·.1 = x.rc)).reverse
  if now = [] then x.storeBytes a n
  else (List.range n).map fun i =>
    let b := (a + i) % 0x100000
    match now.find? fun m => decide ((b + 0x100000 - m.2.1 % 0x100000) % 0x100000 < m.2.2.length) with
    | some m => listGet 0#8 m.2.2 ((b + 0x100000 - m.2.1 % 0x100000) % 0x100000)
    | none => (x.storeBytes b 1).headD 0#8

/-- The poison codes of n bytes from a in a memory whose codes start at base. -/
def poisonOf (base size a n : Nat) : List Nat :=
  if n = 0 then [] else (List.range ((a % 32 + n + 31) / 32)).map fun i => base + (a / 32 + i) % (size / 32)

/-- Poison left after a write of n bytes from a: a granule is cleared where the write covers all of it (R517). -/
def clearPoison (base a n : Nat) (l : List Nat) : List Nat :=
  l.filter fun c => !(decide (base ≤ c) && decide (a ≤ (c - base) * 32) && decide ((c - base) * 32 + 32 ≤ a + n))

/-- Writes coffer bytes. -/
def Cell.writeCoffer (x : Cell) (a : Nat) (bs : List (BitVec 8)) : Cell :=
  { x with coffer := ssets 0#8 x.coffer a bs,
           poison := if x.poison = [] then [] else clearPoison 0x10000 a bs.length x.poison }

/-- Writes cell-store bytes that do not run past the end. -/
def Cell.writeStore1 (x : Cell) (a : Nat) (bs : List (BitVec 8)) : Cell :=
  { x with store := ssets 0#8 x.store a bs,
           poison := if x.poison = [] then [] else
             let cs := clearPoison 0 a bs.length (x.poison.filter (· < 0x10000))
             cs ++ x.poison.filter (0x10000 ≤ ·) }

/-- Writes cell-store bytes, addresses modulo 2^20. -/
def Cell.writeStore (x : Cell) (a : Nat) (bs : List (BitVec 8)) : Cell :=
  let a := a % 0x100000
  let k := 0x100000 - a
  if bs.length ≤ k then x.writeStore1 a bs else (x.writeStore1 a (bs.take k)).writeStore1 0 (bs.drop k)

/-- A write through a cell store's mesh port, in the cell's present rc (R209). -/
def Cell.meshWrite (x : Cell) (a : Nat) (bs : List (BitVec 8)) : Cell :=
  { x.writeStore a bs with
    meshWr := (x.rc, a % 0x100000, x.storeBytes a bs.length) :: x.meshWr.filter fun m => x.rc ≤ m.1 }

/-- The block and region of a cell (R16). -/
def blockOf (c : Nat) : Nat := c / 17
def regionOf (c : Nat) : Nat := c / 85

/-- MOD_MESH_LAST (R325). -/
def Lanorun.meshLast (s : Lanorun) (mslot router t code fc : Nat) : Lanorun :=
  s.setReg R.MOD_MESH_LAST (mslot % 65536 * 2 ^ 48 + (0x80 + router) % 256 * 2 ^ 40 + t % 16 * 2 ^ 36 + code * 2 ^ 16 + fc % 65536)

/-- A cell fault: the cell stops and records it; under a plan its tenancy's partition faults (R139). -/
def Lanorun.cellFault (s : Lanorun) (c code slot res pc : Nat) : Lanorun :=
  let s := s.setCell c { s.cell c with st := 3, why := 0 }
  let s := (((s.put F.CEL_FAULT_CODE code c).put F.CEL_FAULT_SLOT slot c).put F.CEL_FAULT_RESOURCE res c).put
    F.CEL_FAULT_PC pc c
  let s := s.event F.CEL_EVENT_FAULT c
  let s := if code = 0x0A02 then (s.fault code .block (blockOf c)).event F.MOD_NI_EVENT_MESH else s.fault code .cell c
  s.cellPartitionFault c

/-- An addition to a tally: above 0xFFFF it stays there and raises TALLY_OVF (R127). -/
def Lanorun.tallyAdd (s : Lanorun) (c t n slot pc : Nat) : Lanorun :=
  let x := s.cell c
  let v := (sget 0#16 x.tallies t).toNat + n
  let s := s.setCell c { x with tallies := sset 0#16 x.tallies t (BitVec.ofNat 16 (min v 0xFFFF)) }
  if v > 0xFFFF then s.cellFault c 0x0405 slot (resT t) pc else s

/-- The program range, which holds while a plan is active (R121). -/
def Lanorun.inProgram (s : Lanorun) (c a : Nat) : Bool :=
  s.planActive && decide (s.get F.CEL_PROG_BASE c ≤ a) && decide (a < s.get F.CEL_PROG_LIMIT c)

/-- Splits bytes at address a into the runs whose addresses satisfy ok. -/
def runsWhere (ok : Nat → Bool) : Nat → List (BitVec 8) → List (Nat × List (BitVec 8))
  | _, [] => []
  | a, b :: bs =>
    match runsWhere ok (a + 1) bs with
    | [] => if ok a then [(a, [b])] else []
    | (q, r) :: t => if ok a then (if q = a + 1 then (a, b :: r) :: t else (a, [b]) :: (q, r) :: t) else (q, r) :: t

/-- A cell-store write of a plan's own traffic: the program range is left out and raises PROG_WRITE; the rest is written
and enters the digest (R121, R422). Bytes that the mesh port wrote in the same rc keep its value (R209). -/
def Lanorun.planStore (s : Lanorun) (c step frame a : Nat) (bs : List (BitVec 8)) (mesh : Bool) (slot pc : Nat) : Lanorun :=
  let x := s.cell c
  let clear := !((List.range bs.length).any fun i => s.inProgram c ((a + i) % 0x100000))
  let keep (b : Nat) : Bool := mesh || !(x.meshWr.any fun (r, q, o) => r == x.rc && decide (q ≤ b) && decide (b < q + o.length))
  let runs := if clear then [(a % 0x100000, bs)]
    else (runsWhere (fun b => !s.inProgram c (b % 0x100000)) (a % 0x100000) bs)
  let s := runs.foldl (fun s (q, r) =>
    let x := s.cell c
    let x := if mesh then x.meshWrite q r
      else if x.meshWr = [] then x.writeStore q r
      else (runsWhere (fun b => keep (b % 0x100000)) q r).foldl (fun x (q, r) => x.writeStore q r) x
    (s.setCell c x).digestStore c step frame q r) s
  if clear then s else s.cellFault c 0x0406 slot resNone pc

/-- What an issued operation writes when it lands (R104). -/
def Lanorun.landWrite (s : Lanorun) (c : Nat) (f : Flight) : Lanorun :=
  match f.w with
  | .none => s
  | .sreg r v => s.setCell c ((s.cell c).setS r v)
  | .preg p v => s.setCell c ((s.cell c).setP p v)
  | .vreg r vs => s.setCell c ((s.cell c).setV r vs)
  | .coffer a bs => s.setCell c ((s.cell c).writeCoffer a bs)
  | .store a bs => s.planStore c f.step f.frame a bs false f.slot f.pc
  | .bank b v => s.setCell c (if b = 0 then { s.cell c with bank0 := v } else { s.cell c with bank1 := v })
  | .tally t n => s.tallyAdd c t n f.slot f.pc
  | .escape => s.cellFault c 0x0503 f.slot f.res f.pc

/-- Lands, in landing and then slot order, every operation due by rc. The list is kept in that order. -/
def Lanorun.landAll (s : Lanorun) (c rc : Nat) : Lanorun :=
  let x := s.cell c
  let due := x.flights.filter (·.due ≤ rc)
  if due = [] then s
  else due.foldl (fun s f => s.landWrite c f) (s.setCell c { x with flights := x.flights.filter (rc < ·.due) })

/-- Inserts an operation in landing order, then slot order, then issue order (R105). -/
def insFlight (f : Flight) : List Flight → List Flight
  | [] => [f]
  | g :: t => if f.due < g.due ∨ (f.due = g.due ∧ f.slot < g.slot) then f :: g :: t else g :: insFlight f t

/-- An uncorrectable error or a read of poisoned data (R517). -/
def Lanorun.cellUe (s : Lanorun) (c slot pc : Nat) : Lanorun :=
  let s := (s.countErr R.CEL_UE_CNT 1 c)
  let s := s.setCell c { s.cell c with ueAt := (s.frame :: (s.cell c).ueAt).take 256 }
  s.cellFault c 0x1102 slot resNone pc

/-- The memory errors found in an rc: a corrected one is counted, an uncorrectable one poisons its granule or word
(R516, R517). -/
def Lanorun.memErrs (s : Lanorun) (c : Nat) (es : List MemErr) : Lanorun :=
  es.foldl (fun s e =>
    if e.ue then s.setCell c { s.cell c with poison := e.code :: (s.cell c).poison.filter (· ≠ e.code) }
    else (s.countErr R.CEL_CE_CNT 1 c).event F.DBG_EVENT_CELL_CE) s

/-- Step entry: registers, banks, tallies and every guard record are cleared; the memories and the tail-chain
configuration stay (R103). Writes to the memories that have not landed, and the escapes that R173 still has to find, keep
their time; the results that the last bundle of a step would write to registers after the entry are dropped (DEDUCED, log
entry 92). -/
def Cell.stepEntry (x : Cell) (entry : Nat) : Cell :=
  { x with sregs := [], preds := [], vregs := [], bank0 := {}, bank1 := {}, tallies := [], lastMma := none, cframe := 0,
           ready := [], free := [], busy := [], pend := [], reads := [],
           flights := (x.flights.filter fun f => match f.w with
             | .store .. => true
             | .coffer .. => true
             | .escape => true
             | _ => false).map fun f => { f with due := f.due - x.rc },
           poison := x.poison.filter (· < 0x20000), delay := none, delayLeft := 0, idle := 0, stall := 0,
           fetched := false, meshWr := [], rc := 0, frc := 0, pc := entry }

/-- The step whose frame a cell runs, 0 where no tenancy runs it: its tenancy's present step, or the one before in a cell that
the Bell of a new step has found short of its end-of-frame sync (R31, R90, R116). -/
def Lanorun.cellStep (s : Lanorun) (c : Nat) : Nat :=
  match s.tenOfCell c with
  | some t =>
    let x := s.ten t
    if (s.cell c).late ∧ x.running ∧ x.frameIn = 0 ∧ x.startStep < x.step then x.step - 1 else x.step
  | none => 0

/-- The cell's next delivered rc edge before the next Bell, as a position of its cell frame (R57, R58, R122). -/
def Lanorun.cellEdge (s : Lanorun) (c : Nat) : Option Nat :=
  let x := s.cell c
  let g := s.rgn (regionOf c)
  let b := s.budget (regionOf c)
  let q := g.nextEdge 64 (x.pos - x.base)
  if q < b then some (x.base + q) else none

/-- The first fc edge, counted from hall frame 0, at or after the cell's present rc edge (R60). -/
def Lanorun.cellFc (s : Lanorun) (c : Nat) : Nat :=
  let x := s.cell c
  6250 * s.frame + ceilDiv (6250 * (x.pos - x.base)) (s.budget (regionOf c))

/-- The entries whose transfer has begun give up the bytes of their rate in every fc, and leave the send queue with their last byte (R129). -/
def Cell.drainSends (x : Cell) (fc : Nat) : Cell :=
  if x.sendq = [] then x
  else { x with sendq := x.sendq.filterMap fun e => match e.start with
      | none => some e
      | some f =>
        let left := fieldAt e.desc 8 4 - e.rate * (fc - f)
        if left = 0 then none else some { e with left := left } }

/-- The cell's rc at position p ends: STEP_RC and the frame position move on. -/
def Lanorun.rcEnd (s : Lanorun) (c p : Nat) : Lanorun :=
  let x := s.cell c
  let r := regionOf c
  let q := p - x.base
  let s := s.setCell c { x with rc := x.rc + 1, frc := x.frc + 1, pos := p + 1 }
  if (s.rgn r).pos < q + 1 then s.setRgn r { s.rgn r with pos := q + 1 } else s

end Sys2Proof.Machine
end

