-- ==== Sys2Proof/Machine/Guard.lean ====
section
/-! DEFINITION. The timing guard: what an operation reads, writes and occupies, the check of a bundle and the records that
its issue sets (R131 to R135, R201, R213). -/
namespace Sys2Proof.Machine

/-- What an operation asks of the guard. Offsets count rc from its issue. -/
structure Foot where
  srcs : List Nat := []                  -- resources read at issue
  dsts : List (Nat × Nat × Nat) := []    -- resource, offset of the ORDER check, offset of READY
  units : List (Nat × Nat) := []         -- unit or port and its occupancy
  frees : List (Nat × Nat) := []         -- resource and offset of the last rc that reads it
  load : Option (Nat × Nat) := none      -- cell-store bytes that an L-slot load reads: address, length
  stores : List (Nat × Nat × Nat) := []  -- cell-store bytes written: address, length, landing offset
  tstore : Bool := false                 -- a T-slot store: checked against queued SENDs
  send : Bool := false                   -- needs a send-queue entry
  chain : Option (Nat × Bool) := none    -- a bank that R152 may forward, and its mode
  engine : Option (Nat × Bool) := none   -- an M.MMA-class operation: its bank and mode
  deriving DecidableEq, Repr

/-- The sources that a predicate, a scalar and a vector register make: s0 and p0 are none. -/
def srcS (r : Nat) : List Nat := if r = 0 then [] else [resS r]
def srcP (pr : Nat) : List Nat := if pr % 8 = 0 then [] else [resP (pr % 8)]
/-- The guarded lines among line numbers: those above 255 do not exist. -/
def srcLines (ls : List Nat) : List Nat := (ls.filter (· < 256)).map resLine

/-- The 256-byte granules of the cell store that n bytes from a touch (R132). -/
def granules256 (a n : Nat) : List Nat :=
  if n = 0 then [] else (List.range ((a % 256 + n + 255) / 256)).map fun i => (a % 0x100000 / 256 + i) % 4096

/-- Two cell-store ranges meet; the first wraps modulo 2^20. -/
def rangesMeet (a n b m : Nat) : Bool :=
  let hit (p q : Nat) : Bool := decide (p < b + m) && decide (b < p + q) && decide (0 < q)
  let a := a % 0x100000
  hit a (min n (0x100000 - a)) || hit 0 (n - (0x100000 - a))

/-- A queued SEND whose data has not left the cell store reads bytes that the range meets (R133). -/
def Cell.sendMeets (x : Cell) (a n : Nat) : Bool :=
  x.sendq.any fun e => decide (0 < e.left) && rangesMeet a n (fieldAt e.desc 4 4) (fieldAt e.desc 8 4)

/-- The kinds of R134. -/
inductive StallKind where
  | raw | order | struct | mem
  deriving DecidableEq, Repr

def StallKind.code : StallKind → Nat
  | .raw => 1 | .order => 2 | .struct => 3 | .mem => 4

/-- The rc at which a chained operation may read its bank: the rc at which the engine is free where R152 forwards, else the
bank's READY. -/
def Cell.bankReady (x : Cell) (b : Nat) (mode : Bool) : Nat :=
  if x.lastMma = some (b, mode) then sget 0 x.busy resEngine else sget 0 x.ready (resBank b) - 1

/-- The resource on which an operation fails a kind at rc c, where it does (R133). -/
def Foot.fails (f : Foot) (x : Cell) (c : Nat) : StallKind → Option Nat
  | .raw =>
    match f.srcs.find? (fun r => decide (c + 1 < sget 0 x.ready r)) with
    | some r => some r
    | none =>
      match f.chain with
      | some (b, m) => if c < x.bankReady b m then some (resBank b) else none
      | none => none
  | .order =>
    (f.dsts.find? (fun (r, o, _) =>
      decide (c + o < sget 0 x.free r) ||
      (match f.chain with
       | some (b, m) =>
         if r = resBank b ∧ x.lastMma = some (b, m) then decide (c + o < sget 0 x.busy resEngine)
         else decide (c + o < sget 0 x.ready r)
       | none => decide (c + o < sget 0 x.ready r)))).map (·.1)
  | .struct =>
    match f.units.find? (fun (u, _) => decide (c < sget 0 x.busy u)) with
    | some (u, _) => some u
    | none => if f.send ∧ 8 ≤ x.sendq.length then some resSendq else none
  | .mem =>
    match f.load with
    | some (a, n) => if (granules256 a n).any (fun g => decide (c < sget 0 x.pend g)) then some resPend else none
    | none =>
      if f.tstore ∧ f.stores.any (fun (a, n, _) => x.sendMeets a n) then some resSendSrc else none

/-- The first failure of a kind among the operations in slot order: the resource and the slot. -/
def firstFail (fs : List (Nat × Foot)) (x : Cell) (c : Nat) (k : StallKind) : Option (Nat × Nat) :=
  match fs with
  | [] => none
  | (slot, f) :: t =>
    match f.fails x c k with
    | some r => some (r, slot)
    | none => firstFail t x c k

/-- The resource that an EFS waits for: the destination of the pending operation that lands last (R134). -/
def Cell.lastLanding (x : Cell) (c : Nat) : Option Nat :=
  match (x.flights.filter (c < ·.due)).getLast? with
  | some f => some f.res
  | none => none

/-- The guard's verdict on a bundle at rc c: the kind, resource and slot of its stall, or none where it passes; a bundle
with an EFS also waits for every landing, as kind ORDER (R133, R134). -/
def guardCheck (fs : List (Nat × Foot)) (efs : Bool) (x : Cell) (c : Nat) : Option (StallKind × Nat × Nat) :=
  match firstFail fs x c .raw with
  | some (r, sl) => some (.raw, r, sl)
  | none =>
    match (if efs then x.lastLanding c else none) with
    | some r => some (.order, r, 5)
    | none =>
      match firstFail fs x c .order with
      | some (r, sl) => some (.order, r, sl)
      | none =>
        match firstFail fs x c .struct with
        | some (r, sl) => some (.struct, r, sl)
        | none =>
          match firstFail fs x c .mem with
          | some (r, sl) => some (.mem, r, sl)
          | none => none

/-- Raises the entry of a record list to v. -/
def setMax (l : List (Nat × Nat)) (r v : Nat) : List (Nat × Nat) := sset 0 l r (max v (sget 0 l r))

/-- The records that an operation's issue at rc c sets (R133). -/
def Cell.record (x : Cell) (f : Foot) (c : Nat) : Cell :=
  { x with
    ready := f.dsts.foldl (fun l (r, _, o) => setMax l r (c + o + 1)) x.ready
    free := f.frees.foldl (fun l (r, o) => setMax l r (c + o + 1)) x.free
    busy := f.units.foldl (fun l (u, o) => setMax l u (c + o)) x.busy
    pend := f.stores.foldl (fun l (a, n, o) => (granules256 a n).foldl (fun l g => setMax l g (c + o)) l)
      (x.pend.filter fun e => c < e.2)
    lastMma := match f.engine with
      | some e => some e
      | none => x.lastMma }

/-- An operation as its slot issues it: its guard footprint, a fault that takes its effect, its writes in flight, its
scheduled coffer reads (port, line, offset), and what else it does at issue. -/
structure OpPlan where
  foot : Foot := {}
  fault : Option (Nat × Nat) := none           -- code and resource
  flights : List (Nat × Nat × Write) := []     -- landing offset, destination resource, write
  reads : List (Nat × Nat × Nat) := []
  post : Lanorun → Lanorun := id
  mslot : Nat := 0                             -- the mesh schedule entry that a SEND names

/-- Issues an operation of a slot in the cell's present rc: its records and its landings, with its effect unless it faults
(R104, R106). -/
def Lanorun.issueOp (s : Lanorun) (c slot : Nat) (p : OpPlan) : Lanorun :=
  let x := s.cell c
  let x := x.record p.foot x.rc
  let step := s.cellStep c
  let fl := p.flights.foldl (fun l (o, res, w) =>
    insFlight { due := x.rc + o, slot := slot, res := res, step := step, frame := x.cframe, pc := x.pc, w := w } l) x.flights
  let rd := p.reads.filter (fun r => r.2.1 < 256)
  let x := { x with flights := fl,
                    reads := x.reads ++ rd.map fun (port, line, o) =>
                      { due := x.rc + o, port := port, line := line, pc := x.pc } }
  p.post (s.setCell c x)

/-- An operation's fault; a SEND's MESH_ROUTE is recorded in MOD_MESH_LAST as well (R139, R355). -/
def Lanorun.opFault (s : Lanorun) (c code slot res pc mslot : Nat) : Lanorun :=
  let t := s.cellFault c code slot res pc
  if code = 0x0A02 then t.meshLast mslot (blockOf c) ((s.tenOfCell c).getD 0) code (s.cellFc c % 6250) else t

/-- One operation as a command: a fault stops the cell with none of the operation's effects; else it issues. -/
def Lanorun.runOp (s : Lanorun) (c slot : Nat) (p : OpPlan) : Lanorun :=
  match p.fault with
  | some (code, res) => s.opFault c code slot res (s.cell c).pc p.mslot
  | none => s.issueOp c slot p

end Sys2Proof.Machine
end

