-- ==== Sys2Proof/Machine/Elementary.lean ====
section
/-! DEFINITION. Where the values of the special functions lie: brackets of e^x, 2^x, ln x, log2 x and the activation functions
in fixed point, and the binary32 values within 2 ulp of them (R182, R194). -/
namespace Sys2Proof.Machine

/-- The bit length of m. -/
def bitLen (m : Nat) : Nat := if m = 0 then 0 else Nat.log2 m + 1

/-- Fixed-point numbers here count units of 2^-512. -/
def fixOne : Nat := 2 ^ 512
/-- ln 2, rounded toward zero. -/
def ln2Fix : Nat := 0xb17217f7d1cf79abc9e3b39803f2f6af40f343267298b62d8a0d175b8baafa2be7b876206debac98559552fb4afa1b10ed2eae35c138214427573b291169b825
/-- 1 ÷ √(2π). -/
def rsqrt2PiFix : Nat := 0x662114cf50d942343f2cf1402eae38bfd3829f30512706d8c0471b4802639d2e9df8ac55447d3db723f5d3abb374e88deb14277970be1513278e993445f08cff
/-- √(2 ÷ π). -/
def sqrt2DivPiFix : Nat := 0xcc42299ea1b284687e59e2805d5c717fa7053e60a24e0db1808e369004c73a5d3bf158aa88fa7b6e47eba75766e9d11bd6284ef2e17c2a264f1d32688be119ff
/-- More than the rounding errors of any of the sums below, in units. -/
def fixSlack : Nat := 2 ^ 24

/-- A number known to lie from lo to hi times 2^ex, with a sign. -/
structure Bracket where
  neg : Bool
  lo : Nat
  hi : Nat
  ex : Int
  deriving DecidableEq, Repr

/-- A bracket around a fixed-point result. -/
def around (neg : Bool) (v : Nat) : Bracket := ⟨neg, v - fixSlack, v + fixSlack, -512⟩

/-- The sum of r^n ÷ n! from term t of number n on. -/
def expSeries : Nat → Nat → Nat → Nat → Nat
  | 0, _, _, _ => 0
  | k + 1, n, t, r => t + expSeries k (n + 1) (t * r / fixOne / (n + 1)) r

/-- e^r for r from 0 to ln 2. -/
def expUnit (r : Nat) : Nat := expSeries 110 0 fixOne r

/-- e^-x as a fixed-point number times 2^-k. -/
def expNeg (x : Nat) : Nat × Nat := (expUnit (ln2Fix - x % ln2Fix), x / ln2Fix + 1)

/-- The least and the largest fixed-point value that e^-x can have; from x = 300 on it lies below 2^-400. -/
def expNegFix (x : Nat) : Nat × Nat :=
  if 300 * fixOne ≤ x then (0, 2 ^ 112)
  else
    let (m, k) := expNeg x
    ((m >>> k) - fixSlack, (m >>> k) + fixSlack)

/-- The sum of z^j ÷ j over odd j from term t of number j on. -/
def atanhSeries : Nat → Nat → Nat → Nat → Nat
  | 0, _, _, _ => 0
  | k + 1, j, t, z2 => t / j + atanhSeries k (j + 2) (t * z2 / fixOne) z2

/-- ln of (a + b) ÷ a, for b from 0 to a: twice the area tangent of b ÷ (2a + b). -/
def lnRatio (a b : Nat) : Nat :=
  let z := b * fixOne / (2 * a + b)
  2 * atanhSeries 170 1 z (z * z / fixOne)

/-- A finite binary32 magnitude m times 2^e as a fixed-point number, exact since e ≥ -149. -/
def fixOf (m : Nat) (e : Int) : Nat := m <<< (e + 512).toNat

/-- e^x. -/
def expBracket (neg : Bool) (m : Nat) (e : Int) : Bracket :=
  let x := fixOf m e
  if 300 * fixOne ≤ x then (if neg then ⟨false, 0, 1, -400⟩ else ⟨false, 1, 1, 400⟩)
  else if neg then
    let (v, k) := expNeg x
    ⟨false, v - fixSlack, v + fixSlack, -512 - (k : Int)⟩
  else
    let v := expUnit (x % ln2Fix)
    ⟨false, v - fixSlack, v + fixSlack, (x / ln2Fix : Nat) - 512⟩

/-- 2^x. -/
def exp2Bracket (neg : Bool) (m : Nat) (e : Int) : Bracket :=
  let x := fixOf m e
  if 400 * fixOne ≤ x then (if neg then ⟨false, 0, 1, -400⟩ else ⟨false, 1, 1, 400⟩)
  else
    let f := x % fixOne
    let i : Int := ((x / fixOne : Nat) : Int)
    let v := expUnit ((if neg then fixOne - f else f) * ln2Fix / fixOne)
    ⟨false, v - fixSlack, v + fixSlack, (if neg then -(i + 1) else i) - 512⟩

/-- ln of m times 2^e as a signed fixed-point number. -/
def lnFix (m : Nat) (e : Int) : Int :=
  let p := 2 ^ (bitLen m - 1)
  (lnRatio p (m - p) : Int) + (e + (bitLen m : Int) - 1) * (ln2Fix : Int)

def lnBracket (m : Nat) (e : Int) : Bracket := around (decide (lnFix m e < 0)) (lnFix m e).natAbs
def log2Bracket (m : Nat) (e : Int) : Bracket :=
  around (decide (lnFix m e < 0)) ((lnFix m e).natAbs * fixOne / ln2Fix)

/-- 1 ÷ (1 + e^-v), or for a negative argument e^-v ÷ (1 + e^-v), from the bounds of e^-v. -/
def sigmoidFix (neg : Bool) (b : Nat × Nat) : Nat × Nat :=
  if neg then (b.1 * fixOne / (fixOne + b.1), b.2 * fixOne / (fixOne + b.2) + 1)
  else (fixOne * fixOne / (fixOne + b.2), fixOne * fixOne / (fixOne + b.1) + 1)

/-- m times 2^e times a fixed-point number that lies between two bounds. -/
def timesFix (neg : Bool) (m : Nat) (e : Int) (b : Nat × Nat) : Bracket := ⟨neg, m * b.1, m * b.2, e - 512⟩

def sigmoidBracket (neg : Bool) (m : Nat) (e : Int) : Bracket :=
  let (lo, hi) := sigmoidFix neg (expNegFix (fixOf m e))
  ⟨false, lo, hi, -512⟩

def siluBracket (neg : Bool) (m : Nat) (e : Int) : Bracket := timesFix neg m e (sigmoidFix neg (expNegFix (fixOf m e)))

/-- x ÷ (1 + e^-v) with v = 2 √(2/π) (x + 0.044715 x³), which is the tanh form of GELU. -/
def geluTanhBracket (neg : Bool) (m : Nat) (e : Int) : Bracket :=
  let x := fixOf m e
  let v := 2 * sqrt2DivPiFix * (x + 44715 * x * x * x / (1000000 * fixOne * fixOne)) / fixOne
  timesFix neg m e (sigmoidFix neg (if 32 * fixOne ≤ x then (0, 2 ^ 112) else expNegFix v))

/-- tanh x = (1 - e^-2x) ÷ (1 + e^-2x). -/
def tanhBracket (neg : Bool) (m : Nat) (e : Int) : Bracket :=
  if m = 0 then ⟨neg, 0, 0, -512⟩
  else
    let (lo, hi) := expNegFix (2 * fixOf m e)
    ⟨neg, (fixOne - hi) * fixOne / (fixOne + hi), (fixOne - lo) * fixOne / (fixOne + lo) + 1, -512⟩

/-- ln(1 + e^x): for x ≥ 0, x + ln(1 + e^-x). -/
def softplusBracket (neg : Bool) (m : Nat) (e : Int) : Bracket :=
  let x := fixOf m e
  let (lo, hi) := expNegFix x
  let base := if neg then 0 else x
  ⟨false, base + (lnRatio fixOne lo - fixSlack), base + lnRatio fixOne hi + fixSlack, -512⟩

/-- The sum of a^(2n+1) ÷ (1·3·…·(2n+1)) from term t of number n on, a2 being a². -/
def phiSeries : Nat → Nat → Nat → Nat → Nat
  | 0, _, _, _ => 0
  | k + 1, n, t, a2 => t + phiSeries k (n + 1) (t * a2 / fixOne / (2 * n + 3)) a2

/-- Φ(a) - 1/2 for 0 ≤ a < 16: the density at a times the series. -/
def phiHalf (a : Nat) : Nat :=
  let a2 := a * a / fixOne
  let (m, k) := expNeg (a2 / 2)
  ((m * phiSeries 640 0 a a2) >>> (512 + k)) * rsqrt2PiFix / fixOne

/-- x Φ(x); at 16 and above Φ(-x) lies below 2^-180. -/
def geluBracket (neg : Bool) (m : Nat) (e : Int) : Bracket :=
  let x := fixOf m e
  if 16 * fixOne ≤ x then (if neg then ⟨neg, 0, 1, -170⟩ else timesFix neg m e (fixOne - 2 ^ 332, fixOne))
  else
    let h := phiHalf x
    let v := if neg then fixOne / 2 - h else fixOne / 2 + h
    timesFix neg m e (v - fixSlack, v + fixSlack)

/-- The binary32 magnitude at or below m times 2^e, as its pattern; that of infinity where it overflows. -/
def floorOrd (m : Nat) (e : Int) : Nat :=
  if m = 0 then 0
  else
    let q : Int := max (e + (bitLen m : Int) - 24) (-149)
    let r := if q ≤ e then m <<< (e - q).toNat else m >>> (q - e).toNat
    min (255 * 2 ^ 23) ((q + 149).toNat * 2 ^ 23 + r)

/-- The binary32 magnitude at or above m times 2^e. -/
def ceilOrd (m : Nat) (e : Int) : Nat :=
  if m = 0 then 0
  else
    let q : Int := max (e + (bitLen m : Int) - 24) (-149)
    let r := if q ≤ e then m <<< (e - q).toNat else (m + 2 ^ (q - e).toNat - 1) >>> (q - e).toNat
    min (255 * 2 ^ 23) ((q + 149).toNat * 2 ^ 23 + r)

/-- A value within 2 ulp of a bracketed number: the binary32 values from 2 ulp below it to 2 ulp above it in magnitude, and of
these the one that a free word picks. Values on the other side of zero come with the other sign (R182). -/
def Bracket.pick (x : Bracket) (free : BitVec 32) : BitVec 32 :=
  let q : Int := max (x.ex + (bitLen x.lo : Int) - 24) (-149)
  let g := min x.ex q
  let up (n : Nat) (e : Int) : Nat := n <<< (e - g).toNat
  let two := 2 * up 1 q
  let a := up x.lo x.ex
  let top := floorOrd (up x.hi x.ex + two) g
  let bot : Int := if two ≤ a then (ceilOrd (a - two) g : Int) else -(floorOrd (two - a) g : Int)
  let o : Int := bot + ((free.toNat / 2 % ((top : Int) - bot + 1).toNat : Nat) : Int)
  if o = 0 then (if free.toNat % 2 = 1 then 0x80000000#32 else 0#32)
  else BitVec.ofNat 32 (o.natAbs + if x.neg == decide (o < 0) then 0 else 2 ^ 31)

end Sys2Proof.Machine
end

