-- ==== Sys2Proof/Machine/Fp.lean ====
section
/-! DEFINITION. Floating-point values and rounding: binary32 arithmetic (R115, R155), the element formats (R142), the
conversions (R170 to R172) and the special functions (R182, R194). -/
namespace Sys2Proof.Machine

/-- A decoded value: NaN, an infinity, or plus or minus m times 2^e. -/
inductive Fp where
  | nan
  | inf (neg : Bool)
  | fin (neg : Bool) (m : Nat) (e : Int)
  deriving DecidableEq, Repr

/-- The canonical NaN of binary32 (R115). -/
def nan32 : BitVec 32 := 0x7FC00000#32
def inf32 (neg : Bool) : BitVec 32 := if neg then 0xFF800000#32 else 0x7F800000#32
def zero32 (neg : Bool) : BitVec 32 := if neg then 0x80000000#32 else 0#32
def one32 : BitVec 32 := 0x3F800000#32

/-- m divided by 2^k, to nearest with ties to even. -/
def rneShift (m k : Nat) : Nat :=
  let q : Nat := m >>> k
  let r : Nat := m % 2 ^ k
  if k = 0 then m
  else if r > 2 ^ (k - 1) then q + 1
  else if r = 2 ^ (k - 1) then q + q % 2
  else q

/-- RNE to binary32 of plus or minus m times 2^e; m = 0 gives a zero of the sign (R155). -/
def encode32 (neg : Bool) (m : Nat) (e : Int) : BitVec 32 :=
  if m = 0 then zero32 neg
  else
    let q : Int := max (e + (bitLen m : Int) - 24) (-149)
    let r := if q ≤ e then m <<< (e - q).toNat else rneShift m (q - e).toNat
    let w := (q + 149).toNat * 2 ^ 23 + r
    if 255 * 2 ^ 23 ≤ w then inf32 neg else BitVec.ofNat 32 (w + if neg then 2 ^ 31 else 0)

/-- The value of a binary32 pattern. -/
def decode32 (b : BitVec 32) : Fp :=
  let n : Nat := b.toNat
  let neg := decide (2 ^ 31 ≤ n)
  let ex : Nat := n / 2 ^ 23 % 256
  let fr : Nat := n % 2 ^ 23
  if ex = 255 then (if fr = 0 then .inf neg else .nan)
  else if ex = 0 then .fin neg fr (-149)
  else .fin neg (2 ^ 23 + fr) ((ex : Int) - 150)

/-- RNE of a value to binary32, with the canonical NaN. -/
def Fp.round : Fp → BitVec 32
  | .nan => nan32
  | .inf s => inf32 s
  | .fin s m e => encode32 s m e

def Fp.neg : Fp → Fp
  | .nan => .nan
  | .inf s => .inf (!s)
  | .fin s m e => .fin (!s) m e

def Fp.isNan : Fp → Bool
  | .nan => true
  | _ => false

def Fp.isZero : Fp → Bool
  | .fin _ 0 _ => true
  | _ => false

/-- The signed mantissa. -/
def sgn (s : Bool) (m : Nat) : Int := if s then -(m : Int) else (m : Int)

/-- The signed sum of two dyadic values, with the lesser exponent. -/
def dyAdd (a : Int) (e : Int) (b : Int) (f : Int) : Int × Int :=
  let g := min e f
  (a * 2 ^ (e - g).toNat + b * 2 ^ (f - g).toNat, g)

/-- The exact sum; an exact zero is -0 only where both are negative zeros (IEEE 754-2019 addition under RNE). -/
def Fp.add : Fp → Fp → Fp
  | .nan, _ => .nan
  | _, .nan => .nan
  | .inf s, .inf t => if s = t then .inf s else .nan
  | .inf s, _ => .inf s
  | _, .inf t => .inf t
  | .fin s m e, .fin t n f =>
    let (v, g) := dyAdd (sgn s m) e (sgn t n) f
    if v = 0 then .fin (s && t && m == 0 && n == 0) 0 0 else .fin (decide (v < 0)) v.natAbs g

/-- The exact product (R143). -/
def Fp.mul : Fp → Fp → Fp
  | .nan, _ => .nan
  | _, .nan => .nan
  | .inf s, .inf t => .inf (s ^^ t)
  | .inf s, .fin t n _ => if n = 0 then .nan else .inf (s ^^ t)
  | .fin s m _, .inf t => if m = 0 then .nan else .inf (s ^^ t)
  | .fin s m e, .fin t n f => .fin (s ^^ t) (m * n) (e + f)

/-- Multiplies by a power of two, exactly. -/
def Fp.scale (x : Fp) (k : Int) : Fp :=
  match x with
  | .fin s m e => .fin s m (e + k)
  | y => y

/-- A total order key: -0 below +0, infinities outermost; NaN has none. -/
def key32 (b : BitVec 32) : Int :=
  let n : Nat := b.toNat
  if 2 ^ 31 ≤ n then -((n - 2 ^ 31 : Nat) : Int) - 1 else (n : Int)

def isNan32 (b : BitVec 32) : Bool := (decode32 b).isNan
def isInf32 (b : BitVec 32) : Bool := b == inf32 false || b == inf32 true
def neg32 (b : BitVec 32) : Bool := decide (2 ^ 31 ≤ b.toNat)
def isZero32 (b : BitVec 32) : Bool := b == 0#32 || b == zero32 true

def fadd (a b : BitVec 32) : BitVec 32 := ((decode32 a).add (decode32 b)).round
def fsub (a b : BitVec 32) : BitVec 32 := ((decode32 a).add (decode32 b).neg).round
def fmul (a b : BitVec 32) : BitVec 32 := ((decode32 a).mul (decode32 b)).round
/-- a times b plus c, rounded once. -/
def ffma (a b c : BitVec 32) : BitVec 32 := (((decode32 a).mul (decode32 b)).add (decode32 c)).round
/-- c less a times b, rounded once. -/
def ffnma (a b c : BitVec 32) : BitVec 32 := (((decode32 a).mul (decode32 b)).neg.add (decode32 c)).round

/-- minimumNumber: the other operand where one is NaN; -0 below +0 (R115). -/
def fminNum (a b : BitVec 32) : BitVec 32 :=
  if isNan32 a then (if isNan32 b then nan32 else b)
  else if isNan32 b then a
  else if key32 a ≤ key32 b then a else b
/-- maximumNumber (R115). -/
def fmaxNum (a b : BitVec 32) : BitVec 32 :=
  if isNan32 a then (if isNan32 b then nan32 else b)
  else if isNan32 b then a
  else if key32 a ≤ key32 b then b else a
/-- minimum: NaN where either is NaN (R181). -/
def fminimum (a b : BitVec 32) : BitVec 32 :=
  if isNan32 a || isNan32 b then nan32 else if key32 a ≤ key32 b then a else b
/-- maximum: NaN where either is NaN (R181). -/
def fmaximum (a b : BitVec 32) : BitVec 32 :=
  if isNan32 a || isNan32 b then nan32 else if key32 a ≤ key32 b then b else a

/-- FP32 equality: zeros are equal. -/
def feq (a b : BitVec 32) : Bool :=
  !isNan32 a && !isNan32 b && (a == b || (isZero32 a && isZero32 b))
/-- FP32 less-than: false on NaN, zeros equal. -/
def flt (a b : BitVec 32) : Bool :=
  !isNan32 a && !isNan32 b && !(isZero32 a && isZero32 b) && decide (key32 a < key32 b)
def fle (a b : BitVec 32) : Bool := flt a b || feq a b
def funord (a b : BitVec 32) : Bool := isNan32 a || isNan32 b

/-- FP32 from an integer, RNE. -/
def fofInt (i : Int) : BitVec 32 := encode32 (decide (i < 0)) i.natAbs 0

/-- A signed integer of w bits from FP32: to nearest with ties to even, saturating, 0 for NaN (R115). -/
def ftoInt (w : Nat) (b : BitVec 32) : Int :=
  let hi : Int := 2 ^ (w - 1) - 1
  let lo : Int := -(2 ^ (w - 1))
  match decode32 b with
  | .nan => 0
  | .inf s => if s then lo else hi
  | .fin s m e =>
    let r := if 0 ≤ e then m <<< e.toNat else rneShift m (-e).toNat
    max lo (min hi (sgn s r))

/-- The element formats of R142 by code, with FP32 as code 15 for internal use. -/
structure Fmt where
  bits : Nat
  expBits : Nat
  manBits : Nat
  bias : Int
  u : Int
  q : Int
  deriving DecidableEq, Repr

def fmtOf : Nat → Fmt
  | 0 => ⟨8, 4, 3, 7, 9, -9⟩
  | 1 => ⟨8, 5, 2, 15, 16, -16⟩
  | 2 => ⟨6, 3, 2, 3, 5, -4⟩
  | 3 => ⟨6, 2, 3, 1, 3, -3⟩
  | 4 => ⟨4, 2, 1, 1, 3, -1⟩
  | 5 => ⟨8, 0, 8, 0, 2, -6⟩
  | 6 => ⟨16, 8, 7, 127, 128, -133⟩
  | _ => ⟨16, 5, 10, 15, 16, -24⟩

/-- The value of an element's bits under format code f (R142). -/
def decodeElem (f : Nat) (n : Nat) : Fp :=
  if f = 5 then
    let i := toSigned 8 (n % 256)
    .fin (decide (i < 0)) i.natAbs (-6)
  else
    let t := fmtOf f
    let neg := n / 2 ^ (t.bits - 1) % 2 == 1
    let ex : Nat := n / 2 ^ t.manBits % 2 ^ t.expBits
    let fr : Nat := n % 2 ^ t.manBits
    if f = 0 ∧ ex = 15 ∧ fr = 7 then .nan
    else if (f = 1 ∨ f = 6 ∨ f = 7) ∧ ex = 2 ^ t.expBits - 1 then (if fr = 0 then .inf neg else .nan)
    else if ex = 0 then .fin neg fr (1 - t.bias - (t.manBits : Int))
    else .fin neg (2 ^ t.manBits + fr) ((ex : Int) - t.bias - (t.manBits : Int))

/-- The largest finite magnitude of a format as a mantissa and an exponent (R142). -/
def fmtMax : Nat → Nat × Int
  | 0 => (7, 6)
  | 1 => (7, 13)
  | 2 => (7, 2)
  | 3 => (15, -1)
  | 4 => (3, 1)
  | 6 => (255, 120)
  | _ => (2047, 5)

/-- The rounding modes of R171; sr holds the 16 random bits u. -/
inductive Rm where
  | rne
  | rtz
  | sr (u : Nat)
  deriving DecidableEq, Repr

/-- The grid exponent at m times 2^e for a precision of p bits and least quantum q0. -/
def gridExp (m : Nat) (e : Int) (p : Nat) (q0 : Int) : Int := max (e + (bitLen m : Int) - (p : Int)) q0

/-- A magnitude rounded toward zero to the grid: its mantissa and exponent. -/
def rtzGrid (m : Nat) (e : Int) (p : Nat) (q0 : Int) : Nat × Int :=
  let q := gridExp m e p q0
  (if q ≤ e then m <<< (e - q).toNat else m >>> (q - e).toNat, q)

/-- A magnitude rounded to a format's grid with no upper limit (R171). -/
def roundGrid (rm : Rm) (m : Nat) (e : Int) (p : Nat) (q0 : Int) : Nat × Int :=
  match rm with
  | .rne =>
    let q := gridExp m e p q0
    (if q ≤ e then m <<< (e - q).toNat else rneShift m (q - e).toNat, q)
  | .rtz => rtzGrid m e p q0
  | .sr u =>
    let q := gridExp m e p q0
    let (v, g) := dyAdd (m : Int) e (u : Int) (q - 16)
    rtzGrid v.toNat g p q0

/-- The canonical NaN of a target that has one (R170). -/
def elemNan : Nat → Option Nat
  | 0 => some 0x7F
  | 1 => some 0x7F
  | 6 => some 0x7FC0
  | 7 => some 0x7E00
  | _ => none

/-- The bits of a representable magnitude m times 2^e in a floating-point format. -/
def packElem (f : Nat) (neg : Bool) (m : Nat) (e : Int) : Nat :=
  let t := fmtOf f
  let q0 : Int := 1 - t.bias - (t.manBits : Int)
  let q := gridExp m e (t.manBits + 1) q0
  let r := if q ≤ e then m <<< (e - q).toNat else m >>> (q - e).toNat
  (q - q0).toNat * 2 ^ t.manBits + r + (if neg then 2 ^ (t.bits - 1) else 0)

/-- The result of a conversion: the element's bits, whether it saturated and whether a NaN was stored as zero. -/
structure Conv where
  bits : Nat
  sat : Bool
  drop : Bool
  deriving DecidableEq, Repr

/-- Conversion of a binary32 value to format f with scale exponent x (R170, R171). -/
def convert (f : Nat) (rm : Rm) (sat : Bool) (x : Int) (b : BitVec 32) : Conv :=
  let t := fmtOf f
  let sign (n : Bool) : Nat := if n then 2 ^ (t.bits - 1) else 0
  match decode32 b with
  | .nan =>
    match elemNan f with
    | some n => ⟨n, false, false⟩
    | none => ⟨0, false, true⟩
  | .inf s =>
    if f = 5 then ⟨if s then 0x80 else 0x7F, true, false⟩
    else if sat ∨ f = 2 ∨ f = 3 ∨ f = 4 then
      let (m, e) := fmtMax f
      ⟨packElem f s m e, true, false⟩
    else if f = 0 then ⟨0x7F + sign s, false, false⟩
    else ⟨(2 ^ t.expBits - 1) * 2 ^ t.manBits + sign s, false, false⟩
  | .fin s m e0 =>
    let e := e0 - x
    if f = 5 then
      let (r, q) := match rm with
        | .rne => (if (-6 : Int) ≤ e then m <<< (e + 6).toNat else rneShift m (-6 - e).toNat, (-6 : Int))
        | .rtz => (if (-6 : Int) ≤ e then m <<< (e + 6).toNat else m >>> (-6 - e).toNat, (-6 : Int))
        | .sr u =>
          let (v, g) := dyAdd (m : Int) e (u : Int) (-22)
          (if (-6 : Int) ≤ g then v.toNat <<< (g + 6).toNat else v.toNat >>> (-6 - g).toNat, (-6 : Int))
      let i := sgn s r
      let _ := q
      if i > 127 then ⟨0x7F, true, false⟩
      else if i < -128 then ⟨0x80, true, false⟩
      else ⟨ofSigned 8 i, false, false⟩
    else if m = 0 then ⟨sign s, false, false⟩
    else
      let q0 : Int := 1 - t.bias - (t.manBits : Int)
      let (r, q) := roundGrid rm m e (t.manBits + 1) q0
      let (mm, me) := fmtMax f
      let isOver := (dyAdd (r : Int) q (-(mm : Int)) me).1 > 0
      if isOver then
        if sat ∨ f = 2 ∨ f = 3 ∨ f = 4 then ⟨packElem f s mm me, true, false⟩
        else if f = 0 then ⟨0x7F + sign s, false, false⟩
        else ⟨(2 ^ t.expBits - 1) * 2 ^ t.manBits + sign s, false, false⟩
      else ⟨packElem f s r q, false, false⟩

/-- EMAX of R172. -/
def emaxOf : Nat → Int
  | 0 => 8
  | 1 => 15
  | 2 => 4
  | 3 => 2
  | 4 => 2
  | _ => 0

/-- The largest finite magnitude of a block, as a binary32 pattern. -/
def amaxBits : List (BitVec 32) → Nat
  | [] => 0
  | b :: t =>
    let n := b.toNat % 2 ^ 31
    if n < 255 * 2 ^ 23 then max n (amaxBits t) else amaxBits t

/-- The scale byte of a block (R172). -/
def blockScale (f : Nat) (block : List (BitVec 32)) : Nat :=
  if block.any isNan32 then 0xFF
  else
    match decode32 (BitVec.ofNat 32 (amaxBits block)) with
    | .fin _ m e =>
      if m = 0 then 0
      else (max (-127) (min 127 (e + (bitLen m : Int) - 1 - emaxOf f)) + 127).toNat
    | _ => 0

/-- Toward-zero binary32 of a positive rational n over d times 2^e, and its neighbour above: the exact value lies between
them. -/
def ratio32 (neg : Bool) (n d : Nat) (e : Int) (up : Bool) : BitVec 32 :=
  let sh := 64 + bitLen d
  let k := (n <<< sh) / d
  let inexact := (n <<< sh) % d != 0
  let ek : Int := e - (sh : Int)
  let q : Int := max (ek + (bitLen k : Int) - 24) (-149)
  let r := if q ≤ ek then k <<< (ek - q).toNat else k >>> (q - ek).toNat
  let lost := inexact || decide (ek < q ∧ k % 2 ^ (q - ek).toNat ≠ 0)
  let r := if lost && up then r + 1 else r
  let w := (q + 149).toNat * 2 ^ 23 + r
  if 255 * 2 ^ 23 ≤ w then inf32 neg else BitVec.ofNat 32 (w + if neg then 2 ^ 31 else 0)

/-- Bit 0 of the free value of special function k: which of two neighbours it takes. -/
def freeUp (k : Nat) (b : BitVec 32) : Bool := (Config.special k b).getLsbD 0

/-- VRCP: exact where 1/x is, else one of the two neighbours of 1/x, each within 1 ulp (R182). -/
def rcp (b : BitVec 32) : BitVec 32 :=
  match decode32 b with
  | .nan => nan32
  | .inf s => zero32 s
  | .fin s m e => if m = 0 then inf32 s else ratio32 s 1 m (-e) (freeUp 0 b)

/-- VRSQRT: exact where it can be, else one of the two neighbours (R182). -/
def rsqrt (b : BitVec 32) : BitVec 32 :=
  match decode32 b with
  | .nan => nan32
  | .inf s => if s then nan32 else zero32 false
  | .fin s m e =>
    if m = 0 then inf32 s
    else if s then nan32
    else
      -- 1/√(m·2^e) with e made even: √(2^(2k)/m') / 2^(k + e'/2)
      let (m, e) := if e % 2 = 0 then (m, e) else (2 * m, e - 1)
      let k := 40 + bitLen m
      let t := 2 ^ (2 * k) / m
      let r := Nat.sqrt t
      let exact := r * r * m = 2 ^ (2 * k)
      if exact then encode32 false r (-(k : Int) - e / 2)
      else ratio32 false (2 * r + 1) 2 (-(k : Int) - e / 2) (freeUp 1 b)

/-- The value is an integer power-of-two argument: its integer, where it is one. -/
def asInt32 (b : BitVec 32) : Option Int :=
  match decode32 b with
  | .fin s m e =>
    if 0 ≤ e then (if e ≤ 16 then some (sgn s (m <<< e.toNat)) else none)
    else if m % 2 ^ (-e).toNat = 0 then some (sgn s (m >>> (-e).toNat)) else none
  | _ => none

/-- A special function at an ordinary input: a value within 2 ulp of the exact one (R182, R194). -/
def Bracket.free (x : Bracket) (k : Nat) (b : BitVec 32) : BitVec 32 := x.pick (Config.special k b)

/-- VEXP (R182); it overflows where the exact value rounds to infinity. -/
def fexp (b : BitVec 32) : BitVec 32 :=
  match decode32 b with
  | .nan => nan32
  | .inf s => if s then zero32 false else inf32 false
  | .fin s m e =>
    if m = 0 then one32
    else
      let x := expBracket s m e
      if encode32 false x.lo x.ex = inf32 false then inf32 false else x.free 2 b

/-- VEXP2 (R182): exact at an integer where the result is representable. -/
def fexp2 (b : BitVec 32) : BitVec 32 :=
  match decode32 b with
  | .nan => nan32
  | .inf s => if s then zero32 false else inf32 false
  | .fin s m e =>
    if m = 0 then one32
    else
      let x := exp2Bracket s m e
      if encode32 false x.lo x.ex = inf32 false then inf32 false
      else match asInt32 b with
        | some i => if -149 ≤ i then encode32 false 1 i else x.free 3 b
        | none => x.free 3 b

/-- VLOG (R182). -/
def flog (b : BitVec 32) : BitVec 32 :=
  match decode32 b with
  | .nan => nan32
  | .inf s => if s then nan32 else inf32 false
  | .fin s m e =>
    if m = 0 then inf32 true
    else if s then nan32
    else if b = one32 then zero32 false
    else (lnBracket m e).free 4 b

/-- VLOG2 (R182): exact at powers of two. -/
def flog2 (b : BitVec 32) : BitVec 32 :=
  match decode32 b with
  | .nan => nan32
  | .inf s => if s then nan32 else inf32 false
  | .fin s m e =>
    if m = 0 then inf32 true
    else if s then nan32
    else if m = 2 ^ Nat.log2 m then fofInt ((Nat.log2 m : Int) + e)
    else (log2Bracket m e).free 5 b

/-- BF16 bits as binary32, exactly. -/
def bf16 (n : Nat) : BitVec 32 := BitVec.ofNat 32 (n % 65536 * 65536)

/-- RELU: max(x, +0), with -0 giving +0 (R194). -/
def relu (b : BitVec 32) : BitVec 32 := if isNan32 b then nan32 else if neg32 b then zero32 false else b

/-- A piecewise-linear table: breakpoints and slope-intercept pairs in BF16 (R195). -/
def pwl (segs : Nat) (bps : List Nat) (pairs : List (Nat × Nat)) (x : BitVec 32) : BitVec 32 :=
  if isNan32 x then nan32
  else
    let j := ((bps.take (segs - 1)).filter (fun p => fle (bf16 p) x)).length
    let (sl, ic) := listGet (0, 0) pairs j
    if isZero32 (bf16 sl) then bf16 ic
    else if isInf32 x then (fmul (bf16 sl) x)
    else ffma (bf16 sl) x (bf16 ic)

/-- An activation function by its values at -inf and +inf and its brackets elsewhere (R194). -/
def curve (k : Nat) (atNeg atPos : BitVec 32) (f : Bool → Nat → Int → Bracket) (x : BitVec 32) : BitVec 32 :=
  match decode32 x with
  | .nan => nan32
  | .inf s => if s then atNeg else atPos
  | .fin s m e => (f s m e).free k x

/-- The activation functions of R194 but TABLE: FUNC, BOUND in BF16, and the input. -/
def activation (func bound : Nat) (x : BitVec 32) : BitVec 32 :=
  if isNan32 x then nan32
  else
    match func with
    | 0 => x
    | 1 => relu x
    | 2 => curve 6 (zero32 false) x geluBracket x
    | 3 => curve 7 (zero32 false) x geluTanhBracket x
    | 4 => curve 8 (zero32 false) x siluBracket x
    | 5 => curve 9 (zero32 false) one32 sigmoidBracket x
    | 6 => curve 10 (fofInt (-1)) one32 tanhBracket x
    | 7 => curve 11 (zero32 false) x softplusBracket x
    | 8 => fexp x
    | 9 => fmul (relu x) (relu x)
    | 10 =>
      let hi := bf16 bound
      let lo := bf16 (bound + 32768)
      fminNum (fmaxNum x lo) hi
    | _ => x

/-- The tree sum of R181 over a list whose length is a power of two. -/
def treeSum (add : BitVec 32 → BitVec 32 → BitVec 32) : Nat → List (BitVec 32) → BitVec 32
  | 0, v => v.headD 0#32
  | n + 1, v =>
    let w := 2 ^ n
    treeSum add n (List.zipWith add (v.take w) (v.drop w))

/-- Six levels: 64 lanes. -/
def tree64 (add : BitVec 32 → BitVec 32 → BitVec 32) (v : List (BitVec 32)) : BitVec 32 := treeSum add 6 v

end Sys2Proof.Machine
end

