-- ==== Sys2Proof/Machine/Operands.lean ====
section
/-! DEFINITION. The bundle and its slot bodies: fields, operations and reserved encodings (R107 to R117, R130, R145 to
R147, R166 to R169, R177 to R184, R211 to R213). -/
namespace Sys2Proof.Machine

/-- Scalar-slot operations (R114). -/
inductive SKind where
  | add | sub | and | or | xor | sll | srl | sra | min | max | minu | maxu | mul | mulhu
  | addi | andi | ori | xori | slli | srli | srai
  | cmpEq | cmpNe | cmpLt | cmpGe | cmpLtu | cmpGeu | cmpeqi | cmplti | cmpgei | cmpltui
  | plogAnd | plogOr | plogXor | plogAndn
  | fadd | fsub | fmul | fmin | fmax | fcvtfi | fcvtif | mfs | b | bal | jr | jalr
  deriving DecidableEq, Repr

/-- Vector-slot operations (R180). -/
inductive VKind where
  | viadd | visub | vand | vor | vxor | vimin | vimax | vsll | vsrl | vsra | vimul | vmov | vsel | vmovm
  | vicmpEq | vicmpNe | vicmpLt | vicmpLtu | vfcmpEq | vfcmpLt | vfcmpLe | vfcmpUn
  | vfadd | vfsub | vfmul | vfmin | vfmax | vfma | vfnma | vfabs | vfneg | vcvtfi | vcvtif
  | vpack | vunpk | vmxsc | vperm | vrot | vbcl | vexp | vexp2 | vlog | vlog2 | vrcp | vrsqrt
  | vrsum | vrmax | vrmin | vrisum | vrmsk | vstat | vsmxp | vlse | vpmrg | vonrm | vnrmf
  | vslli | vsrli | vsrai | vmovmi | vrng | vscl2 | vclampi
  deriving DecidableEq, Repr

/-- Matrix-slot operations (R145). -/
inductive MKind where
  | mma | drain | drainl | mladd | binit
  deriving DecidableEq, Repr

/-- Load-slot operations (R212). -/
inductive LKind where
  | ldv | lds | ldw | ldc
  deriving DecidableEq, Repr

/-- Store-slot operations (R212). -/
inductive TKind where
  | stv | sts | stw | stc
  deriving DecidableEq, Repr

/-- Sync-slot operations (R130). -/
inductive YKind where
  | waitpos | efs | twait | tadd | ttest | send
  deriving DecidableEq, Repr

/-- PRED of a 32-bit body (R111, R130) and of a 64-bit body (R146, R177, R211). -/
def pred32 (b : Nat) : Nat := bitsOf b 25 22
def pred64 (b : Nat) : Nat := bitsOf b 57 54

def sOpc (b : Nat) : Nat := bitsOf b 31 26
def sRd (b : Nat) : Nat := bitsOf b 21 17
def sRa (b : Nat) : Nat := bitsOf b 16 12
def sRb (b : Nat) : Nat := bitsOf b 11 7
def sFn (b : Nat) : Nat := bitsOf b 6 0
def sImm12 (b : Nat) : Nat := bitsOf b 11 0

/-- The SI immediate: IMM sign-extended, or the LIMM extension sign-extended (R113). -/
def sImm (b : Nat) (ext : Option Nat) : BitVec 64 :=
  match ext with
  | some e => (BitVec.ofNat 32 e).signExtend 64
  | none => (BitVec.ofNat 12 (sImm12 b)).signExtend 64

/-- The register-format kinds by OPC and FN (R114). -/
def sKindSr (opc fn : Nat) : Option SKind :=
  if opc = 1 then
    [SKind.add, .sub, .and, .or, .xor, .sll, .srl, .sra, .min, .max, .minu, .maxu, .mul, .mulhu][fn]?
  else if opc = 9 then [SKind.cmpEq, .cmpNe, .cmpLt, .cmpGe, .cmpLtu, .cmpGeu][fn]?
  else if opc = 0xE then [SKind.plogAnd, .plogOr, .plogXor, .plogAndn][fn]?
  else if opc = 0x10 then [SKind.fadd, .fsub, .fmul, .fmin, .fmax, .fcvtfi, .fcvtif][fn]?
  else none

/-- The kinds named by OPC alone (R114). -/
def sKindOpc : Nat → Option SKind
  | 2 => some .addi
  | 3 => some .andi
  | 4 => some .ori
  | 5 => some .xori
  | 6 => some .slli
  | 7 => some .srli
  | 8 => some .srai
  | 0xA => some .cmpeqi
  | 0xB => some .cmplti
  | 0xC => some .cmpgei
  | 0xD => some .cmpltui
  | 0x14 => some .mfs
  | 0x18 => some .b
  | 0x19 => some .bal
  | 0x1A => some .jr
  | 0x1B => some .jalr
  | _ => none

def SKind.isCmp : SKind → Bool
  | .cmpEq | .cmpNe | .cmpLt | .cmpGe | .cmpLtu | .cmpGeu | .cmpeqi | .cmplti | .cmpgei | .cmpltui => true
  | _ => false
def SKind.isPlog : SKind → Bool
  | .plogAnd | .plogOr | .plogXor | .plogAndn => true
  | _ => false
def SKind.isBranch : SKind → Bool
  | .b | .bal | .jr | .jalr => true
  | _ => false
def SKind.isShiftImm : SKind → Bool
  | .slli | .srli | .srai => true
  | _ => false
/-- LIMM may accompany it (R113). -/
def SKind.limm : SKind → Bool
  | .addi | .andi | .ori | .xori | .slli | .srli | .srai | .cmpeqi | .cmplti | .cmpgei | .cmpltui => true
  | _ => false

/-- The operation of an S body with its extension; none for an undefined or reserved encoding (R110, R111, R113, R114). A
register field that an operation of the table does not use, RB of FCVTFI and FCVTIF and RA of MFS, may hold any value, since
R114 asks zero of JR and JALR alone (DESIGN CHOICE, log entry 93). -/
def decodeS (b : Nat) (ext : Option Nat) : Option SKind :=
  let opc := sOpc b
  match (if opc = 1 ∨ opc = 9 ∨ opc = 0xE ∨ opc = 0x10 then sKindSr opc (sFn b) else sKindOpc opc) with
  | none => none
  | some k =>
    let bad :=
      (k.isCmp && sRd b / 8 != 0) || (k.isPlog && (sRd b / 8 != 0 || sRa b / 8 != 0 || sRb b / 8 != 0)) ||
      ((k == .jr || k == .jalr) && (sRb b != 0 || sFn b != 0)) || (k == .jr && sRd b != 0) ||
      (match ext with
       | some e => !k.limm || sImm12 b != 0 || (k.isShiftImm && e / 64 != 0)
       | none => k.isShiftImm && sImm12 b / 64 != 0)
    if bad then none else some k

/-- Branch offsets in bytes: OFFSET × 4 of B, and the 17-bit OFFSET of BAL (R111, R114). -/
def branchOffset (k : SKind) (b : Nat) : Int :=
  if k = .bal then 4 * toSigned 17 (bitsOf b 16 0) else 4 * toSigned 22 (bitsOf b 21 0)

def vOpc (b : Nat) : Nat := bitsOf b 63 58
def vVd (b : Nat) : Nat := bitsOf b 53 49
def vVa (b : Nat) : Nat := bitsOf b 48 44
def vVb (b : Nat) : Nat := bitsOf b 43 39
def vVc (b : Nat) : Nat := bitsOf b 38 34
def vBmode (b : Nat) : Nat := bitsOf b 33 32
def vCline (b : Nat) : Nat := bitsOf b 31 24
def vFn (b : Nat) : Nat := bitsOf b 23 16
def vRow (b : Nat) : Nat := bitsOf b 15 12
def vImm (b : Nat) : Nat := bitsOf b 31 0

/-- The register-format kind of OPC and FN (R180, R181). -/
def vKindVr (opc fn : Nat) : Option VKind :=
  match opc with
  | 0x01 => [VKind.viadd, .visub, .vand, .vor, .vxor, .vimin, .vimax, .vsll, .vsrl, .vsra, .vimul][fn]?
  | 0x02 => if fn = 0 then some .vmov else none
  | 0x03 => if fn = 0 then some .vsel else none
  | 0x04 => if fn = 0 then some .vmovm else none
  | 0x05 => [VKind.vicmpEq, .vicmpNe, .vicmpLt, .vicmpLtu][fn]?
  | 0x06 => [VKind.vfcmpEq, .vfcmpLt, .vfcmpLe, .vfcmpUn][fn]?
  | 0x08 => [VKind.vfadd, .vfsub, .vfmul, .vfmin, .vfmax, .vfma, .vfnma, .vfabs, .vfneg, .vcvtfi, .vcvtif][fn]?
  | 0x09 => some .vpack
  | 0x0A => some .vunpk
  | 0x0B => some .vmxsc
  | 0x0C => if fn = 0 then some .vperm else none
  | 0x0D => if fn = 0 then some .vrot else none
  | 0x0E => if fn = 0 then some .vbcl else none
  | 0x10 => [VKind.vexp, .vexp2, .vlog, .vlog2, .vrcp, .vrsqrt][fn]?
  | 0x11 => if fn / 8 % 16 = 0 then [VKind.vrsum, .vrmax, .vrmin, .vrisum, .vrmsk][fn % 8]? else none
  | 0x12 => some .vstat
  | 0x13 => if fn = 0 then some .vsmxp else none
  | 0x14 => if fn = 0 then some .vlse else none
  | 0x15 => if fn = 0 then some .vpmrg else none
  | 0x16 => if fn = 0 then some .vonrm else none
  | 0x17 => if fn ≤ 1 then some .vnrmf else none
  | _ => none

def vKindVi : Nat → Option VKind
  | 0x20 => some .vslli
  | 0x21 => some .vsrli
  | 0x22 => some .vsrai
  | 0x23 => some .vmovmi
  | 0x24 => some .vrng
  | 0x25 => some .vscl2
  | 0x26 => some .vclampi
  | _ => none

def VKind.isVi : VKind → Bool
  | .vslli | .vsrli | .vsrai | .vmovmi | .vrng | .vscl2 | .vclampi => true
  | _ => false

/-- The operation reads operand B (R178). -/
def VKind.readsB : VKind → Bool
  | .vrsum | .vrmax | .vrmin | .vrisum | .vrmsk | .vmxsc | .vlse | .vexp | .vexp2 | .vlog | .vlog2 | .vrcp | .vrsqrt
  | .vfabs | .vfneg | .vcvtfi | .vcvtif => false
  | k => !k.isVi

/-- The operation reads vVA. -/
def VKind.readsA : VKind → Bool
  | .vmov | .vmovm => false
  | _ => true

/-- The entry names vc, a vector register. -/
def VKind.namesVc : VKind → Bool
  | .vsel | .vfma | .vfnma | .vpack => true
  | _ => false

/-- The entry names a ROW (R183, R186, R187, R190). -/
def VKind.namesRow : VKind → Bool
  | .vpack | .vunpk | .vstat | .vsmxp | .vpmrg | .vonrm | .vnrmf => true
  | _ => false

/-- The largest POS of a format in a register (R183). -/
def posMax (fmt : Nat) : Nat :=
  match fmt with
  | 2 | 3 => 4
  | 4 => 7
  | 6 | 7 => 1
  | _ => 3

def isBf16Nan (n : Nat) : Bool := isNan32 (bf16 n)

/-- The operation of a V body; none for an undefined or reserved encoding (R177 to R184). -/
def decodeV (b : Nat) : Option VKind :=
  let opc := vOpc b
  let fn := vFn b
  let row := vRow b
  if opc < 0x20 then
    match vKindVr opc fn with
    | none => none
    | some k =>
      let bm := vBmode b
      let bad :=
        bitsOf b 11 0 != 0 || bm == 3 || (bm != 2 && vCline b != 0) || (bm == 2 && vVb b != 0) ||
        (!k.readsB && (bm != 0 || vVb b != 0)) ||
        (!k.namesVc && k != .vmovm && vVc b != 0) ||
        (!k.namesRow && row != 0) ||
        (match k with
         | .vpack => fn / 128 != 0 || fn % 16 > 8 || fn / 16 % 4 == 3 || row > posMax (fn % 16)
         | .vunpk => fn / 16 != 0 || fn % 16 > 7 || row > posMax (fn % 16)
         | .vmxsc => fn > 5
         | .vrmsk => fn / 128 != 1
         | _ => false)
      if bad then none else some k
  else
    match vKindVi opc with
    | none => none
    | some k =>
      let imm := vImm b
      let bad :=
        vVc b != 0 || vBmode b != 0 || (k != .vrng && vVb b != 0) ||
        (match k with
         | .vslli | .vsrli | .vsrai => imm / 32 != 0
         | .vmovmi => imm / 2 ^ 13 != 0
         | .vrng => imm / 16 != 0
         | .vscl2 => imm / 512 != 0
         | .vclampi => isBf16Nan (imm % 65536) || isBf16Nan (imm / 65536) || flt (bf16 (imm / 65536)) (bf16 (imm % 65536))
         | _ => false)
      if bad then none else some k

def mOpc (b : Nat) : Nat := bitsOf b 63 58
def mBank (b : Nat) : Nat := bitsOf b 53 53
def mAcc (b : Nat) : Bool := b.testBit 52
def mExact (b : Nat) : Bool := b.testBit 51
def mWeauto (b : Nat) : Bool := b.testBit 50
def mFa (b : Nat) : Nat := bitsOf b 49 47
def mFb (b : Nat) : Nat := bitsOf b 46 44
def mScale (b : Nat) : Bool := b.testBit 43
def mMq (b : Nat) : Nat := bitsOf b 42 41
def mNq (b : Nat) : Nat := bitsOf b 40 39
def mKu (b : Nat) : Nat := bitsOf b 38 33
def mK (b : Nat) : Nat := if mKu b = 0 then 1024 else mKu b * 16
def mAline (b : Nat) : Nat := bitsOf b 32 25
def mBline (b : Nat) : Nat := bitsOf b 24 17
def mSline (b : Nat) : Nat := bitsOf b 16 9
def mWreg (b : Nat) : Nat := bitsOf b 8 4
def mTcfg (b : Nat) : Nat := bitsOf b 52 45
def mDest (b : Nat) : Nat := bitsOf b 44 44
def mAddr (b : Nat) : Nat := bitsOf b 43 24
def mLine (b : Nat) : Nat := bitsOf b 52 45
def mRows (mq : Nat) : Nat := (mq + 1) * 16
def nCols (nq : Nat) : Nat := (nq + 1) * 8

/-- MACs per rc of a format pair; 0 where the pair is not permitted (R147). -/
def macsOf (fa fb : Nat) : Nat :=
  if fa = 4 ∧ fb = 4 then 4096
  else if fa ≤ 4 ∧ fb ≤ 4 then 2048
  else if fa = 5 ∧ fb = 5 then 2048
  else if (fa = 6 ∧ fb = 6) ∨ (fa = 7 ∧ fb = 7) then 1024
  else 0

/-- The operation of an M body; none for an undefined or reserved encoding (R145 to R147, R166 to R169). -/
def decodeM (b : Nat) : Option MKind :=
  match mOpc b with
  | 1 =>
    let macs := macsOf (mFa b) (mFb b)
    let wide := macs == 1024
    let bad := bitsOf b 3 0 != 0 || macs == 0 || (wide && (mScale b || mExact b)) ||
      (mWeauto b && (!mExact b || mAcc b)) ||
      (mWreg b != 0 && !(mExact b && !mAcc b && !mWeauto b)) ||
      (!mScale b && mSline b != 0) || (mScale b && mKu b % 2 == 1)
    if bad then none else some .mma
  | 2 => if bitsOf b 23 0 ≠ 0 ∨ (mDest b = 1 ∧ mAddr b / 65536 ≠ 0) then none else some .drain
  | 3 => if bitsOf b 23 0 ≠ 0 ∨ bitsOf b 52 45 ≠ 0 ∨ mAddr b % 16 ≠ 0 ∨ (mDest b = 1 ∧ mAddr b / 65536 ≠ 0)
         then none else some .drainl
  | 4 => if bitsOf b 44 0 ≠ 0 then none else some .mladd
  | 5 => if mAcc b ∨ mWeauto b ∨ bitsOf b 49 43 ≠ 0 ∨ bitsOf b 38 9 ≠ 0 ∨ bitsOf b 3 0 ≠ 0 ∨
            (mExact b = false ∧ mWreg b ≠ 0) then none else some .binit
  | _ => none

def ltReg (b : Nat) : Nat := bitsOf b 53 49
def ltRa (b : Nat) : Nat := bitsOf b 48 44
def ltLine (b : Nat) : Nat := bitsOf b 43 36
def ltNl (b : Nat) : Nat := bitsOf b 35 32
def ltOff (b : Nat) : Nat := bitsOf b 19 0

/-- The operation of an L body (R211, R212). -/
def decodeL (b : Nat) : Option LKind :=
  match [LKind.ldv, .lds, .ldw, .ldc][bitsOf b 63 58 - 1]? with
  | none => none
  | some k =>
    if bitsOf b 63 58 = 0 ∨ bitsOf b 31 20 ≠ 0 ∨ (k = .ldc ∧ ltReg b ≠ 0) ∨ (k ≠ .ldc ∧ (ltLine b ≠ 0 ∨ ltNl b ≠ 0))
    then none else some k

/-- The operation of a T body (R211, R212). -/
def decodeT (b : Nat) : Option TKind :=
  match [TKind.stv, .sts, .stw, .stc][bitsOf b 63 58 - 1]? with
  | none => none
  | some k =>
    if bitsOf b 63 58 = 0 ∨ bitsOf b 31 20 ≠ 0 ∨ ltNl b ≠ 0 ∨ (k = .stc ∧ ltReg b ≠ 0) ∨ (k ≠ .stc ∧ ltLine b ≠ 0)
    then none else some k

def yA (b : Nat) : Nat := bitsOf b 21 18
def yF (b : Nat) : Nat := bitsOf b 17 16
def yImm (b : Nat) : Nat := bitsOf b 15 0

/-- The operation of a Y body (R130). -/
def decodeY (b : Nat) : Option YKind :=
  match bitsOf b 31 26 with
  | 1 => if yA b ≠ 0 ∨ yF b / 2 ≠ 0 ∨ (yF b = 1 ∧ yImm b / 32 ≠ 0) then none else some .waitpos
  | 2 => if yA b ≠ 0 ∨ yF b / 2 ≠ 0 then none else some .efs
  | 3 => if yF b ≠ 0 then none else some .twait
  | 4 => if yF b ≠ 0 then none else some .tadd
  | 5 => if yA b / 8 ≠ 0 ∨ yF b ≠ 0 then none else some .ttest
  | 6 => if yA b ≠ 0 ∨ yF b ≠ 0 ∨ yImm b / 64 ≠ 0 then none else some .send
  | _ => none

/-- A decoded bundle: its length in bytes and the operation and body of each slot present. -/
structure Bundle where
  len : Nat
  idle : Option Nat := none
  s : Option (SKind × Nat × Option Nat) := none
  v : Option (VKind × Nat) := none
  m : Option (MKind × Nat) := none
  l : Option (LKind × Nat) := none
  t : Option (TKind × Nat) := none
  y : Option (YKind × Nat) := none
  deriving DecidableEq, Repr

def hdrForm (h : Nat) : Nat := bitsOf h 25 24
def hdrLimm (h : Nat) : Bool := h.testBit 23

/-- The length in bytes of a bundle with header h (R108, R109). -/
def bundleLen (h : Nat) : Nat :=
  if hdrForm h = 1 then 4
  else 4 + (if h.testBit 31 then 4 else 0) + (if hdrLimm h then 4 else 0) + (if h.testBit 30 then 8 else 0) +
    (if h.testBit 29 then 8 else 0) + (if h.testBit 28 then 8 else 0) + (if h.testBit 27 then 8 else 0) +
    (if h.testBit 26 then 4 else 0)

/-- One slot of a bundle: absent, or its body at an offset, or a fault. -/
def slotAt {α : Type} (present : Bool) (dec : Nat → Option α) (body : Nat) : Except Unit (Option (α × Nat)) :=
  if present then (match dec body with | some k => .ok (some (k, body)) | none => .error ()) else .ok none

/-- The slot, 0 S to 5 Y or 6 for the header, at which a bundle's encoding is bad, or the decoded bundle (R107 to R110,
R213). bytes are the bundle's bytes. -/
def decodeBundle (bytes : List (BitVec 8)) : Except Nat Bundle :=
  let h := fieldAt bytes 0 4
  let mask := h / 2 ^ 26
  if hdrForm h ≥ 2 ∨ bitsOf h 22 16 ≠ 0 then .error 6
  else if hdrForm h = 1 then
    if mask ≠ 0 ∨ hdrLimm h then .error 6 else .ok { len := 4, idle := some (bitsOf h 15 0) }
  else if bitsOf h 15 0 ≠ 0 then .error 6
  else if hdrLimm h ∧ h.testBit 31 = false then .error 6
  else
    let oS := 4
    let oX := if h.testBit 31 then oS + 4 else oS
    let oV := if hdrLimm h then oX + 4 else oX
    let oM := if h.testBit 30 then oV + 8 else oV
    let oL := if h.testBit 29 then oM + 8 else oM
    let oT := if h.testBit 28 then oL + 8 else oL
    let oY := if h.testBit 27 then oT + 8 else oT
    let ext := if hdrLimm h then some (fieldAt bytes oX 4) else none
    match slotAt (h.testBit 31) (fun b => decodeS b ext) (fieldAt bytes oS 4),
          slotAt (h.testBit 30) decodeV (fieldAt bytes oV 8), slotAt (h.testBit 29) decodeM (fieldAt bytes oM 8),
          slotAt (h.testBit 28) decodeL (fieldAt bytes oL 8), slotAt (h.testBit 27) decodeT (fieldAt bytes oT 8),
          slotAt (h.testBit 26) decodeY (fieldAt bytes oY 4) with
    | .error _, _, _, _, _, _ => .error 0
    | _, .error _, _, _, _, _ => .error 1
    | _, _, .error _, _, _, _ => .error 2
    | _, _, _, .error _, _, _ => .error 3
    | _, _, _, _, .error _, _ => .error 4
    | _, _, _, _, _, .error _ => .error 5
    | .ok s, .ok v, .ok m, .ok l, .ok t, .ok y =>
      let clash := match t, v with
        | some (.stc, _), some (_, b) => vBmode b == 2
        | _, _ => false
      if clash then .error 1
      else .ok { len := bundleLen h, s := s.map (fun (k, b) => (k, b, ext)), v := v, m := m, l := l, t := t, y := y }

/-- What the delay-position rules look at in a bundle whose encoding is bad at some slot: its S and Y operations, where those
can be read (R118, R567). -/
def looseBundle (bytes : List (BitVec 8)) : Bundle :=
  let h := fieldAt bytes 0 4
  let ext := if hdrLimm h then some (fieldAt bytes 8 4) else none
  let s := fieldAt bytes 4 4
  let y := fieldAt bytes (bundleLen h - 4) 4
  { len := bundleLen h,
    s := if h.testBit 31 then (decodeS s ext).map fun k => (k, s, ext) else none,
    y := if h.testBit 26 then (decodeY y).map fun k => (k, y) else none }

/-! ## Encoding -/

/-- The header of a bundle with operations: the slot mask and LIMM; of an IDLE bundle: FORM 1 and COUNT (R107 to R109). -/
def Bundle.header (b : Bundle) : Nat :=
  match b.idle with
  | some n => 2 ^ 24 + n
  | none =>
    let bit (on : Bool) (i : Nat) : Nat := if on then 2 ^ i else 0
    bit b.s.isSome 31 + bit b.v.isSome 30 + bit b.m.isSome 29 + bit b.l.isSome 28 + bit b.t.isSome 27 +
      bit b.y.isSome 26 + bit (match b.s with | some (_, _, some _) => true | _ => false) 23

/-- The bytes of a bundle: the header, then the bodies of the slots present in slot order, the LIMM extension after the S
body (R107, R108). -/
def Bundle.encode (b : Bundle) : List (BitVec 8) :=
  let wide {α : Type} (o : Option (α × Nat)) : List (BitVec 8) :=
    match o with
    | some (_, w) => leBytes 8 w
    | none => []
  leBytes 4 b.header ++
  (match b.s with
   | some (_, w, some e) => leBytes 4 w ++ leBytes 4 e
   | some (_, w, none) => leBytes 4 w
   | none => []) ++
  wide b.v ++ wide b.m ++ wide b.l ++ wide b.t ++
  (match b.y with
   | some (_, w) => leBytes 4 w
   | none => [])

/-- A bundle as R107 to R110 and R213 admit it: an IDLE bundle holds nothing but its COUNT; every body has its width and
encodes its operation; and an STC stands beside no vector operation that reads the coffer. -/
def Bundle.wf (b : Bundle) : Bool :=
  let fits {α : Type} [DecidableEq α] (n : Nat) (dec : Nat → Option α) (o : Option (α × Nat)) : Bool :=
    match o with
    | some (k, w) => decide (w < 2 ^ n) && decide (dec w = some k)
    | none => true
  decide (b.len = b.encode.length) &&
  (match b.idle with
   | some n => decide (n < 65536) && b.s.isNone && b.v.isNone && b.m.isNone && b.l.isNone && b.t.isNone && b.y.isNone
   | none =>
     (match b.s with
      | some (k, w, e) => decide (w < 2 ^ 32) && decide (decodeS w e = some k) && (match e with | some x => decide (x < 2 ^ 32) | none => true)
      | none => true) &&
     fits 64 decodeV b.v && fits 64 decodeM b.m && fits 64 decodeL b.l && fits 64 decodeT b.t && fits 32 decodeY b.y &&
     !(match b.t, b.v with
       | some (.stc, _), some (_, w) => vBmode w == 2
       | _, _ => false))

end Sys2Proof.Machine
end

