-- ==== Sys2Proof/Machine/Scalar.lean ====
section
/-! DEFINITION. The scalar slot: results, predicates, special registers and branches (R111 to R119). -/
namespace Sys2Proof.Machine

/-- FP32 in bits 31:0 with zero above (R115). -/
def fp64 (v : BitVec 32) : BitVec 64 := v.setWidth 64
def lo32 (v : BitVec 64) : BitVec 32 := v.setWidth 32

/-- rd of an arithmetic, logic, shift or FP32 operation: b is rb or the immediate (R114, R115). -/
def sResult (k : SKind) (a b : BitVec 64) : BitVec 64 :=
  match k with
  | .add | .addi => a + b
  | .sub => a - b
  | .and | .andi => a &&& b
  | .or | .ori => a ||| b
  | .xor | .xori => a ^^^ b
  | .sll | .slli => a <<< (b.toNat % 64)
  | .srl | .srli => a >>> (b.toNat % 64)
  | .sra | .srai => a.sshiftRight (b.toNat % 64)
  | .min => if a.slt b then a else b
  | .max => if a.slt b then b else a
  | .minu => if a.ult b then a else b
  | .maxu => if a.ult b then b else a
  | .mul => a * b
  | .mulhu => BitVec.ofNat 64 (a.toNat * b.toNat / 2 ^ 64)
  | .fadd => fp64 (fadd (lo32 a) (lo32 b))
  | .fsub => fp64 (fsub (lo32 a) (lo32 b))
  | .fmul => fp64 (fmul (lo32 a) (lo32 b))
  | .fmin => fp64 (fminNum (lo32 a) (lo32 b))
  | .fmax => fp64 (fmaxNum (lo32 a) (lo32 b))
  | .fcvtfi => fp64 (fofInt a.toInt)
  | .fcvtif => BitVec.ofInt 64 (ftoInt 64 (lo32 a))
  | _ => 0#64

/-- pd of a compare (R114). -/
def sCompare (k : SKind) (a b : BitVec 64) : Bool :=
  match k with
  | .cmpEq | .cmpeqi => a == b
  | .cmpNe => a != b
  | .cmpLt | .cmplti => a.slt b
  | .cmpGe | .cmpgei => !(a.slt b)
  | .cmpLtu | .cmpltui => a.ult b
  | .cmpGeu => !(a.ult b)
  | _ => false

/-- pd of a predicate operation (R114). -/
def sLogic (k : SKind) (a b : Bool) : Bool :=
  match k with
  | .plogAnd => a && b
  | .plogOr => a || b
  | .plogXor => a ^^ b
  | .plogAndn => a && !b
  | _ => false

/-- The special registers of MFS; any other code reads zero (R116). -/
def Lanorun.mfs (s : Lanorun) (c code : Nat) : BitVec 64 :=
  let x := s.cell c
  let ten (f : Image → Nat → Nat) : BitVec 64 :=
    match s.tenOfCell c, s.activeImage with
    | some t, some im => BitVec.ofNat 64 (f im t)
    | _, _ => Config.mfsNoTenancy code
  match code with
  | 1 => BitVec.ofNat 64 c
  | 2 => if s.planCells.contains c then BitVec.ofNat 64 (indexOf s.planCells c) else Config.mfsNoTenancy code
  | 3 => ten fun im t => indexOf (im.cellsOf t) c
  | 4 => ten fun im t => (im.cellsOf t).length
  | 5 => ten fun _ t => t
  | 6 => ten fun _ _ => s.cellStep c
  | 7 => BitVec.ofNat 64 x.cframe
  | 8 => BitVec.ofNat 64 x.pos
  | 9 => BitVec.ofNat 64 (s.budget (regionOf c))
  | 10 => BitVec.ofNat 64 x.rc
  | _ => if 0x10 ≤ code ∧ code < 0x20 then (sget 0#16 x.tallies (code - 0x10)).setWidth 64 else 0#64

/-- The latency class of R131. -/
def SKind.lat : SKind → Nat
  | .mul | .mulhu => 3
  | .fadd | .fsub | .fmul | .fmin | .fmax | .fcvtfi | .fcvtif => 4
  | _ => 1

/-- The operation reads rb; the others of SR format do not. -/
def SKind.readsRb : SKind → Bool
  | .add | .sub | .and | .or | .xor | .sll | .srl | .sra | .min | .max | .minu | .maxu | .mul | .mulhu
  | .cmpEq | .cmpNe | .cmpLt | .cmpGe | .cmpLtu | .cmpGeu | .fadd | .fsub | .fmul | .fmin | .fmax => true
  | _ => false

/-- The operation reads ra. -/
def SKind.readsRa : SKind → Bool
  | .mfs | .b | .bal | .plogAnd | .plogOr | .plogXor | .plogAndn => false
  | _ => true

/-- The header syllable at an address of the cell store. -/
def Cell.header (x : Cell) (a : Nat) : Nat := leNat (x.loadBytes a 4)

/-- The address of the bundle after the second of n delay positions from address a (R117, R119). -/
def Cell.afterDelay (x : Cell) (a : Nat) : Nat :=
  let h := x.header a
  let a1 := a + bundleLen h
  if hdrForm h = 1 ∧ bitsOf h 15 0 ≠ 0 then a1 % 0x100000
  else (a1 + bundleLen (x.header (a1 % 0x100000))) % 0x100000

/-- The length of the bundle at the cell's pc. -/
def Cell.lenAtPc (x : Cell) : Nat := bundleLen (x.header x.pc)

/-- A branch bundle issues: two delay positions follow, and the target after them where it is taken (R117). -/
def Lanorun.branch (s : Lanorun) (c : Nat) (target : Option Nat) : Lanorun :=
  s.setCell c { s.cell c with delayLeft := 2, delay := target }

/-- The target of a branch, before it is held to 20 bits. -/
def Cell.target (x : Cell) (k : SKind) (b : Nat) : Nat :=
  match k with
  | .jr | .jalr => (x.s (sRa b)).toNat
  | _ => (((x.pc : Int) + branchOffset k b) % 0x100000).toNat

/-- A scalar operation at issue (R114 to R117). The pc has 20 bits: the target of JR and JALR is ra modulo 2^20 (DESIGN CHOICE,
log entry 93). -/
def Lanorun.sPlan (s : Lanorun) (c : Nat) (k : SKind) (b : Nat) (ext : Option Nat) : OpPlan :=
  let x := s.cell c
  let pr := pred32 b
  let on := x.pred pr
  let srcA := if k.readsRa then srcS (sRa b) else []
  let srcB := if k.readsRb then srcS (sRb b) else []
  if k.isBranch then
    let link := k == .bal || k == .jalr
    let tgt := x.target k b
    let ra := BitVec.ofNat 64 (x.afterDelay ((x.pc + x.lenAtPc) % 0x100000))
    let rd := sRd b
    { foot := { srcs := srcP pr ++ srcA, dsts := if link ∧ rd ≠ 0 then [(resS rd, 1, 1)] else [] }
      fault := if on ∧ tgt % 4 ≠ 0 then some (0x0403, resNone) else none
      flights := if link then [(1, resS rd, if on then .sreg rd ra else .none)] else []
      post := fun s => s.branch c (if on then some (tgt % 0x100000) else none) }
  else if k.isPlog then
    let pd := sRd b % 8
    { foot := { srcs := srcP pr ++ srcP (sRa b % 8) ++ srcP (sRb b % 8),
                dsts := if pd = 0 then [] else [(resP pd, 1, 1)] }
      flights := [(1, resP pd, if on then .preg pd (sLogic k (x.p (sRa b % 8)) (x.p (sRb b % 8))) else .none)] }
  else
    let rb := if k.readsRb then x.s (sRb b) else sImm b ext
    if k.isCmp then
      let pd := sRd b % 8
      { foot := { srcs := srcP pr ++ srcA ++ srcB, dsts := if pd = 0 then [] else [(resP pd, 1, 1)] }
        flights := [(1, resP pd, if on then .preg pd (sCompare k (x.s (sRa b)) rb) else .none)] }
    else
      let rd := sRd b
      let v := if k = .mfs then s.mfs c (sImm12 b) else sResult k (x.s (sRa b)) rb
      { foot := { srcs := srcP pr ++ srcA ++ srcB, dsts := if rd = 0 then [] else [(resS rd, k.lat, k.lat)] }
        flights := [(k.lat, resS rd, if on then .sreg rd v else .none)] }

/-- A scalar operation as a command: its 32-bit body, and the LIMM extension where it has one. -/
def Lanorun.runS (s : Lanorun) (c : Nat) (k : SKind) (b : Nat) (ext : Option Nat) : Lanorun := s.runOp c 0 (s.sPlan c k b ext)

end Sys2Proof.Machine
end

