-- ==== Sys2Proof/Machine/Sync.lean ====
section
/-! DEFINITION. The sync slot: waits, end-of-frame sync, tallies and SEND, and the lateness that a sync shows (R90 to R93,
R122 to R130, R226 to R228, R324, R335). -/
namespace Sys2Proof.Machine

/-- The causes of PLN_SLIP_LAST (R101). -/
def causeMesh : Nat := 6

/-- A slip is recorded; absorbed it raises PLAN_SLIP and is counted, beyond slack the partition faults (R91, R93). FRAME_LO is
the hall frame in which the slip is found, which is the frame after the late one where the sync comes after the Bell
(DESIGN CHOICE, log entry 91: R101 says only 'the frame number'). -/
def Lanorun.slip (s : Lanorun) (t lateness site cause : Nat) (beyond : Bool) : Lanorun :=
  let s := s.put F.PLN_SLIP_LAST_LATENESS (min lateness 0xFFFF)
  let s := s.put F.PLN_SLIP_LAST_FRAME_LO (s.frame % 65536)
  let s := ((s.put F.PLN_SLIP_LAST_SITE site).put F.PLN_SLIP_LAST_TENANCY t).put F.PLN_SLIP_LAST_CAUSE cause
  let s := s.put F.PLN_SLIP_LAST_BEYOND (if beyond then 1 else 0)
  if beyond then s.partitionFault t
  else (s.event F.PLN_EVENT_SLIP).countEvt R.PLN_SLIP_CNT

/-- The cells of tenancy t in region r. -/
def Lanorun.tenCellsIn (s : Lanorun) (t r : Nat) : List Nat :=
  match s.activeImage with
  | some im => (im.cellsOf t).filter fun c => regionOf c == r
  | none => []

/-- The largest cause of a slip in a region: guard stall, droop or protective limit (R91, R101). -/
def Lanorun.slipCause (s : Lanorun) (t r : Nat) : Nat :=
  let g := s.rgn r
  let guard := ((s.tenCellsIn t r).map fun c => (s.cell c).guardRc).foldl max 0
  let droop := g.prevDroop + g.droops.length
  let prot := g.prevProt + countBelow (fun p => g.protRemoved p && !g.droops.contains p) g.pos
  if guard ≥ droop ∧ guard ≥ prot then 0 else if droop ≥ prot then 1 else 2

/-- A cell of a tenancy synced at position p: where it is the last of its tenancy in the region for that frame, lateness L
above 0 is an absorbed slip (R90, R91). -/
def Lanorun.judge (s : Lanorun) (c p : Nat) : Lanorun :=
  match s.tenOfCell c, s.activeImage with
  | some t, some im =>
    let r := regionOf c
    let n := (s.cell c).done
    if s.tenState t = tenRunning ∧ (s.tenCellsIn t r).all (fun d => decide (n ≤ (s.cell d).done)) then
      let l := p - im.progRc r
      if l = 0 then s else if l ≤ im.slackRc r then s.slip t l r (s.slipCause t r) false else s
    else s
  | _, _ => s

/-- The frame position of tenancy t's region r reaches PROG_RC + SLACK_RC + 1 with a cell not synced: beyond slack (R91). -/
def Lanorun.slipBeyond (s : Lanorun) (t r : Nat) : Lanorun :=
  match s.activeImage with
  | some im =>
    let lim := im.progRc r + im.slackRc r + 1
    let late := (s.tenCellsIn t r).any fun c =>
      let x := s.cell c
      x.st == 1 && !x.sync && decide (lim ≤ x.pos)
    if s.tenState t = tenRunning ∧ late ∧ (s.ten t).fault = none
    then s.slip t (im.slackRc r + 1) r (s.slipCause t r) true else s
  | none => s

/-- POS of a WAITPOS (R126). -/
def Cell.waitPos (x : Cell) (b : Nat) : Nat :=
  if yF b % 2 = 1 then (x.s (yImm b % 32)).toNat % 65536 else yImm b

def isLast (b : Nat) : Bool := yF b % 2 == 1

/-- A wait of a sync operation is not met at position p (R123, R125, R126, R128). -/
def Cell.waits (x : Cell) (k : YKind) (b p : Nat) : Bool :=
  let on := x.pred (pred32 b)
  match k with
  | .waitpos => on && decide (p < x.waitPos b)
  | .twait => on && decide ((sget 0#16 x.tallies (yA b)).toNat < yImm b)
  | .efs => isLast b && x.sendq != []
  | _ => false

/-- A wait rc; CEL_WAIT_CNT counts those of WAITPOS and TWAIT (R126, R128, R133, R141). -/
def Lanorun.waitRc (s : Lanorun) (c : Nat) (k : YKind) : Lanorun :=
  let x := s.cell c
  let why := if k = .waitpos then 5 else if k = .twait then 6 else 7
  let s := s.setCell c { x with why := why, waitRc := x.waitRc + 1, stall := 0 }
  if k = .efs then s else s.countEvt R.CEL_WAIT_CNT 1 c

/-- The descriptor that SEND names (R226). -/
def Lanorun.sendDesc (s : Lanorun) (c d : Nat) : List (BitVec 8) :=
  (s.cell c).loadBytes (s.get F.CEL_DESC_BASE c + 32 * d) 32

/-- The destination of a descriptor lies outside a mesh schedule entry's (R324). -/
def Lanorun.outsideEntry (s : Lanorun) (im : Image) (t : Nat) (m : MeshEntry) (d : Desc) : Bool :=
  match d.kind with
  | 2 =>
    m.did != 0xFFFF &&
    (match s.logicalCell (bitsOf d.dst 47 32), (im.cellsOf t)[m.did]? with
     | some p, some q => blockOf p != blockOf q
     | _, _ => true)
  | 1 =>
    !vaultHolds (im.vaultMask t) (d.dst.testBit 63) (bitsOf d.dst 38 0) d.bytes m.did
  | 3 => m.did != 0xFFFF && bitsOf m.did 10 8 != bitsOf d.dst 10 8
  | _ => false

/-- What a predicated-on SEND raises, with its code; the first in the order of R567 (R228, R324, R335). -/
def Lanorun.sendFault (s : Lanorun) (c : Nat) (r : List (BitVec 8)) : Option Nat :=
  let d := descOf r
  let t := (s.tenOfCell c).getD 16
  let im := s.activeImage.getD {}
  let mask := im.vaultMask t
  if d.bad ∨ (d.kind = 2 ∧ (s.planCells.length ≤ bitsOf d.dst 47 32 ∨ bitsOf d.dst 19 0 + d.bytes > 0x100000))
  then some 0x0702
  else if (d.kind = 1 ∧ ¬rangeOk mask (d.dst.testBit 63) (bitsOf d.dst 38 0) d.bytes) ∨
          (d.kind = 3 ∧ ¬mask.testBit (bitsOf d.dst 10 8)) then some 0x0703
  else if d.kind = 4 ∧ s.rankOf t d.rank = none then some 0x0A06
  else if d.kind = 4 ∧ d.tc = 1 then none
  else match im.mesh t d.mslot with
    | none => some 0x0A02
    | some m =>
      let dk := if d.kind = 1 then 1 else if d.kind = 2 then 0 else if d.kind = 3 then 2 else 3
      if m.frame ≠ (s.cell c).cframe ∨ m.skind ≠ 0 ∨ (m.sid ≠ 0xFFFF ∧ m.sid ≠ indexOf (im.cellsOf t) c) ∨ m.dkind ≠ dk ∨
         m.bytes < d.bytes ∨ s.outsideEntry im t m d
      then some 0x0A02 else none

/-- EFS: the sync of the cell's frame (R123 to R125, R134, R141). -/
def Lanorun.efs (s : Lanorun) (c : Nat) (b : Nat) : Lanorun :=
  let x := s.cell c
  let r := regionOf c
  let bud := s.budget r
  let p := x.pos
  let last := isLast b
  let resume := min (yImm b) (bud - 1)
  let s := ((s.put F.CEL_FRAME_STAT_SYNC_POS (min p 0xFFFF) c).put F.CEL_FRAME_STAT_GUARD_RC (min x.guardRc 0xFFFF) c).put
    F.CEL_FRAME_STAT_WAIT_RC (min x.waitRc 0xFFFF) c
  let x := { x with done := x.done + 1 }
  let s := (s.setCell c x).judge c p
  let x := { s.cell c with cframe := if last then 0 else x.cframe + 1, resume := resume, guardRc := 0, waitRc := 0,
                           syncRc := some x.frc, lastSync := last }
  if x.late then
    let s := s.event F.CEL_EVENT_SYNC_LATE c
    let x := { x with late := false, pos := p - x.base, base := 0, lastSync := false }
    s.setCell c (if last then { x with rc := x.rc + 1 }.stepEntry (s.get F.CEL_PC_ENTRY c) else x)
  else s.setCell c { x with sync := true }

/-- LAST does not match the cell frame of its tenancy's step (R125). -/
def Lanorun.lastMismatch (s : Lanorun) (c : Nat) (b : Nat) : Bool :=
  match s.tenOfCell c, s.activeImage with
  | some t, some im => isLast b != ((s.cell c).cframe + 1 == im.stepFrames t)
  | _, _ => false

/-- A sync operation at issue (R123 to R130). -/
def Lanorun.yPlan (s : Lanorun) (c : Nat) (k : YKind) (b : Nat) : OpPlan :=
  let x := s.cell c
  let pr := pred32 b
  let on := x.pred pr
  match k with
  | .waitpos => { foot := { srcs := srcP pr ++ (if yF b % 2 = 1 then srcS (yImm b % 32) else []) } }
  | .efs =>
    { foot := { srcs := srcP pr }
      fault := if s.lastMismatch c b then some (0x0404, resNone) else none
      post := fun s => s.efs c b }
  | .twait =>
    { foot := { srcs := srcP pr }
      post := if on then fun s =>
          let x := s.cell c
          let v := BitVec.ofNat 16 ((sget 0#16 x.tallies (yA b)).toNat - yImm b)
          s.setCell c { x with tallies := sset 0#16 x.tallies (yA b) v }
        else id }
  | .tadd =>
    { foot := { srcs := srcP pr }
      flights := [(1, resT (yA b), if on then .tally (yA b) (yImm b) else .none)] }
  | .ttest =>
    let pd := yA b % 8
    let v := decide (yImm b % 4096 ≤ (sget 0#16 x.tallies (yImm b / 4096)).toNat)
    { foot := { srcs := srcP pr, dsts := if pd = 0 then [] else [(resP pd, 1, 1)] }
      flights := [(1, resP pd, if on then .preg pd v else .none)] }
  | .send =>
    let r := s.sendDesc c (yImm b % 64)
    { foot := { srcs := srcP pr, send := true }
      fault := if on then (s.sendFault c r).map fun f => (f, resNone) else none
      mslot := (descOf r).mslot
      post := if on then fun s =>
          let x := s.cell c
          let e : SendEntry := { desc := r, left := fieldAt r 8 4, step := s.cellStep c, frame := x.cframe,
                                 ready := s.cellFc c + s.get F.RGN_XCAL_LAT_ACT (regionOf c) }
          s.setCell c { x with sendq := x.sendq ++ [e] }
        else id }

/-- A sync operation as a command: its 32-bit body. Where its wait is not met it waits
for an rc. -/
def Lanorun.runY (s : Lanorun) (c : Nat) (k : YKind) (b : Nat) : Lanorun :=
  if (s.cell c).waits k b (s.cell c).pos then s.waitRc c k else s.runOp c 5 (s.yPlan c k b)

end Sys2Proof.Machine
end

