-- ==== Sys2Proof/Machine/Link.lean ====
section
/-! DEFINITION. The link layer: lane words, control units, sequencing, replay, lateness, credits and training (R276 to
R310). -/
namespace Sys2Proof.Machine

/-- The 64 bytes of a flit given as a number, byte 0 lowest (R277). -/
def flitBytes (w : BitVec 512) : List (BitVec 8) := leBytes 64 w.toNat

def pad64 (bs : List (BitVec 8)) : List (BitVec 8) := bs.take 64 ++ List.replicate (64 - bs.length) 0#8

/-- Lane word i of a unit with KIND and SEQ: 32 data bits, the control bit and odd parity (R277, R278). -/
def laneWord (kind seq : Nat) (bs : List (BitVec 8)) (i : Nat) : Nat :=
  let d := fieldAt bs (4 * i) 4
  let c := (kind * 2 ^ 14 + seq) / 2 ^ i % 2
  let w := d + c * 2 ^ 32
  let ones := ((List.range 33).map fun b => w / 2 ^ b % 2).sum
  w + (if ones % 2 = 0 then 2 ^ 33 else 0)

/-- The 4-byte trailer of a unit: C in bits 15:0, P in bits 31:16 (R277). -/
def unitTrailer (kind seq : Nat) (bs : List (BitVec 8)) : Nat :=
  kind * 2 ^ 14 + seq + ((List.range 16).map fun i => laneWord kind seq bs i / 2 ^ 33 * 2 ^ (16 + i)).sum

/-- One lane's scrambler over n bits: the scrambled word and the next state; polynomial x^31 + x^28 + 1, bit 0 first
(R279). -/
def scrambleBits : Nat → Nat → Nat → Nat → Nat × Nat
  | 0, st, _, out => (out, st)
  | n + 1, st, w, out =>
    let k := (st / 2 ^ 30 + st / 2 ^ 27) % 2
    let b := (w + k) % 2
    scrambleBits n (st * 2 % 2 ^ 31 + k) (w / 2) (out + b * 2 ^ (33 - n))

/-- The PAM4 level of a symbol's two bits, Gray-coded (R279). -/
def grayLevel (two : Nat) : Nat := if two = 3 then 2 else if two = 2 then 3 else two

/-- The 17 PAM4 levels of a lane word: symbol j carries bits 2j + 1 and 2j (R279). -/
def pam4 (w : Nat) : List (BitVec 2) := (List.range 17).map fun j => BitVec.ofNat 2 (grayLevel (w / 4 ^ j % 4))

/-- The words that each lane carries of a unit: word i on lane i; at half width words i and 8 + i, in two beats, on lane i of the
healthy half (R277, R304). -/
def laneWords (half : Option Nat) (kind seq : Nat) (bs : List (BitVec 8)) : List (Nat × List Nat) :=
  match half with
  | none => (List.range 16).map fun i => (i, [laneWord kind seq bs i])
  | some h => (List.range 8).map fun i => (8 * h + i, [laneWord kind seq bs i, laneWord kind seq bs (8 + i)])

/-- A lane scrambles and sends words in turn: its levels and its next scrambler state (R279). -/
def laneSend (st : BitVec 31) : List Nat → List (BitVec 2) × BitVec 31
  | [] => ([], st)
  | w :: t =>
    let (v, k) := scrambleBits 34 st.toNat w 0
    let (l, k') := laneSend (BitVec.ofNat 31 k) t
    (pam4 v ++ l, k')

/-- A unit on the lanes: what each lane sends, and the lanes' next scrambler states. -/
def wireUnit (sts : List (BitVec 31)) (words : List (Nat × List Nat)) : List (Nat × List (BitVec 2)) × List (BitVec 31) :=
  let out := words.map fun (l, ws) => (l, laneSend (listGet 0#31 sts l) ws)
  (out.map fun (l, r) => (l, r.1), (List.range 16).map fun l => match out.find? (·.1 = l) with
    | some (_, r) => r.2
    | none => listGet 0#31 sts l)

/-- The descrambled lane words of a received unit: every lane has odd parity; KIND, SEQ and the flit (R277, R278). -/
def unitParity (w : BitVec 544) : Bool :=
  (List.range 16).all fun i => ((List.range 34).map fun b => w.toNat / 2 ^ (34 * i + b) % 2).sum % 2 == 1
def unitControl (w : BitVec 544) : Nat := ((List.range 16).map fun i => w.toNat / 2 ^ (34 * i + 32) % 2 * 2 ^ i).sum
def unitFlit (w : BitVec 544) : List (BitVec 8) := (List.range 16).flatMap fun i => leBytes 4 (w.toNat / 2 ^ (34 * i))

def Lanorun.linkState (s : Lanorun) (p : Nat) : Nat := s.get F.LNK_STATUS_STATE p
def Lanorun.setLink (s : Lanorun) (p st : Nat) : Lanorun := s.put F.LNK_STATUS_STATE st p
def optical (p : Nat) : Bool := 12 ≤ p

/-- The present unit time counted from hall frame 0 (R280). -/
def Lanorun.unitNow (s : Lanorun) (p : Nat) : Nat := s.frame * 12500 + (s.port p).ut

/-- The schedule index of a unit time; none at a reserve position (R280). -/
def schedIndex (u : Nat) : Option Nat := if u % 8 = 7 ∨ 12498 ≤ u then none else some (7 * (u / 8) + u % 8)

/-- OUT_MAX (R288). -/
def Lanorun.outMax (s : Lanorun) (p : Nat) : Nat := if optical p ∧ s.get F.LNK_STATUS_VERSION p = 3 then 16383 else 2047

/-- REPLAY_MAX, where 0 acts as 4 (LNK_CTRL). -/
def Lanorun.replayMax (s : Lanorun) (p : Nat) : Nat :=
  let n := s.get F.LNK_CTRL_REPLAY_MAX p
  if n = 0 then 4 else n

/-- A code that a port raises. -/
def Lanorun.linkCode (s : Lanorun) (p code : Nat) : Lanorun := s.put F.LNK_STATUS_LAST_CODE code p

/-- LINK_CTL_BAD: a control unit or NAK is ignored (R284, R287, R295). -/
def Lanorun.ctlBad (s : Lanorun) (p : Nat) : Lanorun :=
  ((s.linkCode p 0x090A).event F.LNK_EVENT_CTL_BAD p).countErr R.LNK_CTLBAD_CNT 1 p

/-- The bytes that a control unit's type names (R283). -/
def ctlNamed (ctype b : Nat) : Bool :=
  b == 0 ||
  (match ctype with
   | 1 => decide (b ≤ 21)
   | 2 => decide (b ≤ 3)
   | 3 => b == 1 || (decide (4 ≤ b) && decide (b ≤ 18)) || (decide (20 ≤ b) && decide (b ≤ 29))
   | 4 => decide (b ≤ 9) || (decide (16 ≤ b) && decide (b ≤ 31))
   | 5 => decide (b ≤ 5)
   | 6 => decide (8 ≤ b) && decide (b ≤ 15)
   | 7 => b == 2 || b == 3
   | _ => false)

/-- A control unit has a defined CTYPE and zero in every byte outside its fields (R284). -/
def ctlOk (bs : List (BitVec 8)) : Bool :=
  let t := fieldAt bs 0 1
  decide (t ≤ 7) && (List.range 64).all fun b => ctlNamed t b || fieldAt bs b 1 == 0

/-- A control unit of a type, acted on where it is well formed and of that type (R284). -/
def Lanorun.ctlUnit (s : Lanorun) (p ctype : Nat) (bs : List (BitVec 8)) (f : Lanorun → Lanorun) : Lanorun :=
  if ctlOk bs then (if fieldAt bs 0 1 = ctype then f s else s) else s.ctlBad p

/-- The record of a port in LINKSCHED (R311). -/
def Image.linkRec (i : Image) (p : Nat) : List (BitVec 8) :=
  match i.sect 6 0xFF with
  | some x => (varRecords x.count x.count (x.body.drop 16)).getD p []
  | none => []

/-- A range of a port: tenancy, flags, first index and count (R311). -/
structure LinkRange where
  ten : Nat
  tx : Bool
  rx : Bool
  first : Nat
  count : Nat
  deriving DecidableEq, Repr

def rangesOf (r : List (BitVec 8)) : List LinkRange :=
  (List.range (fieldAt r 6 1)).map fun k =>
    let o := 16 + 8 * k
    { ten := fieldAt r o 1, tx := fieldAt r (o + 1) 1 % 2 == 1, rx := (fieldAt r (o + 1) 1).testBit 1,
      first := fieldAt r (o + 2) 2, count := fieldAt r (o + 4) 2 }

/-- A window: tenancy, frame of the step, first index and units (R311). -/
structure Window where
  ten : Nat
  frame : Nat
  first : Nat
  units : Nat
  deriving DecidableEq, Repr

def windowsOf (r : List (BitVec 8)) : List Window :=
  (List.range (fieldAt r 12 4)).map fun k =>
    let o := 16 + 8 * fieldAt r 6 1 + 8 * k
    { ten := fieldAt r o 1, frame := fieldAt r (o + 2) 2, first := fieldAt r (o + 4) 2, units := fieldAt r (o + 6) 2 }

/-- The VC0 units that enter a port's due queue at unit time u: the units of windows of RUNNING tenancies whose FRAME is the
present one; none on a port that went DOWN under this image, nor of a tenancy that has faulted (R290, R293, R310, R311). -/
def Lanorun.dueAt (s : Lanorun) (p u : Nat) : List DueUnit :=
  match s.activeImage, schedIndex u with
  | some im, some k =>
    if s.flag F.LNK_STATUS_RETIRED p then []
    else
      ((windowsOf (im.linkRec p)).zipIdx.filter fun (w, _) =>
        decide (w.first ≤ k) && decide (k < w.first + w.units) && decide (s.tenState w.ten = tenRunning) &&
        (s.ten w.ten).running && (s.ten w.ten).fault.isNone && w.frame == (s.ten w.ten).frameIn).map fun (w, n) =>
        { ten := w.ten, sched := s.frame * 12500 + u, win := n }
  | _, _ => []

/-- The units due at unit times u to u + n - 1 enter the due queue (R290). -/
def Lanorun.dueEnter (s : Lanorun) (p u n : Nat) : Lanorun :=
  let x := s.port p
  let s := s.setPort p { x with due := x.due ++ (List.range n).flatMap fun k => s.dueAt p (u + k) }
  s.putMax F.LNK_LAG_LAG_MAX (s.port p).due.length p

/-- Two sequence numbers apart, modulo 2^14. -/
def seqDist (a b : Nat) : Nat := (b + 2 ^ 14 - a % 2 ^ 14) % 2 ^ 14

/-- The units that a replay that has begun, or that a NAK asks for, still holds to send again (R291). -/
def Port.heldReplay (x : Port) : List TxUnit :=
  match x.nak, x.replay with
  | some k, _ => x.buffer.dropWhile fun u => u.seq != k
  | none, some k => (x.buffer.dropWhile fun u => u.seq != k).filter fun u => seqDist k u.seq < seqDist k x.replayEnd
  | none, none => []

/-- The VC0 units held to send or to send again. -/
def Port.held (x : Port) : List DueUnit := x.due ++ x.heldReplay.filterMap (·.due)

/-- The head of the due queue, where its data has reached the port (R290, R333). -/
def Lanorun.headFlit (s : Lanorun) (p : Nat) : Option (DueUnit × VcFlit) :=
  let x := s.port p
  match x.due with
  | [] => none
  | d :: _ => match x.flits.find? fun f => f.ten == d.ten && f.frame == d.sched / 12500 with
    | some f => if 2 * f.ready ≤ s.unitNow p then some (d, f) else none
    | none => none

/-- The transmit PLL calibrates in the first 4,688 unit times of its frame (R306). -/
def Lanorun.calibrating (s : Lanorun) (p : Nat) : Bool :=
  (s.port p).calFrame == some s.frame && decide ((s.port p).ut < 4688)

/-- The first event that makes a unit late, as CAUSE (R292). -/
def Lanorun.lagCauseNow (s : Lanorun) (p : Nat) : Nat × Lanorun :=
  let x := s.port p
  if (s.linkState p = 6 ∨ x.replay ≠ none) ∧ x.frtLanes then (4, s)
  else if s.linkState p = 6 ∨ s.linkState p = 9 ∨ x.replay ≠ none ∨ x.nak ≠ none then (3, s)
  else if s.calibrating p then (5, s)
  else if x.due ≠ [] ∧ s.headFlit p = none then (7, s)
  else if s.get F.LNK_STATUS_TX_WIDTH p = 1 then (4, s)
  else
    let (n, s) := s.draw
    ((Config.lagCause n).toNat, s)

/-- A lag episode begins where a held VC0 unit is late (R292). -/
def Lanorun.lagBegin (s : Lanorun) (p : Nat) : Lanorun :=
  let x := s.port p
  let now := s.unitNow p
  if x.cause = none ∧ x.held.any (fun d => decide (d.sched < now)) then
    let (c, s) := s.lagCauseNow p
    (s.setPort p { s.port p with cause := some c, lateMax := 0, lateWins := [] }).put F.LNK_LAG_CAUSE c p
  else s

/-- A VC0 unit is sent at lateness l above 0: its window is carried (R291, R292). -/
def Lanorun.lateMark (s : Lanorun) (p : Nat) (d : DueUnit) (l : Nat) : Lanorun :=
  if l = 0 then s
  else
    let s := s.lagBegin p
    let x := s.port p
    let w := (d.ten, d.sched / 12500 * 2 ^ 32 + d.win)
    let s := s.setPort p { x with lateMax := max x.lateMax l, lateWins := w :: x.lateWins.filter (· ≠ w) }
    (s.countEvt R.LNK_CARRY_CNT 1 p).putMax F.LNK_LAG_LATE_MAX l p

/-- A lag episode ends where no VC0 unit is held late: each window carried counts one slip (R292). -/
def Lanorun.lagEnd (s : Lanorun) (p : Nat) : Lanorun :=
  let x := s.port p
  let now := s.unitNow p
  match x.cause with
  | none => s
  | some c =>
    if x.held.any (fun d => decide (d.sched < now)) then s
    else
      let s := x.lateWins.foldl (fun s w => s.slip w.1 x.lateMax (0x40 + p) c false) s
      s.setPort p { s.port p with cause := none, lateMax := 0, lateWins := [] }

def Lanorun.dropDue (s : Lanorun) (p t : Nat) : Lanorun := s.setPort p ((s.port p).dropTen t)

/-- A held VC0 unit's lateness exceeds CARRY_UT: its tenancy's partition faults (R291). -/
def Lanorun.carryCheck (s : Lanorun) (p : Nat) : Lanorun :=
  let now := s.unitNow p
  let carry := s.get F.LNK_SCHED_CARRY_UT p
  let s := s.lagBegin p
  (s.port p).held.foldl (fun s d =>
    let l := now - d.sched
    if l > carry ∧ s.tenState d.ten = tenRunning ∧ (s.ten d.ten).fault = none then
      let c := ((s.port p).cause).getD 3
      ((s.putMax F.LNK_LAG_LATE_MAX l p).slip d.ten l (0x40 + p) c true).dropDue p d.ten
    else s) s

/-- A unit leaves on the lanes of the transmit direction's width. -/
def Lanorun.onWire (s : Lanorun) (p kind seq : Nat) (bs : List (BitVec 8)) : Lanorun :=
  let x := s.port p
  let half := if s.get F.LNK_STATUS_TX_WIDTH p = 1 then some (s.get F.LNK_STATUS_TX_HALF p) else none
  let (w, sc) := wireUnit x.scramblers (laneWords half kind seq bs)
  s.setPort p { x with wire := w, scramblers := sc }

/-- A control unit leaves; its SEQ is TX_NEXT (R278). -/
def Lanorun.sendCtl (s : Lanorun) (p : Nat) (bs : List (BitVec 8)) : Lanorun := s.onWire p 0 (s.get F.LNK_SEQ_TX_NEXT p) (pad64 bs)

/-- A new flit unit leaves and is kept until it is acknowledged (R285). -/
def Lanorun.sendFlit (s : Lanorun) (p kind : Nat) (bs : List (BitVec 8)) (due : Option DueUnit) : Lanorun :=
  let q := s.get F.LNK_SEQ_TX_NEXT p
  let x := s.port p
  let s := s.setPort p { x with buffer := x.buffer ++ [{ kind := kind, seq := q, bytes := pad64 bs, due := due }] }
  let s := s.put F.LNK_SEQ_TX_NEXT ((q + 1) % 2 ^ 14) p
  (s.countEvt R.LNK_TX_UNITS 1 p).onWire p kind q (pad64 bs)

/-- Header and data capacity of a class (R294). -/
def linkCap (p t : Nat) : Nat × Nat :=
  match t with
  | 0 => (2048, 16384)
  | 1 => (512, if optical p then 16384 else 2048)
  | 2 => (128, if optical p then 2048 else 512)
  | _ => (256, 0)

/-- LSTAT (R283, R285, R295). -/
def Lanorun.lstat (s : Lanorun) (p : Nat) : List (BitVec 8) :=
  let x := s.port p
  let cr := (List.range 4).flatMap fun t =>
    leBytes 2 ((linkCap p t).1 + s.get F.LNK_CREDIT_RX_HDR_FREED p t) ++
    leBytes 2 ((linkCap p t).2 + s.get F.LNK_CREDIT_RX_DATA_FREED p t)
  [1#8, if x.accepted then 1#8 else 0#8] ++
    leBytes 2 (if x.accepted then (s.get F.LNK_SEQ_RX_EXPECT p + 2 ^ 14 - 1) % 2 ^ 14 else 0) ++ cr ++
    leBytes 2 (min x.due.length 0xFFFF)

/-- A tick and fraction from a time in 2^-16 tick. -/
def tickBytes (t : Nat) : List (BitVec 8) := leBytes 8 (t / 65536) ++ leBytes 2 t

/-- TIME (R41, R283). -/
def Lanorun.timeUnit (s : Lanorun) (p : Nat) : List (BitVec 8) :=
  let t := s.ptime p
  [3#8, BitVec.ofNat 8 (s.blfState + 16 * s.role), 0#8, 0#8] ++ leBytes 2 (ofSigned 16 t.locTxrx) ++
    leBytes 2 s.hall.bound ++ tickBytes ((4000 * s.frame + 3999) * 65536 + 23592) ++
    [if t.arrive.isSome then 1#8 else 0#8, 0#8] ++ tickBytes (t.arrive.getD 0)

/-- The versions that a port advertises: bit v - 1 for version v (R300). -/
def Lanorun.versions (s : Lanorun) (p : Nat) : Nat :=
  let m := s.get F.LNK_CTRL_VER_MAX p
  2 ^ min (s.get F.MOD_IDENT_LINK_PROTO_MAX) (if m = 0 then 3 else m) - 1

/-- CONFIG (R283). -/
def Lanorun.configUnit (s : Lanorun) (p : Nat) : List (BitVec 8) :=
  [4#8, BitVec.ofNat 8 (s.versions p), BitVec.ofNat 8 p,
    BitVec.ofNat 8 ((if optical p then 1 else 0) + (if (s.port p).peerSeen then 2 else 0))] ++
    leBytes 2 (s.get F.MOD_POSID_ID) ++ leBytes 2 (s.get F.LNK_LANES_RX_GOOD p) ++
    leBytes 2 (if optical p ∧ 4 ≤ s.versions p then 16383 else 2047) ++ List.replicate 6 0#8 ++
    (List.range 4).flatMap fun t => leBytes 2 (linkCap p t).1 ++ leBytes 2 (linkCap p t).2

/-- The credits of a class that the transmitter may consume: header and data (R295). -/
def Lanorun.credits (s : Lanorun) (p t : Nat) : Nat × Nat :=
  ((s.get F.LNK_CREDIT_TX_HDR_LIM p t + 2 ^ 16 - s.get F.LNK_CREDIT_TX_HDR_CONS p t) % 2 ^ 16,
   (s.get F.LNK_CREDIT_TX_DATA_LIM p t + 2 ^ 16 - s.get F.LNK_CREDIT_TX_DATA_CONS p t) % 2 ^ 16)

def Lanorun.hasCredit (s : Lanorun) (p t nflit : Nat) : Bool :=
  let (h, d) := s.credits p t
  decide (1 ≤ h) && decide (nflit ≤ d)

/-- A packet's credits are consumed when its header flit is first sent (R294). -/
def Lanorun.consume (s : Lanorun) (p t nflit : Nat) : Lanorun :=
  let s := s.put F.LNK_CREDIT_TX_HDR_CONS ((s.get F.LNK_CREDIT_TX_HDR_CONS p t + 1) % 2 ^ 16) p t
  s.put F.LNK_CREDIT_TX_DATA_CONS ((s.get F.LNK_CREDIT_TX_DATA_CONS p t + nflit) % 2 ^ 16) p t

/-- The receiver frees one credit: a header's or a data flit's (R297). -/
def Lanorun.freeOne (s : Lanorun) (p t : Nat) (hdr : Bool) : Lanorun :=
  if hdr then s.put F.LNK_CREDIT_RX_HDR_FREED ((s.get F.LNK_CREDIT_RX_HDR_FREED p t + 1) % 2 ^ 16) p t
  else s.put F.LNK_CREDIT_RX_DATA_FREED ((s.get F.LNK_CREDIT_RX_DATA_FREED p t + 1) % 2 ^ 16) p t

/-- The receiver frees the credits of a packet that it drops or consumes: one header and its data flits (R297). -/
def Lanorun.freeCredit (s : Lanorun) (p t nflit : Nat) : Lanorun :=
  let s := s.freeOne p t true
  s.put F.LNK_CREDIT_RX_DATA_FREED ((s.get F.LNK_CREDIT_RX_DATA_FREED p t + nflit) % 2 ^ 16) p t

/-- The credits of flits that have left the receive buffer by a unit time, counted from hall frame 0 (R297). -/
def Lanorun.freeLeft (s : Lanorun) (p now : Nat) : Lanorun :=
  let x := s.port p
  let (out, rest) := x.leaves.partition fun f => decide (2 * f.1 ≤ now)
  if out = [] then s else out.foldl (fun s f => s.freeOne p f.2.1 f.2.2) (s.setPort p { x with leaves := rest })

/-- Fields of a header flit or control packet (R328). -/
def Packet.f (k : Packet) (off len : Nat) : Nat := fieldAt k.hdr off len
def Packet.fmt (k : Packet) : Nat := k.f 0 1
def Packet.tc (k : Packet) : Nat := k.f 1 1 % 4
def Packet.pkey (k : Packet) : Nat := k.f 2 2
def Packet.dst (k : Packet) : Nat := k.f 4 2 % 2 ^ 14
def Packet.src (k : Packet) : Nat := k.f 6 2 % 2 ^ 14
def Packet.tag (k : Packet) : Nat := k.f 8 4
def Packet.op (k : Packet) : Nat := k.f 12 1
def Packet.hops (k : Packet) : Nat := k.f 13 1
def Packet.nflit (k : Packet) : Nat := k.f 14 1

/-- The data flits of a payload, the last one zero-padded (R329). -/
def dataFlits : Nat → List (BitVec 8) → List (List (BitVec 8))
  | 0, _ => []
  | n + 1, bs => if bs = [] then [] else pad64 (bs.take 64) :: dataFlits n (bs.drop 64)

/-- The first packet of a VC1 queue whose class has credit, with the others (R282). -/
def Lanorun.creditedPacket (s : Lanorun) (p : Nat) : List Packet → Option (Packet × List Packet)
  | [] => none
  | k :: t =>
    if s.hasCredit p k.tc k.nflit then some (k, t)
    else (s.creditedPacket p t).map fun (q, l) => (q, k :: l)

/-- CREDIT_VIOL: a scheduled header without TC0 credit faults its tenancy and is dropped (R296). -/
def Lanorun.creditViol (s : Lanorun) (p t : Nat) : Lanorun :=
  let s := ((s.linkCode p 0x0908).event F.LNK_EVENT_CREDIT_VIOL p).fault 0x0908 .module 0
  (s.partitionFault t).dropDue p t

/-- A unit that a replay sends again, with its original SEQ (R287). -/
def Lanorun.sendReplay (s : Lanorun) (p : Nat) (u : TxUnit) : Lanorun :=
  let s := match u.due with
    | some d => s.lateMark p d (s.unitNow p - d.sched)
    | none => s
  let x := s.port p
  let nx := (u.seq + 1) % 2 ^ 14
  let more := nx ≠ x.replayEnd
  let s := s.setPort p { x with replay := if more then some nx else none, frtLanes := x.frtLanes && more }
  (s.countEvt R.LNK_TX_UNITS 1 p).onWire p u.kind u.seq u.bytes

/-- Items 7 and 8 of R282: the VC1 packet in hand, the oldest one whose class has credit, or IDLE. -/
def Lanorun.sendVc1 (s : Lanorun) (p : Nat) : Lanorun :=
  let x := s.port p
  match x.rest with
  | b :: t => (s.setPort p { x with rest := t }).sendFlit p 2 b none
  | [] =>
    match s.creditedPacket p x.vc1 with
    | some (k, l) =>
      ((s.setPort p { x with vc1 := l, rest := dataFlits 33 k.data, restFrom := k.port }).consume p k.tc k.nflit).sendFlit p 2 k.hdr none
    | none => s.sendCtl p [0#8]

/-- Items 6 to 8 of R282. -/
def Lanorun.sendVc2 (s : Lanorun) (p : Nat) : Lanorun :=
  let x := s.port p
  match x.vc2 with
  | k :: t =>
    if s.hasCredit p 3 0 then ((s.setPort p { x with vc2 := t }).consume p 3 0).sendFlit p 3 k.hdr none
    else s.sendVc1 p
  | [] => s.sendVc1 p

/-- Items 5 to 8 of R282: a new flit unit, or IDLE. A head without its TC0 credits is dropped with its tenancy's units, and the
next item goes (R296); n bounds how many tenancies that can befall. -/
def Lanorun.sendDue (p : Nat) : Nat → Lanorun → Lanorun
  | 0, s => s.sendVc2 p
  | n + 1, s =>
    match s.headFlit p with
    | some (d, f) =>
      if (match f.nflit with
          | some k => !s.hasCredit p 0 k
          | none => false) then (s.creditViol p d.ten).sendDue p n
      else
        let s := match f.nflit with
          | some k => s.consume p 0 k
          | none => s
        let s := s.lateMark p d (s.unitNow p - d.sched)
        let x := s.port p
        (s.setPort p { x with due := x.due.drop 1, flits := x.flits.erase f }).sendFlit p 1 f.bytes (some d)
    | none => s.sendVc2 p

def Lanorun.sendNew (s : Lanorun) (p : Nat) : Lanorun :=
  if s.outMax p ≤ (s.port p).buffer.length then s.sendCtl p [0#8] else s.sendDue p 17

/-- A free reserve position lies in unit times u to u + n - 1 (R280, R281). -/
def freeReserve (u n : Nat) : Bool :=
  (List.range n).any fun k => ((u + k) % 8 == 7 && (u + k) % 64 != 63) || u + k == 12499

/-- CAL_NOTICE (R283). -/
def Port.calNotice (x : Port) : List (BitVec 8) := [6#8] ++ List.replicate 7 0#8 ++ leBytes 8 (x.calFrame.getD 0)

/-- The control unit that waits and may go at the present unit time: a NAK, CAL_NOTICE in its free reserve positions, or another
one (R282, R283). -/
def Lanorun.waitingCtl (s : Lanorun) (p n : Nat) : Option (List (BitVec 8) × Port) :=
  let x := s.port p
  match x.nakOut, x.ctl with
  | some b, _ => some (b, { x with nakOut := none, nakAt := s.unitNow p })
  | none, l =>
    if x.cal ≠ 0 ∧ freeReserve x.ut n then some (x.calNotice, { x with cal := x.cal - 1 })
    else match l with
      | b :: t => some (b, { x with ctl := t })
      | [] => none

/-- The next bits of a test pattern from a generator's state: PRBS7, PRBS13 and PRBS31 by their usual polynomials x^7 + x^6 + 1,
x^13 + x^12 + x^2 + x + 1 and x^31 + x^28 + 1 (PRESUMED, log entry 99), or the square wave of period 4 bits (R307, R314). -/
def patternBits (pattern : Nat) : Nat → Nat → Nat → Nat × Nat
  | 0, st, out => (out, st)
  | n + 1, st, out =>
    let t (k : Nat) : Nat := st / 2 ^ (k - 1) % 2
    let b := match pattern with
      | 0 => (t 7 + t 6) % 2
      | 1 => (t 13 + t 12 + t 2 + t 1) % 2
      | 2 => (t 31 + t 28) % 2
      | _ => 1 - t 2
    patternBits pattern n (st * 2 % 2 ^ 31 + b) (out + b * 2 ^ (33 - n))

/-- The lanes of LANES transmit the pattern while a test runs; pattern 4 loops back inside (R307, R314). -/
def Lanorun.testSend (s : Lanorun) (p : Nat) : Lanorun :=
  let x := s.port p
  let pat := s.get F.LNK_TEST_PATTERN p
  if s.get F.LNK_TEST_STATUS p ≠ 1 ∨ 3 < pat then s.setPort p { x with wire := [] }
  else
    let out := ((List.range 16).filter (s.get F.LNK_TEST_LANES p).testBit).map fun l =>
      (l, patternBits pat 34 (listGet 0#31 x.scramblers l).toNat 0)
    s.setPort p { x with
      wire := out.map fun (l, r) => (l, pam4 r.1)
      scramblers := (List.range 16).map fun l => match out.find? (·.1 = l) with
        | some (_, r) => BitVec.ofNat 31 r.2
        | none => listGet 0#31 x.scramblers l }

/-- The unit that a port sends at its present unit time, one of n, which carries a fixed position where fixed is given (R282,
R298). -/
def Lanorun.sendAt (s : Lanorun) (p n : Nat) (fixed : Option Bool) : Lanorun :=
  let x := s.port p
  let st := s.linkState p
  let fixedUnit (t : Bool) : Lanorun := if t then s.sendCtl p (s.timeUnit p) else s.sendCtl p (s.lstat p)
  if st = 3 ∨ (st = 9 ∧ x.reConf) then s.sendCtl p (s.configUnit p)
  else if st = 4 then
    match fixed with
    | some t => fixedUnit t
    | none => s.sendCtl p [0#8]
  else if st = 6 then
    match x.ctl with
    | b :: t => (s.setPort p { x with ctl := t }).sendCtl p b
    | [] => s
  else if st = 5 then
    if s.calibrating p then s.setPort p { x with wire := [] }
    else match fixed with
      | some t => fixedUnit t
      | none =>
        match s.waitingCtl p n with
        | some (b, x) => (s.setPort p x).sendCtl p b
        | none =>
          match x.replay with
          | some k =>
            (match x.buffer.find? (·.seq = k) with
             | some u => s.sendReplay p u
             | none => (s.setPort p { x with replay := none }).sendNew p)
          | none => s.sendNew p
  else if st = 8 then s.testSend p
  else s

/-- The fixed position that unit times u to u + n - 1 contain: true for TIME, false for LSTAT (R281, R304). -/
def fixedAt (u n : Nat) : Option Bool :=
  if u ≤ 12498 ∧ 12498 < u + n then some true
  else if (List.range n).any (fun k => (u + k) % 64 == 63 && decide (u + k < 12498)) then some false else none

/-- One unit time, or at half width one pair, of a port that transmits; a frozen module sends TIME at its position and IDLE
elsewhere (R280 to R282, R290, R291, R304, R532). -/
def Lanorun.linkTransmit (s : Lanorun) (p : Nat) : Lanorun :=
  let x := s.port p
  let n := if s.get F.LNK_STATUS_TX_WIDTH p = 1 then 2 else 1
  if 12500 ≤ x.ut then s
  else if s.frozen then
    let s := if s.linkState p = 5 then
        (if fixedAt x.ut n = some true then s.sendCtl p (s.timeUnit p) else s.sendCtl p [0#8]) else s
    s.setPort p { s.port p with ut := x.ut + n }
  else
    let s := (s.dueEnter p x.ut n).freeLeft p (s.unitNow p)
    let s := s.sendAt p n (fixedAt x.ut n)
    let s := s.setPort p { s.port p with ut := x.ut + n }
    (s.carryCheck p).lagEnd p

/-- The tenancies with a range on a port (R309, R311). -/
def Lanorun.portTens (s : Lanorun) (p : Nat) : List Nat :=
  match s.activeImage with
  | some im => ((rangesOf (im.linkRec p)).map (·.ten)).eraseDups
  | none => []

/-- A port goes DOWN: it writes off its buffers and credits, and every RUNNING tenancy with a range on it faults (R308 to
R310). -/
def Lanorun.portDown (s : Lanorun) (p code : Nat) : Lanorun :=
  let st := s.linkState p
  let works := (3 ≤ st ∧ st ≤ 6) ∨ (st = 9 ∧ (s.port p).reConf)
  let s := if works then s.sendCtl p ([7#8, 0#8] ++ leBytes 2 code) else s
  let x := s.port p
  let s := (s.setPort p { ut := x.ut, scramblers := x.scramblers, wire := x.wire }).dropNode (portNode p)
  let s := forN (fun t s => (s.setReg R.LNK_CREDIT_TX 0 p t).setReg R.LNK_CREDIT_RX 0 p t) 0 4 s
  let s := ((s.setLink p 7).put F.LNK_STATUS_PROBATION 0 p).put F.LNK_SEQ_DISCARD 0 p
  let s := s.put F.LNK_FAB_DRAINED 1 p
  let s := ((((s.linkCode p 0x0905).event F.LNK_EVENT_DOWN p).countErr R.LNK_DOWN_CNT 1 p).fault 0x0905 .module 0).wakeReason 6
  if s.planActive ∧ s.plan.active ≠ none then
    (s.portTens p).foldl (fun s t => s.partitionFault t) (s.put F.LNK_STATUS_RETIRED 1 p)
  else s

/-- A training failure, then DOWN (R298). -/
def Lanorun.trainFail (s : Lanorun) (p : Nat) (code : Nat := 0x0906 + 1) : Lanorun :=
  (((s.linkCode p code).event F.LNK_EVENT_TRAIN_FAIL p).fault code .module 0).portDown p code

/-- DETECT is entered: the transmit PLL calibrates, and the path is to be measured anew (R298, R301, R306, R352). -/
def Lanorun.toDetect (s : Lanorun) (p : Nat) : Lanorun :=
  let s := (s.setLink p 1).put F.LNK_STATUS_PLL 2 p
  let s := s.setPtime p { s.ptime p with done := false, run := 0, rtt := 0, ofs := 0, arrive := none, since := 5 }
  s.setPort p { ut := (s.port p).ut }

/-- A calibration of the transmit PLL ends: it is locked at its present temperature (R306). -/
def Lanorun.pllCalibrated (s : Lanorun) (p : Nat) : Lanorun :=
  ((s.put F.LNK_PLL_TEMP_CAL (s.get F.LNK_PLL_TEMP p) p).put F.LNK_PLL_DRIFT 0 p).put F.LNK_STATUS_PLL 0 p

/-- ENABLE is written (R298). -/
def Lanorun.linkEnable (s : Lanorun) (p : Nat) (on : Bool) : Lanorun :=
  let s := s.put F.LNK_CTRL_ENABLE (if on then 1 else 0) p
  if on then (if s.linkState p = 0 then s.toDetect p else s)
  else if s.linkState p = 0 then s
  else
    let s := if s.linkState p = 7 ∨ s.linkState p = 8 then s else s.portDown p 0x0905
    (((s.setLink p 0).put F.LNK_STATUS_TX_WIDTH 0 p).put F.LNK_STATUS_RX_WIDTH 0 p).put F.LNK_STATUS_PLL 3 p

/-- Signal on every lane of at least one half (R298). -/
def Lanorun.signalDetect (s : Lanorun) (p : Nat) (lanes : Nat) : Lanorun :=
  if s.linkState p = 1 ∧ (lanes % 256 = 0xFF ∨ lanes / 256 % 256 = 0xFF) then
    (s.setLink p 2).pllCalibrated p
  else s

/-- The width of a direction by its receiver's good lanes: 0 none, 1 half, 2 full; and the half (R299). -/
def widthOf (good : Nat) (half : Bool) : Nat × Nat :=
  if good = 0xFFFF then (2, 0)
  else if half ∧ good % 256 = 0xFF then (1, 0)
  else if half ∧ good / 256 = 0xFF then (1, 1)
  else (0, 0)

def Lanorun.setRxWidth (s : Lanorun) (p : Nat) (w : Nat × Nat) : Lanorun :=
  (s.put F.LNK_STATUS_RX_WIDTH w.1 p).put F.LNK_STATUS_RX_HALF w.2 p
def Lanorun.setTxWidth (s : Lanorun) (p : Nat) (w : Nat × Nat) : Lanorun :=
  (s.put F.LNK_STATUS_TX_WIDTH w.1 p).put F.LNK_STATUS_TX_HALF w.2 p

/-- New scrambler seeds (R279). -/
def Lanorun.newSeeds (s : Lanorun) (p : Nat) : Lanorun :=
  let (n, s) := s.draw
  s.setPort p { s.port p with scramblers := (List.range 16).map (Config.scramblerSeed n) }

/-- EQUALISE found the good lanes of both directions; a usable width leads to CONFIG (R279, R298, R299). In RETRAIN, at version
1, it is full width, and CONFIG units follow. -/
def Lanorun.equaliseDone (s : Lanorun) (p rx tx polarity : Nat) (reversed : Bool) : Lanorun :=
  let st := s.linkState p
  if st = 2 ∨ st = 9 then
    let half := st = 2 ∧ s.flag F.LNK_CTRL_HALF_EN p ∧ 2 ≤ s.versions p
    let wr := widthOf rx half
    let wt := widthOf tx half
    let s := ((s.put F.LNK_LANES_RX_GOOD rx p).put F.LNK_LANES_TX_GOOD tx p).put F.LNK_LANES_POLARITY polarity p
    let s := s.put F.LNK_LANES_REVERSED (if reversed then 1 else 0) p
    if wr.1 = 0 ∨ wt.1 = 0 then s
    else if st = 9 then
      let s := s.newSeeds p
      s.setPort p { s.port p with reConf := true, peerSeen := false }
    else (((s.newSeeds p).setRxWidth p wr).setTxWidth p wt).setLink p 3
  else s

def Lanorun.equaliseTimeout (s : Lanorun) (p : Nat) : Lanorun := if s.linkState p = 2 then s.trainFail p else s

/-- A CONFIG unit: once the peer has seen ours, version and widths are agreed, or training fails (R298, R300, R353). LOC_TXRX
is measured on entering CALIBRATE (R43). -/
def Lanorun.configReceive (s : Lanorun) (p : Nat) (bs : List (BitVec 8)) (locTxrx : Int) : Lanorun :=
  s.ctlUnit p 4 bs fun s =>
    if s.linkState p = 9 then s.setPort p { s.port p with peerSeen := true }
    else if s.linkState p ≠ 3 then s
    else
      let id := fieldAt bs 4 2 % 2 ^ 14
      let s := (s.put F.LNK_STATUS_PEER_ID id p).put F.LNK_STATUS_PEER_PORT (fieldAt bs 2 1 % 32) p
      let s := s.put F.LNK_LANES_TX_GOOD (fieldAt bs 6 2) p
      let caps := (List.range 8).map fun k => (k, fieldAt bs (16 + 2 * k) 2)
      let s := s.setPort p { s.port p with peerSeen := true, peerCaps := caps, peerVer := fieldAt bs 1 1 }
      if s.flag F.LNK_PEER_EXP_EN p ∧ id ≠ s.get F.LNK_PEER_EXP_ID p then
        ((s.linkCode p 0x0A0E).fault 0x0A0E .module 0).portDown p 0x0A0E
      else if fieldAt bs 3 1 / 2 % 2 = 0 then s
      else
        let both := s.versions p &&& fieldAt bs 1 1
        let v := if both.testBit 2 then 3 else if both.testBit 1 then 2 else both % 2
        let narrow := s.get F.LNK_STATUS_RX_WIDTH p = 1 ∨ s.get F.LNK_STATUS_TX_WIDTH p = 1
        if v = 0 ∨ (v = 1 ∧ narrow) then s.trainFail p
        else
          let s := (s.put F.LNK_STATUS_VERSION v p).setLink p 4
          s.setPtime p { s.ptime p with locTxrx := locTxrx }

/-- The round trip in unit times, rounded up (R286, R301). -/
def Lanorun.rttUnits (s : Lanorun) (p : Nat) : Nat := ceilDiv (s.ptime p).rtt.toNat 320

/-- Two consecutive frames with a completed exchange have passed: the reach check (R298, R301). -/
def Lanorun.calibrateDone (s : Lanorun) (p : Nat) : Lanorun :=
  if s.linkState p = 4 ∧ 2 ≤ (s.ptime p).run then
    if s.rttUnits p + 128 ≤ s.outMax p + 1 then s.setPort p { s.port p with toActive := true }
    else s.trainFail p 0x0906
  else s

/-- ACTIVE is entered from CALIBRATE with fresh sequence numbers and credits (R295, R302). -/
def Lanorun.linkActivate (s : Lanorun) (p : Nat) : Lanorun :=
  let caps := (s.port p).peerCaps
  let s := s.setReg R.LNK_SEQ R.LNK_SEQ.reset p
  let s := forN (fun t s =>
    let s := s.setReg R.LNK_CREDIT_TX (sget 0 caps (2 * t) * 2 ^ 48 + sget 0 caps (2 * t + 1) * 2 ^ 16) p t
    s.setReg R.LNK_CREDIT_RX ((linkCap p t).1 * 2 ^ 48 + (linkCap p t).2 * 2 ^ 16) p t) 0 4 s
  let x := s.port p
  let s := s.setPort p { ut := x.ut, scramblers := x.scramblers, peerCaps := x.peerCaps, peerVer := x.peerVer,
                         peerSeen := true }
  ((s.put F.LNK_FAB_DRAINED 0 p).setLink p 5).event F.LNK_EVENT_ACTIVE p

/-- After a retrain each transmitter replays from the RX_EXPECT that its peer reported; that replay counts toward no limit, and
after one for the replay limit the port is on probation for 256 frames (R287, R289, R303). -/
def Lanorun.resumeReplay (s : Lanorun) (p : Nat) : Lanorun :=
  let x := s.port p
  let nx := s.get F.LNK_SEQ_TX_NEXT p
  let k := x.peerExpect.getD (match x.buffer with
    | u :: _ => u.seq
    | [] => nx)
  let none_ := k = nx
  let n := ((x.buffer.find? (·.seq = k)).map (·.count)).getD 0
  let s := s.setPort p { x with nak := none, peerExpect := none, toActive := false, frtLanes := x.frtLanes && !decide none_,
                                limit := false, reConf := false, replay := if none_ then none else some k, replayEnd := nx,
                                probEnd := if x.limit then s.frame + 256 else x.probEnd }
  let s := if x.limit then s.put F.LNK_STATUS_PROBATION 1 p else s
  let s := if none_ then s
    else (((s.put F.LNK_SEQ_REPLAY_FROM k p).put F.LNK_SEQ_REPLAYS n p).event F.LNK_EVENT_REPLAY p).countErr R.LNK_REPLAY_CNT 1 p
  let s := if none_ then s else s.linkCode p 0x0902
  (s.setLink p 5).event F.LNK_EVENT_ACTIVE p

/-- The bytes of a header flit or control packet that R328 to R330 name. -/
def packetNamed (fmt op b : Nat) : Bool :=
  decide (b < 0x10) || decide (0x3C ≤ b) ||
  (if fmt = 2 then decide (b < 0x20)
   else match op with
    | 0x10 => decide (b < 0x14)
    | 0x11 => decide (b < 0x15)
    | 0x12 => decide (b < 0x29)
    | 0x13 => decide (b < 0x20)
    | 0x14 => decide (b < 0x1A)
    | _ => true)

/-- A flit that is complete or a packet whose last flit came (R330): what the class, FMT, OP and a NACK's REASON allow, and zero
in every byte and bit that R328 to R330 leave zero. -/
def Packet.known (k : Packet) : Bool :=
  let tc := k.tc
  let op := k.op
  let reason := k.f 0x14 1
  decide (k.f 1 1 < 4) && decide (k.f 4 2 < 2 ^ 14) && decide (k.f 6 2 < 2 ^ 14) && decide (k.f 15 1 < 4) &&
  ((List.range 0x3C).all fun b => packetNamed k.fmt op b || k.f b 1 == 0) &&
  (if k.fmt = 2 then
     decide (1 ≤ k.nflit) && decide (k.nflit ≤ 32) && decide (k.f 0x1A 1 < 16) && decide (k.f 0x1B 1 < 2) &&
     (match op with
      | 1 => tc == 0 || tc == 1
      | 2 => tc == 0 || tc == 1
      | 3 => tc == 1
      | 4 => tc == 2
      | _ => false)
   else if k.fmt = 1 then
     k.nflit == 0 &&
     (match op with
      | 0x10 => tc == 3
      | 0x11 => decide (1 ≤ reason) && decide (reason ≤ 5) && tc == (if reason = 5 then 2 else 3)
      | 0x12 => tc == 3
      | 0x13 => tc == 3
      | 0x14 => tc == 3
      | 0x15 => tc == 3 || tc == 2
      | _ => false)
   else false)

/-- The virtual channel of a class (R327). -/
def vcOf (tc : Nat) : Nat := if tc = 0 then 1 else if tc = 3 then 3 else 2

/-- A whole packet of a channel enters the receive buffer, or is dropped as unknown (R330). -/
def Lanorun.packetIn (s : Lanorun) (p vc : Nat) (k : Packet) : Lanorun :=
  if k.known ∧ vcOf k.tc = vc then
    let x := s.port p
    s.setPort p { x with arrived := x.arrived ++ [{ k with port := some p }] }
  else (s.ctlBad p).freeCredit p k.tc k.nflit

/-- An accepted flit joins the packet that is arriving on its channel (R294, R329). -/
def Lanorun.flitIn (s : Lanorun) (p vc : Nat) (bs : List (BitVec 8)) : Lanorun :=
  let x := s.port p
  match x.parts.find? (·.1 = vc) with
  | none =>
    let k : Packet := { hdr := bs }
    if k.fmt = 2 ∧ 1 ≤ k.nflit ∧ k.nflit ≤ 32 then s.setPort p { x with parts := (vc, k) :: x.parts }
    else s.packetIn p vc k
  | some (_, k) =>
    let k := { k with data := k.data ++ bs }
    if k.data.length < 64 * k.nflit then s.setPort p { x with parts := (vc, k) :: x.parts.filter (·.1 ≠ vc) }
    else (s.setPort p { x with parts := x.parts.filter (·.1 ≠ vc) }).packetIn p vc k

def Lanorun.queueNak (s : Lanorun) (p reason : Nat) : Lanorun :=
  s.setPort p { s.port p with nakOut := some ([2#8, BitVec.ofNat 8 reason] ++ leBytes 2 (s.get F.LNK_SEQ_RX_EXPECT p)) }

/-- A unit is discarded for a parity error or a sequence error outside discard mode (R286). -/
def Lanorun.rxError (s : Lanorun) (p : Nat) : Lanorun :=
  let s := ((s.linkCode p 0x0901).event F.LNK_EVENT_PARITY p).countErr R.LNK_PARITY_CNT 1 p
  (s.put F.LNK_SEQ_DISCARD 1 p).queueNak p 0

/-- LSTAT: acknowledged units are freed and credit limits accepted (R285, R295). -/
def Lanorun.lstatReceive (s : Lanorun) (p : Nat) (bs : List (BitVec 8)) : Lanorun :=
  s.ctlUnit p 1 bs fun s =>
    let x := s.port p
    let ack := fieldAt bs 2 2 % 2 ^ 14
    let s := if fieldAt bs 1 1 % 2 = 1 ∧ x.buffer.any (·.seq = ack) then
        (s.setPort p { x with buffer := (x.buffer.dropWhile (·.seq ≠ ack)).drop 1 }).put F.LNK_SEQ_TX_ACKED ack p
      else s
    forN (fun t s =>
      let lim (k : Nat) : Nat := fieldAt bs (4 + 4 * t + 2 * k) 2
      let cap (k : Nat) : Nat := sget 0 x.peerCaps (2 * t + k)
      let used0 := s.get F.LNK_CREDIT_TX_HDR_CONS p t
      let used1 := s.get F.LNK_CREDIT_TX_DATA_CONS p t
      let s := if (lim 0 + 2 ^ 16 - used0) % 2 ^ 16 > cap 0 then s.ctlBad p else s.put F.LNK_CREDIT_TX_HDR_LIM (lim 0) p t
      if (lim 1 + 2 ^ 16 - used1) % 2 ^ 16 > cap 1 then s.ctlBad p else s.put F.LNK_CREDIT_TX_DATA_LIM (lim 1) p t) 0 4 s

/-- FRT is entered, its transmit PLL calibrates, and an FRT_REQ goes out (R303, R306). -/
def Lanorun.enterFrt (s : Lanorun) (p reason : Nat) (lanes : Bool) : Lanorun :=
  let req := [5#8, BitVec.ofNat 8 reason] ++ leBytes 2 (s.get F.LNK_LANES_RX_GOOD p) ++ leBytes 2 (s.get F.LNK_SEQ_RX_EXPECT p)
  let x := s.port p
  ((s.setPort p { x with ctl := x.ctl ++ [req], frtLanes := lanes, nak := none, replay := none }).setLink p 6).put
    F.LNK_STATUS_PLL 2 p

/-- The replay limit is reached: a retrain, or DOWN on probation (R289). -/
def Lanorun.replayLimit (s : Lanorun) (p : Nat) : Lanorun :=
  if s.flag F.LNK_STATUS_PROBATION p then s.portDown p 0x0905
  else
    let s := ((s.linkCode p 0x0903).event F.LNK_EVENT_RETRAIN p).countErr R.LNK_RETRAIN_CNT 1 p
    let x := s.port p
    let s := s.setPort p { x with buffer := x.buffer.map fun u => { u with count := 0 }, nak := none, replay := none, limit := true }
    if 2 ≤ s.get F.LNK_STATUS_VERSION p then s.enterFrt p 1 false else s.setLink p 9

/-- The states in which a port receives units (R298). -/
def Lanorun.receives (s : Lanorun) (p : Nat) : Bool := [3, 4, 5, 6, 9].contains (s.linkState p)

/-- NAK: the replay of its unit will begin, abandoning one in progress; or the limit is reached; or it names no buffered unit
(R287, R289, R291). In a retrain the replay at its end takes its place. -/
def Lanorun.nakReceive (s : Lanorun) (p : Nat) (bs : List (BitVec 8)) : Lanorun :=
  s.ctlUnit p 2 bs fun s =>
    if s.receives p = false then s
    else
      let k := fieldAt bs 2 2 % 2 ^ 14
      let x := s.port p
      match x.buffer.find? (·.seq = k) with
      | none => s.ctlBad p
      | some u =>
        if s.linkState p ≠ 5 then s
        else if u.count = s.replayMax p then s.replayLimit p
        else (s.setPort p { x with nak := some k, replay := none }).carryCheck p

/-- A replay begins from the unit that the NAK names (R287). -/
def Lanorun.replayStart (s : Lanorun) (p : Nat) : Lanorun :=
  let x := s.port p
  match x.nak with
  | none => s
  | some k =>
    let n := ((x.buffer.find? (·.seq = k)).map (·.count + 1)).getD 1
    let s := s.setPort p { x with nak := none, replay := some k, replayEnd := s.get F.LNK_SEQ_TX_NEXT p, frtLanes := false,
                                  buffer := x.buffer.map fun u => if u.seq = k then { u with count := n } else u }
    let s := (s.put F.LNK_SEQ_REPLAY_FROM k p).put F.LNK_SEQ_REPLAYS n p
    ((s.linkCode p 0x0902).event F.LNK_EVENT_REPLAY p).countErr R.LNK_REPLAY_CNT 1 p

/-- No unit was accepted within rtt + 256 unit times of the last NAK: it is sent again (R286). -/
def Lanorun.nakTimeout (s : Lanorun) (p : Nat) : Lanorun :=
  let x := s.port p
  if s.flag F.LNK_SEQ_DISCARD p ∧ s.linkState p = 5 ∧ x.nakOut = none ∧ x.nakAt + s.rttUnits p + 256 ≤ s.unitNow p then s.queueNak p 1
  else s

def Lanorun.probationEnd (s : Lanorun) (p : Nat) : Lanorun :=
  if (s.port p).probEnd ≤ s.frame then s.put F.LNK_STATUS_PROBATION 0 p else s

/-- A direction narrows to half width (R303, R305). -/
def Lanorun.narrowed (s : Lanorun) (p : Nat) : Lanorun :=
  let s := (s.linkCode p 0x0904).event F.LNK_EVENT_LANE_LOSS p
  if s.get F.LNK_SCHED_SCHED_MAX p > 6054 then (s.put F.LNK_STATUS_HALF_OVER 1 p).event F.LNK_EVENT_HALF_OVER p else s

/-- Half width may be used: version 2 or 3 and HALF_EN = 1 (R299). -/
def Lanorun.halfAllowed (s : Lanorun) (p : Nat) : Bool := s.flag F.LNK_CTRL_HALF_EN p && decide (2 ≤ s.get F.LNK_STATUS_VERSION p)

/-- A direction of a width and half still has its lanes good. -/
def stillGood (width half good : Nat) : Bool :=
  if width = 1 then (if half = 0 then good % 256 == 0xFF else good / 256 == 0xFF) else good == 0xFFFF

/-- The receiver lost lock on lanes; good names those that still hold it (R298, R303). While the peer calibrates, lock
detection is held (R306). -/
def Lanorun.laneLoss (s : Lanorun) (p good : Nat) : Lanorun :=
  let x := s.port p
  let st := s.linkState p
  let width := s.get F.LNK_STATUS_RX_WIDTH p
  if st ≠ 5 ∧ st ≠ 6 then s
  else if x.peerCal = some s.frame ∧ x.ut < 4688 + 64 then s
  else
    let s := s.put F.LNK_LANES_RX_GOOD good p
    let w := widthOf good (s.halfAllowed p)
    if stillGood width (s.get F.LNK_STATUS_RX_HALF p) good then s
    else if width = 2 ∧ w.1 = 1 then ((s.setRxWidth p w).narrowed p).enterFrt p 0 true
    else s.portDown p 0x0905

/-- FRT_REQ: the peer starts, or answers, a fast retrain; for lane loss the transmit direction narrows to the lanes that the peer
still receives, or the port goes DOWN (R303). -/
def Lanorun.frtReqReceive (s : Lanorun) (p : Nat) (bs : List (BitVec 8)) : Lanorun :=
  s.ctlUnit p 5 bs fun s =>
    let st := s.linkState p
    if st ≠ 5 ∧ st ≠ 6 then s
    else
      let reason := fieldAt bs 1 1
      let good := fieldAt bs 2 2
      let width := s.get F.LNK_STATUS_TX_WIDTH p
      let s := s.setPort p { s.port p with peerExpect := some (fieldAt bs 4 2 % 2 ^ 14) }
      let s := s.put F.LNK_LANES_TX_GOOD good p
      let w := widthOf good (s.halfAllowed p)
      if reason ≠ 0 ∨ stillGood width (s.get F.LNK_STATUS_TX_HALF p) good then
        (if st = 5 then s.enterFrt p reason (reason = 0) else s)
      else if width = 2 ∧ w.1 = 1 then
        let s := (s.setTxWidth p w).narrowed p
        if st = 5 then s.enterFrt p 0 true else s
      else s.portDown p 0x0905

/-- CAL_NOTICE: lock detection is held while the peer calibrates (R306). -/
def Lanorun.calNoticeReceive (s : Lanorun) (p : Nat) (bs : List (BitVec 8)) : Lanorun :=
  s.ctlUnit p 6 bs fun s => s.setPort p { s.port p with peerCal := some (fieldAt bs 8 8) }

def Lanorun.downNoticeReceive (s : Lanorun) (p : Nat) (bs : List (BitVec 8)) : Lanorun :=
  s.ctlUnit p 7 bs fun s => if 3 ≤ s.linkState p ∧ s.linkState p ≤ 6 ∨ s.linkState p = 9 then s.portDown p 0x0905 else s

def Lanorun.frtDone (s : Lanorun) (p : Nat) : Lanorun := if s.linkState p = 6 then (s.resumeReplay p).pllCalibrated p else s
def Lanorun.frtTimeout (s : Lanorun) (p : Nat) : Lanorun := if s.linkState p = 6 then s.portDown p 0x0905 else s

/-- A long retrain ends, once it has equalised and seen the peer's CONFIG again; the port is ACTIVE at the next Bell (R298). The
peer reported its RX_EXPECT. -/
def Lanorun.retrainDone (s : Lanorun) (p expect : Nat) : Lanorun :=
  if s.linkState p = 9 ∧ (s.port p).reConf ∧ (s.port p).peerSeen then s.setPort p { s.port p with toActive := true, peerExpect := some (expect % 2 ^ 14) } else s
def Lanorun.retrainTimeout (s : Lanorun) (p : Nat) : Lanorun := if s.linkState p = 9 then s.portDown p 0x0905 else s

def Lanorun.downRetry (s : Lanorun) (p : Nat) : Lanorun :=
  if s.linkState p = 7 ∧ s.flag F.LNK_CTRL_AUTO_TRAIN p then s.toDetect p else s

/-- CMD = RETRAIN: from DOWN or TEST to DETECT, from ACTIVE to DOWN (R298, R305). -/
def Lanorun.cmdRetrain (s : Lanorun) (p : Nat) : Lanorun :=
  let st := s.linkState p
  if st = 7 ∨ st = 8 then s.toDetect p
  else if st = 5 then (s.portDown p 0x0905).toDetect p
  else s

def Lanorun.cmdDown (s : Lanorun) (p : Nat) : Lanorun := if s.linkState p = 5 then s.portDown p 0x0905 else s

/-- CMD = PLL_CAL in ACTIVE: CAL_NOTICE for the first frame whose Bell lies at least 256 unit times ahead (R306). -/
def Lanorun.cmdPllCal (s : Lanorun) (p : Nat) : Lanorun :=
  if s.linkState p = 5 then
    let x := s.port p
    let f := if x.ut + 256 ≤ 12500 then s.frame + 1 else s.frame + 2
    s.setPort p { x with calFrame := some f, cal := 4 }
  else s

/-- A calibration of the transmit PLL ends (R306). -/
def Lanorun.pllCalDone (s : Lanorun) (p : Nat) : Lanorun :=
  let s := s.pllCalibrated p
  s.setPort p { s.port p with calFrame := none, cal := 0 }

/-- The PLL temperature moved, in units of 0.0625 °C; beyond 10 °C it is drift (R306). -/
def Lanorun.pllDrift (s : Lanorun) (p : Nat) (t : Int) : Lanorun :=
  let s := s.put F.LNK_PLL_TEMP (ofSigned 16 t) p
  let cal := toSigned 16 (s.get F.LNK_PLL_TEMP_CAL p)
  if (t - cal).natAbs > 160 then
    ((s.put F.LNK_PLL_DRIFT 1 p).linkCode p 0x0909).event F.LNK_EVENT_PLL_DRIFT p
  else s.put F.LNK_PLL_DRIFT 0 p

/-- CMD = TEST, accepted in DISABLED with ENABLE = 1 and in DOWN (R298); the PLL calibrates (R306). -/
def Lanorun.cmdTest (s : Lanorun) (p : Nat) : Lanorun :=
  if (s.linkState p = 0 ∧ s.flag F.LNK_CTRL_ENABLE p) ∨ s.linkState p = 7 then (s.setLink p 8).put F.LNK_STATUS_PLL 2 p
  else s

/-- LNK_TEST START and STOP (R307); a test that ends has counted its pattern errors. -/
def Lanorun.testStart (s : Lanorun) (p : Nat) : Lanorun :=
  if s.linkState p ≠ 8 then s.put F.LNK_TEST_STATUS 4 p
  else if s.get F.LNK_STATUS_PLL p ≠ 0 then s.put F.LNK_TEST_STATUS 3 p
  else if s.get F.LNK_TEST_PATTERN p > 4 then s
  else (s.newSeeds p).put F.LNK_TEST_STATUS 1 p
def Lanorun.testStop (s : Lanorun) (p errors : Nat) : Lanorun :=
  if s.linkState p ≠ 8 then s.put F.LNK_TEST_STATUS 4 p
  else if s.get F.LNK_STATUS_PLL p ≠ 0 then s.put F.LNK_TEST_STATUS 3 p
  else if s.get F.LNK_TEST_STATUS p = 1 then (s.put F.LNK_TEST_STATUS 2 p).countErr R.LNK_TEST_ERR errors p else s

/-- A received control unit by its type (R284). TIME units are TIME_RECEIVE's. -/
def Lanorun.ctlReceive (s : Lanorun) (p : Nat) (bs : List (BitVec 8)) : Lanorun :=
  match fieldAt bs 0 1 with
  | 1 => s.lstatReceive p bs
  | 2 => s.nakReceive p bs
  | 5 => s.frtReqReceive p bs
  | 6 => s.calNoticeReceive p bs
  | 7 => s.downNoticeReceive p bs
  | _ => if ctlOk bs then s else s.ctlBad p

/-- A received unit: parity, then sequence; accepted in order, or discarded; a frozen module
discards flit units without a NAK (R277, R278, R284, R286, R532). Flit units count in ACTIVE alone. -/
def Lanorun.unitReceive (s : Lanorun) (p : Nat) (w : BitVec 544) : Lanorun :=
  let disc := s.flag F.LNK_SEQ_DISCARD p
  if s.receives p = false then s
  else if unitParity w = false then
    if disc then s.countErr R.LNK_PARITY_CNT 1 p else s.rxError p
  else
    let c := unitControl w
    let kind := c / 2 ^ 14
    let bs := unitFlit w
    if kind = 0 then s.ctlReceive p bs
    else if s.linkState p ≠ 5 ∨ s.frozen then s
    else if c % 2 ^ 14 = s.get F.LNK_SEQ_RX_EXPECT p then
      let s := (s.put F.LNK_SEQ_RX_EXPECT ((c + 1) % 2 ^ 14) p).put F.LNK_SEQ_DISCARD 0 p
      let s := s.setPort p { s.port p with accepted := true }
      (s.countEvt R.LNK_RX_UNITS 1 p).flitIn p kind bs
    else if disc then s
    else s.rxError p

/-- A port's share of a Bell: the window units of unit times that did not pass, ACTIVE after training, and the schedule's
restart (R38, R290, R298). -/
def Lanorun.linkBell (p : Nat) (s : Lanorun) : Lanorun :=
  let x := s.port p
  let s := s.setPort p { x with ut := 12500 }
  let s := if ¬ s.frozen ∧ (s.linkState p = 5 ∨ s.linkState p = 6 ∨ s.linkState p = 9) then s.dueEnter p x.ut (12500 - x.ut) else s
  let s := (s.freeLeft p (12500 * (s.frame + 1) - 1)).setPort p { s.port p with ut := 0 }
  let s := if s.linkState p = 5 ∧ (s.port p).calFrame = some (s.frame + 1) then s.put F.LNK_STATUS_PLL 2 p else s
  if (s.port p).toActive then
    if s.linkState p = 4 then s.linkActivate p else if s.linkState p = 9 then s.resumeReplay p else s
  else s

end Sys2Proof.Machine
end

