-- ==== Sys2Proof/Machine/Vault.lean ====
section
/-! DEFINITION. Vault memory: DRAM bytes, ECC and poison, weight views, slot-checked writes and scheduled accesses (R214 to
R225, R229, R357, R358). -/
namespace Sys2Proof.Machine

def Lanorun.vault (s : Lanorun) (v : Nat) : Vault := sget {} s.vaults v
def Lanorun.setVault (s : Lanorun) (v : Nat) (x : Vault) : Lanorun := { s with vaults := sset {} s.vaults v x }
def Lanorun.vaultReady (s : Lanorun) (v : Nat) : Bool := s.flag F.VLT_STATUS_READY v

/-- n DRAM bytes from a vault address; a poisoned granule reads 0xFF (R225). -/
def Lanorun.dram (s : Lanorun) (a n : Nat) : List (BitVec 8) :=
  let x := s.vault (vaultOf a)
  let o := vaultOffset a
  if x.poison = [] then sgets 0#8 x.dram o n
  else (List.range n).map fun i => if x.poison.contains ((o + i) / 32) then 0xFF#8 else sget 0#8 x.dram (o + i)

/-- The poisoned granules among n bytes from a, as vault addresses. -/
def Lanorun.poisoned (s : Lanorun) (a n : Nat) : List Nat :=
  let x := s.vault (vaultOf a)
  let o := vaultOffset a
  (x.poison.filter fun g => decide (g * 32 < o + n) && decide (o < g * 32 + 32)).map fun g => vaultOf a * 2 ^ 36 + g * 32

/-- Writes DRAM bytes; a granule wholly covered is no longer poisoned (R225). A vault that is not READY discards them
(R217). -/
def Lanorun.dramWrite (s : Lanorun) (a : Nat) (bs : List (BitVec 8)) : Lanorun :=
  let v := vaultOf a
  let x := s.vault v
  let o := vaultOffset a
  if s.vaultReady v then
    s.setVault v { x with dram := ssets 0#8 x.dram o bs,
                          poison := x.poison.filter fun g => !(decide (o ≤ g * 32) && decide (g * 32 + 32 ≤ o + bs.length)) }
  else s

/-- A code that is a partition fault of a tenancy, at the level of die and vault (R225, R514). -/
def Lanorun.vaultFault (s : Lanorun) (code v : Nat) (ten : Option Nat) : Lanorun :=
  let s := s.fault code .die v
  match ten with
  | some t => s.partitionFault t
  | none => s

/-- An uncorrectable or poisoned granule was read (R225). -/
def Lanorun.memUe (s : Lanorun) (g : Nat) (ten : Option Nat) : Lanorun :=
  let v := vaultOf g
  let s := (s.event F.VLT_EVENT_MEM_UE v).countErr R.VLT_ECC_UE_CNT 1 v
  let s := s.setReg R.VLT_ECC_LAST (2 ^ 63 + g / 32 * 32) v
  s.vaultFault 0x0705 v ten

/-- The DRAM errors that an access meets: corrected ones are counted, uncorrectable ones poison their granules (R224,
R225). -/
def Lanorun.vaultErrs (s : Lanorun) (es : List VaultErr) : Lanorun :=
  es.foldl (fun s e =>
    let g := e.addr.toNat / 32 * 32
    let v := vaultOf g
    if e.ue then
      let x := s.vault v
      let k := vaultOffset g / 32
      s.setVault v { x with poison := k :: x.poison.filter (· ≠ k) }
    else ((s.event F.VLT_EVENT_MEM_CE v).countErr R.VLT_ECC_CE_CNT 1 v).setReg R.VLT_ECC_LAST g v) s

/-- A tenancy's weight banks. -/
def Lanorun.wgt (s : Lanorun) (t : Nat) : WgtTen := sget {} s.plan.wgt t
def Lanorun.setWgt (s : Lanorun) (t : Nat) (x : WgtTen) : Lanorun :=
  s.setPlan fun p' => { p' with wgt := sset {} s.plan.wgt t x }

/-- The bank in force for step x, false for A, as far as switches have been released: a COMMITTED one holds from its step on
(R374, R376). -/
def WgtTen.base (w : WgtTen) (x : Nat) : Bool :=
  match w.next with
  | some (st, b) => if st ≤ x then b else w.bank
  | none => w.bank

/-- The bank in force for step x; none is UNBOUND (R374). -/
def WgtTen.bankAt (w : WgtTen) (x : Nat) : Option Bool :=
  if w.unbound.any (fun u => decide (u ≤ x)) then none
  else match w.pend with
    | some (st, target) => some (if st ≤ x then target else w.base x)
    | none => some (w.base x)

/-- The PAIR records of a tenancy (R361). -/
def Image.pairs (i : Image) (t : Nat) : List (List (BitVec 8)) :=
  match i.sect 10 t with
  | some x => ((List.range x.count).map x.record).filter fun r => fieldAt r 2 1 == 1
  | none => []

/-- The offsets that a range occupies in vault v (R219). -/
def rangeIn (mask vault base bytes v : Nat) : Option (Nat × Nat) :=
  if vault = 0xFF then
    let n := (maskVaults mask).length
    if mask.testBit v ∧ n ≠ 0 then some (base / (8192 * n) * 8192, ceilDiv (base + bytes) (8192 * n) * 8192) else none
  else if v = vault then some (vaultOffset base, vaultOffset base + bytes) else none

/-- Where a scheduled access of a tenancy's step is made (R357, R358). -/
inductive View where
  | at (a : Nat)
  | unbound
  | bankB
  deriving DecidableEq, Repr

def Lanorun.view (s : Lanorun) (ten : Option Nat) (step a : Nat) : View :=
  match ten, s.activeImage with
  | some t, some im =>
    let v := vaultOf a
    let o := vaultOffset a
    let mask := im.vaultMask t
    (im.pairs t).foldl (fun r p =>
      let vault := fieldAt p 5 1
      let bytes := fieldAt p 0x18 8
      let single := fieldAt p 6 1 % 2 == 1
      let ra := rangeIn mask vault (fieldAt p 8 8) bytes v
      let rb := if single then none else rangeIn mask vault (fieldAt p 0x10 8) bytes v
      match ra, rb with
      | some (lo, hi), some (blo, bhi) =>
        if lo ≤ o ∧ o < hi then
          (match (s.wgt t).bankAt step with
           | none => .unbound
           | some false => .at a
           | some true => .at (v * 2 ^ 36 + (o - lo + blo)))
        else if blo ≤ o ∧ o < bhi then .bankB else r
      | some (lo, hi), none => if lo ≤ o ∧ o < hi ∧ (s.wgt t).bankAt step = none then .unbound else r
      | _, _ => r) (.at a)
  | _, _ => .at a

/-- Splits n bytes from a into parts that each lie in one 32-byte granule. -/
def granuleParts : Nat → Nat → Nat → List (Nat × Nat)
  | 0, _, _ => []
  | f + 1, a, n =>
    if n = 0 then []
    else
      let k := min n (32 - a % 32)
      (a, k) :: granuleParts f (a + k) (n - k)

/-- The faults of a scheduled access by what its granules met: poisoned granules, an UNBOUND view, the B range (R225,
R357, R358). -/
structure Met where
  ue : List Nat := []
  unbound : List Nat := []
  bankB : List Nat := []
  deriving DecidableEq, Repr

def Lanorun.metFaults (s : Lanorun) (ten : Option Nat) (m : Met) : Lanorun :=
  let s := m.ue.foldl (fun s g => s.memUe g ten) s
  let s := m.unbound.foldl (fun s g => s.memUe g ten) s
  let s := if m.unbound = [] then s else (s.event F.MOD_WGT_EVENT_UNBOUND).vaultFault 0x0B06 (vaultOf (m.unbound.headD 0)) ten
  if m.bankB = [] then s else s.vaultFault 0x0703 (vaultOf (m.bankB.headD 0)) ten

/-- A scheduled read through the view; a vault that is not READY gives none (R217, R357). -/
def Lanorun.readView (s : Lanorun) (ten : Option Nat) (step a n : Nat) : List (BitVec 8) × Met :=
  (granuleParts (n / 32 + 2) a n).foldl (fun (bs, m) (q, k) =>
    match s.view ten step q with
    | .at p => (bs ++ s.dram p k, { m with ue := m.ue ++ s.poisoned p k })
    | .unbound => (bs ++ List.replicate k 0xFF#8, { m with unbound := m.unbound ++ [q] })
    | .bankB => (bs ++ List.replicate k 0xFF#8, { m with bankB := m.bankB ++ [q] })) ([], {})

/-- A scheduled write through the view, entered in the digest of a plan frame (R357, R422 to R424). -/
def Lanorun.writeView (s : Lanorun) (ten : Option Nat) (step frame a : Nat) (bs : List (BitVec 8)) : Lanorun × Met :=
  (granuleParts (bs.length / 32 + 2) a bs.length).foldl (fun (s, m) (q, k) =>
    let part := (bs.drop (q - a)).take k
    match s.view ten step q with
    | .at p =>
      let s := s.dramWrite p part
      (match ten with
       | some t => s.digestVault t step frame p part false
       | none => s, m)
    | .unbound => (s, { m with unbound := m.unbound ++ [q] })
    | .bankB => (s, { m with bankB := m.bankB ++ [q] })) (s, {})

/-- The mask bit of a Teller slot in force (R229, R399). -/
def Lanorun.slotBit (s : Lanorun) (i : Nat) : Bool := (s.reg R.TLR_MASK 0 (i / 64)).testBit (i % 64)

/-- A slot-checked write whose mask bit is clear writes none of its granules and counts one suppression in vault v
(R229). -/
def Lanorun.suppressWrite (s : Lanorun) (v : Nat) (ten : Option Nat) (step frame : Nat)
    (pieces : List (Nat × List (BitVec 8))) : Lanorun :=
  let s := s.countEvt R.VLT_SUPPRESS_CNT 1 v
  match ten with
  | some t => pieces.foldl (fun s (q, bs) => s.digestVault t step frame q bs true) s
  | none => s

/-- The vault addresses and bytes of data written from a plain or interleaved address, split where the interleave changes
vault (R218). -/
def writePieces (mask : Nat) (il : Bool) : Nat → Nat → List (BitVec 8) → List (Nat × List (BitVec 8))
  | 0, _, _ => []
  | f + 1, a, bs =>
    if bs = [] then []
    else if il then
      let k := 8192 - a % 8192
      (rangeByte mask true a 0, bs.take k) :: writePieces mask il f (a + k) (bs.drop k)
    else [(a, bs)]

/-- The same split for a read: vault addresses and lengths. -/
def readPieces (mask : Nat) (il : Bool) : Nat → Nat → Nat → List (Nat × Nat)
  | 0, _, _ => []
  | f + 1, a, n =>
    if n = 0 then []
    else if il then
      let k := min n (8192 - a % 8192)
      (rangeByte mask true a 0, k) :: readPieces mask il f (a + k) (n - k)
    else [(a, n)]

/-- A scheduled vault write at its DRAM-access fc: decided as a whole by its Teller slot where it is slot-checked (R222,
R229). -/
def Lanorun.applyVaultWrite (s : Lanorun) (w : VaultWrite) : Lanorun :=
  let go := match w.tslot with
    | some i => s.slotBit i
    | none => true
  if go then
    w.pieces.foldl (fun s (a, bs) =>
      let (s, m) := s.writeView (some w.ten) w.step w.frame a bs
      s.metFaults (some w.ten) m) s
  else s.suppressWrite (vaultOf (w.pieces.headD (0, [])).1) (some w.ten) w.step w.frame w.pieces

/-- The first scheduled write on its way to vault v reaches DRAM; in a refresh window no channel serves it (R222, R223). -/
def Lanorun.scheduledWrite (s : Lanorun) (v : Nat) (errs : List VaultErr) : Lanorun :=
  let s := s.vaultErrs errs
  let here (w : VaultWrite) : Bool := match w.pieces with
    | (a, _) :: _ => vaultOf a == v
    | [] => false
  match s.mesh.vwrites.find? here with
  | none => s
  | some w => if (s.vault v).window then s else (s.setMesh fun e' => { e' with vwrites := s.mesh.vwrites.erase w }).applyVaultWrite w

/-- The read of member m of a vault-source mesh entry, 96 fc before its slot (R222, R322). A vault that is not READY, or in a
refresh window, serves none (R217, R223). -/
def Lanorun.scheduledRead (s : Lanorun) (t e m : Nat) (errs : List VaultErr) : Lanorun :=
  let s := s.vaultErrs errs
  match s.activeImage with
  | none => s
  | some im =>
    match im.mesh t e with
    | none => s
    | some x =>
      if x.skind ≠ 1 ∨ s.tenState t ≠ tenRunning then s
      else
        let il := x.vaddr.testBit 63
        let a := x.vaddr % 2 ^ 39 + m * x.bytes
        let ps := readPieces (im.vaultMask t) il (x.bytes / 8192 + 2) a x.bytes
        if ps.any (fun p => !s.vaultReady (vaultOf p.1) || (s.vault (vaultOf p.1)).window) then s
        else
          let (data, met) := ps.foldl (fun (bs, met) (q, k) =>
            let (d, n) := s.readView (some t) (s.ten t).step q k
            (bs ++ d, { ue := met.ue ++ n.ue, unbound := met.unbound ++ n.unbound, bankB := met.bankB ++ n.bankB : Met }))
            (([] : List (BitVec 8)), ({} : Met))
          let s := s.metFaults (some t) met
          s.setMesh fun e' => { e' with vreads := s.mesh.vreads ++ [{ ten := t, entry := e, member := m, data := data }] }

/-- A switched-on vault has trained its DRAM and written zeros: READY (R217). -/
def Lanorun.vaultReadyNow (s : Lanorun) (v : Nat) : Lanorun :=
  let x := s.vault v
  if x.training then
    ((s.setVault v { x with training := false, dram := [], poison := [] }).put F.VLT_STATUS_READY 1 v).event F.VLT_EVENT_READY v
  else s

/-- A refresh window opens or closes; patrol scrub finds errors in W1 of band 0 with SCRUB_EN = 1 (R223, R224). -/
def Lanorun.refreshWindow (s : Lanorun) (v : Nat) (opens w2 : Bool) (errs : List VaultErr) : Lanorun :=
  let s := s.setVault v { s.vault v with window := opens }
  if opens ∧ w2 = false ∧ s.get F.VLT_STATUS_BAND v = 0 ∧ s.flag F.VLT_CTRL_SCRUB_EN v then
    let s := s.vaultErrs errs
    (errs.filter (·.ue)).foldl (fun s e => s.memUe e.addr.toNat none) s
  else s

/-- The band of a temperature in units of 0.0625 °C (R223). -/
def bandOf (t : Int) : Nat := if t < 85 * 16 then 0 else if t < 95 * 16 then 1 else 2

/-- The hottest layer's temperature changes band; VAULT_HOT is raised on entry to band 2 (R223). -/
def Lanorun.bandChange (s : Lanorun) (v : Nat) (t : Int) : Lanorun :=
  let old := s.get F.VLT_STATUS_BAND v
  let b := bandOf t
  let s := (s.put F.VLT_STATUS_TEMP (ofSigned 16 t) v).put F.VLT_STATUS_BAND b v
  if b = 2 ∧ old ≠ 2 then s.event F.VLT_EVENT_VAULT_HOT v else s

/-- The address of entry k of a control ring (R245). -/
def cringAt (ring k : Nat) : Nat := if ring = 0 then 0xFFF000000 + 64 * (k % 4096) else 0xFFF040000 + 64 * (k % 8192)
def cringSize (ring : Nat) : Nat := if ring = 0 then 4096 else 8192
def Lanorun.cringFull (s : Lanorun) (ring : Nat) : Bool :=
  (s.get F.VLT_CRING_PROD 0 ring + 2 ^ 24 - s.get F.VLT_CRING_CONS 0 ring) % 2 ^ 24 == cringSize ring

/-- The fabric writes a received control packet into a ring, or drops it at a full CR0; a full CR1 holds it back (R245). While
vault 0 is not READY the access is discarded (R217). The answer says whether it was written. -/
def Lanorun.cringWrite (s : Lanorun) (ring : Nat) (pkt : List (BitVec 8)) : Bool × Lanorun :=
  if s.vaultReady 0 = false then (false, s)
  else if s.cringFull ring then
    (false, if ring = 0 then (s.countErr R.VLT_CRING_DROP 1).event F.VLT_EVENT_CRING_DROP else s)
  else
    let p := s.get F.VLT_CRING_PROD 0 ring
    let pkt := pkt.take 64 ++ List.replicate (64 - pkt.length) 0#8
    (true, (s.dramWrite (cringAt ring p) pkt).put F.VLT_CRING_PROD ((p + 1) % 2 ^ 24) 0 ring)

/-- A head steward writes CONS; a value beyond PROD is ignored (R245). -/
def Lanorun.cringCons (s : Lanorun) (ring v : Nat) : Lanorun :=
  let p := s.get F.VLT_CRING_PROD 0 ring
  let c := s.get F.VLT_CRING_CONS 0 ring
  let v := v % 2 ^ 24
  if (v + 2 ^ 24 - c) % 2 ^ 24 ≤ (p + 2 ^ 24 - c) % 2 ^ 24 then s.put F.VLT_CRING_CONS v 0 ring else s

end Sys2Proof.Machine
end

