-- ==== Sys2Proof/Machine/Packet.lean ====
section
/-! DEFINITION. Packets, partition keys, route tables and the network interface's sending side (R327 to R346). -/
namespace Sys2Proof.Machine

/-- CRC-32C, one byte and then bytes (R73, R329). -/
def crcBit (c : Nat) : Nat := if c % 2 = 1 then (c / 2) ^^^ 0x82F63B78 else c / 2
def crcByte (c : Nat) (b : BitVec 8) : Nat :=
  crcBit (crcBit (crcBit (crcBit (crcBit (crcBit (crcBit (crcBit (c ^^^ b.toNat))))))))
def crc32c (bs : List (BitVec 8)) : Nat := (bs.foldl crcByte 0xFFFFFFFF) ^^^ 0xFFFFFFFF

/-- Sets bytes of a list from an offset. -/
def setBytes (l : List (BitVec 8)) (off : Nat) (bs : List (BitVec 8)) : List (BitVec 8) :=
  l.take off ++ bs ++ l.drop (off + bs.length)

/-- Fields of a data header (R329). -/
def Packet.target (k : Packet) : Nat := k.f 0x10 8
def Packet.tslot (k : Packet) : Nat := k.f 0x18 2
def Packet.rtally (k : Packet) : Nat := k.f 0x1A 1 % 16
def Packet.isLast (k : Packet) : Bool := k.f 0x1B 1 % 2 == 1
def Packet.bytes (k : Packet) : Nat := k.f 0x1C 4
def Packet.slotchk (k : Packet) : Bool := (k.f 15 1).testBit 1
def Packet.payload (k : Packet) : List (BitVec 8) := k.data.take k.bytes

/-- The CRC of a packet: HOPS taken as zero; the payload of a data packet (R329). -/
def Packet.crc (k : Packet) : Nat :=
  crc32c (setBytes (k.hdr.take 0x3C) 13 [0#8] ++ (if k.fmt = 2 then k.payload else []))

/-- The packet passes its end-to-end check, and its data header holds what R329 gives (R341). -/
def Packet.crcOk (k : Packet) : Bool :=
  k.f 0x3C 4 == k.crc && (k.fmt != 2 || (decide (32 ≤ k.bytes) && decide (k.bytes ≤ 64 * k.nflit)))

def Packet.withCrc (k : Packet) : Packet := { k with hdr := setBytes (k.hdr.take 0x3C) 0x3C (leBytes 4 k.crc) }

/-- A header flit or control packet without its CRC (R328 to R330); body holds bytes 0x10 on. -/
def mkHdr (fmt tc pkey dst src tag op nflit flags : Nat) (body : List (BitVec 8)) : List (BitVec 8) :=
  pad64 (([fmt, tc].map (BitVec.ofNat 8)) ++ leBytes 2 pkey ++ leBytes 2 dst ++ leBytes 2 src ++ leBytes 4 tag ++
    [BitVec.ofNat 8 op, 32#8, BitVec.ofNat 8 nflit, BitVec.ofNat 8 flags] ++ body)

/-- The body of a data header (R329). -/
def dataBody (target tslot rtally : Nat) (last : Bool) (bytes : Nat) : List (BitVec 8) :=
  leBytes 8 target ++ leBytes 2 tslot ++ [BitVec.ofNat 8 rtally, if last then 1#8 else 0#8] ++ leBytes 4 bytes

/-- This module's physical ID (R337). -/
def Lanorun.ownId (s : Lanorun) : Nat := s.get F.MOD_POSID_ID

/-- Entry x of a table of four 16-bit entries a register. -/
def Lanorun.entry16 (s : Lanorun) (r : Reg) (u x : Nat) : Nat := s.reg r u (x / 4) / 2 ^ (16 * (x % 4)) % 2 ^ 16

/-- The output port for a packet that arrived on port n, or that this module originates: VALID entries only (R336, R337). -/
def Lanorun.outPort (s : Lanorun) (n dst : Nat) : Option Nat :=
  let e := s.entry16 R.LNK_ROUTE n dst
  if e.testBit 15 then some (e % 32) else none
def Lanorun.origPort (s : Lanorun) (dst : Nat) : Option Nat :=
  let e := s.entry16 R.LNK_ROUTE 0 dst
  if e.testBit 15 then some (e / 2 ^ 8 % 32) else none

/-- The image and tenancy of a partition key: of the active image, or the mover's tenancy of a READY slot (R339, R364). -/
def Lanorun.keyTen (s : Lanorun) (k : Nat) : Option (Image × Nat) :=
  let find (im : Image) : Option (Image × Nat) :=
    ((List.range im.tenancyCount).find? fun t => im.pkey t == k).map fun t => (im, t)
  match (match s.activeImage with
    | some im => find im
    | none => none) with
  | some r => some r
  | none =>
    match s.mover.slot with
    | some i => if s.get F.MOD_WGT_STATUS_STATE = 1 ∨ s.get F.MOD_WGT_STATUS_STATE = 2 then
        (let im := s.image i
         if im.pkey s.mover.ten = k then some (im, s.mover.ten) else none) else none
    | none => none

/-- The key check of a packet at a port, arriving or leaving (R339). -/
def Lanorun.keyOk (s : Lanorun) (p : Nat) (leaving : Bool) (tc key : Nat) : Bool :=
  match tc with
  | 0 =>
    match s.keyTen key, s.activeImage with
    | some (_, t), some im =>
      key != 0 && (rangesOf (im.linkRec p)).any fun r => r.ten == t && (if leaving then r.tx else r.rx)
    | _, _ => false
  | 1 => key != 0 && (s.keyTen key).isSome
  | 2 => key == 0
  | _ => key == 0 || (s.keyTen key).isSome

/-- A TC0 packet is lost: its tenancy's partition faults (R94). -/
def Lanorun.tc0Loss (s : Lanorun) (key : Nat) : Lanorun :=
  match s.keyTen key with
  | some (_, t) => s.partitionFault t
  | none => s

/-- PKEY_DROP, NO_ROUTE and HOP_LIMIT: the packet is dropped and counted (R337, R339). PKEY_DROP is a code that the port raises,
0x0A07; as errors, 0x0A08, 0x0A09 and 0x0A0D are shown by their event bits alone (R354, R514). -/
def Lanorun.pkeyDrop (s : Lanorun) (p : Nat) (k : Packet) : Lanorun :=
  let s := (((s.linkCode p 0x0A07).countErr R.LNK_PKEY_CNT 1 p).event F.MOD_NI_EVENT_PKEY_DROP).countErr R.MOD_NI_CNT 1 0 0
  if k.tc = 0 then s.tc0Loss k.pkey else s
def Lanorun.noRoute (s : Lanorun) (k : Packet) : Lanorun :=
  let s := (s.event F.MOD_NI_EVENT_NO_ROUTE).countErr R.MOD_NI_CNT 1 0 1
  if k.tc = 0 then s.tc0Loss k.pkey else s
def Lanorun.hopLimit (s : Lanorun) (k : Packet) : Lanorun :=
  let s := (s.event F.MOD_NI_EVENT_HOP_LIMIT).countErr R.MOD_NI_CNT 1 0 2
  if k.tc = 0 then s.tc0Loss k.pkey else s

/-- A new tag (R328). -/
def Lanorun.newTag (s : Lanorun) : Nat × Lanorun :=
  (s.ni.nextTag, (s.setNi fun n' => { n' with nextTag := (s.ni.nextTag + 1) % 2 ^ 32 }))

/-- An unscheduled packet is handed to the interface; it leaves when a re-send record is free (R343). -/
def Lanorun.niQueue (s : Lanorun) (hdr : List (BitVec 8)) (src bytes : Nat) (from_ : Sender) (mask : Nat := 0) : Lanorun :=
  let r : Resend := { tag := fieldAt hdr 8 4, hdr := hdr, src := src, mask := mask, bytes := bytes, from_ := from_ }
  s.setNi fun n' => { n' with waiting := s.ni.waiting ++ [r] }

/-- The target of a piece of a transfer, its ADDR moved on. -/
def targetAt (target off : Nat) : Nat := setBits target 38 0 (target % 2 ^ 39 + off)

/-- A transfer as data packets of at most 2,048 bytes, of one class, op and key (R332). -/
def Lanorun.sendData (s : Lanorun) (tc pkey dst op target tslot flags rtally src bytes : Nat) (from_ : Sender) : Lanorun :=
  let n := ceilDiv bytes 2048
  forN (fun j s =>
    let k := min 2048 (bytes - 2048 * j)
    let (tag, s) := s.newTag
    s.niQueue (mkHdr 2 tc pkey dst s.ownId tag op (ceilDiv k 64) flags
      (dataBody (if op = 2 then target else targetAt target (2048 * j)) tslot rtally (j + 1 == n) k)) (src + 2048 * j) k from_) 0 n s

/-- A control packet under the re-send rules. -/
def Lanorun.sendCtlPkt (s : Lanorun) (tc pkey dst op : Nat) (body : List (BitVec 8)) (from_ : Sender) : Lanorun :=
  let (tag, s) := s.newTag
  s.niQueue (mkHdr 1 tc pkey dst s.ownId tag op 0 0 body) 0 0 from_

/-- A reply enters the notice buffer, or is dropped at a full one (R345). -/
def Lanorun.reply (s : Lanorun) (k : Packet) : Lanorun :=
  if 64 ≤ s.ni.notices.length then (s.event F.MOD_NI_EVENT_NOTICE_DROP).countErr R.MOD_NI_CNT 1 0 7
  else s.setNi fun n' => { n' with notices := s.ni.notices ++ [k] }

/-- ACK and NACK of a received packet (R330, R342). -/
def Lanorun.sendAck (s : Lanorun) (k : Packet) : Lanorun :=
  let (tag, s) := s.newTag
  s.reply (Packet.withCrc { hdr := mkHdr 1 3 k.pkey k.src s.ownId tag 0x10 0 0 (leBytes 4 k.tag) })
def Lanorun.sendNack (s : Lanorun) (k : Packet) (reason : Nat) : Lanorun :=
  let (tag, s) := s.newTag
  let tc := if reason = 5 then 2 else 3
  let body := leBytes 4 k.tag ++ [BitVec.ofNat 8 reason]
  s.reply (Packet.withCrc { hdr := mkHdr 1 tc (if tc = 2 then 0 else k.pkey) k.src s.ownId tag 0x11 0 0 body })

/-- The vault bytes that a record sends from, interleaved where it has a mask (R218, R343). -/
def Lanorun.recordBytes (s : Lanorun) (r : Resend) : List (BitVec 8) :=
  if r.mask = 0 then s.dram r.src r.bytes
  else (readPieces r.mask true (r.bytes / 8192 + 2) r.src r.bytes).flatMap fun p => s.dram p.1 p.2

/-- The packet that a re-send record sends: its payload read from its source now (R343). -/
def Lanorun.recordPacket (s : Lanorun) (r : Resend) : Packet :=
  let data := match r.from_ with
    | .cell c _ _ => (s.cell c).storeBytes r.src r.bytes
    | _ => s.recordBytes r
  let data := data ++ List.replicate (roundUp data.length 64 - data.length) 0#8
  let flags := fieldAt r.hdr 15 1 / 2 * 2 + (if r.attempt = 1 then 0 else 1)
  Packet.withCrc { hdr := setBytes r.hdr 15 [BitVec.ofNat 8 flags], data := data }

end Sys2Proof.Machine
end

