-- ==== Sys2Proof/Machine/Retire.lean ====
section
/-! DEFINITION. Image-slot states, replacement causes and the remap that retires cells (R69, R518 to R522). -/
namespace Sys2Proof.Machine

/-- States of PLN_SLOT_STAT (R101). -/
def slotEmpty : Nat := 0
def slotLoading : Nat := 1
def slotReady : Nat := 2
def slotActive : Nat := 3
def slotFailed : Nat := 4

def Lanorun.slotState (s : Lanorun) (i : Nat) : Nat := s.get F.PLN_SLOT_STAT_STATE 0 i
/-- A slot's image goes, and with it an operation of the mover on it (R364). -/
def Lanorun.dropImage (s : Lanorun) (i : Nat) : Lanorun :=
  (s.moverSlot i).setPlan fun p' => { p' with images := sset {} s.plan.images i {} }

/-- A slot becomes FAILED with a code, the index of the section table entry concerned and a detail (R69, R84). -/
def Lanorun.slotFail (s : Lanorun) (i code : Nat) (section_ : Nat := 0xFFF) (detail : Nat := 0) : Lanorun :=
  let s := s.setReg R.PLN_SLOT_STAT (code * 2 ^ 16 + section_ % 2 ^ 12 * 16 + slotFailed) 0 i
  ((s.setReg R.PLN_SLOT_DETAIL detail 0 i).event F.PLN_EVENT_LOAD_FAIL).dropImage i

/-- A slot becomes EMPTY. -/
def Lanorun.slotClear (s : Lanorun) (i : Nat) : Lanorun :=
  (((s.setReg R.PLN_SLOT_STAT 0xFFF0 0 i).setReg R.PLN_SLOT_ID 0 0 i).setReg R.PLN_SLOT_DETAIL 0 0 i).dropImage i

/-- Every slot in one of the states becomes FAILED with LOAD_STALE. -/
def Lanorun.slotsStale (s : Lanorun) (states : List Nat) : Lanorun :=
  forN (fun i s => if states.contains (s.slotState i) then s.slotFail i 0x080D else s) 0 4 s

/-- Replacement causes are set; when the first is, DEGRADED is raised (R522). -/
def Lanorun.setReplace (s : Lanorun) (mask : Nat) : Lanorun :=
  let old := s.get F.DBG_STATUS_REPLACE_CAUSE
  let now := old ||| mask
  let s := s.put F.DBG_STATUS_REPLACE_CAUSE now
  if old = 0 ∧ now ≠ 0 then
    (s.put F.DBG_STATUS_REPLACE_REQUESTED 1).event F.DBG_EVENT_DEGRADED
  else s

def Lanorun.cellRetired (s : Lanorun) (c : Nat) : Bool := (s.get F.DBG_BLOCK_RETIRED 0 (c / 17)).testBit (c % 17)
def Lanorun.cellFused (s : Lanorun) (c : Nat) : Bool := (s.get F.DBG_BLOCK_FUSED 0 (c / 17)).testBit (c % 17)

/-- The CEL_ window of a cell answers: it is not fused out, and its block's domain is on (R24, R470). -/
def Lanorun.cellAnswers (s : Lanorun) (c : Nat) : Bool := !s.cellFused c && s.domainOn (c / 17)

/-- One cell is retired; the block's lowest spare takes the place of an active one (R520). -/
def Lanorun.retireOne (s : Lanorun) (c : Nat) : Lanorun :=
  if s.cellRetired c ∨ s.cellFused c then s
  else
    let b := c / 17
    let act := s.get F.DBG_BLOCK_ACTIVE 0 b
    let was := act.testBit (c % 17)
    let s := s.put F.DBG_BLOCK_RETIRED (s.get F.DBG_BLOCK_RETIRED 0 b ||| 2 ^ (c % 17)) 0 b
    let act := if was then act - 2 ^ (c % 17) else act
    let used := act ||| s.get F.DBG_BLOCK_RETIRED 0 b ||| s.get F.DBG_BLOCK_FUSED 0 b
    let act := match was, (List.range 17).find? fun i => !used.testBit i with
      | true, some i => act ||| 2 ^ i
      | _, _ => act
    let s := s.put F.DBG_BLOCK_ACTIVE act 0 b
    s.setCell c { s.cell c with st := 4, why := 0, stopping := false, oneStep := false }

/-- A remap: cells not yet retired are retired, tenancies whose binding they stand in halt at the next Bell, and READY slots
fail with LOAD_STALE (R519 to R522). -/
def Lanorun.remap (s : Lanorun) (cs : List Nat) (lvl : Level) (unit : Nat) : Lanorun :=
  let cs := cs.filter fun c => !(s.cellRetired c) && !(s.cellFused c)
  if cs = [] then s
  else
    let hit := match s.activeImage with
      | some im => (List.range im.tenancyCount).filter fun t =>
          s.tenState t ≠ tenHalted && (im.cellsOf t).any fun c => cs.contains c && s.cellActive c
      | none => []
    let s := cs.foldl Lanorun.retireOne s
    let p := s.activeCells.length
    let s := (s.put F.DBG_STATUS_P p).slotsStale [slotReady]
    let s := hit.foldl (fun s t => s.setTen t { s.ten t with halt := some 0x1103, haltQuiet := false }) s
    let gone := (List.range 16).any fun r => (List.range 85).all fun k => s.cellRetired (85 * r + k) || s.cellFused (85 * r + k)
    let s := s.setReplace ((if p < s.get F.MOD_IDENT_CELLS_GRADE then 1 else 0) + (if gone then 2 else 0))
    (s.fault 0x1103 lvl unit).event F.DBG_EVENT_RETIRED

/-- Cells of block n and of region r. -/
def blockCells (n : Nat) : List Nat := (List.range 17).map (17 * n + ·)
def regionCells (r : Nat) : List Nat := (List.range 85).map (85 * r + ·)

/-- RETIRE of a unit (R519): kind 0 cell, 1 block, 2 region; a kind or unit that names none retires nothing. -/
def Lanorun.retire (s : Lanorun) (kind unit : Nat) : Lanorun :=
  if kind = 0 ∧ unit < 1360 then s.remap [unit] .cell unit
  else if kind = 1 ∧ unit < 80 then s.remap (blockCells unit) .block unit
  else if kind = 2 ∧ unit < 16 then s.remap (regionCells unit) .region unit
  else s

/-- AUTO_RETIRE: a cell whose CEL_UE_CNT rose UE_LIMIT times within WIN seconds is retired (R519). -/
def Lanorun.autoRetire (s : Lanorun) (c : Nat) : Lanorun :=
  let lim := s.get F.DBG_RETIRE_UE_LIMIT
  let lim := if lim = 0 then 2 else lim
  let since := s.frame - 250000 * s.get F.DBG_RETIRE_WIN
  if s.flag F.DBG_CTRL_AUTO_RETIRE ∧ ¬ s.cellRetired c ∧
      lim ≤ ((s.cell c).ueAt.filter fun f => decide (since ≤ f)).length then s.remap [c] .cell c
  else s

end Sys2Proof.Machine
end

