-- ==== Sys2Proof/Machine/Power.lean ====
section
/-! DEFINITION. Power domains, the input monitor, the protective limit, thermal trips, the software envelope and the
control-plane clocks (R18, R19, R466 to R480). -/
namespace Sys2Proof.Machine

/-- The domain of a block's registers (R21, R22). -/
def blkDomain : Blk → Nat → Nat
  | .tlr, _ => 110 | .hst, _ => 110
  | .eth, u => 108 + u
  | .lnk, u => if u < 6 then 104 else if u < 12 then 105 else if u < 15 then 106 else 107
  | .rgn, u => 80 + u
  | .blk, u => u
  | .cel, u => u / 17
  | .vlt, u => 96 + u
  | _, _ => 111

/-- The domain of a register address; PD111 where no block maps it. -/
def addrDomain (a : Nat) : Nat :=
  match findBlock a with
  | some (b, u, _) => blkDomain b u
  | none => 111

/-- PD111 is on whenever the module has power (R466). -/
def Lanorun.isOn (s : Lanorun) (d : Nat) : Bool := d == 111 || s.domainOn d

def Lanorun.setOn (s : Lanorun) (d : Nat) (on : Bool) : Lanorun :=
  let w := s.reg R.PWR_PD_STAT 0 (d / 64)
  s.setReg R.PWR_PD_STAT (setBits w (d % 64) (d % 64) (if on then 1 else 0)) 0 (d / 64)

/-- What a register access of a domain does, where the domain is on; else it meets a bus error and does nothing (R470). -/
def Lanorun.inDomain (s : Lanorun) (d : Nat) (f : Lanorun → Lanorun) : Lanorun := if s.isOn d then f s else s

/-- The registers of a domain take their reset values. -/
def Lanorun.loseRegs (s : Lanorun) (d : Nat) : Lanorun :=
  { s with regs := s.regs.filter (fun e => addrDomain e.1 ≠ d), latch := s.latch.filter (fun e => addrDomain e.1 ≠ d) }

/-- The ports of a link quadrant. -/
def quadrantPorts (d : Nat) : List Nat :=
  if d = 104 then List.range 6 else if d = 105 then (List.range 6).map (6 + ·)
  else if d = 106 then [12, 13, 14] else if d = 107 then [15, 16, 17] else []

/-- An image sets a domain ON (R80). -/
def Image.setsOn (i : Image) (d : Nat) : Bool := fieldAt (i.recd 2 0xFF 0) d 1 == 1

/-- A port of a quadrant that switches off: the consequences of R308, then DISABLED (R467). -/
def Lanorun.portOff (s : Lanorun) (p : Nat) : Lanorun :=
  let st := s.linkState p
  let s := if st = 0 ∨ st = 7 then s else s.portDown p 0x0905
  s.setPort p {}

/-- BLF_STATUS.PTP_VALID is 1 while either port's PTP time is valid; BLF_EVENT.PTP_LOST is set where it falls (R66, R457). -/
def Lanorun.ptpValidNow (s : Lanorun) : Lanorun :=
  let any := s.flag F.ETH_STATUS_PTP_VALID 0 || s.flag F.ETH_STATUS_PTP_VALID 1
  let s := if s.flag F.BLF_STATUS_PTP_VALID ∧ any = false then s.event F.BLF_EVENT_PTP_LOST else s
  s.put F.BLF_STATUS_PTP_VALID (if any then 1 else 0)

/-- A domain loses every state held in it (R469). -/
def Lanorun.domainLost (s : Lanorun) (d : Nat) : Lanorun :=
  let s := forN (fun i s => if s.slotState i = slotReady ∧ (s.image i).setsOn d then s.slotFail i 0x080D else s) 0 4 s
  let s := (quadrantPorts d).foldl Lanorun.portOff s
  let s := s.loseRegs d
  if d < 80 then
    let bit := s.reg R.MOD_MBOX_PEND 0 (d / 64)
    let s := s.setReg R.MOD_MBOX_PEND (setBits bit (d % 64) (d % 64) 0) 0 (d / 64)
    { s.dropNode d with cells := s.cells.filter (fun e => e.1 / 17 ≠ d), stewards := sset {} s.stewards d {} }
  else if d < 96 then s.setRgn (d - 80) {}
  else if d < 104 then
    let v := d - 96
    let s := s.setVault v {}
    { s with engines := s.engines.filter (fun e => e.1 / 32 ≠ v) }
  else if d = 108 ∨ d = 109 then Lanorun.ptpValidNow { s with eths := s.eths.filter (fun e => e.1 + 108 ≠ d) }
  else if d = 110 then { s with host := { mem := s.host.mem }, teller := {} }
  else s

/-- A retired cell stays retired through a loss of its state (R520). -/
def Lanorun.keepRetired (s : Lanorun) (d : Nat) : Lanorun :=
  if d < 80 then
    (blockCells d).foldl (fun s c => if s.cellRetired c then s.setCell c { s.cell c with st := 4 } else s) s
  else s

/-- One switch begins: an OFF takes the domain off at once, an ON takes its time. -/
def Lanorun.switchBegin (s : Lanorun) (x : Nat × Bool) : Lanorun :=
  let s := (s.put F.PWR_PD_CTRL_STATUS 1).put F.PWR_PD_CTRL_DOMAIN x.1
  if x.2 then s else ((s.setOn x.1 false).domainLost x.1).keepRetired x.1

def Lanorun.setPower (s : Lanorun) (f : Power → Power) : Lanorun := { s with power := f s.power }

/-- The switches of a job that are still to make: those to a state that a domain already has take no time, a block takes its
shell on first, and a shell its blocks off (R19, R466, R468). They are judged when the sequencer comes to them. -/
def Lanorun.todoNow (s : Lanorun) : List (Nat × Bool) → List (Nat × Bool)
  | [] => []
  | (d, on) :: rest =>
    let shell := 80 + d / 5
    let blocks := (List.range 5).map ((d - 80) * 5 + ·)
    if s.isOn d = on then s.todoNow rest
    else if on ∧ d < 80 ∧ s.isOn shell = false then (shell, true) :: (d, on) :: rest
    else if on = false ∧ 80 ≤ d ∧ d < 96 then (blocks.filter s.isOn).map (fun b => (b, false)) ++ (d, on) :: rest
    else (d, on) :: rest

/-- The sequencer begins the first of its jobs that has a switch to make; a job with none is complete (R466). -/
def Lanorun.seqFrom (s : Lanorun) : List PdJob → Lanorun
  | [] => s.setPower fun p => { p with wait := [] }
  | j :: rest =>
    match s.todoNow j.todo with
    | [] => (s.put F.PWR_PD_CTRL_STATUS 2).seqFrom rest
    | x :: l => (s.setPower fun p => { p with wait := rest, job := some { j with todo := x :: l } }).switchBegin x

/-- The sequencer, when free, goes on to the jobs that wait. -/
def Lanorun.seqNext (s : Lanorun) : Lanorun := if s.power.job = none then s.seqFrom s.power.wait else s

/-- A request's switches: a block takes its shell on first; a shell takes its blocks off first (R468). -/
def Lanorun.switchesOn (s : Lanorun) (ds : List Nat) : List (Nat × Bool) :=
  ds.foldl (fun l d =>
    let shell := 80 + d / 5
    let l := if d < 80 ∧ ¬ s.isOn shell ∧ ¬ l.contains (shell, true) then l ++ [(shell, true)] else l
    if s.isOn d ∨ l.contains (d, true) then l else l ++ [(d, true)]) []
def Lanorun.switchesOff (s : Lanorun) (ds : List Nat) : List (Nat × Bool) :=
  ds.foldl (fun l d =>
    let blocks := if 80 ≤ d ∧ d < 96 then (List.range 5).map ((d - 80) * 5 + ·) else []
    (blocks ++ [d]).foldl (fun l b => if s.isOn b ∧ ¬ l.contains (b, false) then l ++ [(b, false)] else l) l) []

/-- An image sets a domain OFF. -/
def Image.setsOff (i : Image) (d : Nat) : Bool := i.sect 2 0xFF ≠ none && fieldAt (i.recd 2 0xFF 0) d 1 == 0

/-- An image that the sequencer protects sets the domain ON: the active one, or one in a LOADING or READY slot (R467). -/
def Lanorun.imageOn (s : Lanorun) (d : Nat) : Bool :=
  (match s.activeImage with | some im => im.setsOn d | none => false) ||
  (List.range 4).any fun i => (s.slotState i == slotLoading || s.slotState i == slotReady) && (s.image i).setsOn d

/-- REFUSED_LOCKED covers the shell of a locked block and the blocks that go off with a shell (R467). -/
def Lanorun.lockedOn (s : Lanorun) (d : Nat) : Bool :=
  s.imageOn d || (decide (80 ≤ d) && decide (d < 96) && (List.range 5).any fun b => s.imageOn ((d - 80) * 5 + b))

/-- A software request to the sequencer (R466 to R468). -/
def Lanorun.pdRequest (s : Lanorun) (d : Nat) (on : Bool) : Lanorun :=
  let s := s.put F.PWR_PD_CTRL_DOMAIN d
  let say (n : Nat) : Lanorun := s.put F.PWR_PD_CTRL_STATUS n
  if 110 ≤ d then say 4
  else if s.frozen then say 5
  else if s.flag F.PWR_EVENT_TRIP ∧ on then say 6
  else if s.power.job ≠ none ∨ s.power.wait ≠ [] then say 7
  else if ¬ on ∧ s.lockedOn d then say 8
  else
    match (if on then s.switchesOn [d] else s.switchesOff [d]) with
    | [] => (say 2).event F.PWR_EVENT_PD_DONE
    | l => (s.setPower fun p => { p with wait := [⟨0, l⟩] }).seqNext

/-- The switches of a loader or of an activation wait their turn and then run next (R467). -/
def Lanorun.pdQueue (s : Lanorun) (src : Nat) (l : List (Nat × Bool)) : Lanorun :=
  if l = [] then s else (s.setPower fun p => { p with wait := p.wait ++ [⟨src, l⟩] }).seqNext

/-- A domain comes on with its registers at reset (R466): a block's watchdog counts from here (R257), a shell's Bells and
protective level from 0 (R64, R473), and a vault begins its training (R217). -/
def Lanorun.domainReady (s : Lanorun) (d : Nat) : Lanorun :=
  let s := (s.loseRegs d).setOn d true
  if d < 80 then { s with stewards := sset {} s.stewards d { wdog := s.frame } }
  else if d < 96 then s.setRgn (d - 80) {}
  else if d < 104 then s.setVault (d - 96) { s.vault (d - 96) with training := true }
  else s

/-- The switch in progress completes; the job goes on, or ends with DONE (R466). -/
def Lanorun.switchDone (s : Lanorun) : Lanorun :=
  match s.power.job with
  | none => s
  | some j =>
    match j.todo with
    | [] => s
    | (d, on) :: rest =>
      let s := if on then s.domainReady d else s
      match s.todoNow rest with
      | x :: l => (s.setPower fun p => { p with job := some { j with todo := x :: l } }).switchBegin x
      | [] =>
        let s := (s.setPower fun p => { p with job := none }).put F.PWR_PD_CTRL_STATUS 2
        let s := if j.src = 0 then s.event F.PWR_EVENT_PD_DONE else s
        s.seqNext

/-- The level and unit of a domain's PD_FAIL (R514). -/
def domainLevel (d : Nat) : Level × Nat :=
  if d < 80 then (.block, d) else if d < 96 then (.region, d - 80) else if d < 104 then (.die, d - 96) else (.die, 0)

/-- A domain that did not reach power good is OFF: PD_FAIL, the retirements and causes of R519 and R522, and LOAD_POWER for
the loader's slot (R469). -/
def Lanorun.pdFail (s : Lanorun) : Lanorun :=
  match s.power.job with
  | none => s
  | some j =>
    match j.todo with
    | (d, true) :: _ =>
      let s := ((s.setPower fun p => { p with job := none }).put F.PWR_PD_CTRL_STATUS 3).put F.PWR_PD_CTRL_DOMAIN d
      let s := (s.event F.PWR_EVENT_PD_FAIL).fault 0x0F05 (domainLevel d).1 (domainLevel d).2
      let s := if d < 80 then s.remap (blockCells d) .block d
        else if d < 96 then s.remap (regionCells (d - 80)) .region (d - 80)
        else if d < 104 then s.setReplace 4 else s.setReplace 16
      let s := match j.src, s.plan.load with
        | 1, some l => { s.slotFail l.slot 0x0807 with plan := { (s.slotFail l.slot 0x0807).plan with load := none } }
        | _, _ => s
      s.seqNext
    | _ => s

/-- A cause acts: it is recorded, and the first one after a frame with none raises PROT_ACT (R473). -/
def Lanorun.causeActs (s : Lanorun) (code region : Nat) : Lanorun :=
  let first := s.power.prevCause = false ∧ s.power.caused = []
  let s := (s.put F.PWR_PROT_CAUSE code).put F.PWR_PROT_REGION region
  if first then (s.put F.PWR_PROT_FRAME_LO (s.frame % 2 ^ 32)).event F.PWR_EVENT_PROT else s

/-- The regions whose shell is on. -/
def Lanorun.liveRegions (s : Lanorun) : List Nat := (List.range 16).filter fun r => s.isOn (80 + r)

/-- A cause holds on regions: it is recorded, and their levels take the value that f gives (R473). -/
def Lanorun.causeOn (s : Lanorun) (code region : Nat) (rs : List Nat) : Lanorun :=
  if rs = [] then s
  else
    let s := s.causeActs code region
    s.setPower fun p => { p with caused := p.caused ++ rs.filter (fun r => !p.caused.contains r) }

/-- One sample of the input monitor in mV and mA; above 3,600 W every region goes to level 16 (R471 to R473). -/
def Lanorun.inputSample (s : Lanorun) (mv ma : Nat) : Lanorun :=
  let uw := mv * ma
  let s := s.setPower fun p => { p with samples := (p.samples ++ [(mv, ma)]).drop (p.samples.length - 39),
                                        frameUw := p.frameUw + uw, frameN := p.frameN + 1 }
  if uw > 3600000000 then
    let rs := s.liveRegions
    rs.foldl (fun s r => if s.get F.RGN_CLK_PROT_LEVEL r < 16 then s.setLevel r 16 else s) (s.causeOn 4 0xFF rs)
  else s

/-- The 1 µs averages of ten samples (R471). -/
def Lanorun.inputAverages (s : Lanorun) (ss : List (Nat × Nat)) : Lanorun :=
  let n := ss.length
  if n = 0 then s
  else
    let (v, s) := s.roundDiv ((ss.map (·.1)).sum : Nat) n
    let (i, s) := s.roundDiv ((ss.map (·.2)).sum : Nat) (10 * n)
    let (w, s) := s.roundDiv ((ss.map fun x => x.1 * x.2).sum : Nat) (250000 * n)
    ((s.put F.PWR_INPUT_VIN v.toNat).put F.PWR_INPUT_IIN i.toNat).put F.PWR_INPUT_PIN w.toNat

/-- The regions of a vault's die (R472). -/
def dieRegions (v : Nat) : List Nat := if v < 4 then List.range 8 else (List.range 8).map (8 + ·)

/-- THERM_TRIP: the domains PD0 to PD107 go off, the sequencer's jobs are abandoned, RUNNING tenancies fault, every tenancy that
has faulted halts at the next Bell without a retry, and READY and LOADING slots fail (R474, R475). -/
def Lanorun.thermTrip (s : Lanorun) : Lanorun :=
  let s := (s.event F.PWR_EVENT_TRIP).fault 0x0F03 .module 0
  let s := forN (fun t s => if s.tenState t = tenRunning ∨ s.tenState t = tenFaulted then
      let s := if s.tenState t = tenRunning then s.partitionFault t else s
      s.setTen t { s.ten t with halt := some 0x0F03, haltQuiet := false } else s) 0 16 s
  let s := if s.power.job ≠ none ∨ s.power.wait ≠ [] then s.put F.PWR_PD_CTRL_STATUS 3 else s
  let s := s.setPower fun p => { p with job := none, wait := [] }
  let s := forN (fun d s => if s.isOn d then ((s.setOn d false).domainLost d).keepRetired d else s) 0 108 s
  let s := s.slotsStale [slotReady, slotLoading]
  s.setPlan fun p' => { p' with load := none }

/-- The causes of R472 that hold at an evaluation, as code, PWR_PROT.REGION and the regions acted on, in the table's order. -/
def Lanorun.causesNow (s : Lanorun) (ss : List (Nat × Nat)) (sensors : List Int) (margin : List Nat) :
    List (Nat × Nat × List Nat) :=
  let n := ss.length
  let all := s.liveRegions
  let on (b : Bool) (code reg : Nat) (rs : List Nat) : List (Nat × Nat × List Nat) :=
    if b then [(code, reg, rs.filter all.contains)] else []
  on (decide ((ss.map fun x => x.1 * x.2).sum > 3000000000 * n)) 1 0xFF all ++
  on (decide ((ss.map (·.2)).sum > 80000 * n)) 2 0xFF all ++
  on (decide ((ss.map (·.1)).sum < 40000 * n)) 3 0xFF all ++
  all.flatMap (fun r => on (((sensors.drop (4 * r)).take 4).any fun t => decide (1600 ≤ t)) 5 r [r]) ++
  (List.range 8).flatMap (fun v => on (s.isOn (96 + v) && s.get F.VLT_STATUS_BAND v == 2) 6 0xFF (dieRegions v)) ++
  all.flatMap (fun r => on (margin.contains r) 7 r [r])

/-- The voltage loops of the regions that are on; the answer lists those with MARGIN_EXHAUSTED (R56). -/
def Lanorun.voltageLoops (s : Lanorun) (margins : List Nat) : List Nat × Lanorun :=
  s.liveRegions.foldl (fun a r =>
    let (hit, t) := a.2.voltageLoop r (listGet 255 margins r)
    (if hit then a.1 ++ [r] else a.1, t)) ([], s)

/-- The hottest of a list of temperatures. -/
def hottest : List Int → Int
  | [] => 0
  | [x] => x
  | x :: t => max x (hottest t)

/-- PWR_THERM, RGN_THERM and VLT_STATUS.TEMP take the sensors' readings, and a trip temperature is recorded (R474, R475). -/
def Lanorun.thermRead (s : Lanorun) (sensors vaults : List Int) : Bool × Lanorun :=
  let s := forN (fun r s =>
    let ts := (sensors.drop (4 * r)).take 4
    let s := s.put F.PWR_THERM_TEMP (ofSigned 16 (hottest ts)) 0 r
    if s.isOn (80 + r) then
      s.setReg R.RGN_THERM (leNat (ts.flatMap fun t => leBytes 2 (ofSigned 16 t))) r else s) 0 16 s
  let s := forN (fun v s =>
    let t := listGet 0 vaults v
    let s := s.put F.PWR_THERM_TEMP (ofSigned 16 t) 0 (16 + v)
    if s.isOn (96 + v) then s.put F.VLT_STATUS_TEMP (ofSigned 16 t) v else s) 0 8 s
  let hot := ((List.range 16).filter fun r => ((sensors.drop (4 * r)).take 4).any fun t => decide (1680 ≤ t)) ++
    ((List.range 8).filter fun v => decide (1600 ≤ listGet 0 vaults v)).map (16 + ·)
  (hot ≠ [], hot.foldl (fun s j => s.put F.PWR_THERM_TRIPPED 1 0 j) s)

/-- One 1 µs evaluation: averages over ten samples, voltage loops, causes, levels and trips (R56, R471 to R475). Sensors and
vault temperatures are in units of 0.0625 °C. -/
def Lanorun.evaluate (s : Lanorun) (margins : List Nat) (sensors vaults : List Int) : Lanorun :=
  let ss := s.power.samples.take 10
  let s := (s.setPower fun p => { p with samples := p.samples.drop 10 }).inputAverages ss
  let (trip, s) := s.thermRead sensors vaults
  let (margin, s) := s.voltageLoops margins
  let low : Bool := decide ((ss.map (·.1)).sum < 40000 * ss.length)
  let s := if low ∧ ¬ s.power.vinLow then s.event F.PWR_EVENT_VIN_LOW else s
  let s := s.setPower fun p => { p with vinLow := low }
  let cs := s.causesNow ss sensors margin
  let s := cs.foldl (fun s c => s.causeOn c.1 c.2.1 c.2.2) s
  let s := s.liveRegions.foldl (fun s r =>
    if cs.any fun c => c.2.2.contains r then
      let k := s.get F.RGN_CLK_PROT_LEVEL r
      if k < 16 then s.setLevel r (k + 1) else s
    else s) s
  if trip ∧ ¬ s.flag F.PWR_EVENT_TRIP then s.thermTrip else s

/-- The declared envelope of the present frame in W: BASE_W and each RUNNING tenancy's record for its frame (R83). -/
def Lanorun.declaredW (s : Lanorun) : Nat :=
  match s.activeImage with
  | none => 0
  | some im =>
    fieldAt (im.recd 0xD 0xFF 0) 0 2 + ((List.range im.tenancyCount).map fun t =>
      if s.tenState t = tenRunning ∧ (s.ten t).running then fieldAt (im.recd 0xD t (s.ten t).frameIn) 0 2 else 0).sum

/-- The software envelope in force (R476). -/
def Lanorun.softwareW (s : Lanorun) : Nat := max 1800 (min 3000 (s.get F.PWR_ENV_SW_W))

/-- The protective limit acts on some region: before a Bell, in the frame that it ends, since levels fall at Bells only (R473). -/
def Lanorun.protActs (s : Lanorun) : Bool := s.liveRegions.any fun r => s.get F.RGN_CLK_PROT_LEVEL r ≠ 0

/-- The share of a Bell for power: the frame just ended against the software envelope, PWR_FRAME and PWR_PROT_CNT (R473,
R476); prot says whether the protective limit acted in it. -/
def Lanorun.powerBell (s : Lanorun) (decl : Nat) (prot : Bool) : Lanorun :=
  let p := s.power
  let (meas, s) := if p.frameN = 0 then (0, s) else s.roundDiv (p.frameUw : Int) (250000 * p.frameN)
  let sw := s.softwareW
  let mOver := decide (p.frameUw > sw * 1000000 * p.frameN)
  let dOver := decide (decl > sw)
  let s := ((s.put F.PWR_FRAME_MEAS meas.toNat).put F.PWR_FRAME_DECL_W decl).put F.PWR_FRAME_DECL_OVER (if dOver then 1 else 0)
  let s := s.put F.PWR_FRAME_MEAS_OVER (if mOver then 1 else 0)
  let s := if mOver || dOver then
      let s := s.countEvt R.PWR_CONFLICT_CNT
      if p.conflict then s else s.event F.PWR_EVENT_CAP_CONFLICT
    else s
  let s := if prot then s.countEvt R.PWR_PROT_CNT else s
  s.setPower fun p => { p with frameUw := 0, frameN := 0, prevCause := p.caused ≠ [], caused := [],
                               conflict := mOver || dOver }

/-- The regions whose level falls at this Bell: no cause held on them in the frame just ended (R473). -/
def Lanorun.levelFalls (s : Lanorun) (r : Nat) : Bool := !s.power.caused.contains r

/-- One rail's poll: its values, or no answer (R477). -/
def Lanorun.pmbusPoll (s : Lanorun) (k : Nat) (answer : Option (BitVec 16 × BitVec 16 × BitVec 16 × BitVec 16)) : Lanorun :=
  if s.flag F.PWR_PMB_CTRL_POLL_EN ∧ (s.get F.PWR_CLKEN_EN).testBit 0 ∧ s.get F.DBG_SMB_STATE = 0 then
    match answer with
    | some (v, i, t, st) =>
      let s := s.setReg R.PWR_RAIL (v.toNat * 2 ^ 48 + i.toNat * 2 ^ 32 + t.toNat * 2 ^ 16 +
        (if st = 0 then 0 else 2 ^ 15)) 0 k
      s.setPower fun p => { p with missed := sset 0 p.missed k 0 }
    | none =>
      let n := sget 0 s.power.missed k + 1
      let s := (s.event F.PWR_EVENT_PMB_ERR).setPower fun p => { p with missed := sset 0 p.missed k n }
      if 3 ≤ n then s.put F.PWR_RAIL_STALE 1 0 k else s
  else s

/-- A write of PWR_CLKEN: gating the clock-measure unit abandons its measurement (R478). -/
def Lanorun.clkenWrite (s : Lanorun) (v : Nat) : Lanorun :=
  let s := s.put F.PWR_CLKEN_EN v
  if v.testBit 1 then s else s.setPower fun p => { p with measuring := false }

/-- A write of PWR_CPCLK; breaking the rule of R479 lasts until module reset. -/
def Lanorun.cpclkWrite (s : Lanorun) (per stw : Nat) : Lanorun :=
  let s := (s.put F.PWR_CPCLK_PER_DIV per).put F.PWR_CPCLK_STW_DIV stw
  if stw ≠ 0 ∧ per % stw = 0 ∧ 2 * stw ≤ per then s else s.setPower fun p => { p with ruleKept := false }

/-- A source that the clock-measure unit has (R480). -/
def cmuSource (x : Nat) : Bool :=
  decide (x ≤ 5) || (decide (0x10 ≤ x) && decide (x ≤ 0x27)) || (decide (0x30 ≤ x) && decide (x ≤ 0x41)) ||
  (decide (0x48 ≤ x) && decide (x ≤ 0x4A))

/-- START of a measurement (R480). -/
def Lanorun.cmuStart (s : Lanorun) : Lanorun :=
  if ¬ (s.get F.PWR_CLKEN_EN).testBit 1 then s
  else
    let g := s.get F.PWR_CMU_CTRL_GATE
    if cmuSource (s.get F.PWR_CMU_CTRL_SRC) ∧ 8 ≤ g ∧ g ≤ 24 then
      (s.setReg R.PWR_CMU_RES 0).setPower fun p => { p with measuring := true }
    else ((s.setReg R.PWR_CMU_RES (2 ^ 33 + 2 ^ 32)).event F.PWR_EVENT_CMU_DONE).setPower fun p =>
      { p with measuring := false }

/-- The gate of a measurement ends with a count (R480). -/
def Lanorun.cmuDone (s : Lanorun) (count : Nat) : Lanorun :=
  if s.power.measuring then
    ((s.setReg R.PWR_CMU_RES (2 ^ 32 + count % 2 ^ 32)).event F.PWR_EVENT_CMU_DONE).setPower fun p =>
      { p with measuring := false }
  else s

end Sys2Proof.Machine
end

