-- ==== Sys2Proof/Machine/CtrlSnap.lean ====
section
/-! DEFINITION. Counter snaps, counter clears and tally additions by control writes (R13, R127, R528). -/
namespace Sys2Proof.Machine

/-- The counter group whose SNAP field stands in a register (R13). -/
def snapGrp (r : Reg) : Option Grp :=
  if r = R.RGN_CLK then some .rgn else if r = R.PLN_CTRL then some .pln else if r = R.CEL_CTRL then some .cel
  else if r = R.VLT_CTRL then some .vlt else if r = R.LNK_CTRL then some .lnk else if r = R.MOD_NI_CTRL then some .ni
  else if r = R.MOD_WGT_CTRL then some .wgt else if r = R.TLR_CTRL then some .tlr
  else if r = R.MOD_DET_CTRL then some .det else if r = R.ETH_CTRL then some .eth
  else if r = R.PWR_CTRL then some .pwr else if r = R.DBG_CTRL then some .dbg else none

/-- SNAP of a group (R13); a region's also restarts RGN_FSTAT.MAX_SYNC_RC, the largest since the last SNAP (R67). -/
def Lanorun.snapGroup (s : Lanorun) (g : Grp) (u : Nat) : Lanorun :=
  let s := s.snap g u
  if g = .rgn then s.put F.RGN_FSTAT_MAX_SYNC_RC 0 u else s

/-- The register at an address answers a write: its domain is on, and it is no window of a fused-out cell (R24, R470). -/
def Lanorun.answers (s : Lanorun) (r : Reg) (u : Nat) : Bool :=
  !(r.blk == .cel && s.cellFused u) && s.isOn (blkDomain r.blk u)

/-- A write of 1 to the SNAP field of the register at an address (R13). -/
def Lanorun.snapAt (s : Lanorun) (a : Nat) : Lanorun :=
  match findReg a with
  | some (r, _, u, _) => match snapGrp r with
    | some g => if s.answers r u then s.snapGroup g u else s
    | none => s
  | none => s

/-- A register is an error counter: COUNT of 32 bits beside an OVF that writing 1 clears (R527). -/
def isErrCounter (fs : List Fld) : Bool := fs.any fun f => decide (f.hi = 32) && decide (f.lo = 32) && f.acc == .w1c

/-- Writing 1 to OVF of entry i clears OVF and COUNT, live and latched (R528). -/
def Lanorun.clearErr (s : Lanorun) (r : Reg) (u i : Nat) : Lanorun :=
  let clear (w : Nat) : Nat := w / 2 ^ 33 * 2 ^ 33
  let s := s.setReg r (clear (s.reg r u i)) u i
  if r.grp = none then s
  else { s with latch := sset (BitVec.ofNat 64 r.reset) s.latch (r.addr u i) (BitVec.ofNat 64 (clear (s.latched r u i))) }

/-- A write of 1 to the OVF field of the error counter at an address (R528). -/
def Lanorun.ovfClear (s : Lanorun) (a : Nat) : Lanorun :=
  match findReg a with
  | some (r, fs, u, i) => if isErrCounter fs && s.answers r u then s.clearErr r u i else s
  | none => s

/-- A write to CEL_TALLY_ADD: N is added to tally TALLY (R127). -/
def Lanorun.tallyAddWrite (s : Lanorun) (c v : Nat) : Lanorun :=
  if s.cellAnswers c = false then s
  else s.tallyAdd c (bitsOf v 19 16) (bitsOf v 15 0) 15 (s.cell c).pc

end Sys2Proof.Machine
end

