-- ==== Sys2Proof/Machine/LoadStore.lean ====
section
/-! DEFINITION. The load and store slots (R209 to R213). -/
namespace Sys2Proof.Machine

/-- The address of an access (R211). -/
def Cell.ltAddr (x : Cell) (b : Nat) : Nat := ((x.s (ltRa b)).toNat + ltOff b) % 0x100000

/-- Bytes and alignment of a load (R212). -/
def LKind.bytes (k : LKind) (b : Nat) : Nat :=
  match k with
  | .ldv => 256
  | .lds => 8
  | .ldw => 4
  | .ldc => 256 * (ltNl b + 1)
def LKind.align : LKind → Nat
  | .ldv => 64
  | .lds => 8
  | .ldw => 4
  | .ldc => 256
def TKind.bytes : TKind → Nat
  | .stv => 256
  | .sts => 8
  | .stw => 4
  | .stc => 256
def TKind.align : TKind → Nat
  | .stv => 64
  | .sts => 8
  | .stw => 4
  | .stc => 256

/-- Bytes as 64 lanes (R176). -/
def lanesOf (bs : List (BitVec 8)) : List (BitVec 32) :=
  (List.range 64).map fun l => BitVec.ofNat 32 (fieldAt bs (4 * l) 4)

/-- Lanes as bytes. -/
def laneBytes (ls : List (BitVec 32)) : List (BitVec 8) := ls.flatMap fun l => leBytes 4 l.toNat

/-- A load at issue (R131, R150, R212, R213). -/
def Lanorun.lPlan (s : Lanorun) (c : Nat) (k : LKind) (b : Nat) : OpPlan :=
  let x := s.cell c
  let pr := pred64 b
  let on := x.pred pr
  let a := x.ltAddr b
  let n := k.bytes b
  let bs := if on then x.loadBytes a n else []
  let reg := ltReg b
  let line := ltLine b
  let fault : Option (Nat × Nat) :=
    if on = false then none
    else if a % k.align ≠ 0 then some (0x0701, resNone)
    else if k = .ldc ∧ line + ltNl b > 255 then some (0x0501, resNone)
    else none
  let lines := (List.range (ltNl b + 1)).map fun d => (line + d, 5 + d)
  { foot := { srcs := srcP pr ++ srcS (ltRa b),
              dsts := (match k with
                | .ldv => [(resV reg, 5, 5)]
                | .lds | .ldw => if reg = 0 then [] else [(resS reg, 5, 5)]
                | .ldc => (lines.filter (·.1 < 256)).map fun (l, o) => (resLine l, o, o)),
              units := (resRead, ceilDiv n 512) :: (if k = .ldc then [(resCofferWrite, ltNl b + 1)] else []),
              load := some (a, n) }
    fault := fault
    flights := match k with
      | .ldv => [(5, resV reg, if on then .vreg reg (lanesOf bs) else .none)]
      | .lds | .ldw => [(5, resS reg, if on then .sreg reg (BitVec.ofNat 64 (leNat bs)) else .none)]
      | .ldc => lines.map fun (l, o) =>
          (o, resCofferWrite, if on then .coffer (256 * l) ((bs.drop (256 * (o - 5))).take 256) else .none) }

/-- A store at issue (R131, R204, R212, R213). -/
def Lanorun.tPlan (s : Lanorun) (c : Nat) (k : TKind) (b : Nat) : OpPlan :=
  let x := s.cell c
  let pr := pred64 b
  let on := x.pred pr
  let a := x.ltAddr b
  let n := k.bytes
  let reg := ltReg b
  let line := ltLine b
  let bs := match k with
    | .stv => laneBytes (x.v reg)
    | .sts => leBytes 8 (x.s reg).toNat
    | .stw => leBytes 4 (x.s reg).toNat
    | .stc => x.cofferBytes (256 * line) 256
  { foot := { srcs := srcP pr ++ srcS (ltRa b) ++ (match k with
                | .stv => [resV reg]
                | .sts | .stw => srcS reg
                | .stc => [resLine line]),
              units := [(resWrite, 1)],
              frees := if k = .stc then [(resLine line, 0)] else [],
              stores := [(a, n, 3)], tstore := true }
    fault := if on ∧ a % k.align ≠ 0 then some (0x0701, resNone) else none
    flights := [(3, resWrite, if on then .store a bs else .none)]
    reads := if k = .stc then [(2, line, 0)] else [] }

/-- A load or a store as a command: its 64-bit body. -/
def Lanorun.runL (s : Lanorun) (c : Nat) (k : LKind) (b : Nat) : Lanorun := s.runOp c 3 (s.lPlan c k b)
def Lanorun.runT (s : Lanorun) (c : Nat) (k : TKind) (b : Nat) : Lanorun := s.runOp c 4 (s.tPlan c k b)

end Sys2Proof.Machine
end

