-- ==== Sys2Proof/Machine/Flags.lean ====
section
/-! DEFINITION. Flags: row states with their EMPTY, NAN, INF and ZERO bits, and the event and count flags that vector and
matrix operations set (R173, R175, R183 to R190, R208). -/
namespace Sys2Proof.Machine

/-- One row of a state register: m or s1, l or s2, F, and the fourth lane (R185). -/
structure Row where
  a : BitVec 32
  b : BitVec 32
  f : Nat
  d : BitVec 32
  deriving DecidableEq, Repr

def fEmpty : Nat := 1
def fNan : Nat := 2
def fInf : Nat := 4
def fZero : Nat := 8

/-- Row r of 64 lanes (R185). -/
def rowOf (ls : List (BitVec 32)) (r : Nat) : Row :=
  ⟨listGet 0#32 ls (4 * r), listGet 0#32 ls (4 * r + 1), (listGet 0#32 ls (4 * r + 2)).toNat, listGet 0#32 ls (4 * r + 3)⟩

/-- The lanes with row r replaced. -/
def setRow (ls : List (BitVec 32)) (r : Nat) (x : Row) : List (BitVec 32) :=
  ls.take (4 * r) ++ [x.a, x.b, BitVec.ofNat 32 x.f, x.d] ++ ls.drop (4 * r + 4)

/-- A state is NaN when m, l, s1 or s2 is NaN or F.NAN is 1 (R185). -/
def Row.isNan (x : Row) : Bool := isNan32 x.a || isNan32 x.b || x.f.testBit 1
/-- EMPTY and INF of a softmax state, by F and by m. -/
def Row.isEmpty (x : Row) : Bool := x.f.testBit 0
def Row.mInf (x : Row) : Bool := x.a == inf32 false

/-- The empty states (R186). -/
def emptySoft : Row := ⟨inf32 true, 0#32, fEmpty, 0#32⟩
def emptyMom : Row := ⟨0#32, 0#32, fEmpty, 0#32⟩
def nanSoft : Row := ⟨nan32, nan32, fNan, 0#32⟩

/-- 64 lanes with those from n upward +0. -/
def lanesTo (n : Nat) (x : List (BitVec 32)) : List (BitVec 32) := x.take n ++ List.replicate (64 - min n x.length) 0#32

/-- chunk_softmax of R186 over the first n values. -/
def chunkSoft (x : List (BitVec 32)) (n : Nat) : Row :=
  let xs := x.take n
  if xs.any isNan32 then nanSoft
  else
    let cm := xs.foldl fmaximum (inf32 true)
    if cm = inf32 false then ⟨cm, fofInt (xs.filter (· == inf32 false)).length, fInf, 0#32⟩
    else if cm = inf32 true then emptySoft
    else ⟨cm, tree64 fadd (lanesTo n (xs.map fun v => fexp (fsub v cm))), 0, 0#32⟩

/-- merge of R186: m, l, alpha and beta. -/
def mergeSoft (x y : Row) : BitVec 32 × BitVec 32 × BitVec 32 × BitVec 32 :=
  if x.isNan || y.isNan then (nan32, nan32, nan32, nan32)
  else
    let m := fmaximum x.a y.a
    if m = inf32 true then (m, 0#32, 0#32, 0#32)
    else
      let w (v : BitVec 32) : BitVec 32 :=
        if m = inf32 false then (if v = inf32 false then one32 else 0#32) else fexp (fsub v m)
      let alpha := w x.a
      let beta := w y.a
      (m, ffma y.b beta (fmul x.b alpha), alpha, beta)

/-- F of a merged softmax state (R186). -/
def softFlags (m : BitVec 32) : Nat :=
  if isNan32 m then fNan else if m = inf32 true then fEmpty else if m = inf32 false then fInf else 0

/-- The merged softmax state as a row. -/
def softRow (x y : Row) : Row :=
  let (m, l, _, _) := mergeSoft x y
  ⟨m, l, softFlags m, 0#32⟩

/-- A moment chunk of the first n values (R186). -/
def chunkMom (x : List (BitVec 32)) (n : Nat) : Row :=
  let xs := lanesTo n x
  let fl := (if xs.any isNan32 then fNan else 0) + (if xs.any isInf32 then fInf else 0)
  ⟨tree64 fadd xs, tree64 fadd (xs.map fun v => fmul v v), fl, fofInt n⟩

/-- Moment states merged: flags are ORed and EMPTY is set exactly when n = 0 (R186). -/
def momRow (x y : Row) : Row :=
  let n := fadd x.d y.d
  let fl := (x.f ||| y.f) / 2 * 2
  ⟨fadd x.a y.a, fadd x.b y.b, fl + (if isZero32 n then 1 else 0), n⟩

/-- One fold of R186: MODE, CLEAR and the chunk's length. -/
def foldRow (moments clear : Bool) (old : Row) (x : List (BitVec 32)) (n : Nat) : Row :=
  if moments then momRow (if clear then emptyMom else old) (chunkMom x n)
  else softRow (if clear then emptySoft else old) (chunkSoft x n)

/-- What a finishing operation meets: 0 EMPTY, 1 NAN, 2 INF, as CEL_ROW_CNT numbers them; NaN first (R187). -/
def Row.met (x : Row) : Option Nat :=
  if x.isNan then some 1 else if x.isEmpty then some 0 else if x.mInf then some 2 else none

/-- The event bit and row count of a state that a finishing operation met (R187, R190). -/
def Lanorun.rowMet (s : Lanorun) (c k : Nat) : Lanorun :=
  let s := if k = 0 then s.event F.CEL_VEC_EVENT_EMPTY c else if k = 1 then s.event F.CEL_VEC_EVENT_ROW_NAN c
    else s.event F.CEL_VEC_EVENT_ROW_INF c
  s.countEvt R.CEL_ROW_CNT 1 c k

/-- The events of conversions: sat elements saturated, and whether a NaN was dropped (R170, R208). -/
def Lanorun.convEvents (s : Lanorun) (c sat : Nat) (drop : Bool) : Lanorun :=
  let s := if sat = 0 then s else (s.event F.CEL_VEC_EVENT_QSAT c).countEvt R.CEL_ROW_CNT sat c 3
  if drop then s.event F.CEL_VEC_EVENT_NAN_DROP c else s

/-- Escape counts of a matrix operation: LOW, HIGH, OVER and MISMATCH, with their events (R159 to R165, R175). -/
structure Escapes where
  low : Nat := 0
  high : Nat := 0
  overs : Nat := 0
  mismatch : Nat := 0
  nanOut : Bool := false
  deriving DecidableEq, Repr

def Lanorun.escapes (s : Lanorun) (c : Nat) (e : Escapes) : Lanorun :=
  let bump (s : Lanorun) (n k : Nat) (f : Fld) : Lanorun :=
    if n = 0 then s else (s.countEvt R.CEL_ESC_CNT n c k).event f c
  let s := bump s e.low 0 F.CEL_MTX_EVENT_LOW
  let s := bump s e.high 1 F.CEL_MTX_EVENT_HIGH
  let s := bump s e.overs 2 F.CEL_MTX_EVENT_OVER
  let s := bump s e.mismatch 3 F.CEL_MTX_EVENT_MISMATCH
  if e.nanOut then s.event F.CEL_MTX_EVENT_NAN_OUT c else s

/-- p(x) of VSMXP for a state (R187). -/
def softProb (st : Row) (x : BitVec 32) : BitVec 32 :=
  if st.isNan then nan32
  else if st.isEmpty then 0#32
  else if st.mInf then (if x = inf32 false then rcp st.b else 0#32)
  else if isNan32 x then nan32
  else if x = inf32 true then 0#32
  else fmul (fexp (fsub x st.a)) (rcp st.b)

/-- The log-sum-exp of a state (R187). -/
def rowLse (st : Row) : BitVec 32 :=
  if st.isNan then nan32 else if st.isEmpty then inf32 true else if st.mInf then inf32 false
  else fadd st.a (flog st.b)

/-- Norm parameters of a moment state, the count that a row makes and whether ZERO was set (R190). -/
def normRow (st : Row) (eps : BitVec 32) (rms : Bool) : Row × Option Nat :=
  let bad : Row := ⟨nan32, nan32, fNan, 0#32⟩
  if st.isNan then (bad, some 1)
  else if st.f.testBit 2 then (bad, some 2)
  else if isNan32 eps || flt eps 0#32 then (bad, some 1)
  else if isZero32 st.d then (⟨0#32, 0#32, fEmpty, 0#32⟩, some 0)
  else
    let q := rcp st.d
    let mu := if rms then 0#32 else fmul st.a q
    let ms := fmul st.b q
    let var := if rms then ms else fmaximum 0#32 (fsub ms (fmul mu mu))
    let d := fadd var eps
    if isZero32 d then (⟨mu, 0#32, fZero, 0#32⟩, none) else (⟨mu, rsqrt d, 0, 0#32⟩, none)

end Sys2Proof.Machine
end

