-- ==== Sys2Proof/Machine/Vector.lean ====
section
/-! DEFINITION. The vector slot: lane operations, conversions, permutes, reductions, special functions and row statistics
(R176 to R190). -/
namespace Sys2Proof.Machine

def mask32 (b : Bool) : BitVec 32 := if b then 0xFFFFFFFF#32 else 0#32

/-- A lane operation on va and B (R180). -/
def laneOp (k : VKind) (a b : BitVec 32) : BitVec 32 :=
  match k with
  | .viadd => a + b
  | .visub => a - b
  | .vand => a &&& b
  | .vor => a ||| b
  | .vxor => a ^^^ b
  | .vimin => if a.slt b then a else b
  | .vimax => if a.slt b then b else a
  | .vsll | .vslli => a <<< (b.toNat % 32)
  | .vsrl | .vsrli => a >>> (b.toNat % 32)
  | .vsra | .vsrai => a.sshiftRight (b.toNat % 32)
  | .vimul => a * b
  | .vmov => b
  | .vicmpEq => mask32 (a == b)
  | .vicmpNe => mask32 (a != b)
  | .vicmpLt => mask32 (a.slt b)
  | .vicmpLtu => mask32 (a.ult b)
  | .vfcmpEq => mask32 (feq a b)
  | .vfcmpLt => mask32 (flt a b)
  | .vfcmpLe => mask32 (fle a b)
  | .vfcmpUn => mask32 (funord a b)
  | .vfadd => fadd a b
  | .vfsub => fsub a b
  | .vfmul => fmul a b
  | .vfmin => fminNum a b
  | .vfmax => fmaxNum a b
  | .vfabs => a &&& 0x7FFFFFFF#32
  | .vfneg => a ^^^ 0x80000000#32
  | .vcvtfi => fofInt a.toInt
  | .vcvtif => BitVec.ofInt 32 (ftoInt 32 a)
  | .vexp => fexp a
  | .vexp2 => fexp2 a
  | .vlog => flog a
  | .vlog2 => flog2 a
  | .vrcp => rcp a
  | .vrsqrt => rsqrt a
  | _ => 0#32

/-- The latency class of R131 and R180, before the coffer's 2 rc. -/
def VKind.lat : VKind → Nat
  | .viadd | .visub | .vand | .vor | .vxor | .vimin | .vimax | .vsll | .vsrl | .vsra | .vimul | .vmov | .vsel | .vmovm
  | .vicmpEq | .vicmpNe | .vicmpLt | .vicmpLtu | .vslli | .vsrli | .vsrai | .vmovmi => 2
  | .vfcmpEq | .vfcmpLt | .vfcmpLe | .vfcmpUn | .vfadd | .vfsub | .vfmul | .vfmin | .vfmax | .vfma | .vfnma | .vfabs
  | .vfneg | .vcvtfi | .vcvtif | .vpack | .vunpk | .vscl2 | .vclampi => 4
  | .vperm | .vrot | .vbcl => 3
  | .vmxsc | .vrsum | .vrmax | .vrmin | .vrisum | .vrmsk | .vstat => 6
  | .vexp | .vexp2 | .vlog | .vlog2 | .vrcp | .vrsqrt | .vsmxp | .vlse | .vpmrg | .vonrm | .vnrmf | .vrng => 8

/-- The lanes as one number: lane l at bits 32l + 31 to 32l (R176). -/
def packLanes : List (BitVec 32) → Nat
  | [] => 0
  | b :: t => b.toNat + 2 ^ 32 * packLanes t

/-- A number as 64 lanes. -/
def unpackLanes (n : Nat) : List (BitVec 32) := (List.range 64).map fun l => BitVec.ofNat 32 (n >>> (32 * l))

/-- RM of a conversion with u for SR (R171). -/
def rmOf (rm u : Nat) : Rm := if rm = 0 then .rne else if rm = 1 then .rtz else .sr u

/-- Width in bits of a VPACK format, 8 being the low byte of an INT32 lane (R183). -/
def packWidth (fmt : Nat) : Nat := if fmt = 8 then 8 else (fmtOf fmt).bits

/-- One element of VPACK: its bits, whether it saturated and whether a NaN was dropped (R183). -/
def packOne (fmt rm : Nat) (sat : Bool) (a b u : BitVec 32) : Conv :=
  if fmt = 8 then ⟨a.toNat % 256, false, false⟩
  else if fmt ≤ 5 ∧ b.toNat % 256 = 255 then ⟨0, false, false⟩
  else convert fmt (rmOf rm (u.toNat % 65536)) sat (if fmt ≤ 5 then (b.toNat % 256 : Nat) - 127 else 0) a

/-- VPACK of 64 lanes into element places POS × 64 + l of vd (R183). -/
def vpack (fmt rm : Nat) (sat : Bool) (pos : Nat) (vd a b c : List (BitVec 32)) : List (BitVec 32) × Nat × Bool :=
  let w := packWidth fmt
  let cs := (List.range 64).map fun l => packOne fmt rm sat (listGet 0#32 a l) (listGet 0#32 b l) (listGet 0#32 c l)
  let n := (cs.foldr (fun e n => e.bits % 2 ^ w + 2 ^ w * n) 0)
  let old := packLanes vd
  let lo := pos * 64 * w
  let hi := lo + 64 * w
  let new := (old >>> hi) <<< hi + n <<< lo + old % 2 ^ lo
  (unpackLanes new, (cs.filter (·.sat)).length, cs.any (·.drop))

/-- VUNPK of element places POS × 64 + l of va (R183). -/
def vunpk (fmt pos : Nat) (a b : List (BitVec 32)) : List (BitVec 32) :=
  let w := (fmtOf fmt).bits
  let n := packLanes a
  (List.range 64).map fun l =>
    let e := decodeElem fmt (n >>> ((pos * 64 + l) * w) % 2 ^ w)
    let sc := (listGet 0#32 b l).toNat % 256
    if fmt ≤ 5 then (if sc = 255 then nan32 else (e.scale ((sc : Int) - 127)).round) else e.round

/-- VCLAMPI of one lane (R180). -/
def clampLane (imm : Nat) (a : BitVec 32) : BitVec 32 :=
  if isNan32 a then nan32 else fminNum (fmaxNum a (bf16 (imm % 65536))) (bf16 (imm / 65536))

/-- The 64-bit result of a reduction with DS = 1 or VRMSK (R181). -/
def reduceLanes (k : VKind) (a : List (BitVec 32)) : BitVec 64 :=
  match k with
  | .vrsum => fp64 (tree64 fadd a)
  | .vrmax => fp64 (a.foldl fmaximum (a.headD 0#32))
  | .vrmin => fp64 (a.foldl fminimum (a.headD 0#32))
  | .vrisum => fp64 (tree64 (· + ·) a)
  | .vrmsk => BitVec.ofNat 64 ((List.range 64).foldl (fun n l => if listGet 0#32 a l ≠ 0#32 then n + 2 ^ l else n) 0)
  | _ => 0#64

/-- The reduction that VRMAX and VRMIN start from makes a NaN canonical. -/
def canon64 (v : BitVec 64) : BitVec 64 := if isNan32 (lo32 v) then fp64 nan32 else v

/-- Operand B by BMODE (R178). -/
def Cell.operandB (x : Cell) (b : Nat) : List (BitVec 32) :=
  match vBmode b with
  | 0 => x.v (vVb b)
  | 1 => List.replicate 64 (lo32 (x.s (vVb b)))
  | _ => x.cofferLanes (vCline b)

/-- The guard sources of operand B. -/
def srcB (k : VKind) (b : Nat) : List Nat :=
  if k.readsB then
    (match vBmode b with
     | 0 => [resV (vVb b)]
     | 1 => srcS (vVb b)
     | _ => [resLine (vCline b)])
  else []

/-- The seeds of the tenancy that runs a cell (R419). -/
def Lanorun.seeds (s : Lanorun) (c : Nat) : BitVec 64 × BitVec 64 :=
  match s.tenOfCell c with
  | some t => ((s.ten t).seed0, (s.ten t).seed1)
  | none => (Config.mfsNoTenancy 0x1000, Config.mfsNoTenancy 0x1001)

/-- The Tally word that a cell's present step gives (R184, R197, R199). -/
def Lanorun.cellTally (s : Lanorun) (c pos stream : Nat) : BitVec 32 :=
  let (a, b) := s.seeds c
  tally a b (s.cellStep c) pos stream

/-- The result of a vector operation, in 64 lanes, with its effect on flags (R180 to R190). -/
def Lanorun.vResult (s : Lanorun) (c : Nat) (k : VKind) (b : Nat) : List (BitVec 32) × (Lanorun → Lanorun) :=
  let x := s.cell c
  let a := x.v (vVa b)
  let ob := x.operandB b
  let vc := x.v (vVc b)
  let vd := x.v (vVd b)
  let fn := vFn b
  let row := vRow b
  let imm := vImm b
  let at0 (l : List (BitVec 32)) (i : Nat) : BitVec 32 := listGet 0#32 l i
  let lanes (f : Nat → BitVec 32) : List (BitVec 32) := (List.range 64).map f
  match k with
  | .vsel => (lanes fun l => if at0 vc l ≠ 0#32 then at0 a l else at0 ob l, id)
  | .vmovm => (lanes fun l => if (x.s (vVc b)).getLsbD l then at0 ob l else at0 vd l, id)
  | .vmovmi =>
    let lo := imm % 64
    let n := imm / 64 % 128
    (lanes fun l => if lo ≤ l ∧ l < lo + n then at0 a l else at0 vd l, id)
  | .vfma => (lanes fun l => ffma (at0 a l) (at0 ob l) (at0 vc l), id)
  | .vfnma => (lanes fun l => ffnma (at0 a l) (at0 ob l) (at0 vc l), id)
  | .vpack =>
    let (r, sat, drop) := vpack (fn % 16) (fn / 16 % 4) (fn / 64 % 2 == 1) (row % 8) vd a ob vc
    (r, fun s => s.convEvents c sat drop)
  | .vunpk => (vunpk (fn % 16) (row % 8) a ob, id)
  | .vmxsc =>
    let s0 := blockScale (fn % 16) (a.take 32)
    let s1 := blockScale (fn % 16) (a.drop 32)
    (lanes fun l => BitVec.ofNat 32 (if l < 32 then s0 else s1), id)
  | .vperm => (lanes fun l => at0 a ((at0 ob l).toNat % 64), id)
  | .vrot => (lanes fun l => at0 a ((l + (at0 ob 0).toNat) % 64), id)
  | .vbcl => (lanes fun _ => at0 a ((at0 ob 0).toNat % 64), id)
  | .vrsum | .vrmax | .vrmin | .vrisum | .vrmsk =>
    let r := reduceLanes k a
    let r := if k = .vrmax ∨ k = .vrmin then canon64 r else r
    (lanes fun _ => lo32 r, id)
  | .vstat => (setRow a row (foldRow (fn % 2 == 1) (fn / 2 % 2 == 1) (rowOf a row) ob (fn / 4 + 1)), id)
  | .vsmxp =>
    let st := rowOf ob row
    (lanes fun l => softProb st (at0 a l), fun s => match st.met with
      | some m => s.rowMet c m
      | none => s)
  | .vlse =>
    (lanes fun l => if l < 16 then rowLse (rowOf a l) else 0#32,
     fun s => forN (fun r s => match (rowOf a r).met with
       | some m => s.rowMet c m
       | none => s) 0 16 s)
  | .vpmrg =>
    let p := rowOf a row
    let q := rowOf ob row
    let (m, l, alpha, beta) := mergeSoft p q
    ([m, l, BitVec.ofNat 32 (softFlags m), 0#32, alpha, beta] ++ List.replicate 58 0#32, id)
  | .vonrm =>
    let st := rowOf ob row
    (lanes fun l => if st.isNan then nan32 else if st.isEmpty then 0#32 else fmul (at0 a l) (rcp st.b),
     fun s => match st.met with
       | some m => s.rowMet c m
       | none => s)
  | .vnrmf =>
    let (r, m) := normRow (rowOf a row) (at0 ob 0) (fn % 2 == 1)
    (setRow a row r, fun s =>
      let s := match m with
        | some m => s.rowMet c m
        | none => s
      if r.f = fZero then s.event F.CEL_VEC_EVENT_NORM_ZERO c else s)
  | .vslli | .vsrli | .vsrai => (lanes fun l => laneOp k (at0 a l) (BitVec.ofNat 32 (imm % 32)), id)
  | .vrng =>
    let base := (x.s (vVb b)).toNat
    (lanes fun l => s.cellTally c ((base + (at0 a l).toNat) % 2 ^ 64) (imm % 16), id)
  | .vscl2 => (lanes fun l => ((decode32 (at0 a l)).scale (toSigned 9 (imm % 512))).round, id)
  | .vclampi => (lanes fun l => clampLane imm (at0 a l), id)
  | _ => (lanes fun l => laneOp k (at0 a l) (at0 ob l), id)

/-- DS: the reduction writes a scalar register (R181). -/
def VKind.toScalar (k : VKind) (b : Nat) : Bool :=
  match k with
  | .vrsum | .vrmax | .vrmin | .vrisum | .vrmsk => vFn b / 128 == 1
  | _ => false

/-- A vector operation at issue. -/
def Lanorun.vPlan (s : Lanorun) (c : Nat) (k : VKind) (b : Nat) : OpPlan :=
  let x := s.cell c
  let pr := pred64 b
  let on := x.pred pr
  let line := k.readsB && vBmode b == 2
  let lat := k.lat + (if line then 2 else 0)
  let (r, fx) := s.vResult c k b
  let readsC := k == .vsel || k == .vfma || k == .vfnma || (k == .vpack && vFn b / 16 % 4 == 2)
  let readsD := k == .vmovm || k == .vmovmi || k == .vpack
  let toS := k.toScalar b
  let rd := vVd b
  let res := if toS then resS rd else resV rd
  let sv := if k = .vrmax ∨ k = .vrmin then canon64 (reduceLanes k (x.v (vVa b))) else reduceLanes k (x.v (vVa b))
  { foot := { srcs := srcP pr ++ (if k.readsA then [resV (vVa b)] else []) ++ srcB k b ++
                (if readsC then [resV (vVc b)] else []) ++ (if k = .vmovm then srcS (vVc b) else []) ++
                (if k = .vrng then srcS (vVb b) else []) ++ (if readsD then [resV rd] else []),
              dsts := if toS ∧ rd = 0 then [] else [(res, lat, lat)],
              frees := if line then [(resLine (vCline b), 0)] else [] }
    flights := [(lat, res, if on then (if toS then .sreg rd sv else .vreg rd r) else .none)]
    reads := if line then [(2, vCline b, 0)] else []
    post := if on then fx else id }

/-- A vector operation as a command: its 64-bit body. -/
def Lanorun.runV (s : Lanorun) (c : Nat) (k : VKind) (b : Nat) : Lanorun := s.runOp c 1 (s.vPlan c k b)

end Sys2Proof.Machine
end

