-- ==== Sys2Proof/Machine/Matrix.lean ====
section
/-! DEFINITION. The matrix slot: panels, MMA in FP32 and exact mode, the ledger, BINIT, MLADD, DRAIN through the tail chain
and DRAINL (R142 to R173, R191 to R201). -/
namespace Sys2Proof.Machine

/-- Bits o to o + w - 1 of the coffer (R148). -/
def Cell.cofferBits (x : Cell) (o w : Nat) : Nat :=
  (leNat (x.cofferBytes (o / 8) ((o % 8 + w + 7) / 8)) >>> (o % 8)) % 2 ^ w

/-- Element (row i, k) of a panel whose slices hold n elements of format f from line (R148). -/
def Cell.panelElem (x : Cell) (f line n k i : Nat) : Fp :=
  let w := (fmtOf f).bits
  decodeElem f (x.cofferBits (line * 2048 + (k * n + i) * w) w)

/-- A block scale as an exponent, none for NaN (R144). -/
def Cell.scaleExp (x : Cell) (a : Nat) : Option Int :=
  let e := (x.cofferByte a).toNat
  if e = 255 then none else some ((e : Int) - 127)

/-- The shape and operands of an MMA body, as numbers. -/
structure MmaOp where
  bank : Nat
  acc : Bool
  exact : Bool
  weauto : Bool
  fa : Nat
  fb : Nat
  scaled : Bool
  mq : Nat
  nq : Nat
  k : Nat
  aline : Nat
  bline : Nat
  sline : Nat
  wreg : Nat
  deriving DecidableEq, Repr

def mmaOf (b : Nat) : MmaOp :=
  { bank := mBank b, acc := mAcc b, exact := mExact b, weauto := mWeauto b, fa := mFa b, fb := mFb b, scaled := mScale b,
    mq := mMq b, nq := mNq b, k := mK b, aline := mAline b, bline := mBline b, sline := mSline b, wreg := mWreg b }

def MmaOp.rows (o : MmaOp) : Nat := mRows o.mq
def MmaOp.cols (o : MmaOp) : Nat := nCols o.nq
/-- n of R151; a pair without a rate, which no body that decodes holds, counts as 1,024. -/
def MmaOp.occ (o : MmaOp) : Nat := o.k * 2048 / (if macsOf o.fa o.fb = 0 then 1024 else macsOf o.fa o.fb)

/-- Scale address of A's and B's block j (R149). -/
def MmaOp.scaleA (o : MmaOp) (j i : Nat) : Nat := o.sline * 256 + j * o.rows + i
def MmaOp.scaleB (o : MmaOp) (j c : Nat) : Nat := o.sline * 256 + o.k / 32 * o.rows + j * o.cols + c

/-- The scale exponent of an operand's block: 0 without scales, none for NaN (R144). -/
def Cell.blockExp (x : Cell) (scaled : Bool) (a : Nat) : Option Int := if scaled then x.scaleExp a else some 0

/-- An element with its block's scale. -/
def scaledElem (e : Fp) (sc : Option Int) : Fp :=
  match sc with
  | none => .nan
  | some k => e.scale k

/-- A(i, k) and B(k, c) with their scales (R144, R148). -/
def Cell.opA (x : Cell) (o : MmaOp) (i k : Nat) : Fp :=
  scaledElem (x.panelElem o.fa o.aline o.rows k i) (x.blockExp o.scaled (o.scaleA (k / 32) i))
def Cell.opB (x : Cell) (o : MmaOp) (k c : Nat) : Fp :=
  scaledElem (x.panelElem o.fb o.bline o.cols k c) (x.blockExp o.scaled (o.scaleB (k / 32) c))

/-- A panel as lists: entry i holds the elements along K. -/
def Cell.panelA (x : Cell) (o : MmaOp) : List (List Fp) :=
  (List.range o.rows).map fun i => (List.range o.k).map fun k => x.opA o i k
def Cell.panelB (x : Cell) (o : MmaOp) : List (List Fp) :=
  (List.range o.cols).map fun c => (List.range o.k).map fun k => x.opB o k c

/-- The exact sum of products (R155, R156); no product gives +0. -/
def sumProducts : List Fp → Fp
  | [] => .fin false 0 0
  | p :: ps => ps.foldl Fp.add p

/-- An FP32-mode element never holds -0 (R155): a negative sum that rounds to zero leaves +0 (DEDUCED, log entry 95). -/
def posZero (b : BitVec 32) : BitVec 32 := if b = zero32 true then zero32 false else b

/-- FP32 accumulation in groups of 16 with one rounding each (R155). -/
def accGroups : Nat → BitVec 32 → List Fp → BitVec 32
  | 0, acc, _ => acc
  | n + 1, acc, ps => accGroups n (posZero ((decode32 acc).add (sumProducts (ps.take 16))).round) (ps.drop 16)

/-- T of an element (R160). -/
def Elem.t (e : Elem) : Int := e.x + e.w * 2 ^ 136
/-- The sign of T: that of W once W has stayed at its limit (R160 case 2). -/
def Elem.negT (e : Elem) : Bool := if e.held then decide (e.w < 0) else decide (e.t < 0)
/-- T lies outside -2^135 to 2^135 - 1 (R160 case 3). -/
def Elem.outside (e : Elem) : Bool := e.held || decide (e.t < -(2 ^ 135)) || decide (e.t ≥ 2 ^ 135)

/-- A 136-bit two's complement value. -/
def wrap136 (i : Int) : Int := toSigned 136 (ofSigned 136 i)

/-- Adds t to an element's exact sum (R160). -/
def Elem.add (e : Elem) (t : Int) : Elem :=
  let v := e.x + t
  let x := wrap136 v
  let w := e.w + (v - x) / 2 ^ 136
  if e.held then { e with x := x }
  else if w < -32768 ∨ 32767 < w then { e with x := x, isOver := true, held := true }
  else { e with x := x, w := w }

/-- One scaled product in exact mode with window we: the element, and whether it escaped LOW, HIGH and by case 1 of R160
(R159). -/
def Elem.product (e : Elem) (we : Int) (p : Fp) : Elem × Bool × Bool × Bool :=
  match p with
  | .nan => ({ e with nan := true }, false, false, false)
  | .inf s => (if s then { e with ninf := true } else { e with pinf := true }, false, false, false)
  | .fin s m ex =>
    let d := ex - we
    let t := if 0 ≤ d then m <<< d.toNat else m >>> (-d).toNat
    let lost := decide (d < 0) && m % 2 ^ (-d).toNat != 0
    let e := if lost then { e with low := true } else e
    let high := decide (2 ^ 127 ≤ t)
    if 2 ^ 135 ≤ t then ({ e with isOver := true }, lost, high, true)
    else (e.add (sgn s t), lost, high, false)

/-- A run of products in exact mode, counting LOW, HIGH and case 1 escapes. -/
def exactRun (we : Int) : List Fp → Elem → Nat × Nat × Nat → Elem × Nat × Nat × Nat
  | [], e, n => (e, n)
  | p :: ps, e, (lo, hi, ov) =>
    let (e, l, h, o) := e.product we p
    exactRun we ps e ((if l then lo + 1 else lo), (if h then hi + 1 else hi), (if o then ov + 1 else ov))

/-- The window that an exact MMA with ACC = 0 opens (R158). -/
def Cell.window (x : Cell) (o : MmaOp) : Int :=
  if o.weauto then
    let exps (n : Nat) (addr : Nat → Nat → Nat) : List Int :=
      if o.scaled then ((List.range (o.k / 32)).flatMap fun j => (List.range n).filterMap fun i => x.scaleExp (addr j i))
      else []
    let big (l : List Int) : Int := match l with
      | [] => 0
      | h :: t => t.foldl max h
    let w := big (exps o.rows o.scaleA) + big (exps o.cols o.scaleB) + (fmtOf o.fa).u + (fmtOf o.fb).u - 127
    max (-512) (min 511 w)
  else toSigned 10 ((x.s o.wreg).toNat % 1024)

/-- The bank as the next matrix operation finds it: the newest pending write, which R152 forwards, or the bank. -/
def Cell.bankNow (x : Cell) (b : Nat) : Bank :=
  x.flights.foldl (fun v f => match f.w with
    | .bank n w => if n = b then w else v
    | _ => v) (if b = 0 then x.bank0 else x.bank1)

def Bank.get (v : Bank) (e : Nat) : Elem := sget {} v.els e
def Bank.count (v : Bank) : Nat := mRows v.mq * nCols v.nq

/-- Applies f to every element and gathers escape counts. -/
def bankMap (f : Nat → Elem → Elem × Nat × Nat × Nat) : Nat → Nat → List (Nat × Elem) → List (Nat × Elem) × Nat × Nat × Nat
  | _, 0, els => (els, 0, 0, 0)
  | i, n + 1, els =>
    let (e, lo, hi, ov) := f i (sget {} els i)
    let (els, l, h, o) := bankMap f (i + 1) n (sset {} els i e)
    (els, lo + l, hi + h, ov + o)

/-- The bank after an MMA, with its LOW, HIGH and case 1 counts (R154 to R160). -/
def Cell.mma (x : Cell) (o : MmaOp) : Bank × Nat × Nat × Nat :=
  let old := x.bankNow o.bank
  let start : Bank := if o.acc then old
    else { ledger := o.exact, mq := o.mq, nq := o.nq, we := if o.exact then x.window o else 0 }
  let pa := x.panelA o
  let pb := x.panelB o
  let n := o.cols
  let (els, lo, hi, ov) := bankMap (fun i e =>
    let ps := List.zipWith Fp.mul (listGet [] pa (i / n)) (listGet [] pb (i % n))
    if o.exact then exactRun start.we ps e (0, 0, 0)
    else ({ e with f := accGroups (o.k / 16) e.f ps }, 0, 0, 0)) 0 (o.rows * n) start.els
  ({ start with els := els, high := start.high || hi != 0 }, lo, hi, ov)

/-- The read list of an MMA (R204). -/
def MmaOp.readList (o : MmaOp) : List Nat :=
  let sc := if o.scaled then (List.range (ceilDiv (o.k / 32 * (o.rows + o.cols)) 256)).map (o.sline + ·) else []
  let sa := o.rows * (fmtOf o.fa).bits / 8
  let sb := o.cols * (fmtOf o.fb).bits / 8
  let la := (List.range (ceilDiv (o.k * sa) 256)).map fun x => (256 * x / sa, o.aline + x)
  let lb := (List.range (ceilDiv (o.k * sb) 256)).map fun x => (256 * x / sb, o.bline + x)
  let rec merge : Nat → List (Nat × Nat) → List (Nat × Nat) → List Nat
    | 0, _, _ => []
    | _ + 1, [], l => l.map (·.2)
    | _ + 1, l, [] => l.map (·.2)
    | n + 1, (k, x) :: t, (j, y) :: u =>
      if k ≤ j then x :: merge n t ((j, y) :: u) else y :: merge n ((k, x) :: t) u
  sc ++ merge (la.length + lb.length) la lb

/-- Every byte that an MMA reads lies within the coffer (R150). -/
def MmaOp.inRange (o : MmaOp) : Bool :=
  decide (o.aline * 256 + o.rows * o.k * (fmtOf o.fa).bits / 8 ≤ 65536) &&
  decide (o.bline * 256 + o.cols * o.k * (fmtOf o.fb).bits / 8 ≤ 65536) &&
  (!o.scaled || decide (o.sline * 256 + o.k / 32 * (o.rows + o.cols) ≤ 65536))

/-- Scheduled reads of a port. -/
def portReads (port : Nat) : List Nat → Nat → Nat → List (Nat × Nat × Nat)
  | [], _, _ => []
  | l :: ls, o, d => (port, l, o) :: portReads port ls (o + d) d

/-- MMA at issue (R145 to R160, R173, R204). -/
def Lanorun.mmaPlan (s : Lanorun) (c : Nat) (b : Nat) : OpPlan :=
  let x := s.cell c
  let o := mmaOf b
  let pr := pred64 b
  let on := x.pred pr
  let n := o.occ
  let lines := o.readList
  let old := x.bankNow o.bank
  let fault : Option (Nat × Nat) :=
    if on = false then none
    else if o.inRange = false then some (0x0501, resNone)
    else if o.acc ∧ ¬(old.ledger = o.exact ∧ old.mq = o.mq ∧ old.nq = o.nq) then some (0x0502, resBank o.bank)
    else none
  let usesW := o.exact && !o.acc && !o.weauto
  let (v, lo, hi, ov) := if on ∧ fault = none then x.mma o else (old, 0, 0, 0)
  let esc := (hi != 0 && s.flag F.CEL_MTX_CTRL_FAULT_HIGH c) || (ov != 0 && s.flag F.CEL_MTX_CTRL_FAULT_OVER c)
  { foot := { srcs := srcP pr ++ (if usesW then srcS o.wreg else []) ++ srcLines lines,
              dsts := [(resBank o.bank, 0, n + 6)], units := [(resEngine, n)],
              frees := (srcLines lines).map (fun r => (r, n - 1)) ++ [(resBank o.bank, n - 1)],
              chain := if o.acc then some (o.bank, o.exact) else none, engine := some (o.bank, o.exact) }
    fault := fault
    flights := (if esc then [(n, resBank o.bank, .escape)] else []) ++
      [(n + 6, resBank o.bank, if on then .bank o.bank v else .none)]
    reads := portReads 0 lines 0 2
    post := if on then fun s => s.escapes c { low := lo, high := hi } else id }

/-- BINIT at issue (R166). -/
def Lanorun.binitPlan (s : Lanorun) (c : Nat) (b : Nat) : OpPlan :=
  let x := s.cell c
  let pr := pred64 b
  let on := x.pred pr
  let bank := mBank b
  let v : Bank := { ledger := mExact b, mq := mMq b, nq := mNq b,
                    we := if mExact b then toSigned 10 ((x.s (mWreg b)).toNat % 1024) else 0 }
  { foot := { srcs := srcP pr ++ (if mExact b then srcS (mWreg b) else []), dsts := [(resBank bank, 0, 7)],
              units := [(resEngine, 1)], engine := some (bank, mExact b) }
    flights := [(7, resBank bank, if on then .bank bank v else .none)] }

/-- The fields of a ledger wire word (R163). -/
structure WireWord where
  nan : Bool
  pinf : Bool
  ninf : Bool
  isOver : Bool
  low : Bool
  we : Int
  value : Int
  deriving DecidableEq, Repr

def wireOf (n : Nat) : WireWord :=
  { nan := n.testBit 127, pinf := n.testBit 126, ninf := n.testBit 125, isOver := n.testBit 124, low := n.testBit 123,
    we := toSigned 10 (bitsOf n 122 113), value := toSigned 113 (n % 2 ^ 113) }

def bit (b : Bool) (k : Nat) : Nat := if b then 2 ^ k else 0

def WireWord.bits (w : WireWord) : Nat :=
  bit w.nan 127 + bit w.pinf 126 + bit w.ninf 125 + bit w.isOver 124 + bit w.low 123 + ofSigned 10 w.we * 2 ^ 113 +
    ofSigned 113 w.value

/-- A word added to an element of window we; the answer says whether it mismatched (R165). -/
def Elem.addWord (e : Elem) (we : Int) (w : WireWord) : Elem × Bool :=
  if w.we = we then
    ({ e.add w.value with nan := e.nan || w.nan, pinf := e.pinf || w.pinf, ninf := e.ninf || w.ninf,
                          isOver := (e.add w.value).isOver || w.isOver, low := e.low || w.low }, false)
  else ({ e with nan := true }, true)

/-- MLADD at issue (R165, R169). -/
def Lanorun.mladdPlan (s : Lanorun) (c : Nat) (b : Nat) : OpPlan :=
  let x := s.cell c
  let pr := pred64 b
  let on := x.pred pr
  let bank := mBank b
  let old := x.bankNow bank
  let cnt := old.count
  let n := ceilDiv cnt 16
  let line := mLine b
  let fault : Option (Nat × Nat) :=
    if on = false then none
    else if line * 256 + 16 * cnt > 65536 then some (0x0501, resNone)
    else if old.ledger = false then some (0x0502, resBank bank)
    else none
  let run := on && fault == none
  let word (i : Nat) : WireWord := wireOf (leNat (x.cofferBytes (line * 256 + 16 * i) 16))
  let (els, mis, ov, _) := if run then bankMap (fun i e =>
    let w := word i
    let (e, m) := e.addWord old.we w
    (e, (if m then 1 else 0), (if w.isOver then 1 else 0), 0)) 0 cnt old.els else (old.els, 0, 0, 0)
  let esc := (mis != 0 || ov != 0) && s.flag F.CEL_MTX_CTRL_FAULT_OVER c
  let lines := (List.range n).map (line + ·)
  { foot := { srcs := srcP pr ++ srcLines lines, dsts := [(resBank bank, 0, n + 6)], units := [(resEngine, n)],
              frees := (srcLines lines).map (fun r => (r, n - 1)) ++ [(resBank bank, n - 1)],
              chain := some (bank, true), engine := some (bank, true) }
    fault := fault
    flights := (if esc then [(n, resBank bank, .escape)] else []) ++
      [(n + 6, resBank bank, if on then .bank bank { old with els := els } else .none)]
    reads := portReads 0 lines 0 1
    post := if on then fun s => s.escapes c { mismatch := mis } else id }

/-- The FP32 value that an element of a bank enters the tail chain with (R161, R167). -/
def drainValue (ledger : Bool) (we : Int) (e : Elem) : BitVec 32 :=
  if ledger = false then e.f
  else if e.nan || (e.pinf && e.ninf) then nan32
  else if e.pinf then inf32 false
  else if e.ninf then inf32 true
  else if e.isOver then encode32 e.negT (2 ^ 135 - 1) we
  else encode32 (decide (e.t < 0)) e.t.natAbs we

/-- The ledger wire word of an element, and whether VALUE saturated (R164). -/
def drainWord (we : Int) (e : Elem) : WireWord × Bool :=
  let fits := !e.isOver && decide (-(2 ^ 112) ≤ e.t) && decide (e.t < 2 ^ 112)
  let v : Int := if e.nan then 0 else if fits then e.t else if e.negT then -(2 ^ 112 - 1) else 2 ^ 112 - 1
  ({ nan := e.nan, pinf := e.pinf, ninf := e.ninf, isOver := e.isOver || !fits, low := e.low, we := we, value := v }, !fits)

/-- A drain sets OVER on elements whose T is outside (R160 case 3). -/
def Bank.markOver (v : Bank) : Bank :=
  if v.ledger then { v with els := v.els.map fun (k, e) => (k, if e.outside then { e with isOver := true } else e) } else v

/-- Tail-chain record i of a cell (R192): with no TAILCFG section there is one, of zeros. -/
def Cell.tailRec (x : Cell) (i : Nat) : List (BitVec 8) := sgets 0#8 x.tail (64 * i) 64

/-- A configuration record's fields (R192). -/
structure TailCfg where
  stages : Nat := 0
  posreg : Nat := 0
  stride : Nat := 0
  scale : Nat := 0
  bias : Nat := 0
  act : Nat := 0
  resid : Nat := 0
  drop : Nat := 0
  stat : Nat := 0
  quant : Nat := 0
  deriving DecidableEq, Repr

def tailCfgOf (r : List (BitVec 8)) : TailCfg :=
  { stages := fieldAt r 2 1, posreg := fieldAt r 3 1 % 32, stride := fieldAt r 4 4, scale := fieldAt r 8 4,
    bias := fieldAt r 12 4, act := fieldAt r 16 4, resid := fieldAt r 20 4, drop := fieldAt r 24 4, stat := fieldAt r 28 4,
    quant := fieldAt r 32 4 }

/-- The configuration that TCFG names, where it is the INDEX of a configuration record (R201). -/
def Cell.tailCfg (x : Cell) (i : Nat) : Option TailCfg :=
  if i < x.tailRecs ∧ fieldAt (x.tailRec i) 1 1 = 0 ∧ fieldAt (x.tailRec i) 0 1 = i then some (tailCfgOf (x.tailRec i)) else none

def TailCfg.on (t : TailCfg) (n : Nat) : Bool := t.stages.testBit n
/-- DROP, or QUANT with RM = SR, draws random words (R201). -/
def TailCfg.random (t : TailCfg) : Bool := t.on 4 || (t.on 6 && bitsOf t.quant 27 26 == 2)
def TailCfg.fmt (t : TailCfg) : Nat := bitsOf t.quant 31 28
def TailCfg.mx (t : TailCfg) : Bool := t.on 6 && t.quant.testBit 24
/-- Output bits per element. -/
def TailCfg.width (t : TailCfg) : Nat := if t.on 6 then (fmtOf t.fmt).bits else 32
/-- Bytes that a drain of e elements in r rows writes (R199). -/
def TailCfg.bytes (t : TailCfg) (e r : Nat) : Nat := e * t.width / 8 + (if t.mx then r else 0)
/-- Bytes per residual element (R196). -/
def TailCfg.residSize (t : TailCfg) : Nat := if bitsOf t.resid 23 20 = 0 then 4 else 2
def TailCfg.residLine (t : TailCfg) : Nat := bitsOf t.resid 31 24
def TailCfg.vreg (t : TailCfg) : Nat := bitsOf t.stat 31 27

/-- The scalar and vector registers that SCALE and BIAS name (R193, R201). -/
def stageSrcs (on : Bool) (w : Nat) : List Nat :=
  if on = false then []
  else match bitsOf w 31 30 with
    | 1 => srcS (bitsOf w 29 25)
    | 2 | 3 => [resV (bitsOf w 29 25)]
    | _ => []

/-- RS = RNE(65,536 / KEEP) (R197). -/
def rescale (keep : Nat) : BitVec 32 :=
  if keep = 0 then inf32 false
  else
    let q := 2 ^ 80 / keep
    encode32 false (2 * q + (if 2 ^ 80 % keep = 0 then 0 else 1)) (-65)

/-- A SCALE or BIAS operand of element (i, c) from its SRC (R193). -/
def Cell.stageValue (x : Cell) (w i c : Nat) : BitVec 32 :=
  let reg := bitsOf w 29 25
  match bitsOf w 31 30 with
  | 1 => lo32 (x.s reg)
  | 2 => listGet 0#32 (x.v reg) i
  | _ => listGet 0#32 (x.v reg) c

/-- The residual of element e (R196). -/
def Cell.residual (x : Cell) (t : TailCfg) (e : Nat) : BitVec 32 :=
  let a := t.residLine * 256 + t.residSize * e
  let n := leNat (x.cofferBytes a t.residSize)
  match bitsOf t.resid 23 20 with
  | 0 => BitVec.ofNat 32 n
  | 1 => (decodeElem 6 n).round
  | _ => (decodeElem 7 n).round

/-- ACT of an element: TABLE reads the table record (R194, R195). -/
def Cell.actStage (x : Cell) (w : Nat) (y : BitVec 32) : BitVec 32 :=
  if w % 256 = 0x0B then
    let r := x.tailRec (w / 256 % 256)
    pwl (fieldAt r 2 1) ((List.range 7).map fun j => fieldAt r (4 + 2 * j) 2)
      ((List.range 8).map fun j => (fieldAt r (0x14 + 4 * j) 2, fieldAt r (0x16 + 4 * j) 2)) y
  else activation (w % 256) (w / 65536) y

/-- Stages 1 to 5 of R191 on element e = i × NCOLS + c. -/
def Lanorun.tailElem (s : Lanorun) (cell : Nat) (t : TailCfg) (ncols e : Nat) (y : BitVec 32) : BitVec 32 :=
  let x := s.cell cell
  let i := e / ncols
  let c := e % ncols
  let y := if t.on 0 then
      (if bitsOf t.scale 31 30 = 0 then ((decode32 y).scale (toSigned 9 (t.scale % 512))).round
       else fmul y (x.stageValue t.scale i c)) else y
  let y := if t.on 1 then fadd y (x.stageValue t.bias i c) else y
  let y := if t.on 2 then x.actStage t.act y else y
  let y := if t.on 3 then
      (if t.resid.testBit 19 then fmul y (x.residual t e) else fadd y (x.residual t e)) else y
  if t.on 4 then
    let pos := ((x.s t.posreg).toNat + i * t.stride + c) % 2 ^ 64
    let keep := t.drop / 65536
    let u := (s.cellTally cell pos (bitsOf t.drop 15 12)).toNat % 65536
    if keep ≤ u then 0#32 else if t.drop.testBit 11 then fmul y (rescale keep) else y
  else y

/-- QUANT of element e of a row, with scale exponent sx (R199). -/
def Lanorun.tailQuant (s : Lanorun) (cell : Nat) (t : TailCfg) (ncols e : Nat) (sx : Int) (y : BitVec 32) : Conv :=
  let x := s.cell cell
  let pos := ((x.s t.posreg).toNat + e / ncols * t.stride + e % ncols) % 2 ^ 64
  let u := if bitsOf t.quant 27 26 = 2 then (s.cellTally cell pos (bitsOf t.quant 23 20)).toNat / 65536 else 0
  convert t.fmt (rmOf (bitsOf t.quant 27 26) u) (t.quant.testBit 25) sx y

/-- Packs w-bit elements into bytes, lowest first. -/
def packBits (w : Nat) (l : List Nat) : List (BitVec 8) :=
  leBytes (l.length * w / 8) (l.foldr (fun e n => e % 2 ^ w + 2 ^ w * n) 0)

/-- The output of a drain: writes as group, byte offset from ADDR and bytes; saturated elements; and whether a NaN was
dropped (R170, R172, R199). -/
def Lanorun.tailOut (s : Lanorun) (cell : Nat) (t : TailCfg) (nrows ncols : Nat) (ys : List (BitVec 32)) :
    List (Nat × Nat × List (BitVec 8)) × Nat × Bool :=
  let cnt := nrows * ncols
  if t.on 6 = false then
    ((List.range (cnt / 64)).map fun g =>
      (g, 256 * g, ((ys.drop (64 * g)).take 64).flatMap fun y => leBytes 4 y.toNat), 0, false)
  else if t.mx = false then
    let cs := (List.range cnt).map fun e => s.tailQuant cell t ncols e 0 (listGet 0#32 ys e)
    let w := t.width
    ((List.range (cnt / 64)).map fun g =>
      (g, 8 * w * g, packBits w (((cs.drop (64 * g)).take 64).map (·.bits))), (cs.filter (·.sat)).length, cs.any (·.drop))
  else
    let w := t.width
    let rows := (List.range nrows).map fun i =>
      let row := (ys.drop (i * ncols)).take ncols
      let sb := blockScale t.fmt row
      let cs := (List.range ncols).map fun c =>
        if sb = 255 then (⟨0, false, false⟩ : Conv)
        else s.tailQuant cell t ncols (i * ncols + c) ((sb : Int) - 127) (listGet 0#32 row c)
      let g := (i * ncols + ncols - 1) / 64
      ([(g, i * ncols * w / 8, packBits w (cs.map (·.bits))), (g, cnt * w / 8 + i, [BitVec.ofNat 8 sb])],
       (cs.filter (·.sat)).length)
    (rows.flatMap (·.1), (rows.map (·.2)).sum, false)

/-- The state registers that an enabled STAT stage leaves (R198): a register number and its lanes. -/
def Cell.tailStat (x : Cell) (t : TailCfg) (nrows ncols : Nat) (ys : List (BitVec 32)) : List (Nat × List (BitVec 32)) :=
  if t.on 5 then
    (List.range (nrows / 16)).map fun q =>
      (t.vreg + q, (List.range 16).foldl (fun ls r =>
        setRow ls r (foldRow (t.stat.testBit 25) (t.stat.testBit 26) (rowOf ls r)
          ((ys.drop ((16 * q + r) * ncols)).take ncols) ncols)) (x.v (t.vreg + q)))
  else []

/-- Writes of a drain to its destination as flights: store or coffer. -/
def outFlights (dest addr res : Nat) (on : Bool) (ws : List (Nat × Nat × List (BitVec 8))) : List (Nat × Nat × Write) :=
  ws.map fun (g, o, bs) =>
    (12 + g, res, if on then (if dest = 1 then .coffer (addr + o) bs else .store (addr + o) bs) else .none)

/-- The lines that a drain to the coffer writes, with the landing of the last group that writes each (R201). -/
def outLines (addr : Nat) (ws : List (Nat × Nat × Nat)) : List (Nat × Nat) :=
  ws.foldl (fun l (g, o, n) =>
    if n = 0 then l
    else (List.range ((addr + o + n - 1) / 256 + 1 - (addr + o) / 256)).foldl
      (fun l i => setMax l ((addr + o) / 256 + i) (12 + g)) l) []

/-- DRAIN at issue (R160, R161, R167, R173, R191 to R201, R204, R206). -/
def Lanorun.drainPlan (s : Lanorun) (c : Nat) (b : Nat) : OpPlan :=
  let x := s.cell c
  let pr := pred64 b
  let on := x.pred pr
  let bank := mBank b
  let v := (x.bankNow bank).markOver
  let nr := mRows v.mq
  let nc := nCols v.nq
  let cnt := nr * nc
  let gs := ceilDiv cnt 64
  let dest := mDest b
  let addr := mAddr b
  let cfg := x.tailCfg (mTcfg b)
  let t := cfg.getD {}
  let lim := if dest = 1 then 65536 else 0x100000
  let fault : Option (Nat × Nat) :=
    if on = false then none
    else match cfg with
      | none => if addr + 4 * cnt > lim then some (0x0501, resNone) else some (0x0602, resNone)
      | some t =>
        if addr + t.bytes cnt nr > lim ∨ (t.on 3 ∧ t.residLine * 256 + t.residSize * cnt > 65536)
        then some (0x0501, resNone) else none
  let run := on && fault == none
  let ins := if run then (List.range cnt).map fun e => drainValue v.ledger v.we (v.get e) else []
  let ys := (List.range ins.length).map fun e => s.tailElem c t nc e (listGet 0#32 ins e)
  let (ws, sat, drop) := if run then s.tailOut c t nr nc ys else ([], 0, false)
  let spans : List (Nat × Nat × Nat) :=
    if t.mx then (List.range nr).flatMap fun i =>
      [((i * nc + nc - 1) / 64, i * nc * t.width / 8, nc * t.width / 8), ((i * nc + nc - 1) / 64, cnt * t.width / 8 + i, 1)]
    else (List.range gs).map fun g => (g, 8 * t.width * g, 8 * t.width)
  let stats := if t.on 5 then (List.range (nr / 16)).map fun q => t.vreg + q else []
  let overs := if v.ledger then (v.els.filter fun e => e.1 < cnt && e.2.isOver).length else 0
  let esc := run && overs != 0 && s.flag F.CEL_MTX_CTRL_FAULT_OVER c
  let lines := outLines addr spans
  let port := if dest = 1 then resCofferWrite else resWrite
  let res := match stats with
    | q :: _ => resV q
    | [] => port
  let rl := if t.on 3 then
      (if t.residSize = 4 then (List.range gs).map fun g => (t.residLine + g, g)
       else ((List.range gs).filter (· % 2 == 0)).map fun g => (t.residLine + g / 2, g))
    else []
  { foot := { srcs := srcP pr ++ [resBank bank] ++ stageSrcs (t.on 0) t.scale ++ stageSrcs (t.on 1) t.bias ++
                (if t.random then srcS t.posreg else []) ++
                (if t.stat.testBit 26 then [] else stats.map resV) ++ srcLines (rl.map (·.1)),
              dsts := stats.map (fun q => (resV q, 11 + gs, 11 + gs)) ++
                (if dest = 1 then (lines.filter (·.1 < 256)).map fun (l, o) => (resLine l, o, o) else []),
              units := (resTail, gs) :: (if dest = 1 then [(resCofferWrite, 12 + gs)] else []),
              frees := (resBank bank, gs - 1) :: (rl.filter (·.1 < 256)).map (fun (l, o) => (resLine l, o)),
              stores := if dest = 0 then spans.map fun (g, o, n) => (addr + o, n, 12 + g) else [] }
    fault := fault
    flights := (if esc then [(gs, resBank bank, .escape)] else []) ++
      (if run then outFlights dest addr res true ws else spans.map fun (g, _, _) => (12 + g, res, .none)) ++
      (if run then (x.tailStat t nr nc ys).map fun (q, ls) => (11 + gs, resV q, .vreg q ls)
       else stats.map fun q => (11 + gs, resV q, .none))
    reads := rl.map fun (l, o) => (1, l, o)
    post := if run then fun s =>
        let s := s.setCell c (let y := s.cell c; if bank = 0 then { y with bank0 := v } else { y with bank1 := v })
        (s.escapes c { overs := overs, nanOut := ys.any isNan32 }).convEvents c sat drop
      else id }

/-- DRAINL at issue (R164, R168, R173, R201). -/
def Lanorun.drainlPlan (s : Lanorun) (c : Nat) (b : Nat) : OpPlan :=
  let x := s.cell c
  let pr := pred64 b
  let on := x.pred pr
  let bank := mBank b
  let v := (x.bankNow bank).markOver
  let cnt := v.count
  let gs := ceilDiv (4 * cnt) 64
  let dest := mDest b
  let addr := mAddr b
  let lim := if dest = 1 then 65536 else 0x100000
  let fault : Option (Nat × Nat) :=
    if on = false then none
    else if addr + 16 * cnt > lim then some (0x0501, resNone)
    else if v.ledger = false then some (0x0502, resBank bank)
    else none
  let run := on && fault == none
  let words := if run then (List.range cnt).map fun i => drainWord v.we (v.get i) else []
  let ws := (List.range gs).map fun g =>
    (g, 256 * g, ((words.drop (16 * g)).take 16).flatMap fun w => leBytes 16 w.1.bits)
  let overs := (words.filter fun w => w.1.isOver).length
  let esc := overs != 0 && s.flag F.CEL_MTX_CTRL_FAULT_OVER c
  let spans : List (Nat × Nat × Nat) := (List.range gs).map fun g => (g, 256 * g, 256)
  let port := if dest = 1 then resCofferWrite else resWrite
  { foot := { srcs := srcP pr ++ [resBank bank],
              dsts := if dest = 1 then ((outLines addr spans).filter (·.1 < 256)).map fun (l, o) => (resLine l, o, o) else [],
              units := (resTail, gs) :: (if dest = 1 then [(resCofferWrite, 12 + gs)] else []),
              frees := [(resBank bank, gs - 1)],
              stores := if dest = 0 then spans.map fun (g, o, n) => (addr + o, n, 12 + g) else [] }
    fault := fault
    flights := (if esc then [(gs, resBank bank, .escape)] else []) ++
      (if run then outFlights dest addr port true ws else spans.map fun (g, _, _) => (12 + g, port, .none))
    post := if run then fun s =>
        let s := s.setCell c (let y := s.cell c; if bank = 0 then { y with bank0 := v } else { y with bank1 := v })
        s.escapes c { overs := overs }
      else id }

/-- A matrix operation at issue. -/
def Lanorun.mPlan (s : Lanorun) (c : Nat) (k : MKind) (b : Nat) : OpPlan :=
  match k with
  | .mma => s.mmaPlan c b
  | .drain => s.drainPlan c b
  | .drainl => s.drainlPlan c b
  | .mladd => s.mladdPlan c b
  | .binit => s.binitPlan c b

/-- A matrix operation as a command: its 64-bit body. -/
def Lanorun.runM (s : Lanorun) (c : Nat) (k : MKind) (b : Nat) : Lanorun := s.runOp c 2 (s.mPlan c k b)

end Sys2Proof.Machine
end

