-- ==== Sys2Proof/Machine/Issue.lean ====
section
/-! DEFINITION. One rc of a cell: landings, fetch, decode, waits, the guard, faults, issue, coffer reads and idle-repeats
(R104 to R139, R203 to R205, R567), with starting and stopping (R137, R138, R141). -/
namespace Sys2Proof.Machine

/-- The operations of a bundle in slot order, each as it would issue now. -/
def Lanorun.bundlePlans (s : Lanorun) (c : Nat) (b : Bundle) : List (Nat × OpPlan) :=
  (match b.s with
   | some (k, w, e) => [(0, s.sPlan c k w e)]
   | none => []) ++
  (match b.v with
   | some (k, w) => [(1, s.vPlan c k w)]
   | none => []) ++
  (match b.m with
   | some (k, w) => [(2, s.mPlan c k w)]
   | none => []) ++
  (match b.l with
   | some (k, w) => [(3, s.lPlan c k w)]
   | none => []) ++
  (match b.t with
   | some (k, w) => [(4, s.tPlan c k w)]
   | none => []) ++
  (match b.y with
   | some (k, w) => [(5, s.yPlan c k w)]
   | none => [])

/-- The place of a fault code in the order of R567; the codes that it does not name come after it. -/
def faultRank : Nat → Nat
  | 0x0402 => 0
  | 0x0403 => 1
  | 0x0701 => 2
  | 0x0501 => 3
  | 0x0502 => 4
  | 0x0602 => 5
  | 0x0702 => 6
  | 0x0703 => 7
  | 0x0A06 => 8
  | 0x0A02 => 9
  | _ => 10

/-- The fault that a bundle raises: the first in the order of R567, then the first slot; its slot, code and resource. -/
def firstFault : List (Nat × OpPlan) → Option (Nat × Nat × Nat)
  | [] => none
  | (slot, p) :: t =>
    match p.fault, firstFault t with
    | none, r => r
    | some (code, res), none => some (slot, code, res)
    | some (code, res), some (sl, cd, rs) => if faultRank code ≤ faultRank cd then some (slot, code, res) else some (sl, cd, rs)

/-- The delay-position rules of R118 and R119: the slot at which a bundle breaks them. -/
def Cell.delayFault (x : Cell) (b : Bundle) : Option Nat :=
  let branch : Bool := match b.s with
    | some (k, _, _) => k.isBranch
    | none => false
  let last : Bool := match b.y with
    | some (.efs, w) => isLast w
    | _ => false
  match b.idle with
  | some n => if x.delayLeft ≠ 0 ∧ x.delayLeft < n + 1 then some 6 else none
  | none =>
    if branch ∧ (x.delayLeft ≠ 0 ∨ last) then some 0
    else if last ∧ x.delayLeft ≠ 0 then some 5
    else none

/-- One bundle position has issued: a delay position passes, and after the second a taken branch takes effect; the run-ahead
of fetch beyond it, 0 to 2 bundles, is a free value (R117, R120). -/
def Lanorun.delayStep (s : Lanorun) (c : Nat) : Lanorun :=
  let x := s.cell c
  if x.delayLeft = 0 then s
  else if x.delayLeft = 1 then
    match x.delay with
    | some t =>
      let (n, s) := s.draw
      let s := s.setCell c { x with delayLeft := 0, delay := none, pc := t }
      s.countEvt R.CEL_FETCH_CNT (Config.runAhead n).val c
    | none => s.setCell c { x with delayLeft := 0 }
  else s.setCell c { x with delayLeft := x.delayLeft - 1 }

/-- After STEP one bundle has issued: the cell stops again (R141). -/
def Cell.stepped (x : Cell) : Cell := if x.oneStep ∧ x.idle = 0 then { x with oneStep := false, stopping := true } else x

/-- One idle rc of an idle-repeat (R109, R119). -/
def Lanorun.idleRc (s : Lanorun) (c : Nat) : Lanorun :=
  let x := s.cell c
  let s := s.setCell c { x with idle := x.idle - 1, why := 0, stall := 0 }
  let s := (s.countEvt R.CEL_ISSUE_CNT 1 c).delayStep c
  s.setCell c (s.cell c).stepped

/-- The poison codes that a footprint reads (R517). -/
def Foot.poisonRead (f : Foot) : List Nat :=
  (f.srcs.flatMap fun r =>
    if r < 0x20 then poisonS r
    else if 0x40 ≤ r ∧ r < 0x60 then poisonV (r - 0x40)
    else if 0x100 ≤ r ∧ r < 0x200 then (List.range 8).map fun i => 0x10000 + 8 * (r - 0x100) + i
    else []) ++
  (match f.load with
   | some (a, n) => poisonOf 0 0x100000 (a % 0x100000) n
   | none => [])

/-- The first slot whose operation reads poisoned data. -/
def poisonSlot (x : Cell) (ps : List (Nat × OpPlan)) : Option Nat :=
  if x.poison = [] then none
  else (ps.find? fun p => p.2.foot.poisonRead.any fun q => x.poison.contains q).map (·.1)

/-- A guard stall rc, or GUARD_TRAP under STRICT (R134, R135). -/
def Lanorun.guardStall (s : Lanorun) (c : Nat) (k : StallKind) (res slot : Nat) : Lanorun :=
  let x := s.cell c
  let note (s : Lanorun) (len : Nat) : Lanorun :=
    let s := s.put F.CEL_GUARD_LAST_LEN (min len 0xFFFF) c
    if x.stall = 0 then
      ((s.put F.CEL_GUARD_LAST_KIND k.code c).put F.CEL_GUARD_LAST_RESOURCE res c).put F.CEL_GUARD_LAST_PC x.pc c
    else s
  if s.flag F.CEL_CTRL_STRICT c then (note s 0).cellFault c 0x0401 slot res x.pc
  else
    let s := s.setCell c { x with stall := x.stall + 1, guardRc := x.guardRc + 1, why := k.code }
    let s := (note s (x.stall + 1)).countEvt R.CEL_GUARD_CNT 1 c (k.code - 1)
    s.event F.CEL_EVENT_GUARD c

/-- The operations issue in slot order; one with a fault of its own takes no effect. -/
def Lanorun.issueAll (s : Lanorun) (c : Nat) (ps : List (Nat × OpPlan)) : Lanorun :=
  ps.foldl (fun s (slot, p) => if p.fault = none then s.issueOp c slot p else s) s

/-- A bundle that passed its checks issues (R104, R117, R123). -/
def Lanorun.issueBundle (s : Lanorun) (c : Nat) (b : Bundle) (ps : List (Nat × OpPlan)) : Lanorun :=
  let x := s.cell c
  let enters := x.late && (match b.y with
    | some (.efs, w) => isLast w
    | _ => false)
  let s := s.issueAll c ps
  let s := s.countEvt R.CEL_ISSUE_CNT 1 c
  let y := { s.cell c with why := 0, stall := 0, fetched := false }
  let s := s.setCell c (if enters then y else { y with pc := (x.pc + b.len) % 0x100000 })
  let s := if x.delayLeft = 0 ∨ enters then s else s.delayStep c
  s.setCell c (s.cell c).stepped

/-- A decoded bundle at its rc: idle-repeat, wait, guard, fault or issue (R104 to R110, R133, R567). -/
def Lanorun.tryBundle (s : Lanorun) (c : Nat) (b : Bundle) : Lanorun :=
  let x := s.cell c
  match b.idle with
  | some n =>
    (s.setCell c { x with idle := n + 1, pc := (x.pc + 4) % 0x100000, fetched := false }).idleRc c
  | none =>
    match (match b.y with
      | some (k, w) => if x.waits k w x.pos then some k else none
      | none => none) with
    | some k => s.waitRc c k
    | none =>
      let ps := s.bundlePlans c b
      let efs := match b.y with
        | some (.efs, _) => true
        | _ => false
      match guardCheck (ps.map fun p => (p.1, p.2.foot)) efs x x.rc with
      | some (k, res, slot) => s.guardStall c k res slot
      | none =>
        let ue := poisonSlot x ps
        let s := match firstFault ps with
          | none => s.issueBundle c b ps
          | some (slot, code, res) =>
            if faultRank code ≤ 2 then s.cellFault c code slot res x.pc
            else (s.issueBundle c b ps).opFault c code slot res x.pc (((ps.find? (·.1 = slot)).map (·.2.mslot)).getD 0)
        match ue with
        | some slot => s.cellUe c slot x.pc
        | none => s

/-- A bundle is counted when it is fetched, once however long it then waits (R120, R141). -/
def Lanorun.countFetch (s : Lanorun) (c : Nat) : Lanorun :=
  if (s.cell c).fetched then s
  else (s.setCell c { s.cell c with fetched := true }).countEvt R.CEL_FETCH_CNT 1 c

/-- The slot that a BUNDLE_FAULT records, where the encoding is bad at one slot: an earlier one that breaks the delay-position
rules comes first (R118, R567). -/
def Cell.badSlot (x : Cell) (bytes : List (BitVec 8)) (slot : Nat) : Nat :=
  if slot = 6 then 6 else min slot ((x.delayFault (looseBundle bytes)).getD slot)

/-- Fetch, decode and try the bundle at the pc (R107 to R110, R118 to R121). -/
def Lanorun.fetchIssue (s : Lanorun) (c : Nat) : Lanorun :=
  let s := s.countFetch c
  let x := s.cell c
  let n := bundleLen (x.header x.pc)
  if x.poison ≠ [] ∧ (poisonOf 0 0x100000 x.pc n).any (fun q => x.poison.contains q) then s.cellUe c 6 x.pc
  else match decodeBundle (x.loadBytes x.pc n) with
    | .error slot => s.cellFault c 0x0402 (x.badSlot (x.loadBytes x.pc n) slot) resNone x.pc
    | .ok b =>
      match x.delayFault b with
      | some slot => s.cellFault c 0x0402 slot resNone x.pc
      | none =>
        if s.planActive ∧ (x.pc < s.get F.CEL_PROG_BASE c ∨ s.get F.CEL_PROG_LIMIT c < x.pc + b.len)
        then s.cellFault c 0x0403 6 resNone x.pc
        else s.tryBundle c b

/-- What a cell does at a delivered edge, after landings: it issues only in RUN, past RESUME and not at sync (R104, R123,
R124, R138). -/
def Lanorun.issueAt (s : Lanorun) (c : Nat) : Lanorun :=
  let x := s.cell c
  if x.st ≠ 1 ∨ x.stopping then s
  else if x.sync ∨ x.pos < x.resume then s.setCell c { x with why := 7 }
  else if x.idle ≠ 0 then s.idleRc c
  else s.fetchIssue c

/-- The losing port of highest rank among an rc's reads, ports in rank order M, T, V (R205). -/
def cofferLoser : List PortRead → List PortRead → Option PortRead
  | _, [] => none
  | seen, r :: t =>
    if seen.any (fun q => q.port != r.port && q.line % 16 == r.line % 16 && q.line != r.line) then some r
    else cofferLoser (r :: seen) t

/-- The scheduled reads of an rc: two ports that ask one bank for different lines raise COFFER_CONFLICT (R204, R205). -/
def Lanorun.cofferReads (s : Lanorun) (c rc : Nat) : Lanorun :=
  let x := s.cell c
  if x.reads = [] then s
  else
    let now := x.reads.filter (·.due = rc)
    let s := s.setCell c { x with reads := x.reads.filter (rc < ·.due) }
    match cofferLoser [] ((now.filter (·.port = 0)) ++ (now.filter (·.port = 1)) ++ (now.filter (·.port = 2))) with
    | some r => s.cellFault c 0x0601 (if r.port = 1 then 2 else 1) (resLine r.line) r.pc
    | none => s

/-- The rc ends: its coffer reads are made, and the position and STEP_RC move on, except that the rc after a late step end
is the new step's first. -/
def Lanorun.endRc (s : Lanorun) (c rc : Nat) : Lanorun :=
  let x := s.cell c
  let s := if x.rc < rc then s else s.cofferReads c rc
  let y := s.cell c
  let s := s.rcEnd c y.pos
  if x.rc < rc then s.setCell c { s.cell c with rc := x.rc } else s

/-- One delivered rc of a cell, with the memory errors found in it (R104). Nothing happens where the cell has no edge before
the next Bell, the module is frozen, its region retunes, or it has nothing to do. -/
def Lanorun.bundleIssue (s : Lanorun) (c : Nat) (errs : List MemErr) : Lanorun :=
  let x := s.cell c
  if s.frozen ∨ s.retuning (regionOf c) ∨ (x.st ≠ 1 ∧ x.flights = []) then s
  else match s.cellEdge c with
    | none => s
    | some p =>
      let s := s.setCell c { x with pos := p }
      let s := ((s.setCell c ((s.cell c).drainSends (s.cellFc c))).memErrs c errs).landAll c x.rc
      let s := s.issueAt c
      s.endRc c x.rc

/-- One rc of an idle-repeat: landings, the idle rc and its reads; an rc that has no edge before the Bell is left. -/
def Lanorun.idleOne (s : Lanorun) (c : Nat) : Lanorun :=
  match s.cellEdge c with
  | none => s
  | some p =>
    let x := s.cell c
    let s := ((s.setCell c { x with pos := p }).landAll c x.rc).idleRc c
    s.endRc c x.rc

/-- An idle-repeat issues nothing for COUNT + 1 delivered rc (R109): those that the present frame still has pass now, the
rest stay with the cell. -/
def Lanorun.idleRepeat (s : Lanorun) (c count : Nat) : Lanorun :=
  let s := s.setCell c { s.cell c with idle := count + 1 }
  forN (fun _ s => if (s.cell c).idle = 0 then s else s.idleOne c) 0 (count + 1) s

/-- Results due in the present rc land; an uncorrectable error met then is a cell fault (R104, R517). -/
def Lanorun.resultLand (s : Lanorun) (c : Nat) (errs : List MemErr) : Lanorun :=
  let x := s.cell c
  let s := (s.memErrs c errs).landAll c x.rc
  if errs.any (·.ue) then s.cellUe c 15 x.pc else s

/-- A cell starts at ENTRY at the next frame's position 0, with the state of R103 (R137). -/
def Cell.start (x : Cell) (entry : Nat) : Cell :=
  { x.stepEntry entry with st := 1, why := 7, sync := true, lastSync := true, late := false, base := 0, resume := 0, stopping := false,
                           oneStep := false, cframe := 0, done := 0, syncRc := none, guardRc := 0, waitRc := 0, sendq := [],
                           flights := [] }

/-- The cell's block belongs to a tenancy of the active image: CMD is ignored (R141). -/
def Lanorun.cellOwned (s : Lanorun) (c : Nat) : Bool :=
  match s.activeImage with
  | some im => (im.tenOfBlock (blockOf c)).isSome
  | none => false

/-- CMD = START from IDLE or STOPPED, while no plan is active (R137, R141). -/
def Lanorun.cellStart (s : Lanorun) (c : Nat) : Lanorun :=
  let x := s.cell c
  if s.cellAnswers c = false ∨ s.cellOwned c ∨ s.planActive ∨ (x.st ≠ 0 ∧ x.st ≠ 2) then s
  else s.setCell c (x.start (s.get F.CEL_PC_ENTRY c))

/-- The module stops a cell: it issues no further bundle (R138). A cell that is FAULTED issues none as it is, and stays FAULTED
with its record (DEDUCED, log entry 86). -/
def Lanorun.stopCell (s : Lanorun) (c : Nat) : Lanorun :=
  let x := s.cell c
  if x.st = 1 then s.setCell c { x with stopping := true } else s

/-- CMD = STOP (R138, R141). -/
def Lanorun.cellStop (s : Lanorun) (c : Nat) : Lanorun :=
  if s.cellAnswers c = false ∨ s.cellOwned c then s else s.stopCell c

/-- CMD = STEP from STOPPED: one bundle issues, and the cell stops again (R141). -/
def Lanorun.cellStepCmd (s : Lanorun) (c : Nat) : Lanorun :=
  let x := s.cell c
  if s.cellAnswers c = false ∨ s.cellOwned c ∨ x.st ≠ 2 then s
  else s.setCell c { x with st := 1, stopping := false, oneStep := true }

/-- A stopping cell whose operations have landed and whose SENDs are settled enters STOPPED (R138). -/
def Lanorun.cellStopped (s : Lanorun) (c : Nat) : Lanorun :=
  let x := s.cell c
  if x.stopping ∧ x.flights = [] ∧ x.sendq = [] ∧ x.st = 1 then
    (s.setCell c { x with st := 2, why := 0, stopping := false }).event F.CEL_EVENT_STOPPED c
  else s

end Sys2Proof.Machine
end

