-- ==== Sys2Proof/Machine/Engine.lean ====
section
/-! DEFINITION. The vault engines: queues, command records, durations, attention, reductions, gathers, scatters and atomic
adds (R230 to R244). -/
namespace Sys2Proof.Machine

/-- Engine e of vault v has the global number 32 v + e (R16). -/
def Lanorun.engine (s : Lanorun) (g : Nat) : Engine := sget {} s.engines g
def Lanorun.setEngine (s : Lanorun) (g : Nat) (x : Engine) : Lanorun := { s with engines := sset {} s.engines g x }

/-- Where a channel's local addresses reach the reserved area (R215, R220). -/
def localLimit : Nat := 0x7C000000

/-- The fields of a command record (R233, R234). -/
structure Rec where
  bytes : List (BitVec 8)
  deriving DecidableEq, Repr

def Rec.f (r : Rec) (off len : Nat) : Nat := fieldAt r.bytes off len
def Rec.op (r : Rec) : Nat := r.f 0 1
def Rec.slotchk (r : Rec) : Bool := r.f 1 1 % 2 == 1
def Rec.maskmap (r : Rec) : Bool := (r.f 1 1).testBit 1
def Rec.tslot (r : Rec) : Nat := r.f 2 2
def Rec.len (r : Rec) : Nat := r.f 4 4
def Rec.dcell (r : Rec) : Nat := r.f 8 2
def Rec.tally (r : Rec) : Nat := r.f 10 1
def Rec.mslot (r : Rec) : Nat := r.f 12 2
def Rec.fk (r : Rec) : Nat := r.f 0x10 1 % 16
def Rec.fv (r : Rec) : Nat := r.f 0x10 1 / 16
def Rec.fq (r : Rec) : Nat := r.f 0x11 1
def Rec.g (r : Rec) : Nat := r.f 0x12 1
def Rec.d (r : Rec) : Nat := 16 * r.f 0x13 1
def Rec.n (r : Rec) : Nat := r.f 0x14 4
def Rec.live (r : Rec) : Nat := r.f 0x18 4
def Rec.kbase (r : Rec) : Nat := r.f 0x1C 4
def Rec.vbase (r : Rec) : Nat := r.f 0x20 4
def Rec.mbase (r : Rec) : Nat := r.f 0x24 4
def Rec.scale (r : Rec) : BitVec 32 := BitVec.ofNat 32 (r.f 0x28 4)
def Rec.attnDst (r : Rec) : Nat := r.f 0x2C 4
def Rec.redMode (r : Rec) : Nat := r.f 0x10 1
def Rec.c (r : Rec) : Nat := r.f 0x11 1
def Rec.redBytes (r : Rec) : Nat := r.f 0x14 4
def Rec.dstl (r : Rec) : Nat := r.f 0x18 4
def Rec.srcl (r : Rec) : Nat := r.f 0x1C 4
def Rec.sstride (r : Rec) : Nat := r.f 0x20 4
def Rec.nr (r : Rec) : Nat := r.f 0x10 2
def Rec.atMode (r : Rec) : Nat := r.f 0x12 1
def Rec.s (r : Rec) : Nat := r.f 0x14 4
def Rec.tbase (r : Rec) : Nat := r.f 0x18 4
def Rec.rows (r : Rec) : Nat := r.f 0x1C 4
def Rec.gdst (r : Rec) : Nat := r.f 0x20 4

/-- Bytes of one element of a format of R142. -/
def fmtBytes (f : Nat) : Nat := (fmtOf f).bits / 8

/-- RS: the bytes of one head's result (R238). -/
def Rec.rs (r : Rec) : Nat := roundUp (256 + 4 * r.d) 256

/-- Bytes of an element of a MODE (R240, R242). -/
def modeBytes (mode : Nat) : Nat := if mode = 1 then 16 else 4

/-- Every byte from a to b - 1 of the record is zero. -/
def Rec.zero (r : Rec) (a b : Nat) : Bool := ((r.bytes.drop a).take (b - a)).all (· == 0#8)

/-- A command names a local address of the reserved area: the address given, or a byte of its range (R220). -/
def pastLocal (a n : Nat) : Bool := decide (localLimit ≤ a) || decide (localLimit < a + n)

/-- The op-specific layout of R234 and the address rules of R220; the result limit of R232. -/
def Rec.opBad (r : Rec) : Bool :=
  let noResult := r.dcell != 0 || r.mslot != 0
  let eltOk (f : Nat) : Bool := f == 0 || f == 1 || f == 6 || f == 7
  match r.op with
  | 1 =>
    !eltOk r.fk || !eltOk r.fv || (r.fq != 6 && r.fq != 7) || r.g == 0 || decide (8 < r.g) ||
    decide (r.f 0x13 1 < 4) || decide (16 < r.f 0x13 1) || decide (1048576 < r.n) || r.kbase % 256 != 0 ||
    r.vbase % 256 != 0 || r.mbase % 32 != 0 || (!r.maskmap && r.mbase != 0) || r.attnDst % 256 != 0 ||
    !r.zero 0x30 0x40 || decide (r.len < 0x40 + r.g * r.d * 2) || !r.zero (0x40 + r.g * r.d * 2) r.len ||
    pastLocal r.kbase (r.n * r.d * fmtBytes r.fk) || pastLocal r.vbase (r.n * r.d * fmtBytes r.fv) ||
    (r.maskmap && pastLocal r.mbase ((r.n + 7) / 8)) || decide (16384 < r.g * r.rs)
  | 2 =>
    noResult || decide (2 < r.redMode) || r.c == 0 || decide (16 < r.c) || r.redBytes % 256 != 0 ||
    r.sstride % 256 != 0 || !r.zero 0x12 0x14 || !r.zero 0x24 r.len || pastLocal r.dstl r.redBytes ||
    pastLocal (r.srcl + (r.c - 1) * r.sstride) r.redBytes
  | 3 =>
    r.nr == 0 || decide (4096 < r.nr) || decide (r.s < 32) || decide (4096 < r.s) || r.s % 32 != 0 || !r.zero 0x12 0x14 ||
    !r.zero 0x24 0x40 || decide (r.len < 0x40 + 4 * r.nr) || !r.zero (0x40 + 4 * r.nr) r.len ||
    pastLocal r.tbase (r.rows * r.s) || decide (16384 < r.nr * r.s)
  | 4 =>
    let body := 0x40 + roundUp (4 * r.nr) 32
    noResult || r.nr == 0 || decide (4096 < r.nr) || decide (r.s < 32) || decide (4096 < r.s) || r.s % 32 != 0 ||
    !r.zero 0x12 0x14 || !r.zero 0x20 0x40 || decide (r.len < body + r.nr * r.s) || !r.zero (0x40 + 4 * r.nr) body ||
    !r.zero (body + r.nr * r.s) r.len || pastLocal r.tbase (r.rows * r.s)
  | 5 =>
    let w := if r.atMode = 1 then 32 else 8
    noResult || r.nr == 0 || decide (4096 < r.nr) || decide (2 < r.atMode) || !r.zero 0x13 0x18 || !r.zero 0x20 0x40 ||
    decide (r.len < 0x40 + w * r.nr) || !r.zero (0x40 + w * r.nr) r.len ||
    (r.atMode == 1 && (List.range r.nr).any fun i => !r.zero (0x44 + 32 * i) (0x50 + 32 * i)) ||
    pastLocal r.tbase (r.rows * modeBytes r.atMode)
  | _ => true

/-- A record breaks the layout of R233 or of its op. -/
def Rec.bad (r : Rec) (cells : Nat) : Bool :=
  r.bytes.length != r.len || r.len % 32 != 0 || decide (r.len < 64) || decide (262144 < r.len) ||
  decide (4 ≤ r.f 1 1) || (r.slotchk && r.op != 4 && r.op != 5) || (r.maskmap && r.op != 1) ||
  (if r.slotchk then decide (8191 < r.tslot) else r.tslot != 0) || decide (16 ≤ r.tally) || r.f 11 1 != 0 ||
  r.f 14 2 != 0 || ((r.op == 1 || r.op == 3) && decide (cells ≤ r.dcell)) || r.opBad

/-- D of a record in active ec (R235). -/
def Rec.duration (r : Rec) : Nat :=
  match r.op with
  | 1 => 40 + ((List.range (ceilDiv r.n 64)).map fun b =>
      let nb := min 64 (r.n - 64 * b)
      max (ceilDiv (r.g * r.d * nb) 64) (ceilDiv (nb * r.d * (fmtBytes r.fk + fmtBytes r.fv)) 160)).sum
  | 2 => 24 + ceilDiv ((r.c + 2) * r.redBytes) 160
  | 5 => 24 + 8 * r.nr
  | _ => 24 + r.nr * (8 + ceilDiv r.s 160)

/-- The active ec before ec e, both counted from hall frame 0: the windows W1 and W2 are not active (R223, R231). -/
def activeBefore (e : Nat) : Nat :=
  let k := e % 5000
  4744 * (e / 5000) + min k 2372 + (min (max k 2500) 4872 - 2500)

/-- The ec edge at which a command of d active ec that starts at ec s completes (R231). -/
def completeEc (s d : Nat) : Nat :=
  let t := activeBefore s + d - 1
  let m := t % 4744
  5000 * (t / 4744) + (if m < 2372 then m else m + 128) + 1

/-- The ec at which a scheduled command starts: 32 ec after its last byte reached the vault at fc t, or where the scheduled
command before it completed (R221, R230). -/
def schedStart (t prev : Nat) : Nat := max (ceilDiv (4 * t) 5 + 32) prev

/-- An engine's accesses for a command: the engine, the tenancy that the command belongs to, the tenancy whose view they take where the command is scheduled, and
its step and plan frame. -/
structure EngCtx where
  g : Nat
  owner : Option Nat
  ten : Option Nat
  step : Nat
  frame : Nat
  deriving DecidableEq, Repr

/-- The vault address of a channel-local address (R220). -/
def EngCtx.at (k : EngCtx) (l : Nat) : Nat := k.g / 32 * 2 ^ 36 + localOffset (k.g % 32) l

/-- Local bytes, split where a channel's 256-byte unit ends. -/
def localParts : Nat → Nat → Nat → List (Nat × Nat)
  | 0, _, _ => []
  | f + 1, l, n =>
    if n = 0 then []
    else
      let k := min n (256 - l % 256)
      (l, k) :: localParts f (l + k) (n - k)

/-- n bytes from a local address (R236). -/
def Lanorun.engRead (s : Lanorun) (k : EngCtx) (l n : Nat) : List (BitVec 8) × Met :=
  (localParts (n / 256 + 2) l n).foldl (fun (bs, m) (q, c) =>
    let (d, w) := s.readView k.ten k.step (k.at q) c
    (bs ++ d, { ue := m.ue ++ w.ue, unbound := m.unbound ++ w.unbound, bankB := m.bankB ++ w.bankB : Met })) ([], {})

/-- The vault pieces of a write of bytes at a local address. -/
def EngCtx.pieces (k : EngCtx) (l : Nat) (bs : List (BitVec 8)) : List (Nat × List (BitVec 8)) :=
  (localParts (bs.length / 256 + 2) l bs.length).map fun (q, c) => (k.at q, (bs.drop (q - l)).take c)

/-- Writes bytes at a local address, through the view of a scheduled command. -/
def Lanorun.engWrite (s : Lanorun) (k : EngCtx) (l : Nat) (bs : List (BitVec 8)) : Lanorun :=
  (k.pieces l bs).foldl (fun s (a, d) =>
    let (s, m) := s.writeView k.ten k.step k.frame a d
    s.metFaults k.owner m) s

/-- Element c of a row of bytes in format f. -/
def rowElem (f : Nat) (bs : List (BitVec 8)) (c : Nat) : Fp := decodeElem f (fieldAt bs (c * fmtBytes f) (fmtBytes f))

/-- DOT of R237: the exact sum of exact products, rounded once. -/
def dot (q k : List Fp) : BitVec 32 := (sumProducts (List.zipWith Fp.mul q k)).round

/-- The running state of one head: m, l and F, and o (R237). -/
structure Attn where
  row : Row := emptySoft
  o : List (BitVec 32)
  deriving DecidableEq, Repr

/-- The weight of a score within its block (R237). -/
def attnWeight (cm v : BitVec 32) : BitVec 32 :=
  if cm = inf32 false then (if v = inf32 false then one32 else 0#32)
  else if isNan32 cm || cm = inf32 true then 0#32
  else fexp (fsub v cm)

/-- One block of positions: keys, values and mask of each position (R237). -/
def attnBlock (q : List Fp) (scale : BitVec 32) (d : Nat) (st : Attn) (js : List (List Fp × List Fp × Bool)) : Attn :=
  let sc := js.map fun (k, _, masked) => if masked then inf32 true else fmul scale (dot q k)
  let chunk := chunkSoft sc js.length
  let p := sc.map (attnWeight chunk.a)
  let used := (List.zip js p).filter fun ((_, _, masked), w) => !masked && !isZero32 w
  let ob := (List.range d).map fun c =>
    if chunk.f.testBit 1 then nan32
    else (sumProducts (used.map fun ((_, v, _), w) => (decode32 w).mul (listGet (.fin false 0 0) v c))).round
  let (m, l, alpha, beta) := mergeSoft st.row chunk
  { row := ⟨m, l, softFlags m, 0#32⟩, o := List.zipWith (fun x y => ffma y beta (fmul x alpha)) st.o ob }

/-- ATTN over one record: the result bytes of every head in order, with what its reads met (R236 to R238). -/
def Lanorun.attn (s : Lanorun) (k : EngCtx) (r : Rec) : List (BitVec 8) × Met :=
  let bk := fmtBytes r.fk
  let bv := fmtBytes r.fv
  let zeroRow : List Fp := List.replicate r.d (.fin false 0 0)
  let (rows, met) := (List.range r.n).foldl (fun (rows, met) j =>
    if r.live ≤ j then (rows ++ [(zeroRow, zeroRow, true)], met)
    else
      let (kb, km) := s.engRead k (r.kbase + j * r.d * bk) (r.d * bk)
      let (vb, vm) := s.engRead k (r.vbase + j * r.d * bv) (r.d * bv)
      let (mb, mm) := if r.maskmap then s.engRead k (r.mbase + j / 8) 1 else ([], {})
      let masked := r.maskmap && (leNat mb).testBit (j % 8)
      let met := [km, vm, mm].foldl (fun (m : Met) w =>
        { ue := m.ue ++ w.ue, unbound := m.unbound ++ w.unbound, bankB := m.bankB ++ w.bankB }) met
      (rows ++ [((List.range r.d).map (rowElem r.fk kb), (List.range r.d).map (rowElem r.fv vb), masked)], met))
    (([] : List (List Fp × List Fp × Bool)), ({} : Met))
  let head (h : Nat) : List (BitVec 8) :=
    let q := (List.range r.d).map (rowElem r.fq (r.bytes.drop (0x40 + h * 2 * r.d)))
    let st := (List.range (ceilDiv r.n 64)).foldl
      (fun st b => attnBlock q r.scale r.d st ((rows.drop (64 * b)).take 64)) { o := List.replicate r.d 0#32 }
    let hd := leBytes 4 st.row.a.toNat ++ leBytes 4 st.row.b.toNat ++ leBytes 4 st.row.f ++ List.replicate 244 0#8
    let bs := hd ++ st.o.flatMap fun x => leBytes 4 x.toNat
    bs ++ List.replicate (r.rs - bs.length) 0#8
  ((List.range r.g).flatMap head, met)

/-- One addition of REDUCE or ATOMIC in FP32 and INT32 (R240). -/
def addElem (mode : Nat) (a b : Nat) : Nat :=
  if mode = 0 then (fadd (BitVec.ofNat 32 a) (BitVec.ofNat 32 b)).toNat else (a + b) % 2 ^ 32

/-- Ledger words added into a destination word: the word and how many mismatched. VALUE saturates where the exact sum does
not fit (R165, R164, R240). -/
def addWords (dst : WireWord) (ws : List WireWord) : WireWord × Nat :=
  let (w, n) := ws.foldl (fun (d, n) x =>
    if x.we = d.we then
      ({ d with value := d.value + x.value, nan := d.nan || x.nan, pinf := d.pinf || x.pinf, ninf := d.ninf || x.ninf,
                isOver := d.isOver || x.isOver, low := d.low || x.low : WireWord }, n)
    else ({ d with nan := true }, n + 1)) (dst, 0)
  if -(2 ^ 112) ≤ w.value ∧ w.value < 2 ^ 112 then (w, n)
  else ({ w with value := if w.value < 0 then -(2 ^ 112 - 1) else 2 ^ 112 - 1, isOver := true }, n)

/-- One element with values added in order: its new bytes and its mismatches. -/
def addAll (mode : Nat) (dst : List (BitVec 8)) (srcs : List (List (BitVec 8))) : List (BitVec 8) × Nat :=
  if mode = 1 then
    let (w, n) := addWords (wireOf (leNat dst)) (srcs.map fun b => wireOf (leNat b))
    (leBytes 16 w.bits, n)
  else (leBytes 4 (srcs.foldl (fun a b => addElem mode a (leNat b)) (leNat dst)), 0)

/-- Mismatched ledger words of an engine's command (R240). -/
def Lanorun.mismatch (s : Lanorun) (v n : Nat) : Lanorun :=
  if n = 0 then s else (s.countEvt R.VLT_MISMATCH_CNT n v).event F.VLT_EVENT_MISMATCH v

/-- REDUCE (R240). -/
def Lanorun.reduce (s : Lanorun) (k : EngCtx) (r : Rec) : Lanorun :=
  let w := modeBytes r.redMode
  let (dst, m0) := s.engRead k r.dstl r.redBytes
  let srcs := (List.range r.c).map fun i => s.engRead k (r.srcl + i * r.sstride) r.redBytes
  let outs := (List.range (r.redBytes / w)).map fun i =>
    addAll r.redMode ((dst.drop (i * w)).take w) (srcs.map fun p => (p.1.drop (i * w)).take w)
  let s := s.metFaults k.owner m0
  let s := srcs.foldl (fun s p => s.metFaults k.owner p.2) s
  let s := s.mismatch (k.g / 32) (outs.map (·.2)).sum
  s.engWrite k r.dstl (outs.flatMap (·.1))

/-- Row index i of a record's index list at offset off with a stride. -/
def Rec.index (r : Rec) (off stride i : Nat) : Int := toSigned 32 (r.f (off + stride * i) 4)

/-- An index within the table. -/
def Rec.inTable (r : Rec) (i : Int) : Bool := decide (0 ≤ i) && decide (i < (r.rows : Int))

/-- GATHER: the bytes of the output (R241). -/
def Lanorun.gather (s : Lanorun) (k : EngCtx) (r : Rec) : List (BitVec 8) × Lanorun :=
  (List.range r.nr).foldl (fun (bs, s) i =>
    let x := r.index 0x40 4 i
    if r.inTable x then
      let (d, m) := s.engRead k (r.tbase + x.toNat * r.s) r.s
      (bs ++ d, s.metFaults k.owner m)
    else (bs ++ List.replicate r.s 0#8, s.countEvt R.VLT_OOB_CNT 1 (k.g / 32))) ([], s)

/-- SCATTER: rows written in ascending i; SLOTCHK decides the whole of it (R241, R229). -/
def Lanorun.scatter (s : Lanorun) (k : EngCtx) (r : Rec) (go : Bool) : Lanorun :=
  let body := 0x40 + roundUp (4 * r.nr) 32
  let rows := (List.range r.nr).map fun i => (r.index 0x40 4 i, (r.bytes.drop (body + i * r.s)).take r.s)
  let s := s.countEvt R.VLT_OOB_CNT (rows.filter fun p => !r.inTable p.1).length (k.g / 32)
  let rows := rows.filter fun p => r.inTable p.1
  if go then rows.foldl (fun s p => s.engWrite k (r.tbase + p.1.toNat * r.s) p.2) s
  else s.suppressWrite (k.g / 32) k.ten k.step k.frame (rows.flatMap fun p => k.pieces (r.tbase + p.1.toNat * r.s) p.2)

/-- ATOMIC: values added in ascending entry order (R242, R229). -/
def Lanorun.atomic (s : Lanorun) (k : EngCtx) (r : Rec) (go : Bool) : Lanorun :=
  let w := modeBytes r.atMode
  let stride := if r.atMode = 1 then 32 else 8
  let voff := if r.atMode = 1 then 16 else 4
  let ents := (List.range r.nr).map fun i => (r.index 0x40 stride i, (r.bytes.drop (0x40 + stride * i + voff)).take w)
  let s := s.countEvt R.VLT_OOB_CNT (ents.filter fun p => !r.inTable p.1).length (k.g / 32)
  let ents := ents.filter fun p => r.inTable p.1
  if go then
    ents.foldl (fun s p =>
      let l := r.tbase + p.1.toNat * w
      let (d, m) := s.engRead k l w
      let (out, mis) := addAll r.atMode d [p.2]
      ((s.metFaults k.owner m).mismatch (k.g / 32) mis).engWrite k l out) s
  else s.suppressWrite (k.g / 32) k.ten k.step k.frame (ents.flatMap fun p => k.pieces (r.tbase + p.1.toNat * w) p.2)

/-- The computation of a command, made once while it runs: the result that its buffer will hold, and the state. -/
def Lanorun.computeCmd (s : Lanorun) (g : Nat) (x : EngRun) : Option EngResult × Lanorun :=
  let r : Rec := ⟨x.cmd.bytes⟩
  let ten := if x.sched then x.cmd.ten else none
  let k : EngCtx := { g := g, owner := x.cmd.ten, ten := ten, step := x.cmd.step,
                      frame := match ten with
                        | some t => (s.ten t).frameIn
                        | none => 0 }
  let go := !r.slotchk || s.slotBit r.tslot
  let res (addr : Nat) (d : List (BitVec 8)) : EngResult :=
    { ten := x.cmd.ten, mslot := r.mslot, dcell := r.dcell, tally := r.tally, addr := addr, data := d }
  match r.op with
  | 1 =>
    let (d, m) := s.attn k r
    (some (res r.attnDst d), s.metFaults k.owner m)
  | 2 => (none, s.reduce k r)
  | 3 =>
    let (d, s) := s.gather k r
    (some (res r.gdst d), s)
  | 4 => (none, s.scatter k r go)
  | _ => (none, s.atomic k r go)

/-- The running command of an engine computes where it has not yet, with the DRAM errors that its accesses meet. In a refresh
window the engine pauses, and a vault that is not READY serves no access (R217, R223). -/
def Lanorun.engCompute (s : Lanorun) (g : Nat) (errs : List VaultErr) : Lanorun :=
  match (s.engine g).run with
  | none => s
  | some x =>
    if x.computed ∨ (s.vault (g / 32)).window ∨ s.vaultReady (g / 32) = false then s
    else
      let (res, s) := (s.vaultErrs errs).computeCmd g x
      s.setEngine g { s.engine g with run := some { x with computed := true, result := res } }

/-- The same for a command of one op: another op's command stays as it is. -/
def Lanorun.engOp (s : Lanorun) (g op : Nat) (errs : List VaultErr) : Lanorun :=
  match (s.engine g).run with
  | some x => if Rec.op ⟨x.cmd.bytes⟩ = op then s.engCompute g errs else s
  | none => s

/-- A record is malformed, or is an unscheduled ATTN (R233). -/
def Lanorun.cmdBad (s : Lanorun) (sched : Bool) (bytes : List (BitVec 8)) : Bool :=
  Rec.bad ⟨bytes⟩ s.planCells.length || (!sched && Rec.op ⟨bytes⟩ == 1)

/-- ENGINE_CMD in the vault of engine g (R233, R246). -/
def Lanorun.engineCmdFault (s : Lanorun) (g : Nat) (ten : Option Nat) : Lanorun :=
  (s.event F.VLT_EVENT_ENGINE_CMD (g / 32)).vaultFault 0x0707 (g / 32) ten

/-- The scheduled command that reached the vault first for an engine enters its queue, or is discarded at a full one
(R230) or by a vault that is not READY (R217). -/
def Lanorun.schedArrive (s : Lanorun) (g : Nat) : Lanorun :=
  match s.mesh.ecmds.find? (·.1 = g) with
  | none => s
  | some (_, c) =>
    let s := s.setMesh fun e' => { e' with ecmds := s.mesh.ecmds.erase (g, c) }
    let e := s.engine g
    if s.vaultReady (g / 32) = false then s
    else if 16 ≤ e.sq.length then
      (s.event F.VLT_EVENT_ENGINE_QFULL (g / 32)).vaultFault 0x0706 (g / 32) c.ten
    else s.setEngine g { e with sq := e.sq ++ [c] }

/-- The engine starts its next command once due and free: a scheduled one first, then the suspended one, then the oldest
unscheduled one (R230). A malformed scheduled command occupies it for D = 24 (R233). -/
def Lanorun.engStart (s : Lanorun) (g : Nat) : Lanorun :=
  let e := s.engine g
  if e.run ≠ none then s
  else match e.sq with
    | c :: q =>
      let op := Rec.op ⟨c.bytes⟩
      let start := schedStart c.at_ e.doneAt
      if s.cmdBad true c.bytes then
        (s.setEngine g { e with sq := q, lastOp := op, run := some { cmd := c, sched := true, d := 24, computed := true, start := some start }
          }).engineCmdFault g c.ten
      else s.setEngine g { e with sq := q, lastOp := op,
                                  run := some { cmd := c, sched := true, d := Rec.duration ⟨c.bytes⟩, start := some start } }
    | [] =>
      match e.susp with
      | some r => s.setEngine g { e with susp := none, run := some r }
      | none =>
        match e.uq with
        | c :: q => s.setEngine g { e with uq := q, lastOp := Rec.op ⟨c.bytes⟩,
                                           run := some { cmd := c, sched := false, d := Rec.duration ⟨c.bytes⟩ } }
        | [] => s

/-- A running unscheduled command suspends for a queued scheduled one (R230). -/
def Lanorun.engSuspend (s : Lanorun) (g : Nat) : Lanorun :=
  let e := s.engine g
  match e.run with
  | some x => if x.sched = false ∧ e.sq ≠ [] then s.setEngine g { e with run := none, susp := some x } else s
  | none => s

/-- The running command completes after its D active ec; its result enters the result buffer with its time (R231, R232). A
command that the window has kept from its accesses has not run its D ec (R223). -/
def Lanorun.engComplete (s : Lanorun) (g : Nat) : Lanorun :=
  let s := s.engCompute g []
  let e := s.engine g
  match e.run with
  | none => s
  | some x =>
    if x.computed = false then s
    else
      let at_ := (x.start.map fun k => completeEc k x.d).getD e.doneAt
      let s := s.setEngine g { e with run := none, doneAt := at_, results := e.results ++ (match x.result with
        | some r => [{ r with at_ := at_ }]
        | none => []) }
      s.countEvt R.VLT_ENG_ACT x.d (g / 32) (g % 32)

end Sys2Proof.Machine
end

