-- ==== Sys2Proof/Machine/Mesh.lean ====
section
/-! DEFINITION. The mesh: routers, paths, slots, scheduled transfers, clashes and missed slots (R315 to R325, R333, R334). -/
namespace Sys2Proof.Machine

/-- Router (die, x, y) by its block's number (R16, R20). -/
def routerAt (die x y : Nat) : Nat := die * 40 + x * 5 + y
def dieOf (r : Nat) : Nat := r / 40
def colOf (r : Nat) : Nat := r / 5 % 8
def rowOfRouter (r : Nat) : Nat := r % 5

/-- The router of port p (R315). -/
def portRouter (p : Nat) : Nat :=
  if p < 6 then routerAt 0 (p + 1) 1
  else if p < 12 then routerAt 1 (p - 5) 1
  else if p < 15 then routerAt 0 (p - 10) 3
  else routerAt 1 (p - 13) 3

/-- The router of attachment a of vault v (R20). -/
def vaultRouter (v a : Nat) : Nat :=
  match v % 4 with
  | 0 => routerAt (v / 4) 0 (1 + a)
  | 1 => routerAt (v / 4) a 4
  | 2 => routerAt (v / 4) (4 + a) 4
  | _ => routerAt (v / 4) 7 (1 + a)

/-- Link numbers: a mesh link between two routers, a bridge port from a die, and the attachments in each direction (R316). -/
def meshLink (a b : Nat) : Nat := a * 128 + b
def bridgeLink (die p : Nat) : Nat := 20000 + 16 * die + p
def portLink (p : Nat) (out : Bool) : Nat := 30000 + 2 * p + (if out then 1 else 0)
def vaultLink (v a : Nat) (out : Bool) : Nat := 31000 + 2 * (4 * v + a) + (if out then 1 else 0)
def cellLink (c : Nat) (out : Bool) : Nat := 32000 + 2 * c + (if out then 1 else 0)

/-- The routers from r to column x of its row, then to row y, on one die, without r (R317). -/
def walkCol : Nat → Nat → Nat → List Nat
  | 0, _, _ => []
  | f + 1, r, x =>
    if colOf r = x then [] else
      let n := if colOf r < x then r + 5 else r - 5
      n :: walkCol f n x
def walkRow : Nat → Nat → Nat → List Nat
  | 0, _, _ => []
  | f + 1, r, y =>
    if rowOfRouter r = y then [] else
      let n := if rowOfRouter r < y then r + 1 else r - 1
      n :: walkRow f n y
def walk (r q : Nat) : List Nat :=
  let a := walkCol 8 r (colOf q)
  a ++ walkRow 5 (a.getLastD r) (rowOfRouter q)

/-- The routers of a path after r, over bridge port b between dies (R317). -/
def route (r q b : Nat) : List Nat :=
  if dieOf r = dieOf q then walk r q
  else
    let x := b / 2
    let near := routerAt (dieOf r) x 0
    let far := routerAt (dieOf q) x 0
    walk r near ++ [far] ++ walk far q

/-- The links of a path with their offsets Dk, and DK (R317). -/
def pathLinks (b : Nat) : Nat → List Nat → Nat → List (Nat × Nat) × Nat
  | _, [], d => ([], d)
  | r, q :: t, d =>
    let bridge := dieOf r ≠ dieOf q
    let l := if bridge then bridgeLink (dieOf r) b else meshLink r q
    let (ls, e) := pathLinks b q t (d + (if bridge then 6 else 2))
    ((l, d) :: ls, e)

/-- An end of a transfer (R315, R323). -/
inductive End where
  | cell (c : Nat)
  | vault
  | engine (g : Nat)
  | port (p : Nat)
  deriving DecidableEq, Repr

/-- Bytes per fc of an end (R318). -/
def End.rate : End → Nat
  | .cell _ => 256 | .port _ => 128 | _ => 512

/-- The router and attachment link of an end for a byte at a vault address (R315, R318). -/
def End.at (e : End) (a : Nat) (out : Bool) : Nat × Nat :=
  match e with
  | .cell c => (blockOf c, cellLink c out)
  | .vault =>
    let v := vaultOf a
    let k := a / 2048 % 4
    (vaultRouter v k, vaultLink v k out)
  | .engine g => (vaultRouter (g / 32) (g % 32 / 8), vaultLink (g / 32) (g % 32 / 8) out)
  | .port p => (portRouter p, portLink p out)

/-- The router that a link leaves from, or whose attachment it is. -/
def linkRouter (l : Nat) : Nat :=
  if l < 20000 then l / 128
  else if l < 30000 then routerAt ((l - 20000) / 16) ((l - 20000) % 16 / 2) 0
  else if l < 31000 then portRouter ((l - 30000) / 2)
  else if l < 32000 then vaultRouter ((l - 31000) / 8) ((l - 31000) / 2 % 4)
  else blockOf ((l - 32000) / 2)

/-- The links and fcs that slot i of a transfer uses: its parts by the attachments of its bytes, which travel in one slot, the
later one's, on every link that they share (R317, R318; log entry 97). sa and da give the vault address of a byte at each
end. -/
def slotUses (src dst : End) (sa da : Nat → Nat) (b rate n t i : Nat) : List (Nat × Nat × Nat) :=
  let len := min rate (n - rate * i)
  let offs := (List.range (ceilDiv len 32)).map fun k => rate * i + 32 * k
  let parts := (offs.map fun o => (src.at (sa o) false, dst.at (da o) true)).eraseDups
  let us := parts.flatMap fun ((r, ls), (q, ld)) =>
    let (links, dk) := pathLinks b r (route r q b) 0
    (ls, t + i) :: (links.map fun (l, d) => (l, t + i + d)) ++ [(ld, t + i + dk + 2)]
  (us.map fun u => (i, u.1, ((us.filter (·.1 = u.1)).map (·.2)).foldl max 0)).eraseDups

/-- Every slot of a transfer of n bytes that enters its source router at fc t (R316). -/
def usesOf (src dst : End) (sa da : Nat → Nat) (b n t : Nat) : List (Nat × Nat × Nat) :=
  let rate := min src.rate dst.rate
  (List.range (ceilDiv n rate)).flatMap fun i => slotUses src dst sa da b rate n t i

/-- The ends that an endpoint field names: kind, identity, and every cell, attachment or engine where a descriptor, command or
packet names it (R321, R326). A vault end is given by one byte address for each attachment. -/
def endsOf (im : Image) (t kind id : Nat) : List (End × Nat) :=
  match kind with
  | 0 => if id = 0xFFFF then (im.cellsOf t).map fun c => (.cell c, 0) else [(.cell (listGet 0 (im.cellsOf t) id), 0)]
  | 1 => (List.range 4).map fun a => (.vault, id * 2 ^ 36 + 2048 * a)
  | 2 => if id = 0xFFFF then (maskVaults (im.vaultMask t)).flatMap fun v => (List.range 32).map fun e => (.engine (32 * v + e), 0)
    else [(.engine (32 * bitsOf id 10 8 + bitsOf id 4 0), 0)]
  | _ => [(.port id, 0)]

/-- The links with their offsets that lists of them share from the start. -/
def sharedPrefix : List (Nat × Nat) → List (Nat × Nat) → List (Nat × Nat)
  | a :: s, b :: t => if a = b then a :: sharedPrefix s t else []
  | _, _ => []

/-- The ends of a list that the entry's BRIDGE can lead to from router r (R317, R321). -/
def reachable (b r : Nat) (es : List (End × Nat)) : List (End × Nat) :=
  es.filter fun e => (dieOf (e.1.at e.2 true).1 == dieOf r) == (b == 0xFF)

/-- A member's slots where the entry alone fixes link and fc, with whether one lies past fc 6,249; none where no destination
fits BRIDGE (R317, R318, R326). -/
def memberSlots (im : Image) (t : Nat) (x : MeshEntry) (m : Nat) : Option (Bool × List (Nat × Nat)) :=
  let mask := im.vaultMask t
  let fc := x.start + m * x.cstride
  let src := match endsOf im t x.skind (if x.sid = 0xFFFF then m else x.sid) with
    | e :: _ => e.1
    | [] => .vault
  let sa (o : Nat) : Nat := rangeByte mask (x.vaddr.testBit 63) (x.vaddr % 2 ^ 39) o
  let da (o : Nat) : Nat := rangeByte mask (x.vdaddr.testBit 63) (x.vdaddr % 2 ^ 39) o
  let r := (src.at (sa 0) false).1
  let ds := reachable x.bridge r (endsOf im t x.dkind x.did)
  let late : Bool := decide (6249 < fc + x.nfc - 1)
  match ds with
  | [] => none
  | d :: rest =>
    let rate := min src.rate d.1.rate
    let uses :=
      if x.skind = 1 ∨ rest = [] then
        (List.range x.nfc).flatMap fun i => (slotUses src d.1 sa da x.bridge rate (x.nfc * rate) fc i).map (·.2)
      else
        let paths := ds.map fun e =>
          let q := (e.1.at e.2 true).1
          (pathLinks x.bridge r (route r q x.bridge) 0).1
        let p := paths.foldl sharedPrefix (paths.headD [])
        (List.range x.nfc).flatMap fun i => ((src.at 0 false).2, fc + i) :: p.map fun (l, o) => (l, fc + i + o)
    some (late || uses.any fun u => decide (6249 < u.2), uses.filter fun u => decide (u.1 < 32000))

/-- A missed slot: beyond slack with cause 6 (R93, R325). -/
def Lanorun.meshMiss (s : Lanorun) (t e router fc : Nat) : Lanorun :=
  let s := s.meshLast e router t 0 fc
  let (n, s) := s.draw
  s.slip t (Config.meshLateness n).toNat (0x80 + router) causeMesh true

/-- MESH_CLASH, MESH_ROUTE and MESH_UE of a scheduled transfer: a partition fault of its tenancy (R319, R324, R325). -/
def Lanorun.meshFault (s : Lanorun) (code t e router fc : Nat) : Lanorun :=
  let s := (s.fault code .block router).event F.MOD_NI_EVENT_MESH
  (s.meshLast e router t code fc).partitionFault t

/-- Cuts the data of a transfer that is on its way to its first n bytes; what was cut adds no tally (R325). -/
def Lanorun.cutMove (s : Lanorun) (id n : Nat) : Lanorun :=
  let m := s.mesh
  let cutPieces (n : Nat) (ps : List (Nat × List (BitVec 8))) : List (Nat × List (BitVec 8)) :=
    (ps.foldl (fun (l, left) (a, bs) => (if left = 0 then l else l ++ [(a, bs.take left)], left - bs.length))
      (([] : List (Nat × List (BitVec 8))), n)).1
  let m := { m with
    arrivals := m.arrivals.map fun a =>
      if a.move = id ∧ n < a.off + a.data.length then { a with data := a.data.take (n - a.off), tally := none } else a
    vwrites := m.vwrites.map fun w => if w.move = id then { w with pieces := cutPieces (n - w.off) w.pieces } else w
    ecmds := m.ecmds.map fun (g, c) => (g, if c.move = id then { c with bytes := c.bytes.take (n - c.off) } else c) }
  let s := { s with mesh := m }
  forN (fun p s =>
    let x := s.port p
    if x.flits.any (·.move = id) then s.setPort p { x with flits := x.flits.filter fun f => f.move != id || decide (f.upto ≤ n) }
    else s) 0 18 s

/-- A transfer joins those of the frame. Where it meets another in a slot, the one later in the order of MSLOT and member
is discarded from that slot on, and the slot's router and fc are recorded (R325). The answer is how many slots the new transfer
keeps, none for all. -/
def Lanorun.joinMoves (s : Lanorun) (mv : Move) : Option Nat × Lanorun :=
  s.mesh.moves.foldl (fun (acc : Option Nat × Lanorun) (old : Move) =>
    let (cut, s) := acc
    let alive : List (Nat × Nat × Nat) := match cut with
      | some k => mv.uses.filter fun u => decide (u.1 < k)
      | none => mv.uses
    match alive.find? fun u => old.uses.any fun w => w.2 == u.2 with
    | none => (cut, s)
    | some u =>
      if decide (old.mslot < mv.mslot) || (old.mslot == mv.mslot && decide (old.member ≤ mv.member)) then
        (some u.1, s.meshFault 0x0A01 mv.ten mv.mslot (linkRouter u.2.1) u.2.2)
      else
        let k := ((old.uses.find? fun w => w.2 == u.2).map (·.1)).getD 0
        let old' := { old with uses := old.uses.filter fun w => decide (w.1 < k) }
        let s := s.setMesh fun e' => { e' with moves := s.mesh.moves.map fun (m : Move) => if m.id = old.id then old' else m }
        (cut, (s.cutMove old.id (old.rate * k)).meshFault 0x0A01 old.ten old.mslot (linkRouter u.2.1) u.2.2)) (none, s)

/-- A member's transfer: tenancy, entry and member, its ends with the vault address of a byte at each, BRIDGE, and the fc of its
slot 0. -/
structure Transfer where
  t : Nat
  e : Nat
  m : Nat
  src : End
  dst : End
  sa : Nat → Nat := id
  da : Nat → Nat := id
  bridge : Nat
  fc : Nat

/-- A transfer's data moves from byte off on, those before it having been missed: uncorrectable 32-byte groups arrive as 0xFF
(R319), the slots are claimed and clashes decided. The deliver function puts the data on its way under the transfer's number,
with the fc, counted from hall frame 0, at which each byte reaches the destination. -/
def Lanorun.moveData (s : Lanorun) (x : Transfer) (ue : List Nat) (off : Nat) (data : List (BitVec 8))
    (deliver : Lanorun → Nat → (Nat → Nat) → List (BitVec 8) → Lanorun) : Lanorun :=
  let rate := min x.src.rate x.dst.rate
  let all := usesOf x.src x.dst x.sa x.da x.bridge data.length x.fc
  let arr (o : Nat) : Nat := 6250 * s.frame + ((all.filter (·.1 = o / rate)).map (·.2.2)).foldl max 0
  let bad := ue.filter fun g => decide (off ≤ 32 * g) && decide (32 * g < data.length)
  let data := bad.foldl (fun d g => setBytes d (32 * g) (List.replicate 32 0xFF#8)) data
  let s := match bad with
    | [] => s
    | g :: _ => s.meshFault 0x0A03 x.t x.e (x.src.at (x.sa (32 * g)) false).1 (x.fc + 32 * g / rate)
  let id := s.mesh.nextMove
  let mv : Move := { id := id, mslot := x.e, member := x.m, ten := x.t, rate := rate,
                     uses := all.filter fun u => decide (off / rate ≤ u.1) }
  let (cut, s) := s.joinMoves mv
  let mv := match cut with
    | some k => { mv with uses := mv.uses.filter fun u => decide (u.1 < k) }
    | none => mv
  let s := s.setMesh fun e' => { e' with moves := s.mesh.moves ++ [mv], nextMove := id + 1 }
  let s := deliver s id arr (data.drop off)
  match cut with
  | some k => s.cutMove id (rate * k)
  | none => s

/-- Data on its way into a cell store: byte off of the transfer is the first, for address addr (R127, R323). -/
def Lanorun.toCell (s : Lanorun) (t c addr : Nat) (tally : Option Nat) (id off : Nat) (data : List (BitVec 8)) : Lanorun :=
  let x := s.ten t
  let a : Arrival := { cell := c, addr := addr, data := data, tally := tally, step := x.step, frame := x.frameIn, move := id,
                       off := off }
  s.setMesh fun e' => { e' with arrivals := s.mesh.arrivals ++ [a] }

/-- Data on its way into vault memory, in the step and frame of its entry (R222, R323, R358). -/
def Lanorun.toVault (s : Lanorun) (t : Nat) (il : Bool) (addr : Nat) (tslot : Option Nat) (id off : Nat)
    (data : List (BitVec 8)) : Lanorun :=
  let mask := (s.activeImage.getD {}).vaultMask t
  let x := s.ten t
  let w : VaultWrite := { ten := t, pieces := writePieces mask il (data.length / 8192 + 2) addr data, tslot := tslot, move := id,
                          off := off, step := x.step, frame := x.frameIn }
  s.setMesh fun e' => { e' with vwrites := s.mesh.vwrites ++ [w] }

/-- A command record on its way to an engine, whose last byte reaches the vault at fc at_ (R230, R358). -/
def Lanorun.toEngine (s : Lanorun) (t g id off at_ : Nat) (data : List (BitVec 8)) : Lanorun :=
  let c : EngCmd := { bytes := data, ten := some t, step := (s.ten t).step, move := id, off := off, at_ := at_ }
  s.setMesh fun e' => { e' with ecmds := s.mesh.ecmds ++ [(g, c)] }

/-- A packet's flits join a port's VC0 data: the header can leave from the fc after its last payload byte, a data flit once its
bytes have come (R333). The key check of R339 comes first, and the port must be ACTIVE or repairing itself (R292, R337; log entry
98). base is where the packet's payload begins in its transfer. -/
def Lanorun.toPort (s : Lanorun) (t p id base : Nat) (arr : Nat → Nat) (k : Packet) : Lanorun :=
  if s.keyOk p true 0 k.pkey = false then s.pkeyDrop p k
  else if s.linkState p ≠ 5 ∧ s.linkState p ≠ 6 ∧ s.linkState p ≠ 9 then s.noRoute k
  else
    let x := s.port p
    let n := k.bytes
    let h : VcFlit := { ten := t, frame := s.frame, bytes := k.hdr, nflit := some k.nflit, move := id, upto := base + n,
                        ready := arr (base + n - 1) + 1 }
    let ds := (dataFlits 32 k.data).zipIdx.map fun (b, i) =>
      let u := base + min n (64 * (i + 1))
      ({ ten := t, frame := s.frame, bytes := b, nflit := none, move := id, upto := u, ready := arr (u - 1) } : VcFlit)
    s.setPort p { x with flits := x.flits ++ h :: ds }

/-- A REMOTE TC0 transfer as packets at its port, from byte off on (R332, R333). The route table must name that port (R337; log
entry 98). -/
def Lanorun.remotePackets (s : Lanorun) (x : Transfer) (p id off : Nat) (arr : Nat → Nat) (d : Desc) (data : List (BitVec 8)) :
    Lanorun :=
  let im := s.activeImage.getD {}
  let n := ceilDiv d.bytes 2048
  let dst := (s.rankOf x.t d.rank).getD 0
  let op := if d.tkind = 2 then 2 else 1
  forN (fun j s =>
    if 2048 * j < off then s
    else
      let part := (data.drop (2048 * j - off)).take 2048
      let (tag, s) := s.newTag
      let k : Packet :=
        { hdr := mkHdr 2 0 (im.pkey x.t) dst s.ownId tag op (ceilDiv part.length 64) (if d.flags % 2 = 1 then 2 else 0)
            (dataBody (if op = 2 then d.dst else targetAt d.dst (2048 * j)) d.tslot d.rtally (j + 1 == n) part.length)
          data := part ++ List.replicate (roundUp part.length 64 - part.length) 0#8 }
      match s.origPort dst with
      | none => s.noRoute k
      | some q =>
        if q = p then s.toPort x.t p id (2048 * j) arr k.withCrc
        else s.meshFault 0x0A02 x.t x.e (portRouter p) (arr (2048 * j) % 6250)) 0 n s

/-- How many bytes at the start of a cell's transfer miss their slots: byte group i is at the router from its send queue's first
data on at 256 bytes in an fc (R129, R325). -/
def SendEntry.missed (q : SendEntry) (at_ rate n : Nat) : Nat :=
  min n (rate * ((List.range (ceilDiv n rate)).filter fun i => decide (at_ + i < q.ready + (rate * (i + 1) - 1) / 256)).length)

/-- The member's transfer from a cell: the queued SEND that names the entry; its data begins to leave the cell store
(R129, R323). -/
def Lanorun.fromCell (s : Lanorun) (im : Image) (t e m : Nat) (x : MeshEntry) (fc : Nat) (ue : List Nat) : Lanorun :=
  let c := listGet 0 (im.cellsOf t) (if x.sid = 0xFFFF then m else x.sid)
  let y := s.cell c
  match y.sendq.find? fun q => (descOf q.desc).mslot == e && q.start.isNone &&
      !((descOf q.desc).kind == 4 && (descOf q.desc).tc == 1) with
  | none => s.meshMiss t e (blockOf c) fc
  | some q =>
    let d := descOf q.desc
    let at_ := 6250 * s.frame + fc
    let rate := if d.kind = 4 then 128 else 256
    let off := q.missed at_ rate d.bytes
    let bad := y.poison ≠ [] ∧ (poisonOf 0 0x100000 d.src d.bytes).any fun p => y.poison.contains p
    let data := y.storeBytes d.src d.bytes
    let s := s.setCell c { y with sendq := y.sendq.map fun z => if z = q then { q with start := some at_, rate := rate } else z }
    let s := if bad then s.cellUe c 15 y.pc else s
    let s := if off = 0 then s else s.meshMiss t e (blockOf c) fc
    let il := d.dst.testBit 63
    let mask := im.vaultMask t
    let tr (dst : End) : Transfer := { t := t, e := e, m := m, src := .cell c, dst := dst, bridge := x.bridge, fc := fc }
    if off = d.bytes then s
    else match d.kind with
    | 1 =>
      let a := bitsOf d.dst 38 0
      s.moveData { tr .vault with da := rangeByte mask il a } ue off data fun s n _ b =>
        s.toVault t il (a + off) (if d.flags % 2 = 1 then some d.tslot else none) n off b
    | 2 =>
      (match s.logicalCell (bitsOf d.dst 47 32) with
       | some p => s.moveData (tr (.cell p)) ue off data fun s n _ b => s.toCell t p (bitsOf d.dst 19 0 + off) (some d.tally) n off b
       | none => s)
    | 3 =>
      let g := 32 * bitsOf d.dst 10 8 + bitsOf d.dst 4 0
      s.moveData (tr (.engine g)) ue off data fun s n arr b => s.toEngine t g n off (arr (d.bytes - 1)) b
    | _ => s.moveData (tr (.port x.did)) ue off data fun s n arr b => s.remotePackets (tr (.port x.did)) x.did n off arr d b

/-- The member's transfer from a vault: what was read 96 fc before (R222, R322, R323). A vault has no packet header to give: its
bytes cross to a port and no flit is built of them (log entry 98). -/
def Lanorun.fromVault (s : Lanorun) (im : Image) (t e m : Nat) (x : MeshEntry) (fc : Nat) (ue : List Nat) : Lanorun :=
  let mask := im.vaultMask t
  let sa (o : Nat) : Nat := rangeByte mask (x.vaddr.testBit 63) (x.vaddr % 2 ^ 39 + m * x.bytes) o
  match s.mesh.vreads.find? fun r => r.ten == t && r.entry == e && r.member == m with
  | none => s.meshMiss t e (End.vault.at (sa 0) false).1 fc
  | some r =>
    let s := s.setMesh fun e' => { e' with vreads := s.mesh.vreads.erase r }
    let tr (dst : End) : Transfer := { t := t, e := e, m := m, src := .vault, dst := dst, sa := sa, bridge := x.bridge, fc := fc }
    match x.dkind with
    | 0 =>
      let c := listGet 0 (im.cellsOf t) x.did
      s.moveData (tr (.cell c)) ue 0 r.data fun s n _ b => s.toCell t c x.caddr (some (x.tally % 16)) n 0 b
    | 1 =>
      let il := x.vdaddr.testBit 63
      let a := x.vdaddr % 2 ^ 39 + m * x.bytes
      s.moveData { tr .vault with da := rangeByte mask il a } ue 0 r.data fun s n _ b => s.toVault t il a none n 0 b
    | 2 =>
      let g := 32 * bitsOf x.did 10 8 + bitsOf x.did 4 0
      s.moveData (tr (.engine g)) ue 0 r.data fun s n arr b => s.toEngine t g n 0 (arr (r.data.length - 1)) b
    | _ => s.moveData (tr (.port x.did)) ue 0 r.data fun s _ _ _ => s

/-- The member's transfer from an engine: the result whose header names the entry, where its command completed at least 16 fc
before the slot (R221, R232). A result that is later is not delivered. -/
def Lanorun.fromEngine (s : Lanorun) (t e m g : Nat) (x : MeshEntry) (fc : Nat) (ue : List Nat) : Lanorun :=
  let en := s.engine g
  let router := vaultRouter (g / 32) (g % 32 / 8)
  match en.results.find? fun r => r.mslot == e && r.ten == some t with
  | none => s.meshMiss t e router fc
  | some r =>
    let s := s.setEngine g { en with results := en.results.erase r }
    if 4 * (6250 * s.frame + fc) < 5 * r.at_ + 64 then s.meshMiss t e router fc
    else match s.logicalCell r.dcell with
    | some c => s.moveData { t := t, e := e, m := m, src := .engine g, dst := .cell c, bridge := x.bridge, fc := fc } ue 0 r.data
        fun s n _ b => s.toCell t c (r.addr % 0x100000) (some r.tally) n 0 b
    | none => s

/-- A TC0 packet for a place outside the entry's destination (R324, R334). -/
def Lanorun.packetOutside (s : Lanorun) (im : Image) (t : Nat) (x : MeshEntry) (p : Nat) (k : Packet) : Bool :=
  if k.dst ≠ s.ownId ∧ s.outPort p k.dst ≠ some 0x1E then x.dkind != 3 || s.outPort p k.dst != some x.did
  else
    let tk := bitsOf k.target 63 62
    let id := bitsOf k.target 59 44
    match x.dkind with
    | 0 => tk != 0 || (x.did != 0xFFFF && x.did != id) || decide ((im.cellsOf t).length ≤ id)
    | 1 => tk != 1 || !vaultHolds (im.vaultMask t) (k.target.testBit 61) (k.target % 2 ^ 39) k.bytes (x.did % 8)
    | 2 => tk != 2 || (x.did != 0xFFFF && (bitsOf id 10 8 != bitsOf x.did 10 8 || bitsOf id 4 0 != bitsOf x.did 4 0))
    | _ => true

/-- The whole packets from a port's receive buffer, in arrival order, that fill BYTES; and whether the next one lies elsewhere
than the entry's destination or would run past BYTES (R323, R324). -/
def takePackets (outside : Packet → Bool) (bytes : Nat) : Nat → List Packet → List Packet × Bool
  | _, [] => ([], false)
  | n, k :: t =>
    if bytes ≤ n then ([], false)
    else if bytes < n + k.bytes ∨ outside k then ([], true)
    else
      let (l, o) := takePackets outside bytes (n + k.bytes) t
      (k :: l, o)

/-- One packet of a port-source member is put on its way; its payload begins at byte off of the transfer. -/
def Lanorun.deliverPacket (s : Lanorun) (im : Image) (x : Transfer) (en : MeshEntry) (id off : Nat) (arr : Nat → Nat) (k : Packet)
    (bs : List (BitVec 8)) : Lanorun :=
  let t := x.t
  let tid := bitsOf k.target 59 44
  let a := k.target % 2 ^ 39
  if en.dkind = 3 then
    let h := setBytes k.hdr 13 [BitVec.ofNat 8 (k.hops - 1)]
    if k.hops = 0 then s.hopLimit k
    else s.toPort t en.did id off arr { k with hdr := h, data := bs ++ List.replicate (roundUp bs.length 64 - bs.length) 0#8 }
  else if k.crcOk = false then
    ((((s.event F.MOD_NI_EVENT_E2E_CRC).countErr R.MOD_NI_CNT 1 0 3).fault 0x0A0A .module 0)).partitionFault t
  else if en.dkind = 0 then
    s.toCell t (listGet 0 (im.cellsOf t) tid) (a % 0x100000) (if k.isLast then some k.rtally else none) id off bs
  else
    let mask := im.vaultMask t
    let il := k.target.testBit 61
    let ok := if en.dkind = 1 then rangeOk mask il a k.bytes else mask.testBit (bitsOf tid 10 8)
    if ok = false then s.vaultFault 0x0703 (if en.dkind = 1 then vaultOf a else bitsOf tid 10 8) (some t)
    else if en.dkind = 1 then s.toVault t il a (if k.slotchk then some k.tslot else none) id off bs
    else s.toEngine t (32 * bitsOf tid 10 8 + bitsOf tid 4 0) id off (arr (off + bs.length - 1)) bs

/-- The flits of packets that leave a receive buffer over slots from fc t on free their credits as each leaves: the header with
its packet's first byte, a data flit with its own (R297). -/
def flitLeaves (t : Nat) (ks : List Packet) : List (Nat × Nat × Bool) :=
  (ks.foldl (fun (l, off) k =>
    (l ++ (t + off / 128, k.tc, true) :: (List.range k.nflit).map fun i => (t + (off + 64 * i) / 128, k.tc, false), off + k.bytes))
    (([] : List (Nat × Nat × Bool)), 0)).1

/-- The member's transfer from a port: the packets that its receive buffer holds (R323, R324, R334, R340, R341). -/
def Lanorun.fromPort (s : Lanorun) (im : Image) (t e m : Nat) (x : MeshEntry) (fc : Nat) (ue : List Nat) : Lanorun :=
  let p := x.sid % 32
  let y := s.port p
  let mine := y.rx0.filter fun k => k.pkey == im.pkey t
  let (ks, outside) := takePackets (s.packetOutside im t x p) x.bytes 0 mine
  let router := portRouter p
  let got := (ks.map (·.bytes)).sum
  let s := s.setPort p { y with rx0 := y.rx0.filter fun k => !ks.contains k,
                                leaves := y.leaves ++ flitLeaves (6250 * s.frame + fc) ks }
  let tid := (ks.headD { hdr := [] })
  let dst : End := match x.dkind with
    | 0 => .cell (listGet 0 (im.cellsOf t) (bitsOf tid.target 59 44))
    | 1 => .vault
    | 2 => .engine (32 * bitsOf tid.target 54 52 + bitsOf tid.target 48 44)
    | _ => .port x.did
  let mask := im.vaultMask t
  let tr : Transfer := { t := t, e := e, m := m, src := .port p, dst := dst, bridge := x.bridge, fc := fc,
                         da := rangeByte mask (tid.target.testBit 61) (tid.target % 2 ^ 39) }
  let s := if ks = [] then s
    else s.moveData tr ue 0 (ks.flatMap (·.payload)) fun s n arr b =>
      (ks.foldl (fun (s, off) k => (s.deliverPacket im tr x n off arr k ((b.drop off).take k.bytes), off + k.bytes)) (s, 0)).1
  if outside then s.meshFault 0x0A02 t e router (fc + got / 128)
  else if got < x.bytes ∧ !((ks.getLast?).any (·.isLast)) then s.meshMiss t e router (fc + got / 128) else s

/-- Member m of entry e of tenancy t starts: its data moves over its slots, missing or clashing as found (R321 to R325). It
runs in the frames of a RUNNING tenancy whose CFRAME is FRAME. -/
def Lanorun.memberStart (s : Lanorun) (t e m : Nat) (ue : List Nat) : Lanorun :=
  match s.activeImage with
  | none => s
  | some im =>
    match im.mesh t e with
    | none => s
    | some x =>
      let y := s.ten t
      let members := if x.sid = 0xFFFF then (im.cellsOf t).length else 1
      if s.frozen ∨ s.tenState t ≠ tenRunning ∨ y.running = false ∨ y.fault ≠ none ∨ x.frame ≠ y.frameIn ∨ members ≤ m then s
      else
        let fc := x.start + m * x.cstride
        match x.skind with
        | 0 => s.fromCell im t e m x fc ue
        | 1 => s.fromVault im t e m x fc ue
        | 2 => s.fromEngine t e m (32 * bitsOf x.sid 10 8 + bitsOf x.sid 4 0) x fc ue
        | _ => s.fromPort im t e m x fc ue

/-- The result slot of an engine's command (R232). -/
def Lanorun.resultSlot (s : Lanorun) (g t e : Nat) (ue : List Nat) : Lanorun :=
  match s.activeImage with
  | none => s
  | some im =>
    match im.mesh t e with
    | none => s
    | some x =>
      if x.skind = 2 ∧ 32 * bitsOf x.sid 10 8 + bitsOf x.sid 4 0 = g then s.memberStart t e 0 ue else s

/-- The first scheduled arrival for a cell lands in its store and adds to its tally with its last byte (R127, R209, R323). -/
def Lanorun.arrivalLand (s : Lanorun) (c : Nat) : Lanorun :=
  match s.mesh.arrivals.find? (·.cell = c) with
  | none => s
  | some a =>
    let s := s.setMesh fun e' => { e' with arrivals := s.mesh.arrivals.erase a }
    let s := s.planStore c a.step a.frame a.addr a.data true 15 (s.cell c).pc
    match a.tally with
    | some k => s.tallyAdd c k 1 15 (s.cell c).pc
    | none => s

end Sys2Proof.Machine
end

