-- ==== Sys2Proof/Machine/Freeze.lean ====
section
/-! DEFINITION. Freezing the module and resuming it (R530 to R536). -/
namespace Sys2Proof.Machine

def Lanorun.setFrz (s : Lanorun) (f : Freeze → Freeze) : Lanorun := { s with frz := f s.frz }

/-- The lattice point of a tick: the fc edge at or after it (R35). -/
def latOf (tick : Nat) : Nat := ceilDiv (25 * tick) 16

/-- The first source to arm a freeze sets TZ; the others are ignored (R530). -/
def Lanorun.armFreeze (s : Lanorun) (tz src : Nat) : Lanorun :=
  if s.frz.tz = none then s.setFrz fun f => { f with tz := some tz, src := src } else s

/-- A falling edge on FREEZE_N, first low at tick t and held for 64 fc (R530, R531, R553). -/
def Lanorun.freezePin (s : Lanorun) (t : Nat) : Lanorun :=
  let s := (s.event F.MOD_PINS_FREEZE_FALL).put F.MOD_PINS_FREEZE 1
  s.armFreeze (4000 * (t / 4000 + 2)) 1

/-- The first tick at or after t between 500 and 3,400 of some frame (R530). -/
def drivenTick (t : Nat) : Nat :=
  let o := t % 4000
  if o < 500 then t - o + 500 else if o ≤ 3400 then t else t - o + 4500

/-- FREEZE_NOW at tick t by a register (source 3) or JTAG (source 4) (R530). -/
def Lanorun.freezeNow (s : Lanorun) (t src : Nat) : Lanorun :=
  if s.frz.tz ≠ none then s
  else if s.flag F.MOD_PINS_FORWARD then
    let e := drivenTick t
    let s := (s.event F.MOD_PINS_FREEZE_FALL).put F.MOD_PINS_FREEZE 1
    (s.armFreeze (4000 * (e / 4000 + 2)) src).setFrz fun f => { f with drives := true }
  else s.armFreeze (16 * ceilDiv (t + 32) 16) src

/-- The domains that are ON, as a mask. -/
def Lanorun.domainMask (s : Lanorun) : Nat := s.reg R.PWR_PD_STAT 0 0 + s.reg R.PWR_PD_STAT 0 1 * 2 ^ 64

/-- The freeze takes effect at TZ (R532). -/
def Lanorun.freezeAt (s : Lanorun) (tz : Nat) : Lanorun :=
  let s := ((s.put F.DBG_STATUS_FROZEN 1).put F.DBG_STATUS_FREEZE_SRC s.frz.src).put F.DBG_FREEZE_AT_TICK tz
  let s := s.event F.DBG_EVENT_FREEZE
  let s := if s.frz.drives then s.put F.MOD_PINS_FREEZE 0 else s
  s.setFrz fun f => { f with timeFault := false, domains := s.domainMask, drives := false }

/-- TZ within the present frame has come: the counter is at TZ and the freeze takes effect. -/
def Lanorun.freezeTakes (s : Lanorun) : Lanorun :=
  match s.frz.tz with
  | some tz =>
    if s.frozen ∨ tz / 4000 ≠ s.frame then s
    else
      let lat := max s.hall.lat (latOf tz)
      (s.setHall fun h' => { h' with lat := lat }).freezeAt tz
  | none => s

/-- CMD = RESUME with TR from DBG_RESUME_AT and MODE (R534). -/
def Lanorun.resumeCmd (s : Lanorun) (fault : Bool) : Lanorun :=
  let tr := s.get F.DBG_RESUME_AT_TICK
  let tz := s.frz.tz.getD 0
  if ¬ s.flag F.DBG_STATUS_FROZEN then s.put F.DBG_FREEZE_RESULT 5
  else if 25 * tr < 16 * s.hall.lat + 200000 then s.put F.DBG_FREEZE_RESULT 3
  else if tr < tz + 8000 ∨ (tr - tz) % 4000 ≠ 0 then s.put F.DBG_FREEZE_RESULT 4
  else
    ((s.put F.DBG_FREEZE_RESULT 1).put F.DBG_STATUS_RESUME_ARMED 1).setFrz fun f => { f with faultMode := fault }

/-- CMD = 0b11 cancels an armed resume (R534). -/
def Lanorun.resumeCancel (s : Lanorun) : Lanorun :=
  if s.flag F.DBG_STATUS_RESUME_ARMED then (s.put F.DBG_STATUS_RESUME_ARMED 0).put F.DBG_FREEZE_RESULT 0 else s

/-- Hall frame numbers that the module holds for a tenancy rise by d (R535). -/
def Ten.shift (x : Ten) (d : Nat) : Ten :=
  { x with startAt := x.startAt.map (· + d), fault := x.fault.map (· + d), notice := x.notice.map (· + d),
           ff := x.ff + d, fr := x.fr + d }
def Port.shift (x : Port) (d : Nat) : Port :=
  let due (u : DueUnit) : DueUnit := { u with sched := u.sched + 12500 * d }
  { x with due := x.due.map due, flits := x.flits.map (fun f => { f with frame := f.frame + d, ready := f.ready + 6250 * d }),
           buffer := x.buffer.map (fun u => { u with due := u.due.map due }), nakAt := x.nakAt + 12500 * d,
           leaves := x.leaves.map fun l => (l.1 + 6250 * d, l.2) }

def EngCmd.shift (x : EngCmd) (d : Nat) : EngCmd := { x with at_ := x.at_ + 6250 * d }
def EngRun.shift (x : EngRun) (d : Nat) : EngRun :=
  { x with cmd := x.cmd.shift d, start := x.start.map (· + 5000 * d),
           result := x.result.map fun r => { r with at_ := r.at_ + 5000 * d } }
def Engine.shift (x : Engine) (d : Nat) : Engine :=
  { x with sq := x.sq.map (·.shift d), uq := x.uq.map (·.shift d), run := x.run.map (·.shift d), susp := x.susp.map (·.shift d),
           results := x.results.map (fun r => { r with at_ := r.at_ + 5000 * d }), doneAt := x.doneAt + 5000 * d }

def Cell.shift (x : Cell) (d : Nat) : Cell :=
  { x with sendq := x.sendq.map fun e => { e with ready := e.ready + 6250 * d, start := e.start.map (· + 6250 * d) } }

/-- D frames are inserted into the plan (R533, R535). -/
def Lanorun.insertFrames (s : Lanorun) (d : Nat) : Lanorun :=
  let s := forN (fun t s => (s.setTen t ((s.ten t).shift d)).put F.PLN_TEN_STAT_RESTART_FRAME
    (if s.tenState t = tenFaulted then ((s.ten t).fr + d) % 2 ^ 32 else s.get F.PLN_TEN_STAT_RESTART_FRAME 0 t) 0 t) 0 16 s
  let s := forN (fun p s => s.setPort p ((s.port p).shift d)) 0 18 s
  let s := (s.cells.filter fun e => e.2.sendq != []).foldl (fun s e => s.setCell e.1 (e.2.shift d)) s
  { s with
    engines := s.engines.map fun e => (e.1, e.2.shift d),
    mesh := { s.mesh with ecmds := s.mesh.ecmds.map fun e => (e.1, e.2.shift d) },
    det := { s.det with sums := s.det.sums.map (fun x => { x with began := x.began + d }),
                        waits := s.det.waits.map (fun x => { x with closed := x.closed + d }) },
    plan := { s.plan with act := s.plan.act.map fun a => { a with f := a.f + d } } }

/-- At TR: the module resumes with D frames inserted, or raises RESUME_FAIL and stays frozen (R535). -/
def Lanorun.resumeNow (s : Lanorun) (tr : Nat) : Lanorun :=
  let tz := s.frz.tz.getD 0
  let s := s.put F.DBG_STATUS_RESUME_ARMED 0
  let kept := s.frz.domains &&& s.domainMask == s.frz.domains
  if s.locked ∧ ¬ s.flag F.PWR_EVENT_TRIP ∧ kept ∧ s.site.flush = 0 then
    let s := (((s.put F.DBG_STATUS_FROZEN 0).put F.DBG_STATUS_FREEZE_SRC 0).put F.DBG_FREEZE_RESULT 2).event F.DBG_EVENT_FREEZE
    let s := s.insertFrames ((tr - tz) / 4000)
    let bad := s.frz.faultMode || s.frz.timeFault
    let s := s.setFrz fun _ => {}
    if bad then forN (fun t s => s.partitionFault t) 0 16 s else s
  else ((s.put F.DBG_FREEZE_RESULT 6).event F.DBG_EVENT_FREEZE).fault 0x1109 .module 0

/-- TR within the present frame has come. -/
def Lanorun.resumeTakes (s : Lanorun) : Lanorun :=
  let tr := s.get F.DBG_RESUME_AT_TICK
  if s.flag F.DBG_STATUS_RESUME_ARMED ∧ tr / 4000 = s.frame then
    (s.setHall fun h' => { h' with lat := max s.hall.lat (latOf tr) }).resumeNow tr
  else s

end Sys2Proof.Machine
end

