-- ==== Sys2Proof/Machine/Det.lean ====
section
/-! DEFINITION. The digest unit: closing, logging, sending and comparing the digests of plan frames (R422 to R431). -/
namespace Sys2Proof.Machine

def Lanorun.setDet (s : Lanorun) (f : Det → Det) : Lanorun := { s with det := f s.det }

/-- The record index of a plan frame (R427). -/
def Lanorun.detIndex (s : Lanorun) (step frame : Nat) : Nat := (step * s.det.stepFrames + frame) % 32768
def detLog (i : Nat) : Nat := 0xFDFE00000 + 32 * i
def detInbox (i : Nat) : Nat := 0xFDFF00000 + 32 * i

/-- DC and DV of a frame: the sums of its partials (R423, R431). -/
def DetFrame.dc (d : DetFrame) : BitVec 64 := (d.parts.filter (·.1 < 80)).foldl (fun a x => a + x.2) 0
def DetFrame.dv (d : DetFrame) : BitVec 64 := (d.parts.filter (80 ≤ ·.1)).foldl (fun a x => a + x.2) 0

/-- The digests that SEL names; 0b00 acts as 0b11 (R426). -/
def Lanorun.detSel (s : Lanorun) : Nat :=
  let v := s.get F.MOD_DET_CTRL_SEL
  if v = 0 then 3 else v

/-- The sum of the digests that SEL names in a record (MOD_DET_CAP_OWN). -/
def detSum (sel : Nat) (r : List (BitVec 8)) : Nat :=
  ((if sel % 2 = 1 then fieldAt r 0x18 8 else 0) + (if sel.testBit 1 then fieldAt r 0x10 8 else 0)) % 2 ^ 64

/-- DET_DIVERGE: counted, captured once, and acted on by ON_DIV (R430). -/
def Lanorun.detDiverge (s : Lanorun) (own peer : List (BitVec 8)) : Lanorun :=
  let step := fieldAt own 0 8
  let frame := fieldAt own 8 2
  let sel := s.detSel
  let t := s.det.tenancy
  let s := (s.event F.MOD_DET_EVENT_DIVERGE).countEvt R.MOD_DET_CNT 1 0 1
  let s := if s.flag F.MOD_DET_STATUS_CAPTURED then s
    else
      let s := ((s.put F.MOD_DET_CAP_AT_STEP (step % 2 ^ 40)).put F.MOD_DET_CAP_AT_CFRAME frame).put F.MOD_DET_CAP_AT_RUN
        (fieldAt own 10 1)
      let s := (s.put F.MOD_DET_CAP_OWN_DIGEST (detSum sel own)).put F.MOD_DET_CAP_PEER_DIGEST (detSum sel peer)
      let held := s.det.hist.any fun d => d.step == step && d.frame == frame
      (s.put F.MOD_DET_STATUS_CAPTURED 1).put F.MOD_DET_STATUS_PART_OK (if held then 1 else 0)
  let on := s.get F.MOD_DET_CTRL_ON_DIV
  if on = 0 then s
  else
    let s := s.fault 0x0D01 .module 0
    if on = 1 then s.partitionFault t
    else if on = 2 then
      if s.tenState t = tenRunning ∨ s.tenState t = tenFaulted ∨ s.tenState t = tenDone then
        s.setTen t { s.ten t with halt := some 0x0D01, haltQuiet := false } else s
    else s.armFreeze (4000 * (s.frame + 1)) 5

/-- A comparison event for record i: compared where both records are VALID with equal STEP and CFRAME (R428). -/
def Lanorun.detCompare (s : Lanorun) (i : Nat) : Lanorun :=
  let own := s.dram (detLog i) 32
  let peer := s.dram (detInbox i) 32
  if fieldAt own 11 1 % 2 = 1 ∧ fieldAt peer 11 1 % 2 = 1 ∧ fieldAt own 0 10 = fieldAt peer 0 10 then
    let step := fieldAt own 0 8
    let frame := fieldAt own 8 2
    let s := s.setDet fun d => { d with waits := d.waits.filter fun w => !(w.step == step && w.frame == frame) }
    let s := (s.put F.MOD_DET_STATUS_LAST_STEP (step % 2 ^ 40)).put F.MOD_DET_STATUS_LAST_CFRAME frame
    let sel := s.detSel
    if (sel % 2 = 0 ∨ fieldAt own 0x18 8 = fieldAt peer 0x18 8) ∧ (sel < 2 ∨ fieldAt own 0x10 8 = fieldAt peer 0x10 8) then
      (s.event F.MOD_DET_EVENT_MATCH).countEvt R.MOD_DET_CNT 1 0 0
    else s.detDiverge own peer
  else s

/-- The record of a closed frame (R427). -/
def Lanorun.detRecord (s : Lanorun) (d : DetFrame) : List (BitVec 8) :=
  leBytes 8 d.step ++ leBytes 2 d.frame ++ leBytes 1 d.run ++ [7#8] ++
  leBytes 2 s.det.pkey ++ [0#8, 0#8] ++ leBytes 8 d.dv.toNat ++ leBytes 8 d.dc.toNat

/-- A frame's digests close: logged, sent to the partner and compared; the history keeps 64 (R425, R428, R431). -/
def Lanorun.detClose (s : Lanorun) (d : DetFrame) : Lanorun :=
  let i := s.detIndex d.step d.frame
  let captured := s.flag F.MOD_DET_STATUS_CAPTURED
  let s := s.setDet fun x => { x with sums := x.sums.erase d,
                                      hist := if captured then x.hist else (d :: x.hist).take 64 }
  let a := detLog i
  let s := s.dramWrite a (s.detRecord d)
  let s := s.sendData 2 0 s.det.partner 4 (0x3FF00000 + 32 * i) 0 0 0 a 32 .steward
  let s := s.countEvt R.MOD_DET_CNT 1 0 3
  let s := s.setDet fun x => { x with waits := x.waits ++ [{ step := d.step, frame := d.frame, closed := s.frame }] }
  s.detCompare i

/-- The digest unit's share of the Bell that opens the present frame: frames that began two hall frames ago close (R425). -/
def Lanorun.detBell (s : Lanorun) : Lanorun :=
  (s.det.sums.filter fun d => decide (d.began + 2 ≤ s.frame)).foldl Lanorun.detClose s

/-- Frame k of step x of tenancy t begins: its digests open (R425). -/
def Lanorun.detOpen (s : Lanorun) (t x k : Nat) : Lanorun :=
  if s.det.active ∧ t = s.det.tenancy then
    s.setDet fun d => { d with sums := d.sums ++ [{ step := x, frame := k, began := s.frame,
                                                     run := s.get F.PLN_TEN_STAT_RETRIES 0 t }] }
  else s

/-- The tenancy faults: digests of frames not yet closed are discarded (R425). -/
def Lanorun.detFault (s : Lanorun) (t : Nat) : Lanorun :=
  if s.det.active ∧ t = s.det.tenancy then s.setDet fun d => { d with sums := [] } else s

/-- EN, TENANCY and PARTNER take effect at an activation; the empty plan keeps none (R422, MOD_DET_CTRL). -/
def Lanorun.detActivate (s : Lanorun) (im : Option Image) : Lanorun :=
  let t := s.get F.MOD_DET_CTRL_TENANCY
  let on := match im with
    | some i => s.flag F.MOD_DET_CTRL_EN && decide (t < i.tenancyCount)
    | none => false
  let s := s.put F.MOD_DET_STATUS_ACTIVE (if on then 1 else 0)
  let i := im.getD {}
  s.setDet fun d => { d with active := on, tenancy := t, partner := s.get F.MOD_DET_CTRL_PARTNER, pkey := i.pkey t,
                             stepFrames := i.stepFrames t, sums := [], waits := [] }

/-- The first own record that has waited WAIT frames raises DET_MISSING (R429). -/
def Lanorun.detMissing (s : Lanorun) : Lanorun :=
  let w := s.get F.MOD_DET_CTRL_WAIT
  let w := if w = 0 then 64 else w
  if s.frozen then s
  else match s.det.waits.find? fun x => decide (x.closed + w ≤ s.frame) with
    | some x => ((s.setDet fun d => { d with waits := d.waits.erase x }).event F.MOD_DET_EVENT_MISSING).countEvt R.MOD_DET_CNT 1 0 2
    | none => s

/-- CAPCLR (R430). -/
def Lanorun.capClr (s : Lanorun) : Lanorun := (s.put F.MOD_DET_STATUS_CAPTURED 0).put F.MOD_DET_STATUS_PART_OK 0

/-- MOD_DET_PDATA: the partial that MOD_DET_PSEL selects (R431). -/
def Lanorun.detPartial (s : Lanorun) : Nat :=
  let src := s.get F.MOD_DET_PSEL_SOURCE
  match s.det.hist[s.get F.MOD_DET_PSEL_AGE]? with
  | some d => if src < 88 then (sget 0#64 d.parts src).toNat else 0
  | none => 0

end Sys2Proof.Machine
end

