-- ==== Sys2Proof/Machine/Roce.lean ====
section
/-! DEFINITION. Queue pairs of the Ethernet ports: posting RDMA READ and WRITE operations (R452 to R456). -/
namespace Sys2Proof.Machine

def Lanorun.eth (s : Lanorun) (e : Nat) : Eth := sget {} s.eths e
def Lanorun.setEth (s : Lanorun) (e : Nat) (x : Eth) : Lanorun := { s with eths := sset {} s.eths e x }
def Lanorun.qp (s : Lanorun) (e i : Nat) : Qp := sget {} (s.eth e).qps i
def Lanorun.setQp (s : Lanorun) (e i : Nat) (q : Qp) : Lanorun :=
  s.setEth e { s.eth e with qps := sset {} (s.eth e).qps i q }

/-- STATE of a queue pair: 1 RTS, 2 ERROR, and RESET for 0 and 3 (R453). -/
def Lanorun.qpState (s : Lanorun) (e i : Nat) : Nat :=
  let v := s.get F.ETH_QP_CTRL_STATE e i
  if v = 3 then 0 else v

/-- The path MTU in bytes; the table names 3 to 5, and other codes act as the nearest of the transport's own (R465). -/
def pmtuBytes (c : Nat) : Nat := 2 ^ (7 + max 1 (min 5 c))

/-- An operation is posted on an entry in RTS with the next PSNs; one packet for a WRITE of a ring entry, one response per path
MTU for a READ (R453, R454). -/
def Lanorun.post (s : Lanorun) (e i : Nat) (read : Bool) (addr len : Nat) (data : List (BitVec 8)) (owner : RoceOwner) :
    Bool × Lanorun :=
  if s.qpState e i = 1 then
    let psn := s.get F.ETH_QP_CTRL_PSN_TX e i
    let n := max 1 (ceilDiv len (pmtuBytes (s.get F.ETH_QP_CTRL_PMTU e i)))
    let q := s.qp e i
    let op : RoceOp := { read := read, psn := psn, n := n, addr := addr, len := len, data := data, owner := owner }
    let s := s.setQp e i { q with ops := q.ops ++ [op] }
    (true, s.put F.ETH_QP_CTRL_PSN_TX ((psn + n) % 2 ^ 24) e i)
  else (false, s)

/-- A read from storage target t (R455). -/
def Lanorun.storageRead (s : Lanorun) (t addr len : Nat) (owner : RoceOwner) : Bool × Lanorun :=
  if s.flag F.ETH_STORE_VALID 0 t then
    s.post (s.get F.ETH_STORE_PORT 0 t) (s.get F.ETH_STORE_QP 0 t) true addr len [] owner
  else (false, s)

/-- A ring entry by RDMA WRITE on the queue pair that an SQ entry names (R454). -/
def Lanorun.ringPost (s : Lanorun) (qp addr : Nat) (data : List (BitVec 8)) (owner : RoceOwner) : Bool × Lanorun :=
  if bitsOf qp 14 8 = 0 then s.post (bitsOf qp 15 15) (bitsOf qp 7 0) false addr data.length data owner else (false, s)

end Sys2Proof.Machine
end

