-- ==== Sys2Proof/Machine/Mover.lean ====
section
/-! DEFINITION. The weight mover and bank switches (R359 to R375). -/
namespace Sys2Proof.Machine

/-- The records of a kind in a tenancy's WEIGHTS section, with their positions (R361). -/
def Image.weights (i : Image) (t kind : Nat) : List (Nat × List (BitVec 8)) :=
  match i.sect 10 t with
  | some x => ((List.range x.count).map fun n => (n, x.record n)).filter fun r => fieldAt r.2 2 1 == kind
  | none => []

/-- PAIR record n of a tenancy. -/
def Image.pair (i : Image) (t n : Nat) : List (BitVec 8) := ((i.pairs t).find? fun p => fieldAt p 4 1 == n).getD []

/-- The base of a pair's bank (R361). -/
def bankBase (p : List (BitVec 8)) (b : Bool) : Nat := if b then fieldAt p 0x10 8 else fieldAt p 8 8

/-- The vault address of byte o of a pair's bank (R218, R361). -/
def bankByte (mask : Nat) (p : List (BitVec 8)) (b : Bool) (o : Nat) : Nat :=
  if fieldAt p 5 1 = 0xFF then rangeByte mask true (bankBase p b) o
  else fieldAt p 5 1 * 2 ^ 36 + vaultOffset (bankBase p b) + o

/-- The interleaved address of a vault address (R218). -/
def interleaveOf (mask a : Nat) : Nat :=
  let vs := maskVaults mask
  (vaultOffset a / 8192 * vs.length + indexOf vs (vaultOf a)) * 8192 + a % 8192

/-- The byte of a pair's bank at a vault address, none outside it. -/
def bankOffset (mask : Nat) (p : List (BitVec 8)) (b : Bool) (a : Nat) : Option Nat :=
  let v := fieldAt p 5 1
  let n := fieldAt p 0x18 8
  let base := bankBase p b
  if v = 0xFF then
    let i := interleaveOf mask a
    if mask.testBit (vaultOf a) ∧ base ≤ i ∧ i < base + n then some (i - base) else none
  else if vaultOf a = v ∧ vaultOffset base ≤ vaultOffset a ∧ vaultOffset a < vaultOffset base + n
  then some (vaultOffset a - vaultOffset base) else none

/-- Fields of a SHARD record. -/
def shardPair (r : List (BitVec 8)) : Nat := fieldAt r 4 1
def shardSource (r : List (BitVec 8)) : Nat := fieldAt r 5 1
def shardTree (r : List (BitVec 8)) : Nat := fieldAt r 6 1
def shardOffset (r : List (BitVec 8)) : Nat := fieldAt r 8 8
def shardBytes (r : List (BitVec 8)) : Nat := fieldAt r 0x10 8
def shardChunks (r : List (BitVec 8)) : Nat := ceilDiv (shardBytes r) (2 ^ 20)
def chunkBytes (r : List (BitVec 8)) (c : Nat) : Nat := min (2 ^ 20) (shardBytes r - c * 2 ^ 20)

/-- The image and tenancy of the mover's operation (R363, R364). -/
def Lanorun.moverImage (s : Lanorun) : Image :=
  match s.mover.slot with
  | some i => s.image i
  | none => s.activeImage.getD {}
def Lanorun.moverShards (s : Lanorun) : List (Nat × List (BitVec 8)) := s.moverImage.weights s.mover.ten 2
def Lanorun.moverShard (s : Lanorun) (n : Nat) : List (BitVec 8) := ((s.moverShards.find? (·.1 = n)).map (·.2)).getD []

/-- The vault address of byte o of shard n in the bank of the operation. -/
def Lanorun.shardByte (s : Lanorun) (n o : Nat) : Nat :=
  let im := s.moverImage
  let r := s.moverShard n
  bankByte (im.vaultMask s.mover.ten) (im.pair s.mover.ten (shardPair r)) s.mover.bank (shardOffset r + o)

/-- A packet or a storage read of LOAD op met E2E_GIVEUP (R371). -/
def Lanorun.moverFail (s : Lanorun) (op : Nat) : Lanorun :=
  if s.loading ∧ s.mover.op = op then s.moverEnd 4 0x0B02 0xFFFF else s

/-- SINGLE pairs, and INIT_BANK of a tenancy's pairs; the bank of SINGLE pairs stays A (R359, R361). -/
def Image.single (i : Image) (t : Nat) : Bool := (i.pairs t).any fun p => fieldAt p 6 1 % 2 == 1
def Image.initBank (i : Image) (t : Nat) : Bool := !i.single t && (i.pairs t).any fun p => (fieldAt p 6 1).testBit 2

/-- LOAD and VERIFY are refused (R363, R364). -/
def Lanorun.moverRefuses (s : Lanorun) (img : Bool) (slot t : Nat) (b : Bool) : Bool :=
  if img then
    let im := s.image slot
    s.get F.PLN_SLOT_STAT_STATE 0 slot != 2 || s.planActive || decide (im.tenancyCount ≤ t) || (im.pairs t).isEmpty ||
    b != im.initBank t
  else match s.activeImage with
    | none => true
    | some im =>
      let w := s.wgt t
      decide (im.tenancyCount ≤ t) || (im.pairs t).isEmpty || w.bankAt (s.ten t).step == some b ||
      (match w.pend with
       | some (_, target) => target == b
       | none => false) || (im.single t && b)

/-- The rank's module within the mover's tenancy; the ranks of a READY image are not in the table (R335, R364). -/
def Lanorun.moverRank (s : Lanorun) (r : Nat) : Nat :=
  match s.mover.slot with
  | some i => fieldAt ((s.image i).recd 5 s.mover.ten r) 0 2 % 2 ^ 14
  | none => (s.rankOf s.mover.ten r).getD 0

/-- A shard is fetched from a neighbour: by its SOURCE or under SRC_OVR (R367, R370). -/
def Lanorun.fromPeer (s : Lanorun) (r : List (BitVec 8)) : Bool := s.mover.srcOvr || shardSource r == 2

/-- A shard is fetched, and does not come from the parent (R367, R370). -/
def Lanorun.fetched (s : Lanorun) (r : List (BitVec 8)) : Bool := s.mover.srcOvr || shardSource r != 1

/-- The chunks to fetch, in record order: neither done nor asked for (R367). -/
def Lanorun.toFetch (s : Lanorun) : List (Nat × Nat) :=
  s.moverShards.flatMap fun (n, r) =>
    if s.fetched r = false then []
    else ((List.range (shardChunks r)).map fun c => (n, c)).filter fun k =>
      !s.mover.done.contains k && !s.mover.fetching.contains k

/-- A chunk is tracked (R365). -/
def Mover.tracks (m : Mover) (k : Nat × Nat) : Bool := m.open_.any fun c => c.shard == k.1 && c.chunk == k.2

/-- One chunk is asked for: a READ_REQ to the neighbour, or one RDMA READ of the storage target (R367, R455). -/
def Lanorun.fetchOne (s : Lanorun) (k : Nat × Nat) : Lanorun :=
  let r := s.moverShard k.1
  let im := s.moverImage
  let t := s.mover.ten
  let m := s.mover
  let fresh : Chunk := { shard := k.1, chunk := k.2, marks := [] }
  let s := s.setMover fun w => { w with fetching := m.fetching ++ [k], open_ := if m.tracks k then m.open_ else m.open_ ++ [fresh] }
  if s.fromPeer r then
    let p := im.pair t (shardPair r)
    let o := shardOffset r + k.2 * 2 ^ 20
    let il := fieldAt p 5 1 = 0xFF
    let target := 2 ^ 62 + (if il then 2 ^ 61 + bankBase p s.mover.bank + o else bankByte (im.vaultMask t) p s.mover.bank o)
    s.sendCtlPkt 3 (im.pkey t) (s.moverRank (fieldAt r 0x28 2)) 0x12
      (leBytes 8 (fieldAt r 0x30 8 + k.2 * 2 ^ 20) ++ leBytes 8 (chunkBytes r k.2) ++ leBytes 8 target) (.mover false s.mover.op)
  else if s.loading then
    match s.storageRead (fieldAt r 7 1) ((fieldAt r 0x18 8 + fieldAt r 0x20 8 + k.2 * 2 ^ 20) % 2 ^ 64) (chunkBytes r k.2)
        (.chunk s.mover.op k.1 k.2) with
    | (true, s) => s
    | (false, s) => s.moverFail s.mover.op
  else s

/-- Up to 8 chunks are outstanding at once; a chunk that is asked for is tracked, so it waits for one of the 256 places
(R365, R367). -/
def Lanorun.fetchMore (s : Lanorun) : Lanorun :=
  (s.toFetch.take (8 - s.mover.fetching.length)).foldl (fun s k =>
    if s.loading ∧ (s.mover.tracks k ∨ s.mover.open_.length < 256) then s.fetchOne k else s) s

/-- CRC-32C of a run of zero bytes after a value; and of two runs by those of each (R73, R366). -/
def crcZeros (n c : Nat) : Nat := forN (fun _ c => crcByte c 0#8) 0 n c
def crcJoin (a b n : Nat) : Nat := crcZeros n a ^^^ b

/-- The CRC-32C of a shard, folded from those of its chunks as they were read back (R366). -/
def Lanorun.foldedCrc (s : Lanorun) (n : Nat) : Nat :=
  let r := s.moverShard n
  (List.range (shardChunks r)).foldl (fun a c => crcJoin a (((s.mover.crcs.find? (·.1 = (n, c))).map (·.2)).getD 0) (chunkBytes r c)) 0

/-- The first shard, in record order, that is whole and has not been checked passes, or ends the LOAD with WGT_CHECK (R366). -/
def Lanorun.checkShard (s : Lanorun) : Lanorun :=
  if s.loading = false then s
  else match s.moverShards.find? fun (n, r) => !s.mover.passed.contains n &&
      (List.range (shardChunks r)).all fun c => s.mover.done.contains (n, c) with
    | none => s
    | some (n, r) =>
      if s.foldedCrc n = fieldAt r 0x2C 4 then s.setMover fun w => { w with passed := n :: s.mover.passed }
      else s.moverEnd 4 0x0B01 n

/-- The TREE record that a shard names, and how many children it has (R361). -/
def Lanorun.shardChildren (s : Lanorun) (r : List (BitVec 8)) : List Nat :=
  if s.mover.srcOvr then []
  else match (s.moverImage.weights s.mover.ten 3).find? fun x => fieldAt x.2 4 1 == shardTree r with
    | some (_, tree) => (List.range (fieldAt tree 6 1)).map fun ch => fieldAt tree (0x0C + 2 * ch) 2
    | none => []

/-- A packet that the mover forwards has not been sent yet. -/
def Lanorun.forwarding (s : Lanorun) : Bool := s.ni.waiting.any fun r => match r.from_ with
  | .mover true _ => true
  | _ => false

/-- The next chunk goes to its next child, once the one before has been fully sent (R368). -/
def Lanorun.forwardNext (s : Lanorun) : Lanorun :=
  match s.mover.forward with
  | [] => s
  | (n, c, ch) :: rest =>
    if s.loading = false ∨ s.forwarding then s
    else
      let r := s.moverShard n
      let dst := s.moverRank (listGet 0 (s.shardChildren r) ch)
      let k := chunkBytes r c / 2048
      let s := s.setMover fun w => { w with forward := rest, unacked := s.mover.unacked + k }
      forN (fun g s =>
        let a := s.shardByte n (c * 2 ^ 20 + 2048 * g)
        s.sendData 1 (s.moverImage.pkey s.mover.ten) dst 1 (2 ^ 62 + a) 0 0 0 a 2048 (.mover true s.mover.op)) 0 k s

/-- A completed chunk is queued for every child of its shard's tree, in CHILD order (R366, R368). -/
def Lanorun.queueForward (s : Lanorun) (n c : Nat) : Lanorun :=
  let l := (List.range (s.shardChildren (s.moverShard n)).length).map fun ch => (n, c, ch)
  s.setMover fun w => { w with forward := s.mover.forward ++ l }

/-- The done chunks from the first incomplete one on, in record order: those from which forwarding starts again (R371). -/
def Lanorun.doneAfterGap (s : Lanorun) : List (Nat × Nat) :=
  let all := s.moverShards.flatMap fun (n, r) => (List.range (shardChunks r)).map fun c => (n, c)
  (all.dropWhile s.mover.done.contains).filter s.mover.done.contains

/-- LOAD or VERIFY with a value of MOD_WGT_CTRL (R363, R364, R370, R371). A LOAD of the bank whose LOAD failed keeps its done
bits and what it had still to forward, and forwards again from the first incomplete chunk on (log entry 100). -/
def Lanorun.moverStart (s : Lanorun) (verify : Bool) (v : Nat) : Lanorun :=
  let st := s.get F.MOD_WGT_STATUS_STATE
  if st = 1 ∨ st = 2 then s
  else
    let img := v.testBit 15
    let slot := bitsOf v 14 13
    let t := bitsOf v 11 8
    let b := v.testBit 4
    if s.moverRefuses img slot t b then s.put F.MOD_WGT_STATUS_STATE 6
    else
      let m := s.mover
      let sl := if img then some slot else none
      let m' : Mover := { op := m.op + 1, slot := sl, ten := t, bank := b, srcOvr := v.testBit 12 && !verify }
      let s := (s.put F.MOD_WGT_STATUS_CODE 0).put F.MOD_WGT_STATUS_SHARD 0xFFFF
      if verify then { s with mover := m' }.put F.MOD_WGT_STATUS_STATE 2
      else
        let again := m.failed ∧ m.slot = sl ∧ m.ten = t ∧ m.bank = b
        let s := { s with mover := if again then { m' with done := m.done, crcs := m.crcs, passed := m.passed, forward := m.forward }
                                   else m' }
        let s := (s.setValid t b false).put F.MOD_WGT_STATUS_STATE 1
        let s := (s.doneAfterGap.filter fun k => !s.mover.forward.any fun f => (f.1, f.2.1) == k).foldl
          (fun s k => s.queueForward k.1 k.2) s
        (s.fetchMore.checkShard).forwardNext

/-- A LOAD written while frozen is held until the resume; one written while an operation runs is ignored (R363, R533). -/
def Lanorun.moverHold (s : Lanorun) (v : Nat) : Lanorun :=
  let st := s.get F.MOD_WGT_STATUS_STATE
  if st = 1 ∨ st = 2 then s else s.setMover fun w => { w with held := some v }

/-- A write of MOD_WGT_CTRL.CMD (R363, R533). -/
def Lanorun.moverCmd (s : Lanorun) (c v : Nat) : Lanorun :=
  match c with
  | 1 => if s.frozen then s.moverHold v else s.moverStart false v
  | 2 => s.moverStart true v
  | _ => s

/-- The held LOAD begins at the resume. -/
def Lanorun.moverResume (s : Lanorun) : Lanorun :=
  match if s.frozen then none else s.mover.held with
  | some v => (s.setMover fun w => { w with held := none }).moverStart false v
  | none => s

/-- LIMIT seconds have passed (R371). -/
def Lanorun.moverTimeout (s : Lanorun) : Lanorun :=
  if s.loading ∧ s.get F.MOD_WGT_CTRL_LIMIT ≠ 0 then s.moverEnd 4 0x0B03 0xFFFF else s

/-- The shard bytes as the bank holds them. -/
def Lanorun.shardData (s : Lanorun) (n : Nat) : List (BitVec 8) :=
  (List.range (shardBytes (s.moverShard n) / 2048)).flatMap fun g => s.dram (s.shardByte n (2048 * g)) 2048
def Lanorun.shardOk (s : Lanorun) (n : Nat) : Bool := crc32c (s.shardData n) == fieldAt (s.moverShard n) 0x2C 4

/-- The shard granules of 2,048 bytes that a write of n bytes at vault address a lands in (R365). -/
def Lanorun.granulesAt (s : Lanorun) (a n : Nat) : List (Nat × Nat) :=
  let im := s.moverImage
  let t := s.mover.ten
  let mask := im.vaultMask t
  s.moverShards.flatMap fun (k, r) =>
    let p := im.pair t (shardPair r)
    let gs := (List.range (ceilDiv n 32)).filterMap fun i => (bankOffset mask p s.mover.bank (a + 32 * i)).map (· / 2048)
    (gs.eraseDups.filter fun g => decide (shardOffset r ≤ 2048 * g) && decide (2048 * g < shardOffset r + shardBytes r)).map
      fun g => (k, g - shardOffset r / 2048)

/-- A write, by its pieces, would open a chunk beyond the 256 that are tracked (R365). -/
def Lanorun.moverFull (s : Lanorun) (ps : List (Nat × Nat)) : Bool :=
  let m := s.mover
  let ks := ((ps.flatMap fun p => s.granulesAt p.1 p.2).map fun (k, g) => (k, g / 512)).eraseDups
  let new := (ks.filter fun k => !m.done.contains k && !m.tracks k).length
  s.loading && decide (new ≠ 0) && decide (256 < m.open_.length + new)

/-- While a LOAD runs, the granules of the bank that a write lands in are marked (R365). -/
def Lanorun.moverMark (s : Lanorun) (a n : Nat) : Lanorun :=
  if s.loading then
    (s.granulesAt a n).foldl (fun s (k, g) =>
      let m := s.mover
      if m.done.contains (k, g / 512) then s
      else
        let fresh : Chunk := { shard := k, chunk := g / 512, marks := [g] }
        let (l, new) : List Chunk × Bool := match m.open_.find? fun c => c.shard == k && c.chunk == g / 512 with
          | none => (m.open_ ++ [fresh], true)
          | some c =>
            if c.marks.contains g then (m.open_, false)
            else (m.open_.map fun d => if d = c then { c with marks := g :: c.marks } else d, true)
        if new then ({ s with mover := { m with open_ := l } }).countEvt R.MOD_WGT_BYTES 2048 else s) s
  else s

/-- A chunk's bytes, as they are read back. -/
def Lanorun.chunkRead (s : Lanorun) (n c : Nat) : List (BitVec 8) :=
  (List.range (chunkBytes (s.moverShard n) c / 2048)).flatMap fun g => s.dram (s.shardByte n (c * 2 ^ 20 + 2048 * g)) 2048

/-- A chunk whose granules are all marked is complete: done, folded into its shard's CRC, queued for forwarding, and its shard
checked once it was the last (R366). -/
def Lanorun.chunkComplete (s : Lanorun) : Lanorun :=
  if s.loading = false then s
  else match s.mover.open_.find? fun c => c.marks.length * 2048 == chunkBytes (s.moverShard c.shard) c.chunk with
    | none => s
    | some c =>
      let m := s.mover
      let k := (c.shard, c.chunk)
      let s := { s with mover := { m with open_ := m.open_.erase c, done := k :: m.done, fetching := m.fetching.erase k,
                                          crcs := (k, crc32c (s.chunkRead k.1 k.2)) :: m.crcs } }
      (((s.queueForward k.1 k.2).forwardNext).checkShard).fetchMore

/-- A LOAD is DONE once every shard passed and every forwarded packet was acknowledged (R368). -/
def Lanorun.loadDone (s : Lanorun) : Lanorun :=
  if s.loading ∧ s.moverShards.all (fun x => s.mover.passed.contains x.1) ∧ s.mover.forward = [] ∧ s.mover.unacked = 0
  then s.moverEnd 3 0 0xFFFF
  else s

/-- A VERIFY ends with the checks of every shard over the bank as it stands (R363). -/
def Lanorun.verifyDone (s : Lanorun) : Lanorun :=
  if s.get F.MOD_WGT_STATUS_STATE = 2 then
    match s.moverShards.find? fun x => !s.shardOk x.1 with
    | none => s.moverEnd 3 0 0xFFFF
    | some x => s.moverEnd 4 0x0B01 x.1
  else s


/-- The NACK reason that PROTECT gives an unscheduled write of n bytes at a, where it refuses it (R360). -/
def Lanorun.protectReason (s : Lanorun) (im : Image) (t a n : Nat) : Option Nat :=
  let mask := im.vaultMask t
  let hit (b : Bool) : Bool := (im.pairs t).any fun p =>
    (fieldAt p 6 1).testBit 1 && !(b && fieldAt p 6 1 % 2 == 1) &&
    ((List.range (ceilDiv n 32 + 1)).any fun i => (bankOffset mask p b (min (a + 32 * i) (a + n - 1))).isSome)
  let open_ (b : Bool) : Bool := s.loading && s.mover.ten == t && s.mover.bank == b
  let now := (s.wgt t).bankAt (s.ten t).step
  let reason (b : Bool) : Option Nat :=
    if hit b && !open_ b then some (if s.activeImage.isSome && now == some b then 2 else 4) else none
  match reason false with
  | some r => some r
  | none => reason true

/-- WGT_SWITCH: an outcome other than PENDING (R373). -/
def Lanorun.switchOutcome (s : Lanorun) (t sw : Nat) : Lanorun := (s.put F.MOD_WGT_TEN_SW sw 0 t).event F.MOD_WGT_EVENT_SWITCH

/-- A SWITCH_BANK slot fires with its ARG (R372, R373). -/
def Lanorun.switchBank (s : Lanorun) (arg : Nat) : Lanorun :=
  let t := bitsOf arg 31 28
  let b := arg.testBit 24
  let lo := arg % 2 ^ 24
  let x := s.ten t
  let w := s.wgt t
  let c := x.step
  let base := if 2 ^ 22 ≤ c + 1 then c + 1 - 2 ^ 22 else 0
  let idx := base + (lo + 2 ^ 24 - base % 2 ^ 24) % 2 ^ 24
  let im := s.activeImage.getD {}
  if s.activeImage = none ∨ im.tenancyCount ≤ t ∨ (im.pairs t) = [] ∨ im.single t ∨ bitsOf arg 27 25 ≠ 0 ∨
     s.tenState t = tenHalted ∨ s.tenState t = tenDone then s.switchOutcome t 5
  else if w.pend ≠ none then s.switchOutcome t 4
  else if w.bankAt c = some b then s.switchOutcome t 6
  else if idx ≤ c ∨ c + 2 ^ 22 < idx then s.switchOutcome t 3
  else
    let s := s.setWgt t { w with pend := some (idx, b) }
    (s.put F.MOD_WGT_TEN_SW 1 0 t).put F.MOD_WGT_TEN_SW_STEP lo 0 t

/-- The register bits that show the bank of a tenancy's present step (MOD_WGT_TEN). -/
def Lanorun.showBank (s : Lanorun) (t : Nat) : Lanorun :=
  match (s.wgt t).bankAt (s.ten t).step with
  | some b => (s.put F.MOD_WGT_TEN_BANK (if b then 1 else 0) 0 t).put F.MOD_WGT_TEN_UNBOUND 0 0 t
  | none => s.put F.MOD_WGT_TEN_UNBOUND 1 0 t

/-- The Bell that opens the first run of step x: a switch to a bank that is not VALID makes the tenancy UNBOUND, and a COMMITTED
one has come into force (R374). -/
def Lanorun.switchOpens (s : Lanorun) (t x : Nat) : Lanorun :=
  let w := s.wgt t
  let s := match w.next.orElse fun _ => w.pend with
    | some (st, b) =>
      if st ≠ x then s
      else
        let w := if w.next = none then w else { w with bank := b, next := none }
        if s.flag (if b then F.MOD_WGT_TEN_VALID_B else F.MOD_WGT_TEN_VALID_A) 0 t then s.setWgt t w
        else ((s.setWgt t { w with unbound := some x }).event F.MOD_WGT_EVENT_UNBOUND).fault 0x0B06 .module 0
    | none => s
  s.showBank t

/-- Step x is released: a switch to step x + 1 commits. The target is the bank in force from step x + 1 on (R374, R376). -/
def Lanorun.switchCommit (s : Lanorun) (t x : Nat) : Lanorun :=
  let w := s.wgt t
  match w.pend with
  | some (st, b) =>
    if x + 1 = st then
      let begun := st < (s.ten t).opened
      (s.setWgt t (if begun then { w with bank := b, pend := none } else { w with next := some (st, b), pend := none })).put
        F.MOD_WGT_TEN_SW 2 0 t
    else s
  | none => s

/-- At activation the bank in force is INIT_BANK, which is VALID (R375). -/
def Lanorun.bindBanks (s : Lanorun) (im : Image) : Lanorun :=
  let s := s.moverAbort.setMover fun w => { w with failed := false }
  forN (fun t s =>
    if t < im.tenancyCount ∧ (im.pairs t) ≠ [] then
      let b := im.initBank t
      ((s.setWgt t { bank := b }).setReg R.MOD_WGT_TEN (if b then 2 ^ 4 + 1 else 2 ^ 3) 0 t)
    else (s.setWgt t {}).setReg R.MOD_WGT_TEN 0 0 t) 0 16 s

end Sys2Proof.Machine
end

