-- ==== Sys2Proof/Machine/Ni.lean ====
section
/-! DEFINITION. The network interface and unscheduled traffic: router arbitration, arrival, delivery, acknowledgement and
re-send (R320, R337 to R348). -/
namespace Sys2Proof.Machine

/-- A router's inputs in the order of R537: mesh links by the neighbour's router, north being the row below its own, east the
column above, then the block port, then its attachments in the order of R315's table: vaults, bridge ports, link ports, E0, E1 and
the PCIe endpoint (R315, R320; log entry 67). -/
def inBlock : Nat := 100
def inPort (p : Nat) : Nat := 200 + p
def inBridge (b : Nat) : Nat := 300 + b
def inVault (v a : Nat) : Nat := 400 + 4 * v + a
def inEth (e : Nat) : Nat := 500 + e
def inPcie : Nat := 502
def routerInputs (r : Nat) : List Nat :=
  (if 0 < rowOfRouter r then [r - 1] else []) ++ (if colOf r < 7 then [r + 5] else []) ++
  (if rowOfRouter r < 4 then [r + 1] else []) ++ (if 0 < colOf r then [r - 5] else []) ++ [inBlock] ++
  (((List.range 32).filter fun k => vaultRouter (k / 4) (k % 4) == r).map fun k => inVault (k / 4) (k % 4)) ++
  (if rowOfRouter r = 0 then [inBridge (2 * colOf r), inBridge (2 * colOf r + 1)] else []) ++
  ((List.range 18).filter fun p => portRouter p == r).map inPort ++
  ((List.range 2).filter fun e => routerAt e 5 3 == r).map inEth ++ (if r = routerAt 0 6 3 then [inPcie] else [])

def Lanorun.routerQ (s : Lanorun) (r i : Nat) : List MeshPkt := sget [] (sget [] s.ni.routers r) i
def Lanorun.setRouterQ (s : Lanorun) (r i : Nat) (q : List MeshPkt) : Lanorun :=
  s.setNi fun n' => { n' with routers := sset [] s.ni.routers r (sset [] (sget [] s.ni.routers r) i q) }
def Lanorun.inboxAdd (s : Lanorun) (k : Packet) : Lanorun := s.setNi fun n' => { n' with inbox := s.ni.inbox ++ [k] }

/-- A whole packet enters a router's input on its way to a port, or to the interface as 18. -/
def Lanorun.enterMesh (s : Lanorun) (r i dest : Nat) (k : Packet) : Lanorun :=
  let (n, s) := s.draw
  let b := (Config.bridge n).val
  let q := if dest < 18 then portRouter dest else r
  let m : MeshPkt := { pkt := k, id := s.ni.nextPkt, total := k.nflit + 1, here := k.nflit + 1, left := k.nflit + 1,
                       path := route r q b, dest := dest, vc := vcOf k.tc, bridge := b }
  (s.setNi fun n' => { n' with nextPkt := s.ni.nextPkt + 1 }).setRouterQ r i (s.routerQ r i ++ [m])

/-- A packet that this module originates leaves on its ORIG port, or is delivered here (R337). The answer is whether router
r is where it starts. -/
def Lanorun.originate (s : Lanorun) (r : Nat) (k : Packet) : Bool × Lanorun :=
  if k.dst = s.ownId then (true, s.inboxAdd k)
  else match s.origPort k.dst with
    | some p =>
      if portRouter p = r then
        (true, if s.linkState p = 5 then s.enterMesh r inBlock p k else s.noRoute k)
      else (false, s)
    | none => (true, s.noRoute k)

/-- HOLD keeps TC1 and TC2 packets back (R348). -/
def Lanorun.held (s : Lanorun) (tc : Nat) : Bool := s.flag F.MOD_NI_CTRL_HOLD && (tc == 1 || tc == 2)

/-- A TC1 SEND of a cell that has not begun. -/
def SendEntry.tc1New (q : SendEntry) : Bool := (descOf q.desc).kind == 4 && (descOf q.desc).tc == 1 && q.grp.isNone

/-- A packet belongs to TC1 SEND g of a cell. -/
def Sender.inGroup (g : Nat) : Sender → Bool
  | .cell _ _ h => h == g
  | _ => false

/-- A cell's oldest new TC1 SEND becomes unscheduled packets; its entry stays until each has been sent once (R129, R331,
R332). -/
def Lanorun.sendTc1 (s : Lanorun) (c : Nat) : Lanorun :=
  let x := s.cell c
  match x.sendq.find? SendEntry.tc1New, s.tenOfCell c, s.activeImage with
  | some q, some t, some im =>
    let d := descOf q.desc
    let grp := s.ni.nextGrp
    let s := s.setNi fun n' => { n' with nextGrp := grp + 1 }
    let s := s.setCell c { x with sendq := x.sendq.map fun z => if z = q then { q with grp := some grp } else z }
    s.sendData 1 (im.pkey t) ((s.rankOf t d.rank).getD 0) (if d.tkind = 2 then 2 else 1) d.dst d.tslot
      (if d.flags % 2 = 1 then 2 else 0) 0 d.src d.bytes (.cell c (some d.stally) grp)
  | _, _, _ => s

/-- A packet has been sent once. With the last of a cell's TC1 SEND its bytes have left the cell store, and its entry is free
(R129); with the last of a forwarded chunk the next goes (R368). -/
def Lanorun.firstSent (s : Lanorun) (f : Sender) : Lanorun :=
  match f with
  | .cell c _ g =>
    if s.ni.waiting.any (fun r => r.from_.inGroup g) then s
    else s.setCell c { s.cell c with sendq := (s.cell c).sendq.filter fun q => q.grp != some g }
  | .mover true _ => s.forwardNext
  | _ => s

/-- The first element that f takes, with the others. -/
def takeFirst {α : Type} (f : Lanorun → α → Option Lanorun) (s : Lanorun) : List α → Option (Lanorun × α × List α)
  | [] => none
  | a :: t =>
    match f s a with
    | some s' => some (s', a, t)
    | none => (takeFirst f s t).map fun (s', x, l) => (s', x, a :: l)

/-- What waits at the interface for router r enters the mesh: replies, re-sends, then new packets, for which a re-send record
must be free (R343, R345). -/
def Lanorun.inject (s : Lanorun) (r : Nat) : Lanorun :=
  let s := forN (fun l s => s.sendTc1 (17 * r + l)) 0 17 s
  let s := match takeFirst (fun (s : Lanorun) (k : Packet) =>
      if s.held k.tc then none
      else match s.originate r k with
        | (true, s) => some s
        | (false, _) => none) s s.ni.notices with
    | some (s', _, l) => s'.setNi fun n' => { n' with notices := l }
    | none => s
  let s := match takeFirst (fun (s : Lanorun) (tag : Nat) => match s.ni.records.find? (·.tag = tag) with
      | none => some s
      | some x =>
        if s.held (fieldAt x.hdr 1 1 % 4) then none
        else match s.originate r (s.recordPacket x) with
          | (true, s) => some (s.countErr R.MOD_NI_CNT 1 0 4)
          | (false, _) => none) s s.ni.again with
    | some (s', _, l) => s'.setNi fun n' => { n' with again := l }
    | none => s
  match takeFirst (fun (s : Lanorun) (x : Resend) =>
      if s.held (fieldAt x.hdr 1 1 % 4) ∨ 4096 ≤ s.ni.records.length then none
      else match s.originate r (s.recordPacket x) with
        | (true, s) => some (s.setNi fun n' => { n' with records := s.ni.records ++ [x] })
        | (false, _) => none) s s.ni.waiting with
    | some (s', x, l) => (s'.setNi fun n' => { n' with waiting := l }).firstSent x.from_
    | none => s

/-- The link that a waiting packet's next flit needs at router r (R317). -/
def MeshPkt.link (m : MeshPkt) (r : Nat) : Nat :=
  match m.path with
  | q :: _ => if dieOf q = dieOf r then meshLink r q else bridgeLink (dieOf r) m.bridge
  | [] => if m.dest < 18 then portLink m.dest true else 40000

/-- The mesh schedule of a RUNNING tenancy uses a slot in its present frame, as far as its entries fix their slots (R316, R326). -/
def Lanorun.slotScheduled (s : Lanorun) (link fc : Nat) : Bool :=
  match s.activeImage with
  | none => false
  | some im => (List.range im.tenancyCount).any fun t =>
      s.tenState t == tenRunning && (s.ten t).running &&
      (List.range (im.meshCount t)).any fun e => match im.mesh t e with
        | none => false
        | some x =>
          x.frame == (s.ten t).frameIn &&
          (List.range (if x.sid = 0xFFFF then (im.cellsOf t).length else 1)).any fun m =>
            match memberSlots im t x m with
            | some (_, us) => us.contains (link, fc)
            | none => false

/-- A slot that no scheduled transfer of the frame uses (R316). -/
def Lanorun.slotFree (s : Lanorun) (link fc : Nat) : Bool :=
  !(s.mesh.moves.any fun m => m.uses.any fun u => u.2 == (link, fc)) && !s.slotScheduled link fc

/-- The packets of an input that may go: the first of VC2, then the first of VC1 (R320). -/
def headsOf (q : List MeshPkt) : List MeshPkt := (q.find? (·.vc = 3)).toList ++ (q.find? (·.vc ≠ 3)).toList

/-- The node and the input that a packet's next flit goes to. -/
def MeshPkt.next (m : MeshPkt) (r : Nat) : Nat × Nat :=
  match m.path with
  | q :: _ => (q, if dieOf q = dieOf r then r else inBridge m.bridge)
  | [] => if m.dest < 18 then (portNode m.dest, 0) else (niNode, 0)

/-- A buffer is free downstream for a packet's next flit; the interface takes every flit (R320, R350; log entry 67). A port takes
the flits of a packet that it has begun to take. -/
def Lanorun.hasRoom (s : Lanorun) (r : Nat) (m : MeshPkt) : Bool :=
  let (q, i) := m.next r
  let cap := (Config.meshBuffer q i m.vc).toNat + 1
  if m.path ≠ [] then decide ((((s.routerQ q i).filter (·.vc = m.vc)).map (·.here)).sum < cap)
  else if m.dest < 18 then
    m.left != m.total ||
      decide (((if m.vc = 3 then (s.port m.dest).vc2 else (s.port m.dest).vc1).map fun k => k.nflit + 1).sum < cap)
  else true

/-- Flit n of a packet, its header first. -/
def Packet.flit (k : Packet) (n : Nat) : List (BitVec 8) := if n = 0 then k.hdr else (k.data.drop (64 * (n - 1))).take 64
def Packet.setFlit (k : Packet) (n : Nat) (b : List (BitVec 8)) : Packet :=
  if n = 0 then { k with hdr := b } else { k with data := setBytes k.data (64 * (n - 1)) b }

/-- Flit n of a packet enters an input: with the header the packet is there. -/
def Lanorun.flitInto (s : Lanorun) (q i n : Nat) (m : MeshPkt) (b : List (BitVec 8)) : Lanorun :=
  let l := s.routerQ q i
  if n = 0 then
    s.setRouterQ q i (l ++ [{ m with pkt := m.pkt.setFlit 0 b, here := 1, left := m.total, path := m.path.drop 1 }])
  else s.setRouterQ q i (l.map fun x => if x.id = m.id then { x with pkt := x.pkt.setFlit n b, here := x.here + 1 } else x)

/-- A packet whose flits have all come out of the mesh goes to its port or to the interface (R337, R339). -/
def Lanorun.meshEnd (s : Lanorun) (id q : Nat) : Lanorun :=
  match (s.routerQ q 0).find? fun m => m.id == id && m.here == m.total with
  | none => s
  | some m =>
    let s := s.setRouterQ q 0 ((s.routerQ q 0).filter (·.id ≠ id))
    if q = niNode then s.inboxAdd m.pkt
    else
      let p := m.dest
      if s.linkState p ≠ 5 then s.noRoute m.pkt
      else if s.keyOk p true m.pkt.tc m.pkt.pkey = false then s.pkeyDrop p m.pkt
      else
        let x := s.port p
        if m.vc = 3 then s.setPort p { x with vc2 := x.vc2 ++ [m.pkt] } else s.setPort p { x with vc1 := x.vc1 ++ [m.pkt] }

/-- The 32-byte groups of a flit that crossed uncorrectably (R319). -/
def damage (b : List (BitVec 8)) (gs : List Nat) : List (BitVec 8) :=
  gs.foldl (fun b g => setBytes b (32 * g) (List.replicate 32 0xFF#8)) b

/-- A packet's next flit crosses its link at router r in fc t: out of input i, whose credit it frees where that is a port's receive
buffer, into the next one; a router that is off takes none (R18, R297, R319, R320). -/
def Lanorun.flitCross (s : Lanorun) (r i t : Nat) (m : MeshPkt) (bad : List Nat) : Lanorun :=
  let n := m.total - m.left
  let s := if bad = [] then s else ((s.fault 0x0A03 .block r).event F.MOD_NI_EVENT_MESH).meshLast 0xFFFF r 0 0x0A03 t
  let s := s.setRouterQ r i (((s.routerQ r i).map fun x =>
    if x.id = m.id then { x with here := x.here - 1, left := x.left - 1 } else x).filter (·.left ≠ 0))
  let s := if inPort 0 ≤ i ∧ i < inBridge 0 then s.freeOne (i - inPort 0) m.pkt.tc (n == 0) else s
  let (q, j) := m.next r
  if m.path ≠ [] ∧ s.domainOn q = false then s
  else
    let s := s.flitInto q j n m (damage (m.pkt.flit n) bad)
    if m.path = [] then s.meshEnd m.id q else s

/-- The flits that router r sends in fc t: on each outgoing link whose slot is free, of the inputs in the order of R320, the first
that waits and has a buffer downstream. -/
def Lanorun.flitsToSend (s : Lanorun) (r t : Nat) : List (Nat × MeshPkt) :=
  let ins := routerInputs r
  let k := t % ins.length
  let cands := (ins.drop k ++ ins.take k).flatMap fun i => (headsOf (s.routerQ r i)).map fun m => (i, m)
  cands.foldl (fun l (i, m) =>
    if m.here = 0 ∨ l.any (fun e => e.2.link r == m.link r) ∨ s.slotFree (m.link r) t = false ∨ s.hasRoom r m = false then l
    else l ++ [(i, m)]) []

/-- Router r in fc t sends unscheduled flits; ue names the 32-byte groups that cross uncorrectably, group 2n + g being group g of
the n-th flit that it sends (R319, R320). -/
def Lanorun.flitForward (s : Lanorun) (r t : Nat) (ue : List Nat) : Lanorun :=
  if s.domainOn r = false then s
  else
    let s := s.inject r
    ((s.flitsToSend r t).zipIdx).foldl (fun s ((i, m), n) =>
      s.flitCross r i t m ((ue.filter (· / 2 = n)).map (· % 2))) s

/-- The first packet of a receive buffer that nothing holds up: a TC2 MSG for this module waits for space in CR1, and no other
class waits behind it (R297, R350). -/
def Lanorun.firstReady (s : Lanorun) (l : List Packet) : Option Packet :=
  l.find? fun k => !(k.tc == 2 && k.op == 0x15 && k.dst == s.ownId && s.vaultReady 0 && s.cringFull 1)

/-- The tenancy of a key is RUNNING; scheduled packets for another are discarded (R96). -/
def Lanorun.keyRuns (s : Lanorun) (key : Nat) : Bool :=
  match s.keyTen key with
  | some (_, t) => s.tenState t == tenRunning
  | none => false

/-- The first packet in a port's receive buffer that may go: its key is checked, and it is kept for its mesh entries (VC0), sent
on, or delivered here (R297, R334, R336, R337, R339). Its credits come free as its flits leave, or at once where it is dropped. -/
def Lanorun.packetArrive (s : Lanorun) (p : Nat) : Lanorun :=
  let x := s.port p
  match s.firstReady x.arrived with
  | none => s
  | some k =>
    let s := s.setPort p { x with arrived := x.arrived.erase k }
    let free (s : Lanorun) : Lanorun := s.freeCredit p k.tc k.nflit
    let wait (s : Lanorun) : Lanorun := s.setPort p { s.port p with rx0 := (s.port p).rx0 ++ [k] }
    let out := if k.dst = s.ownId then some 0x1E else s.outPort p k.dst
    if s.keyOk p false k.tc k.pkey = false then (free s).pkeyDrop p k
    else if k.tc = 0 ∧ s.keyRuns k.pkey = false then free s
    else if out = some 0x1E then (if k.tc = 0 then wait s else s.enterMesh (portRouter p) (inPort p) 18 k)
    else if k.hops = 0 then (free s).hopLimit k
    else match out with
      | none => (free s).noRoute k
      | some o =>
        if 18 ≤ o ∨ s.linkState o ≠ 5 then (free s).noRoute k
        else if k.tc = 0 then wait s
        else s.enterMesh (portRouter p) (inPort p) o { k with hdr := setBytes k.hdr 13 [BitVec.ofNat 8 (k.hops - 1)] }

/-- The first packet delivered to the interface, where its op is the one given; one that fails its check, whatever its op, is
answered with NACK CRC, unless it is itself a reply (R341, R342). -/
def Lanorun.deliver (s : Lanorun) (op : Nat) (f : Lanorun → Packet → Lanorun) : Lanorun :=
  match s.ni.inbox with
  | [] => s
  | k :: rest =>
    let t := s.setNi fun n' => { n' with inbox := rest }
    if k.crcOk = false then
      let t := (t.event F.MOD_NI_EVENT_E2E_CRC).countErr R.MOD_NI_CNT 1 0 3
      if k.op = 0x10 ∨ k.op = 0x11 then t else t.sendNack k 1
    else if k.op = op then f t k else s

/-- The filter of R344: applied once, acknowledged again, refused BUSY at a full filter. -/
def Lanorun.filtered (s : Lanorun) (k : Packet) (f : Lanorun → Lanorun) : Lanorun :=
  if s.ni.filter.contains (k.src, k.tag) then (s.countErr R.MOD_NI_CNT 1 0 6).sendAck k
  else if 8192 ≤ s.ni.filter.length then s.sendNack k 4
  else f s
def Lanorun.filterAdd (s : Lanorun) (k : Packet) : Lanorun :=
  s.setNi fun n' => { n' with filter := (k.src, k.tag) :: s.ni.filter }

/-- WGT_PROTECT: an unscheduled write is refused (R360). -/
def Lanorun.protectNack (s : Lanorun) (k : Packet) (reason : Nat) : Lanorun := (s.event F.MOD_WGT_EVENT_PROTECT).sendNack k reason

/-- An unscheduled WRITE or READ_DATA at delivery (R229, R340, R342, R360, R365). -/
def Lanorun.applyWrite (s : Lanorun) (k : Packet) : Lanorun :=
  match s.keyTen k.pkey with
  | none => s.sendNack k 3
  | some (im, t) =>
    let mask := im.vaultMask t
    let il := k.target.testBit 61
    let a := k.target % 2 ^ 39
    if bitsOf k.target 63 62 ≠ 1 ∨ rangeOk mask il a k.bytes = false then s.sendNack k 2
    else
      let ps := writePieces mask il 2 a k.payload
      match ps.findSome? fun (q, bs) => s.protectReason im t q bs.length with
      | some r => s.protectNack k r
      | none =>
        if ps.any (fun p => !s.vaultReady (vaultOf p.1)) then s
        else if s.moverFull (ps.map fun p => (p.1, p.2.length)) then s.sendNack k 4
        else
          let s := if k.slotchk ∧ s.slotBit k.tslot = false then s.countEvt R.VLT_SUPPRESS_CNT 1 (vaultOf (ps.headD (0, [])).1)
            else ps.foldl (fun s p => (s.dramWrite p.1 p.2).moverMark p.1 p.2.length) s
          s.sendAck k

/-- A SCATTER or ATOMIC whose rows lie in a protected range (R360). -/
def Lanorun.cmdProtect (s : Lanorun) (im : Image) (t g : Nat) (bytes : List (BitVec 8)) : Option Nat :=
  let r : Rec := ⟨bytes⟩
  let k : EngCtx := { g := g, owner := none, ten := none, step := 0, frame := 0 }
  if r.op = 4 ∨ r.op = 5 then
    let w := if r.op = 4 then r.s else modeBytes r.atMode
    let stride := if r.op = 4 then 4 else if r.atMode = 1 then 32 else 8
    ((List.range r.nr).filterMap fun i =>
      let x := r.index 0x40 stride i
      if r.inTable x then some (r.tbase + x.toNat * w) else none).findSome? fun l =>
        (localParts (w / 256 + 2) l w).findSome? fun (q, n) => s.protectReason im t (k.at q) n
  else none

/-- An unscheduled ENGINE packet (R230, R340, R344). -/
def Lanorun.applyEngine (s : Lanorun) (k : Packet) : Lanorun :=
  match s.keyTen k.pkey with
  | none => s.sendNack k 3
  | some (im, t) =>
    let id := bitsOf k.target 59 44
    let g := 32 * bitsOf id 10 8 + bitsOf id 4 0
    if bitsOf k.target 63 62 ≠ 2 ∨ (im.vaultMask t).testBit (g / 32) = false then s.sendNack k 2
    else s.filtered k fun s =>
      if s.cmdBad false k.payload then (s.engineCmdFault g none).sendNack k 5
      else match s.cmdProtect im t g k.payload with
        | some r => s.protectNack k r
        | none =>
          let c : EngCmd := { bytes := k.payload, ten := some t }
          s.setNi fun n' => { n' with ucmds := s.ni.ucmds ++ [(g, c, k)] }

/-- A command record reaches its engine: a scheduled one first, else an unscheduled one where the queue of 64 has space; it
is then applied and acknowledged, once for each of its packets (R217, R230, R342, R344). -/
def Lanorun.cmdArrive (s : Lanorun) (g : Nat) : Lanorun :=
  if s.mesh.ecmds.any (·.1 = g) then s.schedArrive g
  else match s.ni.ucmds.find? (·.1 = g) with
    | none => s
    | some (h, c, k) =>
      let e := s.engine g
      let rest := s.setNi fun n' => { n' with ucmds := s.ni.ucmds.erase (h, c, k) }
      if s.vaultReady (g / 32) = false then rest
      else if 64 ≤ e.uq.length ∧ s.ni.filter.contains (k.src, k.tag) = false then s
      else rest.filtered k fun s => ((s.setEngine g { e with uq := e.uq ++ [c] }).filterAdd k).sendAck k

/-- Where the firmware work area of vault 0 begins (R216). -/
def workArea : Nat := 0xFA0000000

/-- MGMT_WRITE (R330). -/
def Lanorun.applyMgmtWrite (s : Lanorun) (k : Packet) : Lanorun :=
  let a := k.target % 2 ^ 39
  if 0x40000000 < a + k.bytes then s.sendNack k 2
  else if s.vaultReady 0 then (s.dramWrite (workArea + a) k.payload).sendAck k
  else s

/-- A send's last packet was acknowledged: STALLY of the sending cell, MOD_NI_DONE, or the mover's count (R331, R346, R368). -/
def Lanorun.acked (s : Lanorun) (x : Resend) : Lanorun :=
  match x.from_ with
  | .steward => s.countEvt R.MOD_NI_DONE
  | .chain _ => s.countEvt R.MOD_NI_DONE
  | .cell c (some tally) grp =>
    if s.ni.records.any (fun y => y.from_.inGroup grp) ∨ s.ni.waiting.any (fun y => y.from_.inGroup grp) then s
    else s.tallyAdd c tally 1 15 (s.cell c).pc
  | .mover true op =>
    let s := if op = s.mover.op then s.setMover fun w => { w with unacked := s.mover.unacked - 1 } else s
    s.countEvt R.MOD_WGT_FWD x.bytes
  | _ => s

def Lanorun.dropRecord (s : Lanorun) (tag : Nat) : Lanorun :=
  s.setNi fun n' => { n' with records := s.ni.records.filter (·.tag ≠ tag), again := s.ni.again.filter (· ≠ tag) }

/-- ACK frees its record (R343). -/
def Lanorun.applyAck (s : Lanorun) (k : Packet) : Lanorun :=
  let tag := k.f 0x10 4
  match s.ni.records.find? (·.tag = tag) with
  | none => s
  | some x => (s.dropRecord tag).acked x

/-- A next hop of a chain fails (R509). -/
def Lanorun.hopFail (s : Lanorun) (h : Nat) : Lanorun :=
  if s.keep.hops.any (·.1 = h) then
    let s := { s with keep := { s.keep with hops := s.keep.hops.filter (·.1 ≠ h) } }
    (s.put F.KEP_CHAIN_HOP_FAIL (s.get F.KEP_CHAIN_HOP_FAIL ||| 2 ^ h)).keepEvent F.KEP_EVENT_CHAIN_FAIL
  else s

/-- A packet of a cell's TC1 SEND was given up: not every one of them can still be acknowledged, so no STALLY follows (R331). -/
def Sender.lose (g : Nat) : Sender → Sender
  | .cell c t h => .cell c (if h = g then none else t) h
  | f => f
def Lanorun.groupLost (s : Lanorun) (g : Nat) : Lanorun :=
  let lose (r : Resend) : Resend := { r with from_ := r.from_.lose g }
  s.setNi fun n' => { n' with records := s.ni.records.map lose, waiting := s.ni.waiting.map lose }

/-- E2E_GIVEUP: the record is freed, and a LOAD that it belonged to fails (R343, R371). -/
def Lanorun.giveUp (s : Lanorun) (x : Resend) : Lanorun :=
  let s := (((s.dropRecord x.tag).event F.MOD_NI_EVENT_E2E_GIVEUP).countErr R.MOD_NI_CNT 1 0 5).fault 0x0A0B .module 0
  match x.from_ with
  | .cell _ _ g => s.groupLost g
  | .mover _ op => s.moverFail op
  | .chain h => s.hopFail h
  | _ => s

/-- The packet is to be sent once more, or its attempts are used up (R343). -/
def Lanorun.resend (s : Lanorun) (x : Resend) : Lanorun :=
  let m := s.get F.MOD_NI_CTRL_RESEND_MAX
  if (if m = 0 then 8 else m) ≤ x.attempt then s.giveUp x
  else
    let y := { x with attempt := x.attempt + 1 }
    s.setNi fun n' => { n' with records := s.ni.records.map (fun r => if r.tag = x.tag then y else r),
                                again := s.ni.again.filter (· ≠ x.tag) ++ [x.tag] }

/-- NACK (R343). -/
def Lanorun.applyNack (s : Lanorun) (k : Packet) : Lanorun :=
  let tag := k.f 0x10 4
  match s.ni.records.find? (·.tag = tag) with
  | none => s
  | some x =>
    match k.f 0x14 1 with
    | 1 => s.resend x
    | 4 => s
    | _ => ((s.event F.MOD_NI_EVENT_E2E_REFUSED).fault 0x0A0C .module 0).giveUp x

/-- A re-send timer expires; HOLD stops those of TC1 and TC2 (R343, R348). -/
def Lanorun.resendTimeout (s : Lanorun) (tag : Nat) : Lanorun :=
  match s.ni.records.find? (·.tag = tag) with
  | none => s
  | some x => if s.held (fieldAt x.hdr 1 1 % 4) then s else s.resend x

/-- READ_REQ (R330, R342, R344, R346). -/
def Lanorun.applyReadReq (s : Lanorun) (k : Packet) : Lanorun :=
  s.filtered k fun s =>
    if 256 ≤ s.ni.reads.length then s.sendNack k 4
    else if 2 ^ 20 < k.f 0x18 8 ∨ k.f 0x18 8 % 32 ≠ 0 then s.sendNack k 2
    else
      let r : ReadReq := { dst := k.src, pkey := k.pkey, src := k.f 0x10 8, bytes := k.f 0x18 8, target := k.f 0x20 8,
                           rtally := k.f 0x28 1 % 16 }
      (((s.setNi fun n' => { n' with reads := s.ni.reads ++ [r] })).filterAdd k).sendAck k

/-- The read engine's oldest request is answered in READ_DATA packets of 2,048 bytes; what it reads under a tenancy's key is an
access of that tenancy (R225, R346). A source vault that is not READY gives no answer (R217). -/
def Lanorun.readReply (s : Lanorun) : Lanorun :=
  match s.ni.reads with
  | [] => s
  | r :: rest =>
    let s := s.setNi fun n' => { n' with reads := rest }
    let key := s.keyTen r.pkey
    let all := match key with
      | some (im, t) => im.vaultMask t
      | none => 0xFF
    let il := r.src.testBit 63
    let a := r.src % 2 ^ 39
    let parts (j n : Nat) : List (Nat × Nat) := readPieces all il (n / 8192 + 2) (a + 2048 * j) n
    if (parts 0 r.bytes).any fun p => !s.vaultReady (vaultOf p.1) then s
    else
      let n := ceilDiv r.bytes 2048
      forN (fun j s =>
        let k := min 2048 (r.bytes - 2048 * j)
        let (tag, s) := s.newTag
        let s := ((parts j k).flatMap fun p => s.poisoned p.1 p.2).foldl (fun s g => s.memUe g (key.map (·.2))) s
        s.niQueue (mkHdr 2 1 r.pkey r.dst s.ownId tag 3 (ceilDiv k 64) 0
          (dataBody (targetAt r.target (2048 * j)) 0 r.rtally (j + 1 == n) k)) (a + 2048 * j) k .reader (if il then all else 0)) 0 n s

/-- FAULT_NOTICE: a RUNNING tenancy stops at its next Bell; a FAULTED one may restart earlier; too late or another step halts
(R96 to R98). -/
def Lanorun.faultNotice (s : Lanorun) (t step ff : Nat) : Lanorun :=
  let x := s.ten t
  let st := s.tenState t
  let retry := (s.activeImage.getD {}).retryFrames
  let late := ff + retry < s.frame + 3
  if st = tenRunning then
    if step ≠ x.step ∨ late then s.setTen t { x with halt := some 0x0303 }
    else s.setTen t { x with notice := some (min ff (x.notice.getD ff)) }
  else if st = tenFaulted then
    if step ≠ x.step then s.setTen t { x with halt := some 0x0303 }
    else if x.ff ≤ ff then s
    else if late then s.setTen t { x with halt := some 0x0303 }
    else (s.setTen t { x with ff := ff, fr := ff + retry }).put F.PLN_TEN_STAT_RESTART_FRAME ((ff + retry) % 2 ^ 32) 0 t
  else s

/-- Notices are acknowledged and consumed by the plan loader (R346). -/
def Lanorun.applyNotice (s : Lanorun) (k : Packet) (halt : Bool) : Lanorun :=
  let s := s.sendAck k
  match s.activeImage with
  | none => s
  | some im =>
    match (List.range im.tenancyCount).find? fun t => im.pkey t == k.pkey with
    | none => s
    | some t =>
      if halt then
        let x := s.ten t
        if s.tenState t ≠ tenHalted ∧ x.halt = none then
          s.setTen t { x with halt := some (k.f 0x18 2), haltQuiet := true } else s
      else s.faultNotice t (k.f 0x10 8) (k.f 0x18 8)

/-- MSG into CR0 or CR1; while vault 0 is not READY it is discarded (R217, R245, R342, R344). -/
def Lanorun.applyMsg (s : Lanorun) (k : Packet) : Lanorun :=
  s.filtered k fun s =>
    if s.vaultReady 0 = false then s
    else match s.cringWrite (if k.tc = 2 then 1 else 0) k.hdr with
    | (true, s) => (s.filterAdd k).sendAck k
    | (false, s) => if k.tc = 2 then s.inboxAdd k else s

def Lanorun.filterExpire (s : Lanorun) (src tag : Nat) : Lanorun :=
  s.setNi fun n' => { n' with filter := s.ni.filter.filter fun p => p != (src, tag) }

/-- A steward's send (R331, R346). The rank of a key's tenancy is a rank of its table; with key 0 it is an entry of the whole
table. -/
def Lanorun.niSend (s : Lanorun) (key a : Nat) : Lanorun :=
  let d := descOf (s.dram (a / 32 * 32) 32)
  let act := s.activeImage.getD {}
  let ten := (List.range act.tenancyCount).find? fun t => act.pkey t == key
  let dst : Option Nat :=
    if key = 0 then
      let e := s.entry16 R.MOD_RANK 0 (d.rank % 16384)
      if e.testBit 15 then some (e % 2 ^ 14) else none
    else match ten with
      | some t => s.rankOf t d.rank
      | none => none
  if d.kind ≠ 4 ∨ d.remoteBad ∨ (key ≠ 0 ∧ ten = none) then s
  else match dst with
    | none => s
    | some m =>
      let fl := if d.flags % 2 = 1 then 2 else 0
      if d.tc = 1 ∧ (d.tkind = 1 ∨ d.tkind = 2) then
        s.sendData 1 key m (if d.tkind = 2 then 2 else 1) d.dst d.tslot fl 0 d.src d.bytes .steward
      else if d.tc = 2 ∧ d.tkind = 1 then s.sendData 2 0 m 4 d.dst 0 0 0 d.src d.bytes .steward
      else if (d.tc = 2 ∨ d.tc = 3) ∧ d.tkind = 3 then
        s.sendCtlPkt d.tc (if d.tc = 2 then 0 else key) m 0x15 (s.dram d.src 32) .steward
      else s

def Lanorun.holdWrite (s : Lanorun) (on : Bool) : Lanorun := s.put F.MOD_NI_CTRL_HOLD (if on then 1 else 0)

end Sys2Proof.Machine
end

