-- ==== Sys2Proof/Machine/HostIf.lean ====
section
/-! DEFINITION. The PCIe endpoint: the host-write queue, interrupts, power states, resets and the mailbox (R434 to R450). -/
namespace Sys2Proof.Machine

def Lanorun.setHost (s : Lanorun) (f : HostIf → HostIf) : Lanorun := { s with host := f s.host }

/-- The host-write queue and the module's other requests are held: not in D0, BME clear, the link down, or the endpoint in
reset (R443). -/
def Lanorun.hostHeld (s : Lanorun) : Bool :=
  s.get F.HST_STATUS_DSTATE != 0 || s.get F.HST_STATUS_BME == 0 || decide (2 < s.get F.HST_STATUS_LSTATE) || s.host.inReset ||
  !s.isOn 110 || s.site.flush != 0

/-- The queue drains in order into host memory, unless a hold keeps it (R443). -/
def Lanorun.hwqDrain (s : Lanorun) : Lanorun :=
  if s.hostHeld then s
  else (s.setHost fun h => { h with hwq := [], mem := h.hwq.foldl (fun m w => ssets 0#8 m w.addr w.data) h.mem }).put
    F.HST_HWQ_DEPTH 0

/-- A write of the module to host memory; the answer is false where the queue is full (R443). -/
def Lanorun.hostWrite (s : Lanorun) (addr : Nat) (data : List (BitVec 8)) (owner : Option (Nat × Nat)) : Bool × Lanorun :=
  if 4096 ≤ s.host.hwq.length then (false, s.event F.HST_EVENT_HWQ_FULL)
  else
    let s := s.setHost fun h => { h with hwq := h.hwq ++ [{ addr := addr, data := data, owner := owner }] }
    let n := s.host.hwq.length
    let s := (s.put F.HST_HWQ_DEPTH n).putMax F.HST_HWQ_DEPTH_MAX n
    (true, (if 3072 < n then s.wakeReason 5 else s).hwqDrain)

/-- The conditions of the host interrupt sources (R440). -/
def Lanorun.sourceHolds (s : Lanorun) (k : Nat) : Bool :=
  let tlr := s.reg R.TLR_EVENT
  if k = 0 then s.flag F.HST_MBOX_STATUS_READY
  else if k = 1 then s.flag F.TLR_EVENT_CQ_WRITTEN
  else if k = 2 then tlr % 256 != 0 && (tlr % 256 != 2)
  else if k = 3 then s.reg R.PLN_EVENT != 0
  else if k = 4 then s.reg R.BLF_EVENT != 0
  else if k = 5 then
    s.flag F.DBG_EVENT_FAULT || s.flag F.DBG_EVENT_RETIRED || s.flag F.DBG_EVENT_DEGRADED || s.flag F.DBG_EVENT_HS_HANG
  else if k = 6 then (List.range 18).any fun p => s.reg R.LNK_EVENT p != 0
  else if k = 7 then s.reg R.PWR_EVENT != 0
  else if k = 8 then s.reg R.KEP_EVENT != 0
  else if k = 9 then s.reg R.ETH_EVENT 0 != 0 || s.reg R.ETH_EVENT 1 != 0
  else if k = 10 then s.reg R.HST_EVENT != 0
  else if k = 11 then s.reg R.MOD_WGT_EVENT != 0
  else if k = 12 then s.reg R.MOD_DET_EVENT != 0
  else if k = 13 then s.reg R.MOD_NI_EVENT != 0
  else if k = 14 then s.flag F.HST_EVENT_REMOVAL
  else false

/-- Source k is pending (R440). -/
def Lanorun.sourcePending (s : Lanorun) (k : Nat) : Bool := s.sourceHolds k && s.flag F.HST_IRQ_MAP_EN 0 k

/-- A source that is no longer pending may signal again (R441). -/
def Lanorun.msiSettle (s : Lanorun) : Lanorun := s.setHost fun h => { h with signalled := h.signalled.filter s.sourcePending }

/-- A message to a vector: sent, or held behind the vector's mask in the PBA (R441). -/
def Lanorun.msiSend (s : Lanorun) (k : Nat) (masked : Bool) : Lanorun :=
  let v := s.get F.HST_IRQ_MAP_VECTOR 0 k
  s.setHost fun h =>
    let h := { h with signalled := k :: h.signalled.filter (· ≠ k) }
    if masked then { h with pba := if h.pba.contains v then h.pba else v :: h.pba }
    else { h with pba := h.pba.filter (· ≠ v), msgs := h.msgs ++ [v] }

/-- A source that became pending sends its message, and a message held in the PBA leaves once its vector is unmasked (R441);
while requests are held they wait (R443). -/
def Lanorun.msixSend (s : Lanorun) (k : Nat) (masked : Bool) : Lanorun :=
  let s := s.msiSettle
  let v := s.get F.HST_IRQ_MAP_VECTOR 0 k
  if s.hostHeld then s
  else if s.sourcePending k ∧ s.host.signalled.contains k = false then s.msiSend k masked
  else if masked = false ∧ s.host.pba.contains v then
    s.setHost fun h => { h with pba := h.pba.filter (· ≠ v), msgs := h.msgs ++ [v] }
  else s

/-- REARM signals a pending source again, and raises source 15 (R440, R441). -/
def Lanorun.rearm (s : Lanorun) (k : Nat) (masked : Bool) : Lanorun :=
  if s.hostHeld then s
  else if (k = 15 ∧ s.flag F.HST_IRQ_MAP_EN 0 15) ∨ s.sourcePending k then s.msiSend k masked
  else s

/-- The host's exit from low power ends a wake request (R445). -/
def Lanorun.wakeExit (s : Lanorun) : Lanorun :=
  if s.flag F.HST_WAKE_ASSERTING then
    let served := (List.range 8).filter fun b => (s.get F.HST_WAKE_REASON).testBit b
    let s := ((s.put F.HST_WAKE_ASSERTING 0).put F.MOD_PINS_WAKE 0).event F.HST_EVENT_WAKE_SAT
    s.setHost fun h => { h with served := served }
  else s.setHost fun h => { h with served := (List.range 8).filter fun b => (s.get F.HST_WAKE_REASON).testBit b }

/-- An enabled reason in D3 requests a wake: PME in D3hot, WAKE_N in D3cold (R444). -/
def Lanorun.wakeRequest (s : Lanorun) : Lanorun :=
  let want := (List.range 8).any fun b =>
    (s.get F.HST_WAKE_REASON).testBit b && (s.get F.HST_WAKE_EN).testBit b && !s.host.served.contains b
  if s.get F.HST_STATUS_DSTATE = 3 ∧ want ∧ ¬ s.flag F.HST_WAKE_ASSERTING then
    let s := s.put F.HST_WAKE_ASSERTING 1
    if s.host.inReset then (s.put F.MOD_PINS_WAKE 1).setHost fun h => { h with pme := true }
    else (s.put F.HST_STATUS_LSTATE 0).setHost fun h => { h with pme := true, pmeSent := h.pmeSent + 1 }
  else s

/-- Stage HEAD has begun: until then the endpoint answers Configuration Requests with Request Retry Status (R490). -/
def Lanorun.configReady (s : Lanorun) : Bool := s.get F.KEP_STATUS_STAGE == 2 || s.get F.KEP_STATUS_STAGE == 3

/-- The configuration writes that set PowerState and Bus Master Enable (R442 to R445). -/
def Lanorun.dState (s : Lanorun) (d0 bme : Bool) : Lanorun :=
  if s.host.inReset ∨ s.configReady = false then s
  else
    let up := s.get F.HST_STATUS_LSTATE ≤ 2
    let s := s.put F.HST_STATUS_BME (if bme then 1 else 0)
    if d0 then
      let was := s.get F.HST_STATUS_DSTATE
      let s := s.put F.HST_STATUS_DSTATE 0
      let s := if up then s.put F.HST_STATUS_LSTATE 0 else s
      if was = 3 then s.wakeExit else s
    else
      let s := s.put F.HST_STATUS_DSTATE 3
      if up then s.put F.HST_STATUS_LSTATE 2 else s

/-- What every reset of the endpoint resets (R446). -/
def Lanorun.endpointReset (s : Lanorun) : Lanorun :=
  let s := forN (fun k s => s.setReg R.HST_IRQ_MAP 0 0 k) 0 16 s
  let s := (s.setReg R.HST_CWIN R.HST_CWIN.reset).setReg R.HST_MWIN 0
  let s := (s.put F.HST_STATUS_DSTATE 0).put F.HST_STATUS_BME 0
  s.setHost fun h => { h with pba := [], signalled := [] }

/-- The link leaves its trained state. -/
def Lanorun.pcieDown (s : Lanorun) (lstate : Nat) : Lanorun :=
  (((s.put F.HST_STATUS_RATE 0).put F.HST_STATUS_WIDTH 0).put F.HST_STATUS_FLIT 0).put F.HST_STATUS_LSTATE lstate

/-- PERST_N asserted, which is D3cold, or a hot reset (R442, R446). -/
def Lanorun.perstReset (s : Lanorun) (pin : Bool) : Lanorun :=
  let s := s.endpointReset
  if pin then
    (((s.pcieDown 3).put F.HST_STATUS_DSTATE 3).put F.MOD_PINS_PERST 1).setHost fun h => { h with inReset := true }
  else s.pcieDown 4

/-- The link trains to a rate and a width; rate 0 where it does not train (R434). -/
def Lanorun.pcieTrain (s : Lanorun) (rate width : Nat) (flit : Bool) : Lanorun :=
  let s := ((s.put F.HST_STATUS_RATE rate).put F.HST_STATUS_WIDTH width).put F.HST_STATUS_FLIT (if flit then 1 else 0)
  s.put F.HST_STATUS_LSTATE (if rate = 0 then 4 else 0)

/-- PERST_N is high; with PD110 good the endpoint leaves reset and trains, as it does again after a hot reset or the loss of its
link (R434, R445, R558). -/
def Lanorun.perstRelease (s : Lanorun) (rate width : Nat) (flit : Bool) : Lanorun :=
  let s := if s.flag F.MOD_PINS_PERST then (s.put F.MOD_PINS_PERST 0).event F.MOD_PINS_PERST_RISE else s
  if ¬ s.isOn 110 then s
  else if s.host.inReset then
    (((s.setHost fun h => { h with inReset := false }).put F.HST_STATUS_DSTATE 0).pcieTrain rate width flit).wakeExit
  else if s.get F.HST_STATUS_LSTATE = 4 then s.pcieTrain rate width flit
  else s

/-- The PCIe link leaves L0, L0p or L1 other than by a D-state change (R443, R463). -/
def Lanorun.pcieLinkDown (s : Lanorun) : Lanorun :=
  if s.get F.HST_STATUS_LSTATE ≤ 2 then (s.pcieDown 4).event F.HST_EVENT_LINK_DOWN else s

/-- DOORBELL: accepted from IDLE alone (R447). -/
def Lanorun.doorbell (s : Lanorun) (op : Nat) : Lanorun :=
  if s.flag F.HST_MBOX_STATUS_BUSY ∨ s.flag F.HST_MBOX_STATUS_READY then s.event F.HST_EVENT_MBOX_REFUSED
  else
    let s := s.put F.HST_MBOX_STATUS_SEQ ((s.get F.HST_MBOX_STATUS_SEQ + 1) % 2 ^ 16)
    ((s.put F.HST_MBOX_STATUS_OPCODE op).put F.HST_MBOX_STATUS_BUSY 1).event F.HST_EVENT_MBOX_DOOR

/-- POST by a head steward: accepted from BUSY alone (R447). -/
def Lanorun.mboxPost (s : Lanorun) (code : Nat) : Lanorun :=
  if s.flag F.HST_MBOX_STATUS_BUSY then
    let s := ((s.put F.HST_MBOX_STATUS_CODE code).put F.HST_MBOX_STATUS_ALREADY_READ 0).put F.HST_MBOX_STATUS_BUSY 0
    (s.put F.HST_MBOX_STATUS_READY 1).wakeReason 3
  else s

/-- ACK with the SEQ of the result consumes it (R447). -/
def Lanorun.mboxAck (s : Lanorun) (seq : Nat) : Lanorun :=
  if s.flag F.HST_MBOX_STATUS_READY ∧ s.get F.HST_MBOX_STATUS_SEQ = seq then
    ((s.put F.HST_MBOX_STATUS_READY 0).put F.HST_MBOX_STATUS_CODE 0).msiSettle
  else s

/-- A host read of HST_MBOX_STATUS: its value, and ALREADY_READ set where a result waits (R448). -/
def Lanorun.mboxStatusRead (s : Lanorun) : Nat × Lanorun :=
  (s.reg R.HST_MBOX_STATUS, if s.flag F.HST_MBOX_STATUS_READY then s.put F.HST_MBOX_STATUS_ALREADY_READ 1 else s)

/-- A mailbox request of an opcode is with the firmware. -/
def Lanorun.mboxHas (s : Lanorun) (op : Nat) : Bool := s.flag F.HST_MBOX_STATUS_BUSY && s.get F.HST_MBOX_STATUS_OPCODE == op

/-- Opcode 0x01, IDENT, and the answer 0xFF to an opcode outside the table (R450). -/
def Lanorun.identRequest (s : Lanorun) : Lanorun :=
  if s.mboxHas 1 then
    let s := s.setReg R.HST_MBOX_RES (s.reg R.MOD_IDENT) 0 0
    let s := s.setReg R.HST_MBOX_RES (s.reg R.HST_IFVER) 0 1
    let s := s.setReg R.HST_MBOX_RES (s.get F.KEP_UNIT_ID) 0 2
    (s.setReg R.HST_MBOX_RES (s.get F.KEP_UNIT_ID 0 1) 0 3).mboxPost 0
  else if s.get F.HST_MBOX_STATUS_OPCODE = 0 ∨ 5 < s.get F.HST_MBOX_STATUS_OPCODE then s.mboxPost 0xFF
  else s

end Sys2Proof.Machine
end

