-- ==== Sys2Proof/Machine/Teller.lean ====
section
/-! DEFINITION. The Teller: requests, fills, results, commits, the slot mask and the Ledger (R382 to R411). -/
namespace Sys2Proof.Machine

def Lanorun.setTeller (s : Lanorun) (f : Teller → Teller) : Lanorun := { s with teller := f s.teller }
def Lanorun.req (s : Lanorun) (i : Nat) : Option TlrReq := sget none s.teller.reqs i
def Lanorun.setReq (s : Lanorun) (i : Nat) (r : Option TlrReq) : Lanorun :=
  s.setTeller fun t => { t with reqs := sset none t.reqs i r }

/-- The active image and its SERVING tenancy. -/
def Lanorun.served (s : Lanorun) : Option (Image × Nat) :=
  match s.activeImage with
  | none => none
  | some im => ((List.range im.tenancyCount).find? im.serving).map fun t => (im, t)

/-- The records of a TELLER section: SERVE, then the VARIANTs (R383). -/
def Image.tellerRecs (im : Image) (t : Nat) : List (List (BitVec 8)) :=
  match im.sect 12 t with
  | some x => varRecords x.count x.count (x.body.drop 16)
  | none => []
def Image.serve (im : Image) (t : Nat) : List (BitVec 8) := (im.tellerRecs t).headD []
def Image.slots (im : Image) (t : Nat) : Nat := fieldAt (im.serve t) 0xA 2
def Image.nvar (im : Image) (t : Nat) : Nat := fieldAt (im.serve t) 0xC 1
def Image.commitFrames (im : Image) (t : Nat) : Nat := fieldAt (im.serve t) 0xD 1
def Image.ctxMax (im : Image) (t : Nat) : Nat := fieldAt (im.serve t) 0x10 4
def Image.varRec (im : Image) (t v : Nat) : List (BitVec 8) := listGet [] (im.tellerRecs t) (v + 1)
def Image.spec (im : Image) (t v : Nat) : Nat := fieldAt (im.varRec t v) 7 1
def Image.dcPos (im : Image) (t v : Nat) : Nat := fieldAt (im.varRec t v) 8 2
def Image.pfPos (im : Image) (t v : Nat) : Nat := fieldAt (im.varRec t v) 0xA 2
def Image.pfChunk (im : Image) (t v : Nat) : Nat := fieldAt (im.varRec t v) 0xC 2
def Image.pfCap (im : Image) (t v : Nat) : Nat := im.pfPos t v * im.pfChunk t v

/-- NPOS, PFMAX and the bytes of one INPUT half (R384). -/
def Image.npos (im : Image) (t : Nat) : Nat :=
  ((List.range (im.nvar t)).map fun v => im.dcPos t v + im.pfPos t v).foldl max 0
def Image.pfMax (im : Image) (t : Nat) : Nat := ((List.range (im.nvar t)).map fun v => im.pfCap t v).foldl max 0
def Image.inputBytes (im : Image) (t : Nat) : Nat := roundUp (64 + 32 * im.npos t + 4 * im.pfMax t) 2048

/-- This module is the lead of the SERVING tenancy (R382). -/
def Lanorun.isLead (s : Lanorun) : Bool :=
  match s.served with
  | some (im, t) => s.rankOf t (fieldAt (im.serve t) 8 2) == some s.ownId
  | none => false

/-- A Teller address: IL in bit 63, the vault or interleaved address below (R383), moved on by off bytes; and its pieces. -/
def tlrPieces (im : Image) (t a off n : Nat) : List (Nat × Nat) :=
  readPieces (im.vaultMask t) (a.testBit 63) (n / 8192 + 2) (a % 2 ^ 39 + off) n
def Lanorun.tlrRead (s : Lanorun) (im : Image) (t a off n : Nat) : List (BitVec 8) × Lanorun :=
  (tlrPieces im t a off n).foldl (fun (bs, s) (q, k) =>
    (bs ++ s.dram q k, (s.poisoned q k).foldl (fun s g => s.memUe g (some t)) s)) ([], s)
def Lanorun.tlrWrite (s : Lanorun) (im : Image) (t a off : Nat) (bs : List (BitVec 8)) : Lanorun :=
  (writePieces (im.vaultMask t) (a.testBit 63) (bs.length / 8192 + 2) (a % 2 ^ 39 + off) bs).foldl
    (fun s (q, d) => s.dramWrite q d) s

/-- Accounts; a balance outside 64 signed bits is a free value. -/
def Lanorun.account (s : Lanorun) (a : Nat) : Account := sget {} s.teller.accounts a
def Lanorun.setAccount (s : Lanorun) (a : Nat) (x : Account) : Lanorun :=
  let put (s : Lanorun) (x : Account) : Lanorun := s.setTeller fun t => { t with accounts := sset {} t.accounts a x }
  if -2 ^ 63 ≤ x.bal ∧ x.bal < 2 ^ 63 then put s x
  else
    let (n, s) := s.draw
    put s { x with bal := toSigned 64 (Config.ledger n).toNat }

/-- The refill at tick t (R402). -/
def Account.refill (x : Account) (t : Nat) : Account :=
  let a : Int := x.rate * ((t : Int) - x.last) + x.rem
  let above := decide ((x.cap : Int) < x.bal)
  let bal := if x.bal < x.cap then min (x.cap : Int) (x.bal + a / 1000000000) else x.bal
  { x with bal := bal, rem := if bal = x.cap ∨ above then 0 else (a % 1000000000).toNat, last := t }
def Lanorun.refill (s : Lanorun) (a : Nat) : Lanorun := s.setAccount a ((s.account a).refill s.ticks)

/-- reserve() (R403). -/
def Lanorun.reserve (s : Lanorun) (a cost : Nat) : Bool × Lanorun :=
  let s := s.refill a
  let x := s.account a
  if (cost : Int) ≤ x.bal - x.resv then (true, s.setAccount a { x with resv := x.resv + cost }) else (false, s)

/-- A reservation is returned. -/
def Lanorun.unreserve (s : Lanorun) (a cost : Nat) : Lanorun :=
  let x := s.account a
  s.setAccount a { x with resv := x.resv - cost }

/-- The request with its provisional result taken in. -/
def TlrReq.after (r : TlrReq) : TlrReq :=
  match r.result with
  | none => r
  | some x => { r with decode := r.decode || x.decode, done := r.done + x.prompt, gen := r.gen + x.tokens.length,
                       lastTok := if x.tokens = [] then r.lastTok else x.tokens.getLast?, drafts := x.drafts, result := none }

/-- The request takes part in fills: no end is decided, and it is neither cancelled nor paused (R393, R407, R408). -/
def TlrReq.fillable (r : TlrReq) : Bool :=
  r.cancelled == none && !r.paused && r.ended == none && r.budget == none &&
  (match r.result with | some x => x.fin == none | none => true)

/-- TLR_SLOT_QUERY.STATE (R391). -/
def TlrReq.state (r : TlrReq) : Nat :=
  let a := r.after
  if r.cancelled ≠ none ∨ r.ended ≠ none ∨ r.budget ≠ none ∨ (r.result.any fun x => x.fin != none) then 4
  else if a.decode then 3 else if a.done = 0 then 1 else 2

/-- The occupied slots in ascending order. -/
def Lanorun.usedSlots (s : Lanorun) : List (Nat × TlrReq) := s.teller.reqs.filterMap fun e => e.2.map fun r => (e.1, r)

/-- Queue sizes and positions (TLR_SQ_PTR, TLR_CQ_PTR). -/
def queueSize (code : Nat) : Nat := 2 ^ (min code 10 + 6)
def Lanorun.cqFull (s : Lanorun) : Bool :=
  (s.get F.TLR_CQ_PTR_TAIL + 1) % queueSize (s.get F.TLR_CQ_PTR_SIZE) == s.get F.TLR_CQ_PTR_HEAD % queueSize (s.get F.TLR_CQ_PTR_SIZE)

/-- A CQ entry (R405); the answer is false where the host-write queue is full (R443). -/
def Lanorun.cqWrite (s : Lanorun) (reqId kind reason slot done gen account charged : Nat) : Bool × Lanorun :=
  let tail := s.get F.TLR_CQ_PTR_TAIL
  let e := leBytes 8 reqId ++ leBytes 1 kind ++ leBytes 1 reason ++ leBytes 2 slot ++ leBytes 4 done ++ leBytes 4 gen ++
    leBytes 2 account ++ [0#8, 0#8] ++ leBytes 8 charged
  let (ok, s) := s.hostWrite (s.get F.TLR_CQ_BASE_ADDR * 64 + 32 * tail) e none
  if ok then
    (true, ((s.put F.TLR_CQ_PTR_TAIL ((tail + 1) % queueSize (s.get F.TLR_CQ_PTR_SIZE))).event F.TLR_EVENT_CQ_WRITTEN).wakeReason 4)
  else (false, s.event F.TLR_EVENT_RING_FAIL)

/-- A ring entry of the request in a slot (R404); the answer is false where the write fails (R406, R443). -/
def Lanorun.ringWrite (s : Lanorun) (i kind reason value pos : Nat) : Bool × Lanorun :=
  match s.req i with
  | none => (true, s)
  | some r =>
    let e := leBytes 4 (r.seq + 1) ++ leBytes 1 kind ++ leBytes 1 reason ++ [0#8, 0#8] ++ leBytes 4 value ++ leBytes 4 pos
    let a := r.ringAddr + 16 * r.seq
    let s := s.setReq i (some { r with seq := r.seq + 1 })
    if r.remote then s.ringPost r.qp a e (.ring i r.reqId) else s.hostWrite a e (some (i, r.reqId))

/-- A request with a decided end writes its end entries once the CQ has room, and its slot is FREE (R391, R405). -/
def Lanorun.endFlush (s : Lanorun) (i : Nat) : Lanorun :=
  match s.req i with
  | none => s
  | some r =>
    match r.ended with
    | none => s
    | some (kind, reason, ring) =>
      if s.cqFull then s.event F.TLR_EVENT_CQ_FULL
      else
        let (okR, s) := if ring then s.ringWrite i kind reason r.gen (r.done + r.gen) else (true, s)
        let s := if okR then s else s.event F.TLR_EVENT_RING_FAIL
        let (kind, reason) := if okR then (kind, reason) else (6, 0)
        let (okC, s) := s.cqWrite r.reqId kind reason i r.done r.gen r.account r.charged
        if okC then s.setReq i none
        else s.setReq i (some { r with ended := some (6, 0, false), seq := if ring then r.seq + 1 else r.seq })

/-- The request ends with a KIND and REASON: counted, and flushed where the CQ has room. -/
def Lanorun.endReq (s : Lanorun) (i kind reason : Nat) (ring : Bool) : Lanorun :=
  match s.req i with
  | none => s
  | some r =>
    let s := s.setReq i (some { r with ended := some (kind, reason, ring), budget := none, result := none })
    let s := if kind = 3 then s.countEvt R.TLR_CNT 1 0 3 else if kind = 4 then s.countEvt R.TLR_CNT 1 0 4 else s
    s.endFlush i

def Lanorun.batch (s : Lanorun) (x : Nat) : Option TlrBatch := s.teller.batches.find? fun b => b.step == x
def Lanorun.setBatch (s : Lanorun) (b : TlrBatch) : Lanorun :=
  s.setTeller fun t => { t with batches := t.batches.map fun c => if c.step = b.step then b else c }

/-- The reservations of a batch's living rows of a slot, or of all slots, are returned. -/
def Lanorun.returnRows (s : Lanorun) (rows : List TlrRow) : Lanorun :=
  rows.foldl (fun s w => if w.dead then s else match s.req w.slot with
    | some r => s.unreserve r.account w.cost
    | none => s) s

/-- The request in slot i stands in an uncommitted batch. -/
def Lanorun.placedNow (s : Lanorun) (i : Nat) : Bool :=
  s.teller.batches.any fun b => b.rows.any fun w => w.slot == i && !w.dead

/-- A request is cancelled or its ring failed: its rows are dead, its reservations returned, its results discarded; it ends at
the next commit, or at once where it has no uncommitted step (R406, R407). -/
def Lanorun.killReq (s : Lanorun) (i kind : Nat) : Lanorun :=
  match s.req i with
  | none => s
  | some r =>
    let mine (w : TlrRow) : Bool := w.slot == i && !w.dead
    let s := s.returnRows (s.teller.batches.flatMap fun b => b.rows.filter mine)
    let placed := s.placedNow i
    let bury (b : TlrBatch) : TlrBatch := { b with rows := b.rows.map fun w => if w.slot = i then { w with dead := true } else w }
    let s := s.setTeller fun t => { t with batches := t.batches.map bury, prev := t.prev.map bury }
    let s := s.setReq i (some { r with result := none, budget := none, cancelled := some kind })
    if placed ∨ r.result ≠ none ∨ r.budget ≠ none then s else s.endReq i kind 0 (kind == 3)

/-- A failed ring write (R406). -/
def Lanorun.ringFail (s : Lanorun) (i reqId : Nat) : Lanorun :=
  match s.req i with
  | some r =>
    if r.reqId = reqId then
      let s := s.event F.TLR_EVENT_RING_FAIL
      match r.ended with
      | some _ => s.setReq i (some { r with ended := some (6, 0, false) })
      | none => if r.cancelled = none then s.killReq i 6 else s.setReq i (some { r with cancelled := some 6 })
    else s
  | none => s

/-- The last four stop tokens that are used (R389). -/
def stopTokens (e : List (BitVec 8)) : List (BitVec 32) :=
  (((List.range 4).map fun k => BitVec.ofNat 32 (fieldAt e (0x30 + 4 * k) 4))).filter (· ≠ 0xFFFFFFFF#32)

/-- REASON of a refusal, 0 for none: in the order in which R390 lists them. -/
def Lanorun.refusal (s : Lanorun) (im : Image) (t : Nat) (e : List (BitVec 8)) : Nat :=
  let len := fieldAt e 0x18 4
  if fieldAt e 0 1 ≠ 1 ∨ 4 ≤ fieldAt e 1 1 then 4
  else if ¬ (s.account (fieldAt e 2 2)).enabled then 1
  else if len = 0 ∨ im.ctxMax t ≤ len then 2
  else if fieldAt e 0x28 4 < fieldAt e 0x1C 4 + 2 then 3
  else 0

/-- The lead reads the SQ entry at HEAD (R390). -/
def Lanorun.sqRead (s : Lanorun) (e : List (BitVec 8)) : Lanorun :=
  match s.served with
  | none => s
  | some (im, t) =>
    let size := queueSize (s.get F.TLR_SQ_PTR_SIZE)
    let head := s.get F.TLR_SQ_PTR_HEAD
    let free := (List.range (im.slots t)).find? fun i => s.req i == none
    match free with
    | none => s
    | some i =>
      if ¬ s.isLead ∨ s.frozen ∨ s.hostHeld ∨ ¬ s.flag F.TLR_CTRL_ENABLE ∨ s.tenState t ≠ tenRunning ∨
          head % size = s.get F.TLR_SQ_PTR_TAIL % size ∨ s.cqFull then s
      else
        let s := s.put F.TLR_SQ_PTR_HEAD ((head + 1) % size)
        let id := fieldAt e 8 8
        let acct := fieldAt e 2 2
        let why := s.refusal im t e
        if why ≠ 0 then (s.countEvt R.TLR_CNT 1 0 5 |>.cqWrite id 7 why 0xFFFF 0 0 acct 0).2
        else
          let fl := fieldAt e 1 1
          let r : TlrReq := { account := acct, reqId := id, promptAddr := fieldAt e 0x10 8, promptLen := fieldAt e 0x18 4,
                              maxNew := fieldAt e 0x1C 4, ringAddr := fieldAt e 0x20 8, qp := fieldAt e 0x2C 2,
                              remote := fl % 2 == 1, noSpec := fl.testBit 1, stops := stopTokens e,
                              order := s.teller.accepted }
          let s := (s.setReq i (some r)).setTeller fun t => { t with accepted := t.accepted + 1 }
          let (ok, s) := s.ringWrite i 0 0 i 0
          if ok then s else s.ringFail i id

/-- The prompt position after the tokens done and those placed in a batch that is not released. -/
def Lanorun.promptNext (s : Lanorun) (i : Nat) (r : TlrReq) : Nat :=
  r.after.done + ((s.teller.batches.filter fun b => !b.released).flatMap fun b =>
    (b.rows.filter fun w => w.slot == i && !w.decode && !w.dead).map (·.nin)).sum

/-- The next prompt chunk arrives: up to 4,096 tokens (R391). -/
def Lanorun.chunkFetched (s : Lanorun) (i : Nat) (toks : List (BitVec 32)) : Lanorun :=
  match s.req i with
  | none => s
  | some r =>
    let a := s.promptNext i r
    let n := min 4096 (r.promptLen - a)
    if s.hostHeld ∨ s.frozen ∨ r.decode ∨ n = 0 ∨ toks.length < n then s
    else s.setReq i (some { r with chunkAt := a, chunk := toks.take n })

/-- Accepted tokens in order, up to the request's end; the REASON of the end (R392). -/
def takeTokens (r : TlrReq) (ctx : Nat) : List (BitVec 32) → Nat → List (BitVec 32) × Option Nat
  | [], _ => ([], none)
  | x :: xs, gen =>
    if r.stops.contains x then ([x], some 1)
    else if r.maxNew ≤ gen + 1 then ([x], some 2)
    else if ctx ≤ r.promptLen + gen + 1 then ([x], some 3)
    else
      let (l, e) := takeTokens r ctx xs (gen + 1)
      (x :: l, e)

/-- One row of the RESULT half (R392). -/
def Lanorun.applyRow (im : Image) (t : Nat) (recs : List (BitVec 8)) (s : Lanorun) (w : TlrRow) : Lanorun :=
  match s.req w.slot with
  | none => s
  | some r =>
    if w.dead then s
    else
      let e := (recs.drop (64 * w.pos)).take 64
      let nt := fieldAt e 0 1
      let nd := fieldAt e 1 1
      let lim := if w.decode then w.nin else if w.last then 1 else 0
      let s := if lim < nt ∨ 4 < nd then s.event F.TLR_EVENT_RESULT_BAD else s
      let toks := (List.range (min nt lim)).map fun k => BitVec.ofNat 32 (fieldAt e (8 + 4 * k) 4)
      let (toks, fin) := takeTokens r (im.ctxMax t) toks r.gen
      let drafts := (List.range (min nd 4)).map fun k => BitVec.ofNat 32 (fieldAt e (0x1C + 4 * k) 4)
      s.setReq w.slot (some { r with result := some { tokens := toks, prompt := if w.decode then 0 else w.nin,
                                                      decode := !w.decode && w.last, drafts := drafts, fin := fin } })

/-- The results of step x are applied provisionally (R392). -/
def Lanorun.applyResults (s : Lanorun) (im : Image) (t x : Nat) : Lanorun :=
  match s.batch x with
  | none => s
  | some b =>
    let n := 64 * im.npos t
    let (recs, s) := if b.rows = [] then ([], s) else s.tlrRead im t (fieldAt (im.serve t) 0x30 8) (if x % 2 = 1 then n else 0) n
    (b.rows.foldl (Lanorun.applyRow im t recs) s).setBatch { b with released := true }

/-- The variant of the next step, with UPC and DNC (R410, R411). -/
def Lanorun.chooseVariant (s : Lanorun) (im : Image) (t c : Nat) : Nat × Nat × Nat × Bool :=
  if s.flag F.TLR_VARIANT_PIN_EN then (s.get F.TLR_VARIANT_PIN, 0, 0, false)
  else
    let rs := s.usedSlots.filterMap fun e => if e.2.state = 4 then none else some e.2.after
    let q := ((rs.filter fun r => !r.decode).map fun r => r.promptLen - r.done).sum
    let l := (rs.filter (·.decode)).length
    let sv := im.serve t
    let dwell := fieldAt sv 0xE 1
    let upc := if fieldAt sv 0x14 2 * im.pfCap t c < 16 * q then s.teller.upc + 1 else 0
    let dnc := if 16 * q < fieldAt sv 0x16 2 * im.pfCap t c then s.teller.dnc + 1 else 0
    let fits (x : Nat) : Bool := decide (l ≤ im.dcPos t x)
    let below := (List.range c).reverse.find? fits
    let above := ((List.range (im.nvar t)).filter fun x => decide (c < x)).find? fits
    let v := match decide (im.dcPos t c < l), below with
      | true, some x => x
      | _, _ => match decide (dwell ≤ upc), above with
        | true, some x => x
        | _, _ => if dwell ≤ dnc ∧ 0 < c ∧ fits (c - 1) then c - 1 else c
    if v = c then (v, upc, dnc, false) else (v, 0, 0, true)

/-- Placing decode requests in order (R393): the rows filled so far in reverse. -/
def Lanorun.fillDecode (im : Image) (t v x : Nat) (a : List TlrRow × Lanorun) (e : Nat × TlrReq) : List TlrRow × Lanorun :=
  let (rows, s) := a
  let r := e.2.after
  let d := rows.length
  let k := if r.noSpec then 0 else min (im.spec t v) r.drafts.length
  if im.dcPos t v ≤ d then (rows, s.countEvt R.TLR_CNT 1 0 6)
  else
    let cost := (s.account r.account).wg * (1 + k)
    let (ok, s) := s.reserve r.account cost
    match s.req e.1 with
    | none => (rows, s)
    | some q =>
      if ok then
        ({ pos := d, slot := e.1, decode := true, nin := 1 + k, cost := cost } :: rows,
         s.setReq e.1 (some { q with placed := x, placedBefore := q.placed }))
      else (rows, s.setReq e.1 (some { q with budget := some x }))

/-- Placing prompt chunks in order (R393). -/
def Lanorun.fillPrefill (im : Image) (t v x : Nat) (a : List TlrRow × Lanorun) (e : Nat × TlrReq) : List TlrRow × Lanorun :=
  let (rows, s) := a
  let r := e.2.after
  let left := r.promptLen - r.done
  let n := min (im.pfChunk t v) left
  if im.pfPos t v ≤ rows.length ∨ r.done < r.chunkAt ∨ r.chunkAt + r.chunk.length < r.done + n then (rows, s)
  else
    let last := decide (n = left)
    let y := s.account r.account
    let cost := y.wp * n + (if last then y.wg else 0)
    let (ok, s) := s.reserve r.account cost
    match s.req e.1 with
    | none => (rows, s)
    | some q =>
      if ok then
        ({ pos := im.dcPos t v + rows.length, slot := e.1, decode := false, nin := n, last := last, cost := cost } :: rows,
         s.setReq e.1 (some { q with placed := x, placedBefore := q.placed }))
      else (rows, if r.done = 0 then s else s.setReq e.1 (some { q with budget := some x }))

/-- Inserts by a key that rises, equal keys keeping their order. -/
def insertBy {α : Type} (k : α → Nat) (x : α) : List α → List α
  | [] => [x]
  | y :: t => if k x < k y then x :: y :: t else y :: insertBy k x t
def sortBy {α : Type} (k : α → Nat) (l : List α) : List α := l.foldl (fun a x => insertBy k x a) []

/-- The 32-byte row of a filled position (R386). -/
def Lanorun.rowBytes (s : Lanorun) (w : TlrRow) : List (BitVec 8) × Lanorun :=
  match s.req w.slot with
  | none => (List.replicate 32 0#8, s)
  | some q =>
    let r := q.after
    let (tok, s) := if w.decode then (match r.lastTok with
      | some x => (x, s)
      | none => let (n, s) := s.draw; (Config.noToken n, s)) else (0#32, s)
    let toks := if w.decode then (tok :: r.drafts).take w.nin else []
    let pos := if w.decode then r.done + r.gen - 1 else r.done
    (leBytes 2 w.slot ++ [if w.decode then 2#8 else 1#8] ++ leBytes 1 w.nin ++ leBytes 4 pos ++
      (toks ++ List.replicate (5 - toks.length) 0#32).flatMap (fun x => leBytes 4 x.toNat) ++
      leBytes 4 (if w.last then 1 else 0), s)

/-- The INPUT half of step x is written: rows, empty rows, prompt tokens, then the header (R386, R387). -/
def Lanorun.writeInput (s : Lanorun) (im : Image) (t x v : Nat) (rows : List TlrRow) : Lanorun :=
  let a := fieldAt (im.serve t) 0x28 8
  let off := if x % 2 = 1 then im.inputBytes t else 0
  let spare := ((List.range (im.slots t)).find? fun i => !(rows.any fun w => w.slot == i)).getD 0
  let empty := leBytes 2 spare ++ List.replicate 30 0#8
  let (body, s) := forN (fun p (bs, s) => match rows.find? fun w => w.pos == p with
    | some w => let (b, s) := s.rowBytes w; (bs ++ b, s)
    | none => (bs ++ empty, s)) 0 (im.npos t) (([] : List (BitVec 8)), s)
  let s := s.tlrWrite im t a (off + 64) body
  let s := rows.foldl (fun s w => if w.decode then s else match s.req w.slot with
    | none => s
    | some q =>
      let r := q.after
      let toks := (r.chunk.drop (r.done - r.chunkAt)).take w.nin
      s.tlrWrite im t a (off + 64 + 32 * im.npos t + 4 * im.pfChunk t v * (w.pos - im.dcPos t v))
        (toks.flatMap fun y => leBytes 4 y.toNat)) s
  let hdr := leBytes 8 x ++ leBytes 1 v ++ [0#8] ++ leBytes 2 (rows.filter (·.decode)).length ++
    leBytes 2 (rows.filter fun w => !w.decode).length ++ List.replicate 50 0#8
  s.tlrWrite im t a off hdr

/-- UPC and DNC (R410), with what TLR_VARIANT shows of them. -/
def Lanorun.setCounts (s : Lanorun) (upc dnc : Nat) : Lanorun :=
  let s := s.setTeller fun y => { y with upc := upc, dnc := dnc }
  (s.put F.TLR_VARIANT_UPC (min upc 255)).put F.TLR_VARIANT_DNC (min dnc 255)

/-- The fill of step x, after step c's variant, or as a tenancy's first: then INIT_VAR, unless a variant is pinned (R393, R410,
R411; log entry 101). -/
def Lanorun.tlrFill (s : Lanorun) (im : Image) (t x : Nat) (c : Option Nat) : Lanorun :=
  let old := (s.teller.upc, s.teller.dnc)
  let (v, upc, dnc, changed) := match c with
    | none =>
      if s.flag F.TLR_VARIANT_PIN_EN then (s.get F.TLR_VARIANT_PIN, 0, 0, false)
      else (fieldAt (im.serve t) 0xF 1, s.teller.upc, s.teller.dnc, false)
    | some c => s.chooseVariant im t c
  let s := (s.setCounts upc dnc).put F.TLR_STATUS_VARIANT v
  let s := if changed then (s.event F.TLR_EVENT_VARIANT).countEvt R.TLR_CNT 1 0 7 else s
  let us := s.usedSlots.filter fun e => e.2.fillable
  let ds := sortBy (fun e : Nat × TlrReq => e.2.placed) (us.filter fun e => e.2.after.decode)
  let ps := us.filter fun e => !e.2.after.decode
  let pre := sortBy (fun e : Nat × TlrReq => e.2.order) (ps.filter fun e => e.2.after.done != 0)
  let que := sortBy (fun e : Nat × TlrReq => e.2.order) (ps.filter fun e => e.2.after.done == 0)
  let (dr, s) := ds.foldl (Lanorun.fillDecode im t v x) ([], s)
  let (pr, s) := (pre ++ que).foldl (Lanorun.fillPrefill im t v x) ([], s)
  let rows := dr.reverse ++ pr.reverse
  let b : TlrBatch := { step := x, variant := v, rows := rows, upc := old.1, dnc := old.2 }
  (s.writeInput im t x v rows).setTeller fun y => { y with batches := y.batches ++ [b] }

/-- A fill is undone: placements, ends, reservations and the counters of R410 return to what they were (R394, R396). -/
def Lanorun.undoFill (s : Lanorun) (b : TlrBatch) : Lanorun :=
  let s := s.returnRows b.rows
  let s := b.rows.foldl (fun s w => if w.dead then s else match s.req w.slot with
    | some r => s.setReq w.slot (some { r with placed := r.placedBefore })
    | none => s) s
  s.usedSlots.foldl (fun s e => if e.2.budget = some b.step then s.setReq e.1 (some { e.2 with budget := none }) else s) s

/-- The release of step x: results, then the fill of the next step unless the tenancy is done (R392, R393). -/
def Lanorun.tlrRelease (s : Lanorun) (t x : Nat) (more : Bool) : Lanorun :=
  match s.served with
  | some (im, u) =>
    if u = t ∧ s.isLead then
      let c := (s.batch x).map (·.variant)
      let s := s.applyResults im t x
      if more then s.tlrFill im t (x + 1) (some (c.getD (fieldAt (im.serve t) 0xF 1))) else s
    else s
  | none => s

/-- The first step of a tenancy is filled at the Bell at which it begins (R393). -/
def Lanorun.tlrFirst (s : Lanorun) (t x : Nat) : Lanorun :=
  match s.served with
  | some (im, u) => if u = t ∧ s.isLead ∧ s.batch x = none then s.tlrFill im t x none else s
  | none => s

/-- The fill of step x missed the Bell of frame 1 (R394). -/
def Lanorun.fillLate (s : Lanorun) (x : Nat) : Lanorun :=
  match s.batch x with
  | none => s
  | some b =>
    let s := (s.undoFill b).event F.TLR_EVENT_FILL_LATE
    (s.setCounts b.upc b.dnc).setBatch { b with rows := [] }

/-- Tokens written to a ring in position order, stopping at a failed write; answers how many were written. -/
def Lanorun.writeTokens (s : Lanorun) (i pos : Nat) : List (BitVec 32) → Nat → Nat × Bool × Lanorun
  | [], n => (n, true, s)
  | x :: xs, n =>
    match s.ringWrite i 1 0 x.toNat (pos + n) with
    | (true, s) => s.writeTokens i pos xs (n + 1)
    | (false, s) => (n, false, s)

/-- One request's commit: its charge, its tokens and its end (R395, R403). -/
def Lanorun.commitReq (b : TlrBatch) (s : Lanorun) (i : Nat) : Lanorun :=
  match s.req i with
  | none => s
  | some r =>
    if r.ended ≠ none then s
    else match r.cancelled with
    | some kind => s.endReq i kind 0 (kind == 3)
    | none =>
      let s := match b.rows.find? (fun w => w.slot == i && !w.dead), r.result with
        | some w, some x =>
          let (n, ok, s) := s.writeTokens i (r.promptLen + r.gen) x.tokens 0
          let s := s.refill r.account
          let y := s.account r.account
          let charge := y.wp * x.prompt + y.wg * n
          let s := s.setAccount r.account { y with bal := y.bal - charge, resv := y.resv - w.cost }
          let s := (s.countEvt R.TLR_CNT n 0 1).countEvt R.TLR_CNT x.prompt 0 2
          let s := match s.req i with
            | some q => s.setReq i (some { q.after with gen := r.gen + n, charged := r.charged + charge })
            | none => s
          if ok then (match x.fin with | some why => s.endReq i 2 why true | none => s)
          else (s.event F.TLR_EVENT_RING_FAIL).killReq i 6
        | _, _ => s
      match s.req i with
      | none => s
      | some q =>
        if q.ended ≠ none ∨ q.cancelled ≠ none then s
        else if q.budget ≠ none then s.endReq i 4 0 true
        else if q.paused ∧ ¬ s.placedNow i then s.endReq i 5 0 true
        else s

/-- The commit of step x (R395). -/
def Lanorun.tlrCommit (s : Lanorun) (x : Nat) : Lanorun :=
  match s.batch x with
  | none => s
  | some b =>
    if ¬ b.released then s
    else
      let s := s.setTeller fun y => { y with batches := y.batches.filter (fun c => c.step != x), prev := some b }
      let s := (s.usedSlots.map (·.1)).foldl (Lanorun.commitReq b) s
      ((s.put F.TLR_STATUS_COMMIT_STEP (x % 2 ^ 32)).countEvt R.TLR_CNT 1 0 0).event F.TLR_EVENT_COMMIT

/-- The tenancy enters FAULTED for a fault of step x: the step before commits; what followed the release of x is discarded
(R395, R396). -/
def Lanorun.tlrFault (s : Lanorun) (t x : Nat) : Lanorun :=
  match s.served with
  | some (_, u) =>
    if u ≠ t ∨ ¬ s.isLead then s
    else
      let s := if 0 < x then s.tlrCommit (x - 1) else s
      let later := s.teller.batches.filter fun b => decide (x < b.step)
      let s := later.foldl Lanorun.undoFill s
      let s := match later with
        | b :: _ => s.setCounts b.upc b.dnc
        | [] => s
      let s := s.setTeller fun y => { y with batches := y.batches.filter fun b => decide (b.step ≤ x) }
      match s.batch x with
      | some b =>
        let s := b.rows.foldl (fun s w => match s.req w.slot with
          | some r => if w.dead then s else s.setReq w.slot (some { r with result := none })
          | none => s) s
        s.setBatch { b with released := false }
      | none => s
  | none => s

/-- The tenancy halts or leaves: everything uncommitted is discarded and every request ends with ABORTED (R397), in the CQ only
where its ring has failed (R406). -/
def Lanorun.tlrAbort (s : Lanorun) : Lanorun :=
  let s := s.returnRows (s.teller.batches.flatMap (·.rows))
  let s := s.setTeller fun y => { y with batches := [], prev := none }
  s.usedSlots.foldl (fun s e => if e.2.ended = none then
    (s.setReq e.1 (some { e.2 with result := none, budget := none })).endReq e.1 6 0 (e.2.cancelled != some 6) else s) s

/-- The mask of step x: bit i of byte i / 8 (R398). -/
def Lanorun.maskBytes (s : Lanorun) (x : Nat) : List (BitVec 8) :=
  let on : List Nat := match (s.teller.prev.toList ++ s.teller.batches).find? (fun b : TlrBatch => b.step == x) with
    | some b => (b.rows.filter fun w : TlrRow => !w.dead).map TlrRow.slot
    | none => []
  (List.range 1024).map fun j => BitVec.ofNat 8 (((on.filter fun i => i / 8 == j).map fun i => 2 ^ (i % 8)).sum)

/-- The lead writes MASK_OUT at a Bell (R398). -/
def Lanorun.maskPublish (s : Lanorun) : Lanorun :=
  match s.served with
  | none => s
  | some (im, t) =>
    let x := s.ten t
    let st := s.tenState t
    if s.isLead ∧ (st = tenRunning ∨ st = tenFaulted) then
      let of := if st = tenRunning ∧ x.frameIn = 0 ∧ 0 < x.step then x.step - 1 else x.step
      let bs := if st = tenRunning ∧ x.frameIn = 0 ∧ x.step = 0 then List.replicate 1024 0#8 else s.maskBytes of
      s.tlrWrite im t (fieldAt (im.serve t) 0x18 8) 0 bs
    else s

/-- MASK_IN is read for the next frame (R399). -/
def Lanorun.maskLatch (s : Lanorun) : Lanorun :=
  match s.served with
  | some (im, t) =>
    if s.frozen then s
    else
      let (bs, s) := s.tlrRead im t (fieldAt (im.serve t) 0x20 8) 0 1024
      s.setTeller fun y => { y with latched := some bs }
  | none => s

/-- The mask that was read comes into force at the Bell (R399). -/
def Lanorun.maskInForce (s : Lanorun) : Lanorun :=
  match s.teller.latched with
  | some bs =>
    let s := forN (fun j s => s.setReg R.TLR_MASK (fieldAt bs (8 * j) 8) 0 j) 0 128 s
    s.setTeller fun y => { y with latched := none }
  | none => s

/-- The Teller's share of a Bell of the SERVING tenancy: a late fill at frame 1, the commit at frame COMMIT_FRAMES, the mask
(R394, R395, R398). -/
def Lanorun.tlrBell (s : Lanorun) (late : Bool) : Lanorun :=
  match s.served with
  | none => s
  | some (im, t) =>
    let x := s.ten t
    let run := s.isLead && s.tenState t == tenRunning && x.running
    let s := if run ∧ x.frameIn = 1 ∧ late then s.fillLate x.step else s
    let s := if run ∧ x.frameIn = im.commitFrames t ∧ 0 < x.step then s.tlrCommit (x.step - 1) else s
    s.maskPublish

/-- A command of TLR_REQ_CMD or TLR_SQ_PTR.TAIL at a module that is not the lead (R382). -/
def Lanorun.notLead (s : Lanorun) : Lanorun := s.event F.TLR_EVENT_NOT_LEAD

/-- CANCEL and PAUSE (R407 to R409). -/
def Lanorun.reqCmd (s : Lanorun) (pause : Bool) (i tag : Nat) : Lanorun :=
  if ¬ s.isLead then s.notLead
  else
    let s := (s.put F.TLR_REQ_CMD_TAG tag).put F.TLR_REQ_CMD_SLOT i
    let stale : Lanorun := s.put F.TLR_REQ_CMD_STATUS 2
    match s.req i with
    | none => stale
    | some r =>
      if r.reqId % 2 ^ 32 ≠ tag ∨ r.ended ≠ none ∨ r.cancelled ≠ none ∨ (pause ∧ r.state = 4) then stale
      else
        let s := s.put F.TLR_REQ_CMD_STATUS 1
        if pause then
          let s := s.setReq i (some { r with paused := true })
          if s.placedNow i then s else s.endReq i 5 0 true
        else s.killReq i 3

/-- A doorbell write of the SQ tail (R382). -/
def Lanorun.sqTail (s : Lanorun) (tail : Nat) : Lanorun :=
  if s.isLead then s.put F.TLR_SQ_PTR_TAIL (tail % queueSize (s.get F.TLR_SQ_PTR_SIZE)) else s.notLead

/-- The account record of R401 as eight doublewords. -/
def Account.dwords (x : Account) : List Nat :=
  [ofSigned 64 x.bal, x.cap, ofSigned 64 x.resv, x.rate + x.wp * 2 ^ 32, x.wg + (if x.enabled then 2 ^ 32 else 0), x.last,
   x.rem, 0]
def Lanorun.acctData (s : Lanorun) (k : Nat) : Nat := s.reg R.TLR_ACCT_DATA 0 k

/-- A module that is not the lead of the SERVING tenancy that it runs keeps no Ledger: TLR_ACCT_CMD does nothing there (R382;
log entry 101). -/
def Lanorun.keepsLedger (s : Lanorun) : Bool := s.served.isNone || s.isLead

/-- A command of TLR_ACCT_CMD: the account is refilled first (R402, R413). -/
def Lanorun.acctCmd (s : Lanorun) (a : Nat) (f : Lanorun → Lanorun) : Lanorun :=
  let s := s.put F.TLR_ACCT_CMD_ACCOUNT a
  if s.keepsLedger then f (s.refill a) else s

/-- READ of TLR_ACCT_CMD (R413). -/
def Lanorun.acctRead (s : Lanorun) (a : Nat) : Lanorun :=
  s.acctCmd a fun s =>
    let ds := (s.account a).dwords
    forN (fun k s => s.setReg R.TLR_ACCT_DATA (listGet 0 ds k) 0 k) 0 8 s

/-- WRITE of TLR_ACCT_CMD: the RW fields are replaced and REM cleared (R413). -/
def Lanorun.acctWrite (s : Lanorun) (a : Nat) : Lanorun :=
  s.acctCmd a fun s =>
    let d := s.acctData
    s.setAccount a { s.account a with bal := toSigned 64 (d 0), cap := d 1, rate := d 3 % 2 ^ 32, wp := d 3 / 2 ^ 32,
                                      wg := d 4 % 2 ^ 32, enabled := (d 4).testBit 32, rem := 0 }

/-- ADD of TLR_ACCT_CMD (R413). -/
def Lanorun.acctAdd (s : Lanorun) (a : Nat) : Lanorun :=
  s.acctCmd a fun s =>
    let x := s.account a
    s.setAccount a { x with bal := x.bal + toSigned 64 (s.acctData 0) }

/-- Function Level Reset: the endpoint resets, and the requests whose entries the queue discards end ABORTED (R446). -/
def Lanorun.flr (s : Lanorun) : Lanorun :=
  let s := s.endpointReset
  let lost := s.host.hwq.filterMap (·.owner)
  let s := ((s.setHost fun h => { h with hwq := [] }).put F.HST_HWQ_DEPTH 0).event F.HST_EVENT_FLR
  lost.foldl (fun s o => s.ringFail o.1 o.2) s

end Sys2Proof.Machine
end

