-- ==== Sys2Proof/Machine/Tenancy.lean ====
section
/-! DEFINITION. Tenancies as they run: steps and their release, faults, restarts and halts (R31, R78, R94 to R98, R374). -/
namespace Sys2Proof.Machine

/-- The stewards of a tenancy's blocks see a new step (source 18) or a changed state (source 19). -/
def Lanorun.tellStewards (s : Lanorun) (t : Nat) (opened : Bool) : Lanorun :=
  match s.activeImage with
  | none => s
  | some im => forN (fun b s =>
      if (im.blockMask t).testBit b then
        let x : Steward := sget {} s.stewards b
        { s with stewards := sset {} s.stewards b (if opened then { x with opened := true } else { x with changed := true }) }
      else s) 0 80 s

/-- A tenancy's state changes (R101). -/
def Lanorun.setTenState (s : Lanorun) (t st : Nat) : Lanorun := (s.put F.PLN_TEN_STAT_STATE st 0 t).tellStewards t false

/-- The last step of a tenancy with a STEP_LIMIT (R77, R78). -/
def Image.lastStep (im : Image) (t : Nat) : Option Nat :=
  if im.stepLimit t = 0 then none else some (im.firstStep t + im.stepLimit t - 1)

/-- The tenancy's cells stop, and its link windows and mesh slots stay idle (R96, R138). Queued scheduled sends, results that
wait for a slot and packets that wait at a port are discarded. -/
def Lanorun.stopTenancy (s : Lanorun) (t : Nat) : Lanorun :=
  let im := s.activeImage.getD {}
  let s := (im.cellsOf t).foldl (fun s c =>
    let x := s.cell c
    (s.setCell c { x with sendq := x.sendq.filter fun q => (descOf q.desc).kind == 4 && (descOf q.desc).tc == 1 }).stopCell c) s
  let s := { s with mesh := { s.mesh with vreads := s.mesh.vreads.filter fun r => r.ten != t },
                    engines := s.engines.map fun (g, e) => (g, { e with results := e.results.filter fun r => r.ten != some t }) }
  forN (fun p s =>
    let s := s.dropDue p t
    let x := s.port p
    let (mine, rest) := x.rx0.partition fun k => k.pkey == im.pkey t
    let s := s.setPort p { x with flits := x.flits.filter (fun f => f.ten != t), rx0 := rest }
    mine.foldl (fun s k => s.freeCredit p 0 k.nflit) s) 0 18 s

/-- The other modules of a tenancy's rank table (R96). -/
def Lanorun.peers (s : Lanorun) (t : Nat) : List Nat :=
  match s.activeImage.bind fun im => im.sect 5 t with
  | some x => (((List.range x.count).filterMap (s.rankOf t)).filter (· ≠ s.ownId)).eraseDups
  | none => []

/-- A notice goes to every module in the tenancy's rank table (R96, R98). -/
def Lanorun.sendNotices (s : Lanorun) (t op : Nat) (body : List (BitVec 8)) : Lanorun :=
  (s.peers t).foldl (fun s d => s.sendCtlPkt 3 ((s.activeImage.getD {}).pkey t) d op body .notice) s

/-- The tenancy enters HALTED with a code, which a module that halts by notice does not raise (R98). -/
def Lanorun.haltTenancy (s : Lanorun) (t code : Nat) (quiet : Bool) : Lanorun :=
  let x := s.ten t
  let s := s.stopTenancy t
  let s := (s.setTen t { x with running := false, fault := none, notice := none, halt := none, haltQuiet := false,
                                startAt := none }).setTenState t tenHalted
  let s := s.put F.PLN_TEN_STAT_RESTART_FRAME 0 0 t
  let s := s.event F.PLN_EVENT_HALT
  let s := if quiet = false ∧ (code = 0x0303 ∨ code = 0x0304) then s.fault code .module 0 else s
  let s := s.fault 0x0306 .module 0
  let s := s.detFault t
  let s := match s.served with
    | some (_, u) => if u = t then s.tlrAbort else s
    | none => s
  if quiet then s else s.sendNotices t 0x14 (leBytes 8 x.step ++ leBytes 2 code)

/-- The tenancy enters FAULTED for a fault in frame ff of step x, or halts where its retries are used up (R96 to R98). -/
def Lanorun.faultTenancy (s : Lanorun) (t ff x : Nat) (own : Bool) : Lanorun :=
  let im := s.activeImage.getD {}
  let y := s.ten t
  let tries := if x < y.step then y.retriesBefore else s.get F.PLN_TEN_STAT_RETRIES 0 t
  let s := (s.setTen t { y with step := x, frameIn := 0, fault := none, notice := none, running := false, ff := ff,
                                fr := ff + im.retryFrames }).put F.PLN_TEN_STAT_RETRIES tries 0 t
  let s := s.put F.PLN_TEN_STEP_STEP x 0 t
  if im.retryMax ≤ tries then s.haltTenancy t 0x0304 false
  else
    let s := (s.stopTenancy t).setTenState t tenFaulted
    let s := s.put F.PLN_TEN_STAT_RESTART_FRAME ((ff + im.retryFrames) % 2 ^ 32) 0 t
    let s := (s.tlrFault t x).detFault t
    if own then s.sendNotices t 0x13 (leBytes 8 x ++ leBytes 8 ff) else s

/-- Frame 0 of step x begins: the bank in force, and the stewards' source (R258, R374). -/
def Lanorun.stepOpens (s : Lanorun) (t x : Nat) : Lanorun :=
  let y := s.ten t
  let s := if y.opened ≤ x then (s.setTen t { y with opened := x + 1 }).switchOpens t x else s.showBank t
  (s.put F.PLN_TEN_STEP_STEP x 0 t).tellStewards t true

/-- The tenancy's cells start at ENTRY (R137). -/
def Lanorun.startCells (s : Lanorun) (t : Nat) : Lanorun :=
  (((s.activeImage.getD {}).cellsOf t).filter fun c => !s.cellRetired c).foldl (fun s c => s.setCell c ((s.cell c).start (s.get F.CEL_PC_ENTRY c))) s

/-- Step x of the tenancy begins or begins again with its cells at their entry (R88, R97). -/
def Lanorun.runTenancy (s : Lanorun) (t x : Nat) : Lanorun :=
  let y := s.ten t
  let s := (s.setTen t { y with step := x, frameIn := 0, running := true, startAt := none, startStep := x, released := 0 }).setTenState t
    tenRunning
  let s := s.put F.PLN_TEN_STAT_RESTART_FRAME 0 0 t
  ((s.stepOpens t x).startCells t).detOpen t x 0

/-- The restart Bell: the step again, or HALTED where the Belfry is not LOCKED (R97, R98). -/
def Lanorun.restartTenancy (s : Lanorun) (t : Nat) : Lanorun :=
  if ¬ s.locked then s.haltTenancy t 0x0303 false
  else
    let s := (s.put F.PLN_TEN_STAT_RETRIES (s.get F.PLN_TEN_STAT_RETRIES 0 t + 1) 0 t).event F.PLN_EVENT_RETRY
    s.runTenancy t (s.ten t).step

/-- The tenancy has run its last step (R78). -/
def Lanorun.doneTenancy (s : Lanorun) (t : Nat) : Lanorun :=
  (s.setTen t { s.ten t with running := false }).setTenState t tenDone

/-- The next frame of a RUNNING tenancy, at its Bell (R31, R78). -/
def Lanorun.advanceTenancy (s : Lanorun) (t : Nat) : Lanorun :=
  let im := s.activeImage.getD {}
  let x := s.ten t
  if ¬ x.running then s
  else if x.frameIn + 1 < im.stepFrames t then
    (s.setTen t { x with frameIn := x.frameIn + 1 }).detOpen t x.step (x.frameIn + 1)
  else if im.lastStep t = some x.step then
    if x.startStep + x.released ≤ x.step ∧ im.cellsOf t ≠ [] then s.setTen t { x with running := false } else s.doneTenancy t
  else
    let s := s.setTen t { x with step := x.step + 1, frameIn := 0, stepsRun := x.stepsRun + 1,
                                 retriesBefore := s.get F.PLN_TEN_STAT_RETRIES 0 t }
    ((s.put F.PLN_TEN_STAT_RETRIES 0 0 t).stepOpens t (x.step + 1)).detOpen t (x.step + 1) 0

/-- A fault of an earlier frame than the present one, which the Bell acts on (R96). -/
def Lanorun.dueFault (s : Lanorun) (t : Nat) : Option Nat := (s.ten t).fault.filter (· < s.frame)

/-- The tenancy goes on to its next frame at this Bell: nothing stops it. -/
def Lanorun.tenAdvances (s : Lanorun) (t : Nat) : Bool :=
  s.tenState t == tenRunning && (s.ten t).halt == none && s.dueFault t == none && (s.ten t).notice == none

/-- What the Bell does to a tenancy that asks for something: a halt, a fault or a notice, or a restart (R96 to R98). -/
def Lanorun.tenancyBell (s : Lanorun) (t : Nat) : Lanorun :=
  let x := s.ten t
  let st := s.tenState t
  match x.halt with
  | some code =>
    if st = tenHalted then s.setTen t { x with halt := none, haltQuiet := false } else s.haltTenancy t code x.haltQuiet
  | none =>
    if st = tenRunning then
      match s.dueFault t, x.notice with
      | some f, n => s.faultTenancy t (min f (n.getD f)) (min x.step (x.startStep + x.released)) true
      | none, some n => s.faultTenancy t n x.step false
      | none, none => s
    else if st = tenFaulted ∧ x.fr ≤ s.frame then s.restartTenancy t
    else s

/-- A cell that has run the last frame of its tenancy's last step stops (R78). -/
def Lanorun.stopAtEnd (s : Lanorun) (t c : Nat) : Lanorun :=
  let im := s.activeImage.getD {}
  let x := s.ten t
  match im.lastStep t with
  | some l => if (l + 1 - x.startStep) * im.stepFrames t ≤ (s.cell c).done then s.stopCell c else s
  | none => s

/-- Every active cell of the tenancy has reached end-of-frame sync in the last frame of the earliest step not released: its
outside effects are released (R31, R95, R374, R392). -/
def Lanorun.releaseStep (s : Lanorun) (t : Nat) : Lanorun :=
  let im := s.activeImage.getD {}
  let x := s.ten t
  let step := x.startStep + x.released
  let cs := im.cellsOf t
  if s.tenState t = tenRunning ∧ x.fault = none ∧ cs ≠ [] ∧ cs.all (fun c => decide ((x.released + 1) * im.stepFrames t ≤ (s.cell c).done)) then
    let s := (s.setTen t { x with released := x.released + 1 }).switchCommit t step
    let s := s.tlrRelease t step (im.lastStep t != some step)
    if im.lastStep t = some step ∧ x.running = false then s.doneTenancy t else s
  else s

/-- After a bundle of cell c has issued: the end of its tenancy's last step, and releases. -/
def Lanorun.afterIssue (s : Lanorun) (c : Nat) : Lanorun :=
  match s.tenOfCell c with
  | some t => if s.frozen then s else (s.stopAtEnd t c).releaseStep t
  | none => s

/-- Cells whose CEL_UE_CNT rose in an event, under AUTO_RETIRE (R519). -/
def Lanorun.autoRetires (s old : Lanorun) : Lanorun :=
  (s.cells.filter fun e => e.2.ueAt != (old.cell e.1).ueAt).foldl (fun s e => s.autoRetire e.1) s

/-- An event of cell c with what follows from it for retirement, for the end of the tenancy's last step, and for releases. -/
def Lanorun.cellEvent (s : Lanorun) (c : Nat) (f : Lanorun → Lanorun) : Lanorun := ((f s).autoRetires s).afterIssue c

end Sys2Proof.Machine
end

