-- ==== Sys2Proof/Machine/ExecCell.lean ====
section
/-! DEFINITION. Commands of the cells (R91, R104 to R141, R204). -/
namespace Sys2Proof.Machine

/-- When the frame position reaches PROG_RC + SLACK_RC + 1 before the sync the partition faults (R91). -/
def execSlipBeyondSlack (tenancy : TenancyIx) (region : RegionIx) (s : State) : Host.Outcome State Fault Refusal :=
  .next (s.on fun s => s.slipBeyond tenancy.val region.val)

/-- In a delivered rc the cell decodes, guards and issues one bundle, or stalls, waits or faults (R104). -/
def execBundleIssue (cell : CellIx) (errs : List MemErr) (s : State) : Host.Outcome State Fault Refusal :=
  .next (s.on fun s => s.cellEvent cell.val fun s => s.bundleIssue cell.val errs)

/-- An idle-repeat bundle issues nothing for COUNT + 1 delivered rc (R109). -/
def execIdleRepeat (cell : CellIx) (count : BitVec 16) (s : State) : Host.Outcome State Fault Refusal :=
  .next (s.on fun s => if s.frozen then s else s.idleRepeat cell.val count.toNat)

/-- An issued operation's result lands at issue + λ and releases its guard records (R104). -/
def execResultLand (cell : CellIx) (errs : List MemErr) (s : State) : Host.Outcome State Fault Refusal :=
  .next (s.on fun s => if s.frozen then s else s.cellEvent cell.val fun s => s.resultLand cell.val errs)

/-- A port reads its scheduled coffer line in an rc of an operation's occupancy (R204). -/
def execCofferScheduledRead (cell : CellIx) (s : State) : Host.Outcome State Fault Refusal :=
  .next (s.on fun s => if s.frozen then s else s.cofferReads cell.val (s.cell cell.val).rc)

/-- CEL_CTRL START starts the cell at ENTRY outside a plan (R137). -/
def execCellStart (cell : CellIx) (s : State) : Host.Outcome State Fault Refusal :=
  .next (s.on fun s => s.cellStart cell.val)

/-- CEL_CTRL STOP stops issue and lets issued operations land (R138). -/
def execCellStop (cell : CellIx) (s : State) : Host.Outcome State Fault Refusal :=
  .next (s.on fun s => s.cellStop cell.val)

/-- CEL_CTRL STEP issues one bundle from STOPPED and stops again (R141). -/
def execCellStep (cell : CellIx) (s : State) : Host.Outcome State Fault Refusal :=
  .next (s.on fun s => s.cellStepCmd cell.val)

/-- When its issued operations have landed and sends are settled a stopping cell enters STOPPED (R138). -/
def execCellStopped (cell : CellIx) (s : State) : Host.Outcome State Fault Refusal :=
  .next (s.on fun s => s.cellStopped cell.val)

/-- A write to CEL_TALLY_ADD adds N to a tally at the next rc edge (R127). -/
def execTallyAddWrite (cell : CellIx) (value : Word) (s : State) : Host.Outcome State Fault Refusal :=
  .next (s.on fun s => s.tallyAddWrite cell.val value.toNat)

/-- A scheduled arrival or engine result lands in the cell store and adds to its tally (R127). -/
def execArrivalLand (cell : CellIx) (s : State) : Host.Outcome State Fault Refusal :=
  .next (s.on fun s => if s.frozen then s else s.arrivalLand cell.val)

end Sys2Proof.Machine
end

