-- ==== Sys2Proof/Machine/Spc.lean ====
section
/-! DEFINITION. Sathes Portable Code: tiles, symbols, patches, the checks of a program section and its translation for each
cell (R261 to R269). -/
namespace Sys2Proof.Machine

/-- A refusal of the loader: code, section table index and detail (R84). -/
structure Refuse where
  code : Nat
  sec : Nat := 0xFFF
  detail : Nat := 0
  deriving DecidableEq, Repr

/-- The records of a section with their offsets in its body, fixed or of variable length (R75). -/
def recordsAt : Nat → Nat → List (BitVec 8) → Nat → List (Nat × List (BitVec 8))
  | 0, _, _, _ => []
  | n + 1, size, b, off =>
    let len := if size = 0 then fieldAt b 0 4 else size
    (off, b.take len) :: recordsAt n size (b.drop len) (off + len)
def Section.records (x : Section) : List (Nat × List (BitVec 8)) :=
  recordsAt x.count (fieldAt x.body 4 4) (x.body.drop 16) 16

/-- Bytes lo to hi - 1 of a record are zero. -/
def zeroAt (r : List (BitVec 8)) (lo hi : Nat) : Bool := ((r.take hi).drop lo).all (· == 0#8)

/-- NTILE, FIRST and TSTRIDE of cell c, and the owner of a tile (R261). -/
def tileOf (dist t pt c : Nat) : Nat × Nat × Nat :=
  if dist = 0 then (if c < t then (ceilDiv (t - c) pt, c, pt) else (0, t, pt))
  else
    let n := (c + 1) * t / pt - c * t / pt
    (n, if n = 0 then t else c * t / pt, 1)
def tileOwner (dist t pt j : Nat) : Nat := if dist = 0 then j % pt else ((j + 1) * pt - 1) / t

/-- A program section as its records give it (R262). -/
structure Spc where
  pmin : Nat := 0
  descs : Nat := 0
  kernels : List (Nat × Nat) := []
  entry : Nat := 0
  code : List (BitVec 8) := []
  codeAt : Nat := 0                  -- the code's offset in the section
  templates : List (List (BitVec 8)) := []
  relocs : List (Nat × Nat) := []    -- offset of the record, and the code offset
  patches : List (Nat × List (BitVec 8)) := []
  deriving DecidableEq, Repr

/-- The fields of a PROG record that are not in range (R262). -/
def progBad (r : List (BitVec 8)) : Bool :=
  decide (r.length < 22) || fieldAt r 4 2 != 1 || !zeroAt r 6 8 || fieldAt r 8 1 != 1 || fieldAt r 10 2 == 0 ||
  decide (1360 < fieldAt r 10 2) || decide (64 < fieldAt r 12 1) || fieldAt r 13 1 == 0 || decide (64 < fieldAt r 13 1) ||
  fieldAt r 14 4 % 4 != 0

/-- The kind of record n, where a program has k kernels (R262). -/
def kindAt (k n : Nat) : Nat := if n = 0 then 1 else if n ≤ k then 2 else if n = k + 1 then 3 else 4

/-- A KERNEL, CODE or DESC record breaks R262. -/
def partBad (k d cb n : Nat) (r : List (BitVec 8)) : Bool :=
  fieldAt r 4 2 != kindAt k n || !zeroAt r 6 8 ||
  (match kindAt k n with
   | 2 => decide (r.length < 16) || fieldAt r 8 1 != n - 1 || decide (1 < fieldAt r 9 1) || !zeroAt r 10 12 ||
          fieldAt r 12 4 == 0 || decide (2 ^ 31 ≤ fieldAt r 12 4)
   | 3 => decide (r.length < 16 + cb) || !zeroAt r 8 16
   | _ => decide (r.length < 48) || decide (d ≤ fieldAt r 8 1) || decide (3 < fieldAt r 9 1) || !zeroAt r 10 16)

/-- A RELOC or PATCH record breaks R262; size is that of an entry. -/
def tableBad (kind size : Nat) (r : List (BitVec 8)) : Bool :=
  fieldAt r 4 2 != kind || !zeroAt r 6 8 || !zeroAt r 12 16 || decide (r.length < 16 + size * fieldAt r 8 4)

/-- The entries of a RELOC or PATCH record. -/
def tableOf (size off : Nat) (r : List (BitVec 8)) : List (Nat × List (BitVec 8)) :=
  (List.range (fieldAt r 8 4)).map fun j => (off, (r.drop (16 + size * j)).take size)

/-- The records of a program section in the order and counts of R262, or the offset of the first that is wrong. -/
def spcParse (x : Section) : Except Nat Spc :=
  let rs := x.records
  match rs with
  | [] => .error 16
  | (po, p) :: _ =>
    if progBad p then .error po
    else
      let k := fieldAt p 13 1
      let d := fieldAt p 12 1
      let cb := fieldAt p 14 4
      let body := rs.take (k + d + 2)
      let rest := rs.drop (k + d + 2)
      if body.length < k + d + 2 then .error x.body.length
      else match (body.zipIdx.drop 1).find? fun (r, n) => partBad k d cb n r.2 with
        | some ((o, _), _) => .error o
        | none =>
          let descs := body.drop (k + 2)
          match descs.zipIdx.find? fun (r, n) => (descs.take n).any fun q => fieldAt q.2 8 1 == fieldAt r.2 8 1 with
          | some ((o, _), _) => .error o
          | none =>
            let (rel, rest) := match rest with
              | (o, r) :: t => if fieldAt r 4 2 = 5 then (some (o, r), t) else (none, rest)
              | [] => (none, [])
            let (pat, rest) := match rest with
              | (o, r) :: t => if fieldAt r 4 2 = 6 then (some (o, r), t) else (none, rest)
              | [] => (none, [])
            match rel.filter (fun r => tableBad 5 4 r.2), pat.filter (fun r => tableBad 6 32 r.2), rest with
            | some (o, _), _, _ => .error o
            | _, some (o, _), _ => .error o
            | _, _, (o, _) :: _ => .error o
            | none, none, [] =>
              let (co, c) := listGet (0, []) body (k + 1)
              .ok { pmin := fieldAt p 10 2, descs := d, kernels := ((body.drop 1).take k).map fun r => (fieldAt r.2 9 1, fieldAt r.2 12 4),
                    entry := fieldAt p 18 4, code := (c.drop 16).take cb, codeAt := co + 16,
                    templates := (List.range d).map fun i =>
                      ((descs.find? fun r => fieldAt r.2 8 1 == i).map fun r => (r.2.drop 16).take 32).getD [],
                    relocs := (rel.map fun r => (tableOf 4 r.1 r.2).map fun e => (e.1, fieldAt e.2 0 4)).getD [],
                    patches := (pat.map fun r => tableOf 32 r.1 r.2).getD [] }

/-- MFS of PCELL or LCELL, which portable code may not hold (R266). -/
def Bundle.mfsBad (b : Bundle) : Bool :=
  match b.s with
  | some (.mfs, w, _) => sImm12 w == 1 || sImm12 w == 2
  | _ => false

/-- Delay positions left after a bundle in sequence (R117, R119). -/
def Bundle.delayAfter (b : Bundle) (left : Nat) : Nat :=
  match b.idle, b.s with
  | some n, _ => left - (n + 1)
  | none, some (k, _, _) => if k.isBranch then 2 else left - 1
  | none, none => left - 1

/-- The bundles of a code in sequence with their offsets, or the offset of the first that may not stand there (R110, R118,
R119, R266, R268). -/
def decodeCode : Nat → List (BitVec 8) → Nat → Nat → Except Nat (List (Nat × Bundle))
  | 0, _, off, _ => .error off
  | f + 1, code, off, left =>
    if code = [] then .ok []
    else match decodeBundle (code.take 64) with
      | .error _ => .error off
      | .ok b =>
        if code.length < b.len ∨ b.mfsBad ∨ (({ delayLeft := left } : Cell).delayFault b).isSome then .error off
        else match decodeCode f (code.drop b.len) (off + b.len) (b.delayAfter left) with
          | .error o => .error o
          | .ok l => .ok ((off, b) :: l)

/-- The target of a B or BAL in a bundle at an offset. -/
def Bundle.targetAt (b : Bundle) (off : Nat) : Option Int :=
  match b.s with
  | some (.b, w, _) => some (off + branchOffset .b w)
  | some (.bal, w, _) => some (off + branchOffset .bal w)
  | _ => none

/-- The offset of a bundle's LIMM extension. -/
def Bundle.limmAt (b : Bundle) (off : Nat) : Option Nat :=
  match b.s with
  | some (_, _, some _) => some (off + 8)
  | _ => none

/-- Operations of the SI format whose IMM is bits 11:0 (R111, R114). -/
def SKind.isSi : SKind → Bool
  | .addi | .andi | .ori | .xori | .slli | .srli | .srai | .cmpeqi | .cmplti | .cmpgei | .cmpltui | .mfs => true
  | _ => false

/-- The words of a bundle at an offset that a patch may name, with the highest bit of the field (R264). -/
def Bundle.patchable (b : Bundle) (off : Nat) : List (Nat × Nat) :=
  let oS := off + 4
  let oX := if b.s.isSome then oS + 4 else oS
  let oV := if (b.limmAt off).isSome then oX + 4 else oX
  let oL := oV + (if b.v.isSome then 8 else 0) + (if b.m.isSome then 8 else 0)
  let oT := if b.l.isSome then oL + 8 else oL
  let oY := if b.t.isSome then oT + 8 else oT
  (match b.s with
   | some (k, _, e) => (if k.isSi then [(oS, 11)] else []) ++ (if e.isSome then [(oX, 31)] else [])
   | none => []) ++
  (if b.l.isSome then [(oL, 19)] else []) ++ (if b.t.isSome then [(oT, 19)] else []) ++
  (match b.y with
   | some (.twait, _) | some (.tadd, _) => [(oY, 15)]
   | some (.ttest, _) => [(oY, 11)]
   | _ => [])

/-- The field of a descriptor template's word that a patch may name: its lowest and highest bit (R264). -/
def descField (o : Nat) : Option (Nat × Nat) :=
  match o with
  | 0 => some (16, 31)
  | 4 => some (0, 31)
  | 12 => some (16, 23)
  | 16 => some (0, 31)
  | 20 => some (0, 31)
  | _ => none

/-- What a patch is evaluated for: the tenancy's cells, logical numbers, CELLSTORE ranges and program place (R263). -/
structure BindCtx where
  cells : List Nat
  logical : List Nat                 -- logical number by TCELL
  ranges : List (Nat × Nat × Nat)    -- BASE, BYTES and share part
  prog : Prog
  deriving DecidableEq, Repr

/-- The value of a patch's symbol for TCELL c (R263). -/
def symbolValue (p : Spc) (x : BindCtx) (sym k : Nat) (a : Int) (c : Nat) : Int :=
  let pt := x.cells.length
  let (dist, t) := listGet (0, 1) p.kernels k
  let (n, first, stride) := tileOf dist t pt c
  let (base, bytes, share) := listGet (0, 0, 0) x.ranges k
  match sym with
  | 0 => 1
  | 1 => pt
  | 2 => c
  | 3 => p.pmin
  | 4 => n
  | 5 => first
  | 6 => stride
  | 7 => (listGet 0 x.logical (tileOwner dist t pt (((first : Int) + a) % t).toNat) : Nat)
  | 8 => (base + bytes : Nat)
  | 9 => share
  | 10 => x.prog.base
  | _ => x.prog.desc

/-- The value of a patch for TCELL c (R264). -/
def patchValue (p : Spc) (x : BindCtx) (e : List (BitVec 8)) (c : Nat) : Int :=
  let s := symbolValue p x (fieldAt e 8 1) (fieldAt e 9 1) (toSigned 16 (fieldAt e 10 2)) c
  let n := toSigned 64 (fieldAt e 0x10 8) * s + toSigned 64 (fieldAt e 0x18 8)
  let d : Int := (fieldAt e 12 4 : Nat)
  if (fieldAt e 3 1).testBit 1 then -((-n) / d) else n / d

/-- A value fits a width, signed or not. -/
def fits (signed : Bool) (w : Nat) (v : Int) : Bool :=
  if signed then decide (-(2 : Int) ^ (w - 1) ≤ v) && decide (v < (2 : Int) ^ (w - 1)) else decide (0 ≤ v) && decide (v < (2 : Int) ^ w)

/-- A patch entry breaks R264 for some cell. -/
def patchBad (p : Spc) (x : BindCtx) (fields : List (Nat × Nat)) (e : List (BitVec 8)) : Bool :=
  let lsb := fieldAt e 1 1
  let w := fieldAt e 2 1
  let o := fieldAt e 4 4
  let sym := fieldAt e 8 1
  let k := fieldAt e 9 1
  let inside : Bool := if fieldAt e 0 1 = 0 then fields.any fun f => f.1 == o && decide (lsb + w ≤ f.2 + 1)
    else decide (o / 32 < p.descs) && (match descField (o % 32) with
      | some (lo, hi) => decide (lo ≤ lsb) && decide (lsb + w ≤ hi + 1)
      | none => false)
  decide (1 < fieldAt e 0 1) || w == 0 || decide (32 < w) || decide (3 < fieldAt e 3 1) || o % 4 != 0 || decide (0xB < sym) ||
  fieldAt e 12 4 == 0 || !inside || (decide (4 ≤ sym) && decide (sym ≤ 7) && decide (p.kernels.length ≤ k)) ||
  (decide (8 ≤ sym) && decide (sym ≤ 9) && decide (x.ranges.length ≤ k)) ||
  (List.range x.cells.length).any fun c => !fits ((fieldAt e 3 1).testBit 0) w (patchValue p x e c)

/-- The configuration records of a tenancy's TAILCFG section; without one there is index 0 alone (R192). -/
def Image.tailConfigs (im : Image) (t : Nat) : List Nat :=
  match im.sect 8 t with
  | some x => (x.records.filter fun r => fieldAt r.2 1 1 == 0).map fun r => fieldAt r.2 0 1
  | none => [0]

/-- The first fault of a decoded program against R268: its detail. -/
def spcCodeBad (p : Spc) (tails : List Nat) (bs : List (Nat × Bundle)) : Option Nat :=
  let starts := bs.map (·.1)
  let at_ (o : Nat) : Nat := p.codeAt + o
  (if starts.contains p.entry then none else some 16) <|>
  ((bs.find? fun (o, b) => match b.targetAt o with
    | some t => decide (t < 0) || !starts.contains t.toNat
    | none => false).map fun b => at_ b.1) <|>
  ((bs.find? fun (_, b) => match b.y with
    | some (.send, w) => decide (p.descs ≤ yImm w)
    | _ => false).map fun b => at_ b.1) <|>
  ((bs.find? fun (_, b) => match b.m with
    | some (.drain, w) => !tails.contains (mTcfg w)
    | _ => false).map fun b => at_ b.1) <|>
  (let limms := bs.filterMap fun (o, b) => b.limmAt o
   (p.relocs.find? fun r => !limms.contains r.2).map (·.1))

/-- The translator's checks of a program section (R268); LOAD_CELLS comes before the patches, which are checked for every
cell. -/
def spcCheck (x : Section) (idx : Nat) (tails : List Nat) (b : BindCtx) : Except Refuse Spc :=
  match spcParse x with
  | .error o => .error ⟨0x080B, idx, o⟩
  | .ok p =>
    match decodeCode (p.code.length + 1) p.code 0 0 with
    | .error o => .error ⟨0x080B, idx, p.codeAt + o⟩
    | .ok bs =>
      match spcCodeBad p tails bs with
      | some d => .error ⟨0x080B, idx, d⟩
      | none =>
        if b.cells.length < p.pmin then .error ⟨0x080C, idx, p.pmin - b.cells.length⟩
        else
          let fields := bs.flatMap fun (o, y) => y.patchable o
          match p.patches.find? fun e => patchBad p b fields e.2 with
          | some (o, _) => .error ⟨0x080B, idx, o⟩
          | none => .ok p

/-- A 32-bit word of a byte string with bits lsb + w - 1 to lsb replaced. -/
def putWord (bs : List (BitVec 8)) (o lsb w : Nat) (v : Int) : List (BitVec 8) :=
  bs.take o ++ leBytes 4 (setBits (fieldAt bs o 4) (lsb + w - 1) lsb (ofSigned w v)) ++ bs.drop (o + 4)

/-- The translated code and descriptor templates of TCELL c (R265, R267). -/
def translate (p : Spc) (x : BindCtx) (c : Nat) : List (BitVec 8) × List (List (BitVec 8)) :=
  let code := p.relocs.foldl (fun bs r => bs.take r.2 ++ leBytes 4 ((fieldAt bs r.2 4 + x.prog.base) % 2 ^ 32) ++ bs.drop (r.2 + 4)) p.code
  p.patches.foldl (fun (code, ds) e =>
    let o := fieldAt e.2 4 4
    let lsb := fieldAt e.2 1 1
    let w := fieldAt e.2 2 1
    let v := patchValue p x e.2 c
    if fieldAt e.2 0 1 = 0 then (putWord code o lsb w v, ds)
    else (code, listSet ds (o / 32) (putWord (listGet [] ds (o / 32)) (o % 32) lsb w v))) (code, p.templates)

/-- The translated program of one tenancy is written into its cells (R267, R270). -/
def Lanorun.writePrograms (s : Lanorun) (p : Spc) (x : BindCtx) : Lanorun :=
  x.cells.zipIdx.foldl (fun s (c, i) =>
    let (code, ds) := translate p x i
    let y := (s.cell c).writeStore x.prog.base code
    s.setCell c (ds.zipIdx.foldl (fun y (d, k) => y.writeStore (x.prog.desc + 32 * k) d) y)) s

end Sys2Proof.Machine
end

