-- ==== Sys2Proof/Machine/LoadChecks.lean ====
section
/-! DEFINITION. The loader's reading of an image and its checks 1 to 10 (R72 to R84, R217, R219, R312). -/
namespace Sys2Proof.Machine

/-- A refusal where a condition holds. -/
def refuseIf (b : Bool) (code : Nat) (sec : Nat := 0xFFF) (detail : Nat := 0) : Option Refuse :=
  if b then some ⟨code, sec, detail⟩ else none

/-- The first refusal among the entries of a list, each with its index. -/
def firstBad {α : Type} (l : List α) (f : α → Nat → Option Refuse) : Option Refuse := l.zipIdx.findSome? fun x => f x.1 x.2

/-- A known section type: whether it is module-wide, per tenancy, and the length of its records, 0 for variable (R76). -/
def secKnown (ty : Nat) : Option (Bool × Bool × Nat) :=
  match ty with
  | 1 => some (true, false, 64) | 2 => some (true, false, 112) | 3 => some (true, false, 16) | 4 => some (true, false, 32768)
  | 5 => some (false, true, 2) | 6 => some (true, false, 0) | 7 => some (false, true, 0) | 8 => some (false, true, 64)
  | 9 => some (false, true, 32) | 10 => some (false, true, 64) | 11 => some (false, true, 0) | 12 => some (false, true, 0)
  | 13 => some (true, true, 2)
  | _ => none

/-- n bytes at an offset of image slot i (R216). -/
def Lanorun.slotBytes (s : Lanorun) (i off n : Nat) : List (BitVec 8) := s.dram (i * 2 ^ 36 + reservedAt + off) n

/-- A section table entry of image slot i (R74), without its body. -/
def Lanorun.slotEntry (s : Lanorun) (i k : Nat) : Section :=
  let e := s.slotBytes i (256 + 32 * k) 32
  { ty := fieldAt e 0 2, flags := fieldAt e 2 2, ver := fieldAt e 4 2, ten := fieldAt e 6 1, off := fieldAt e 8 8,
    size := fieldAt e 16 8, crc := fieldAt e 24 4, body := [] }

/-- The header breaks check 1 (R72, R74). -/
def headerBad (h : List (BitVec 8)) : Bool :=
  h.take 4 != [0x4C#8, 0x4E#8, 0x50#8, 0x49#8] || fieldAt h 8 4 != 256 || fieldAt h 0x10 8 % 64 != 0 ||
  decide (512 * 2 ^ 20 < fieldAt h 0x10 8) || fieldAt h 0xFC 4 != crc32c (h.take 0xFC) ||
  decide (fieldAt h 0x10 8 < 256 + 32 * fieldAt h 12 4)

/-- Variable-length records that do not fit: LENGTH is a multiple of 8, holds itself, and stays inside (R75). -/
def varBad : Nat → List (BitVec 8) → Bool
  | 0, _ => false
  | n + 1, b =>
    let len := fieldAt b 0 4
    decide (len < 8) || len % 8 != 0 || decide (b.length < len) || varBad n (b.drop len)

/-- The body of a known type breaks R75. -/
def Section.formBad (x : Section) : Bool :=
  match secKnown x.ty with
  | none => false
  | some (_, _, n) =>
    let size := fieldAt x.body 4 4
    decide (x.body.length < 16) || !zeroAt x.body 8 16 ||
    (if n = 0 then size != 0 || varBad x.count (x.body.drop 16) else size == 0 || decide (x.body.length < 16 + x.count * size))

/-- Check 1 of the table entries in order, each with the end of the body before it (R74). The bytes from the table's end to
the first body are held to zero as those between bodies are (DESIGN CHOICE, log entry 89). -/
def Lanorun.tableBad (s : Lanorun) (i size : Nat) : Nat → Nat → Nat → Option Refuse
  | 0, _, _ => none
  | n + 1, k, prev =>
    let e := s.slotEntry i k
    let raw := s.slotBytes i (256 + 32 * k) 32
    if 1 < e.flags ∨ fieldAt raw 7 1 ≠ 0 ∨ fieldAt raw 28 4 ≠ 0 ∨ e.off % 64 ≠ 0 ∨ e.off < prev ∨ size < e.off + e.size ∨
        !zeroAt (s.slotBytes i prev (e.off - prev)) 0 (e.off - prev) then some ⟨0x0801, k, 0⟩
    else s.tableBad i size n (k + 1) (e.off + e.size)

/-- The image in slot i, read whole. -/
def Lanorun.readImage (s : Lanorun) (i : Nat) : Image :=
  let h := s.slotBytes i 0 256
  { header := h,
    secs := (List.range (fieldAt h 12 4)).map fun k =>
      let e := s.slotEntry i k
      { e with body := s.slotBytes i e.off e.size } }

/-- Check 1 on the sections: scopes, counts and body forms (R75, R76). -/
def Image.formBad (im : Image) : Option Refuse :=
  (firstBad im.secs fun x k => refuseIf (match secKnown x.ty with
    | none => false
    | some (m, t, _) => (x.ten == 0xFF && !m) || (x.ten != 0xFF && (!t || decide (15 < x.ten))) || x.formBad ||
        (im.secs.take k).any fun y => y.ty == x.ty && y.ten == x.ten) 0x0801 k) <|>
  refuseIf ([1, 2, 3, 4, 6, 13].any fun ty => (im.sect ty 0xFF).isNone) 0x0801

/-- Check 2: versions (R73). -/
def Image.versionBad (im : Image) : Option Refuse :=
  refuseIf (im.hdr 4 2 != 1) 0x0802 <|>
  firstBad im.secs fun x k => refuseIf (match secKnown x.ty with
    | none => x.flags % 2 == 1
    | some (_, _, n) => x.ver / 256 != 1 || (n != 0 && decide (fieldAt x.body 4 4 < n))) 0x0802 k

/-- Check 4: the module that the image is for (R84). -/
def Lanorun.targetBad (s : Lanorun) (im : Image) : Option Refuse :=
  refuseIf (!s.flag F.MOD_POSID_VALID || im.hdr 0x20 2 != s.get F.MOD_POSID_ID ||
    !(im.hdr 0x22 1).testBit (if s.get F.MOD_IDENT_GRADE = 0x0A then 0 else 1) ||
    decide (s.get F.MOD_IDENT_STEPPING < im.hdr 0x23 1)) 0x0804

/-- The index of the section of a type and tenancy. -/
def Image.secIx (im : Image) (ty ten : Nat) : Nat := im.secs.findIdx fun x => x.ty == ty && x.ten == ten

/-- The blocks of an image's tenancies. -/
def Image.blocks (im : Image) : List Nat := (List.range 80).filter fun b => (im.tenOfBlock b).isSome

/-- Check 5: region clocks and header fields (R72, R81). -/
def Lanorun.clockBad (s : Lanorun) (im : Image) : Option Refuse :=
  let x := (im.sect 3 0xFF).getD { ty := 3, flags := 0, ver := 0, ten := 0xFF, off := 0, size := 0, crc := 0, body := [] }
  let sec := im.secIx 3 0xFF
  refuseIf (x.count != 16) 0x0805 sec <|>
  (firstBad (List.range 16) fun r _ =>
    let c := x.record r
    let step := fieldAt c 1 1
    let budget := 6000 + 50 * step
    refuseIf (fieldAt c 0 1 != r || !zeroAt c 6 16 ||
      (if step = 0xFF then im.blocks.any fun b => b / 5 == r
       else decide (s.get F.MOD_IDENT_CLK_STEP_MAX < step) || fieldAt c 2 2 == 0 || decide (budget < fieldAt c 2 2) ||
        decide (budget < 4 * fieldAt c 4 2))) 0x0805 sec) <|>
  refuseIf (im.hdr 12 4 == 0 || decide (1024 < im.hdr 12 4) || im.planId == 0 || decide (16383 < im.hdr 0x20 2) ||
    decide (3 < im.hdr 0x22 1) || im.hdr 0x24 1 == 0 || decide (3 < im.hdr 0x24 1) || decide (im.xlat < 4) || decide (8 < im.xlat) ||
    decide (im.guardFrames < 2) || decide (16 < im.guardFrames) || decide (15 < im.retryMax) || decide (im.retryFrames < 16) ||
    decide (1024 < im.retryFrames) || im.tenancyCount == 0 || decide (16 < im.tenancyCount)) 0x0805

/-- Check 6: tenancies (R76 to R78). -/
def Image.tenancyBad (im : Image) : Option Refuse :=
  let n := im.tenancyCount
  let sec := im.secIx 1 0xFF
  refuseIf (((im.sect 1 0xFF).map (·.count)).getD 0 != n) 0x0806 sec <|>
  (firstBad (List.range n) fun t _ =>
    let r := im.tenRec t
    refuseIf (fieldAt r 0 1 != t || decide (1 < fieldAt r 1 1) || fieldAt r 7 1 != 0 || im.stepFrames t == 0 ||
      decide (2 ^ 80 ≤ im.blockMask t) || !zeroAt r 0x28 0x40 || im.pkey t == 0 ||
      (List.range t).any fun u => im.pkey u == im.pkey t || (im.blockMask u &&& im.blockMask t) != 0) 0x0806 sec) <|>
  (firstBad im.secs fun x k => refuseIf ((secKnown x.ty).isSome && x.ten != 0xFF && decide (n ≤ x.ten)) 0x0806 k) <|>
  refuseIf ((List.range n).any fun t => ([5, 7, 9, 11, 13].any fun ty => (im.sect ty t).isNone) ||
    (im.serving t && (im.sect 12 t).isNone)) 0x0806 sec

/-- The link quadrant's domain of a port (R18). -/
def quadrantOf (p : Nat) : Nat := ((List.range 4).find? fun q => (quadrantPorts (104 + q)).contains p).elim 104 (104 + ·)

/-- Check 7: power domains (R80, R217); an image is refused under a latched trip as well (R474). -/
def Lanorun.powerBad (s : Lanorun) (im : Image) : Option Refuse :=
  let sec := im.secIx 2 0xFF
  let d (k : Nat) : Nat := fieldAt (im.recd 2 0xFF 0) k 1
  refuseIf (((im.sect 2 0xFF).map (·.count)).getD 0 != 1 || ((List.range 112).any fun k => decide (2 < d k)) || d 110 != 1 ||
    d 111 != 1 || (im.blocks.any fun b => d b != 1 || d (80 + b / 5) != 1) ||
    ((List.range im.tenancyCount).any fun t => (maskVaults (im.vaultMask t)).any fun v => d (96 + v) != 1) ||
    ((List.range 18).any fun p => windowsOf (im.linkRec p) != [] && d (quadrantOf p) != 1) ||
    ((List.range 80).any fun b => d b == 1 && d (80 + b / 5) == 0) || (List.range 4).any fun v => d (96 + v) == 0) 0x0807 sec <|>
  refuseIf (s.flag F.PWR_EVENT_TRIP) 0x0807

/-- Two intervals share a point. -/
def meet (a n b m : Nat) : Bool := decide (a < b + m) && decide (b < a + n)

/-- One port's record breaks R312: the byte offset of the offending entry, from the record's start. -/
def linkRecBad (im : Image) (p : Nat) (r : List (BitVec 8)) : Option Nat :=
  let rs := rangesOf r
  let ws := windowsOf r
  let wo (k : Nat) : Nat := 16 + 8 * rs.length + 8 * k
  (if fieldAt r 4 1 ≠ p ∨ fieldAt r 5 1 ≠ 0 ∨ 16 < fieldAt r 6 1 ∨ fieldAt r 7 1 ≠ 0 ∨ fieldAt r 10 2 ≠ 0 ∨
    r.length < 16 + 8 * (rs.length + ws.length) then some 0 else none) <|>
  (rs.zipIdx.findSome? fun (x, k) =>
    if 3 < fieldAt r (17 + 8 * k) 1 ∨ fieldAt r (22 + 8 * k) 2 ≠ 0 ∨ im.tenancyCount ≤ x.ten ∨ 10936 < x.first + x.count ∨
      ((rs.take k).any fun y => meet x.first x.count y.first y.count) then some (16 + 8 * k) else none) <|>
  (ws.zipIdx.findSome? fun (w, k) =>
    if fieldAt r (wo k + 1) 1 ≠ 0 ∨ w.units = 0 ∨ im.tenancyCount ≤ w.ten ∨ im.stepFrames w.ten ≤ w.frame ∨
      !(rs.any fun y => y.ten == w.ten && y.tx && decide (y.first ≤ w.first) && decide (w.first + w.units ≤ y.first + y.count)) ∨
      ((ws.take k).any fun v => v.ten == w.ten && v.frame == w.frame && meet v.first v.units w.first w.units) ∨
      ((ws.take k).any fun v => decide (w.ten < v.ten) || (w.ten == v.ten && (decide (w.frame < v.frame) ||
        (w.frame == v.frame && decide (w.first < v.first))))) then some (wo k) else none)

/-- A port is trained: ACTIVE, or in a fast retrain, which keeps its training (R84, R303; DEDUCED, log entry 89). -/
def Lanorun.trained (s : Lanorun) (p : Nat) : Bool := let st := s.get F.LNK_STATUS_STATE p; st == 5 || st == 6

/-- Check 8: LINKSCHED, then the training of the ports with windows (R79, R84, R312). -/
def Lanorun.linkBad (s : Lanorun) (im : Image) : Option Refuse :=
  let sec := im.secIx 6 0xFF
  let rs := ((im.sect 6 0xFF).map (·.records)).getD []
  refuseIf (rs.length != 18) 0x0808 sec <|>
  (firstBad rs fun r p => (linkRecBad im p r.2).map fun o => ⟨0x0808, sec, r.1 + o⟩) <|>
  firstBad rs fun r p => refuseIf (windowsOf r.2 != [] &&
    (!s.trained p || decide (s.get F.LNK_STATUS_VERSION p < im.hdr 0x24 1))) 0x0808 sec r.1

/-- A MEMLAYOUT record (R82). -/
structure MemRange where
  kind : Nat
  vault : Nat
  base : Nat
  bytes : Nat
  share : Nat
  deriving DecidableEq, Repr

def memRangeOf (r : List (BitVec 8)) : MemRange :=
  { kind := fieldAt r 0 1, vault := fieldAt r 1 1, base := fieldAt r 8 8, bytes := fieldAt r 16 8, share := fieldAt r 24 8 }

/-- The ranges of a tenancy in record order. -/
def Image.memory (im : Image) (t : Nat) : List MemRange :=
  match im.sect 9 t with
  | some x => (List.range x.count).map fun k => memRangeOf (x.record k)
  | none => []

/-- BASE, BYTES and share part of a tenancy's CELLSTORE ranges in record order (R82, R263). -/
def Image.cellRanges (im : Image) (t : Nat) : List (Nat × Nat × Nat) :=
  let pt := (im.cellsOf t).length
  ((im.memory t).filter fun r => r.kind == 7).map fun r =>
    (r.base, r.bytes, if pt = 0 then 0 else roundUp (ceilDiv r.share pt) 256)

/-- A MEMLAYOUT record with a field out of range (R82). Bits 38:36 of BASE may hold the vault's number or zero (DESIGN CHOICE,
log entry 89). -/
def memFieldBad (mask : Nat) (raw : List (BitVec 8)) : Bool :=
  let r := memRangeOf raw
  r.kind == 0 || decide (8 < r.kind) || (decide (7 < r.vault) && r.vault != 0xFF) || !zeroAt raw 2 8 ||
  (r.share != 0 && r.kind != 7) ||
  (r.kind != 7 && r.bytes != 0 && (if r.vault = 0xFF then mask == 0 else
    !mask.testBit r.vault || decide (2 ^ 39 ≤ r.base) || (r.base / 2 ^ 36 != 0 && r.base / 2 ^ 36 != r.vault)))

/-- The ranges that an image occupies in each vault, with the section that gives them (R219). -/
def Image.vaultRanges (im : Image) : List (Nat × Nat × Nat × Nat) :=
  (List.range im.tenancyCount).flatMap fun t =>
    (im.memory t).flatMap fun r =>
      if r.kind = 7 ∨ r.bytes = 0 then []
      else (List.range 8).filterMap fun v => (rangeIn (im.vaultMask t) r.vault r.base r.bytes v).map fun (lo, hi) => (v, lo, hi, im.secIx 9 t)

/-- The bytes that two ranges share. -/
def common (a b c d : Nat) : Nat := min b d - max a c

/-- The worst of a list of shortfalls with their sections, the first among equals. -/
def worstOf (l : List (Nat × Nat)) : Option Refuse :=
  (l.foldl (fun (b : Option (Nat × Nat)) x => match b with
    | none => if x.1 = 0 then none else some x
    | some y => if y.1 < x.1 then some x else some y) none).map fun x => ⟨0x0809, x.2, x.1⟩

/-- A MEMLAYOUT record out of range, the first in tenancy order (R82). -/
def Image.memoryBad (im : Image) : Option Refuse :=
  (List.range im.tenancyCount).findSome? fun t => match im.sect 9 t with
    | some x => firstBad (List.range x.count) fun k _ => refuseIf (memFieldBad (im.vaultMask t) (x.record k)) 0x0809 (im.secIx 9 t)
    | none => none

/-- By how much vaults and ranges fall short, each with its section (R26, R82, R219). -/
def Image.rangeShort (im : Image) : List (Nat × Nat) :=
  let vs := im.vaultRanges
  (vs.map fun (_, _, hi, s) => (hi - reservedAt, s)) ++
  (vs.zipIdx.flatMap fun ((v, lo, hi, s), k) =>
    (vs.take k).filterMap fun (w, l, h, _) => if w = v then some (common lo hi l h, s) else none) ++
  ((List.range im.tenancyCount).flatMap fun t =>
    let cs := im.cellRanges t
    cs.zipIdx.flatMap fun ((b, n, m), k) => (b + n + m - 0x100000, im.secIx 9 t) ::
      (cs.take k).map fun (b', n', m') => (common b (b + n + m) b' (b' + n' + m'), im.secIx 9 t))

/-- CODE_BYTES, DESC_COUNT and ENTRY of a tenancy's program, where its PROG record can be read (R262). -/
def Image.progSize (im : Image) (t : Nat) : Option (Nat × Nat × Nat) :=
  match (im.sect 11 t).map (·.records) with
  | some ((_, p) :: _) => if progBad p then none else some (fieldAt p 14 4, fieldAt p 12 1, fieldAt p 18 4)
  | _ => none

/-- The ranges that an image uses in a cell: its program and its CELLSTORE ranges (R271). -/
def Image.cellUse (im : Image) (c : Nat) : List (Nat × Nat) :=
  match (List.range im.tenancyCount).find? fun t => (im.cellsOf t).contains c with
  | none => []
  | some t =>
    let p : Prog := sget {} im.progs t
    (if p.base < p.limit then [(p.base, p.limit)] else []) ++
    ((im.cellRanges t).map fun (b, n, m) => (b, b + n + m)).filter fun r => decide (r.1 < r.2)

/-- The lowest place for need bytes clear of ranges, or the widest gap (R269). -/
def placeProg (need : Nat) (used : List (Nat × Nat)) : Except Nat Nat :=
  let starts := 0 :: used.map fun r => roundUp r.2 256
  let gap (p : Nat) : Nat :=
    if used.any fun r => decide (r.1 ≤ p) && decide (p < r.2) then 0
    else (used.foldl (fun m r => if p ≤ r.1 then min m r.1 else m) 0x100000) - p
  match (starts.filter fun p => decide (need ≤ gap p) && decide (p + need ≤ 0x100000)).foldl
      (fun (b : Option Nat) p => match b with | none => some p | some q => some (min p q)) none with
  | some p => .ok p
  | none => .error ((starts.map gap).foldl max 0)

/-- Where the program of one tenancy goes, or by how much its range falls short (R269); none for a program that has no
readable PROG record or no cell. -/
def Image.placeOf (im : Image) (active : Option Image) (t : Nat) : Option (Except Nat Prog) :=
  match im.progSize t with
  | none => none
  | some (cb, dc, entry) =>
    if im.cellsOf t = [] then none
    else
      let code := roundUp cb 32
      let need := roundUp (code + 32 * dc) 256
      let used := ((im.cellRanges t).map fun (b, n, m) => (b, b + n + m)) ++
        (match active with | none => [] | some act => (im.cellsOf t).flatMap act.cellUse)
      match placeProg need (used.filter fun r => decide (r.1 < r.2)).eraseDups with
      | .error g => some (.error (need - g))
      | .ok p => some (.ok { base := p, desc := p + code, limit := p + need, entry := p + entry })

/-- Check 9: memory with the program ranges counted, and LOAD_CAPACITY with the shortfall of what fails by the most; else the
program ranges (R82, R84, R219, R269, R270). -/
def Image.place (im : Image) (active : Option Image) : Except Refuse Image :=
  let ps := (List.range im.tenancyCount).filterMap fun t => (im.placeOf active t).map fun p => (t, p)
  let short := ps.filterMap fun (t, p) => match p with
    | .error n => some (n, im.secIx 11 t)
    | .ok _ => none
  match im.memoryBad <|> worstOf (im.rangeShort ++ short) with
  | some r => .error r
  | none =>
    let progs := ps.foldl (fun m (t, p) => match p with
      | .ok q => sset {} m t q
      | .error _ => m) im.progs
    .ok { im with progs := progs }

/-- The first cell in which an image's program meets what another image uses there (R271). -/
def Image.overlaps (o im : Image) : Option Nat :=
  (List.range 1360).find? fun c =>
    match (List.range o.tenancyCount).find? fun t => (o.cellsOf t).contains c with
    | some t =>
      let p : Prog := sget {} o.progs t
      decide (p.base < p.limit) && (im.cellUse c).any fun r => meet r.1 (r.2 - r.1) p.base (p.limit - p.base)
    | none => false

/-- Check 10: the power envelope (R83). -/
def Image.envelopeBad (im : Image) : Option Refuse :=
  let recs (ten : Nat) : List Nat := match im.sect 13 ten with
    | some x => (List.range x.count).map fun k => fieldAt (x.record k) 0 2
    | none => []
  refuseIf ((recs 0xFF).length != 1) 0x080A (im.secIx 13 0xFF) <|>
  ((List.range im.tenancyCount).findSome? fun t => refuseIf ((recs t).length != im.stepFrames t) 0x080A (im.secIx 13 t)) <|>
  refuseIf (decide (3000 < (recs 0xFF).headD 0 + ((List.range im.tenancyCount).map fun t => (recs t).foldl max 0).sum)) 0x080A
    (im.secIx 13 0xFF)

/-- The binding: each tenancy's active cells in ascending physical order (R17, R71, R116). -/
def Lanorun.bind (s : Lanorun) (im : Image) : Image :=
  { im with act := s.activeCells, bound := (List.range im.tenancyCount).foldl (fun m t =>
      sset [] m t (s.activeCells.filter fun c => (im.blockMask t).testBit (blockOf c))) [] }

/-- Steps 2 to 4 of a load: checks 1 to 8, binding, checks 9 and 10 (R84, R270). -/
def Lanorun.checkImage (s : Lanorun) (i : Nat) : Except Refuse Image :=
  let h := s.slotBytes i 0 256
  if headerBad h then .error ⟨0x0801, 0xFFF, 0⟩
  else match s.tableBad i (fieldAt h 0x10 8) (fieldAt h 12 4) 0 (256 + 32 * fieldAt h 12 4) with
    | some r => .error r
    | none =>
      let im := s.readImage i
      match im.formBad <|> im.versionBad <|> (firstBad im.secs fun x k => refuseIf (crc32c x.body != x.crc) 0x0803 k) <|>
          s.targetBad im <|> s.clockBad im <|> im.tenancyBad <|> s.powerBad im <|> s.linkBad im with
      | some r => .error r
      | none =>
        let im := s.bind im
        match im.place s.activeImage with
        | .error r => .error r
        | .ok im => match im.envelopeBad with
          | some r => .error r
          | none => .ok im

end Sys2Proof.Machine
end

