-- ==== Sys2Proof/Machine/Sections.lean ====
section
/-! DEFINITION. Check 11 of the loader: the contents of each section (R192 to R202, R223, R321 to R326, R336, R338, R361, R362,
R383 to R385). -/
namespace Sys2Proof.Machine

/-- A 16-bit entry x of a record. -/
def entryAt16 (r : List (BitVec 8)) (x : Nat) : Nat := fieldAt r (2 * x) 2

/-- A route table routes something other than the module's own ID. -/
def carriesRoute (own : Nat) (r : List (BitVec 8)) : Bool :=
  (List.range 16384).any fun x => x != own && (entryAt16 r x).testBit 15

/-- An entry of port n's route table breaks R336 or R338. -/
def routeEntryBad (own n x w : Nat) (carries : Nat → Bool) : Bool :=
  let out := w % 32
  let orig := w / 256 % 32
  bitsOf w 14 13 != 0 || bitsOf w 7 5 != 0 || (decide (17 < out) && out != 0x1E) ||
  (if n = 0 then decide (17 < orig) || (w.testBit 15 && x != own && !carries orig) else orig != 0) ||
  (x == own && (!w.testBit 15 || out != 0x1E))

/-- ROUTE (R336, R338). -/
def Section.routeBad (x : Section) (own idx : Nat) : Option Refuse :=
  let rs := (x.records).map (·.2)
  refuseIf (x.count != 18) 0x0A05 idx <|>
  firstBad x.records fun r n => ((List.range 16384).find? fun y =>
    routeEntryBad own n y (entryAt16 r.2 y) fun p => carriesRoute own (listGet [] rs p)).map fun y => ⟨0x0A05, idx, r.1 + 2 * y⟩

/-- RANK: reserved bits, and the limit on all ranks (R335, R338). -/
def Image.rankBad (im : Image) (x : Section) (idx : Nat) : Option Refuse :=
  let base := ((List.range x.ten).map fun u => ((im.sect 5 u).map (·.count)).getD 0).sum
  firstBad x.records fun r k => refuseIf ((fieldAt r.2 0 2).testBit 14 || decide (16384 ≤ base + k)) 0x0A05 idx r.1

/-- A slot that a mesh schedule uses, or an access that it makes: tenancy, FRAME, link or channel, and fc (R223, R326). -/
structure Claim where
  ten : Nat
  frame : Nat
  at_ : Nat
  fc : Nat
  deriving DecidableEq, Repr

/-- Two claims are compared: of one tenancy only in the same FRAME (R223, R326). -/
def Claim.meets (a b : Claim) : Bool := a.at_ == b.at_ && (a.ten != b.ten || a.frame == b.frame)

/-- An endpoint field breaks R321 or lies outside the tenancy (R326). -/
def endBad (im : Image) (t kind id : Nat) (every : Bool) : Bool :=
  match kind with
  | 0 => if id = 0xFFFF then !every else decide ((im.cellsOf t).length ≤ id)
  | 1 => decide (7 < id) || !(im.vaultMask t).testBit id
  | 2 => if id = 0xFFFF then !every else id != id &&& 0x71F || !(im.vaultMask t).testBit (bitsOf id 10 8)
  | 3 => decide (17 < id) || !(rangesOf (im.linkRec id)).any fun r => r.ten == t
  | _ => true

/-- A vault address field: IL in bit 63, bits 62:39 zero, a multiple of 512 (R321). -/
def vaddrBad (a : Nat) : Bool := bitsOf a 62 39 != 0 || a % 512 != 0

/-- A range of a vault endpoint does not lie in its vault (R326). -/
def outsideVault (mask a n v : Nat) : Bool :=
  let il := a.testBit 63
  !rangeOk mask il (a % 2 ^ 39) n ||
  (List.range (ceilDiv n 256)).any fun k => vaultOf (rangeByte mask il (a % 2 ^ 39) (256 * k)) != v

/-- The field checks of a record at its position (R321, R326). -/
def meshFieldBad (im : Image) (t k : Nat) (r : List (BitVec 8)) : Bool :=
  let x := meshEntryOf r
  let rate := min (listGet 0 [256, 512, 512, 128] x.skind) (listGet 0 [256, 512, 512, 128] x.dkind)
  let vs := x.skind == 1
  let mask := im.vaultMask t
  decide (r.length < 48) || fieldAt r 4 2 != k || fieldAt r 0x26 2 != 0 || decide (3 < x.skind) || decide (3 < x.dkind) ||
  endBad im t x.skind x.sid (x.skind == 0) || (vs && x.did == 0xFFFF) || endBad im t x.dkind x.did (!vs) ||
  x.nfc == 0 || decide (6250 < x.nfc) || decide (x.nfc * rate < x.bytes) || decide (im.stepFrames t ≤ x.frame) ||
  (decide (15 < x.bridge) && x.bridge != 0xFF) ||
  (if vs then vaddrBad x.vaddr || outsideVault mask x.vaddr x.bytes x.sid else x.vaddr != 0) ||
  (if vs && x.dkind == 1 then vaddrBad x.vdaddr || outsideVault mask x.vdaddr x.bytes x.did else x.vdaddr != 0) ||
  (if vs && x.dkind == 0 then x.caddr % 32 != 0 || decide (0x100000 ≤ x.caddr) || decide (15 < x.tally)
   else x.caddr != 0 || x.tally != 0)

/-- The DRAM accesses of a vault-source entry: channel and DRAM-access fc within the frame (R222, R223). -/
def vaultAccesses (im : Image) (t : Nat) (x : MeshEntry) : List (Nat × Nat) :=
  if x.skind ≠ 1 then []
  else
    let mask := im.vaultMask t
    let chan (a : Nat) : Nat := vaultOf a * 32 + a / 256 % 32
    let sa (o : Nat) : Nat := rangeByte mask (x.vaddr.testBit 63) (x.vaddr % 2 ^ 39) o
    let da (o : Nat) : Nat := rangeByte mask (x.vdaddr.testBit 63) (x.vdaddr % 2 ^ 39) o
    let rate := if x.dkind = 0 then 256 else if x.dkind = 3 then 128 else 512
    let gs := (List.range (ceilDiv x.bytes 256)).map (256 * ·)
    (gs.map fun o => (chan (sa o), (x.start + o / rate + 6250 - 96) % 6250)) ++
    (if x.dkind = 1 then gs.map fun o =>
      let last := min (o + 256) x.bytes - 1
      let r := (End.vault.at (sa o) false).1
      let q := (End.vault.at (da o) true).1
      let dk := (pathLinks x.bridge r (route r q x.bridge) 0).2
      (chan (da o), (x.start + last / rate + dk + 2 + 64) % 6250)
     else [])

/-- In W1 or W2 (R223). -/
def inRefresh (fc : Nat) : Bool := (decide (2965 ≤ fc) && decide (fc ≤ 3124)) || decide (6090 ≤ fc)

/-- Claims of a list that clash with earlier ones or with one another, within d fc (R223, R326). -/
def clash (d : Nat) (old : List Claim) : List Claim → Bool
  | [] => false
  | c :: t => (old.any fun o => o.meets c && decide (o.fc < c.fc + d) && decide (c.fc < o.fc + d)) || clash d (c :: old) t

/-- What earlier entries of the image's mesh schedules have claimed: slots, and vault accesses. -/
structure Claims where
  slots : List Claim := []
  vaults : List Claim := []
  deriving DecidableEq, Repr

/-- One MESHSCHED record (R223, R326). -/
def meshRecBad (im : Image) (t idx : Nat) (a : Claims) (k : Nat) (r : Nat × List (BitVec 8)) : Except Refuse Claims :=
  let x := meshEntryOf r.2
  if meshFieldBad im t k r.2 then .error ⟨0x0A04, idx, r.1⟩
  else
    let ms := (List.range (if x.skind = 0 ∧ x.sid = 0xFFFF then (im.cellsOf t).length else 1)).map (memberSlots im t x)
    if ms.any fun m => m.elim true (·.1) then .error ⟨0x0A04, idx, r.1⟩
    else
      let mine := (ms.flatMap fun m => (m.map (·.2)).getD []).map fun (l, f) => (⟨t, x.frame, l, f⟩ : Claim)
      let acc := (vaultAccesses im t x).map fun (c, f) => (⟨t, x.frame, c, f⟩ : Claim)
      if clash 1 a.slots mine then .error ⟨0x0A04, idx, r.1⟩
      else if acc.any (fun c => inRefresh c.fc) ∨ clash 4 a.vaults acc then .error ⟨0x070A, idx, r.1⟩
      else .ok { slots := mine ++ a.slots, vaults := acc ++ a.vaults }

/-- MESHSCHED (R223, R321, R326). -/
def Image.meshBad (im : Image) (x : Section) (idx : Nat) (a : Claims) : Except Refuse Claims :=
  x.records.zipIdx.foldl (fun b (r, k) => match b with
    | .error e => .error e
    | .ok a => meshRecBad im x.ten idx a k r) (.ok a)

/-- A BF16 pattern is finite. -/
def bf16Finite (w : Nat) : Bool := w / 128 % 256 != 255

/-- BF16 patterns rise strictly. -/
def bf16Key (w : Nat) : Int := if w < 0x8000 then w else -((w % 0x8000 : Nat) : Int)
def risingFrom : List Nat → Bool
  | a :: b :: t => decide (bf16Key a < bf16Key b) && risingFrom (b :: t)
  | _ => true

/-- A table record breaks R195. -/
def tableRecBad (r : List (BitVec 8)) : Bool :=
  let n := fieldAt r 2 1
  let bp := (List.range 7).map fun k => fieldAt r (4 + 2 * k) 2
  let seg := (List.range 16).map fun k => fieldAt r (0x14 + 2 * k) 2
  n == 0 || decide (8 < n) || fieldAt r 3 1 != 0 || !zeroAt r 0x12 0x14 || !zeroAt r 0x34 0x40 ||
  !(bp.take (n - 1)).all bf16Finite || !risingFrom (bp.take (n - 1)) || !(bp.drop (n - 1)).all (· == 0) ||
  !(seg.take (2 * n)).all bf16Finite || !(seg.drop (2 * n)).all (· == 0)

/-- A SCALE or BIAS word breaks R193. -/
def scaleBad (bias : Bool) (w : Nat) : Bool :=
  let src := bitsOf w 31 30
  bitsOf w 24 9 != 0 || (if src = 0 then bias || bitsOf w 29 25 != 0 else bitsOf w 8 0 != 0)

/-- A configuration record breaks R192 to R199 or R202; tables names the table records. -/
def tailRecBad (tables : List Nat) (r : List (BitVec 8)) : Bool :=
  let on (k : Nat) : Bool := (fieldAt r 2 1).testBit k
  let w (k : Nat) : Nat := fieldAt r (8 + 4 * k) 4
  let f := w 2 % 256
  let tb := bitsOf (w 2) 15 8
  let bound := bitsOf (w 2) 31 16
  let fmt := bitsOf (w 6) 31 28
  decide (127 < fieldAt r 2 1) || decide (31 < fieldAt r 3 1) || !zeroAt r 0x24 0x40 ||
  ((List.range 7).any fun k => !on k && w k != 0) ||
  (on 0 && scaleBad false (w 0)) || (on 1 && scaleBad true (w 1)) ||
  (on 2 && (decide (0x0B < f) || (f != 0x0B && tb != 0) || (f == 0x0B && !tables.contains tb) || (f != 0x0A && bound != 0) ||
    (f == 0x0A && decide (0x7F80 < bound)))) ||
  (on 3 && (decide (2 < bitsOf (w 3) 23 20) || bitsOf (w 3) 18 0 != 0)) ||
  (on 4 && (bitsOf (w 4) 10 0 != 0 || (bitsOf (w 4) 31 16 == 0 && (w 4).testBit 11))) ||
  (on 5 && (decide (28 < bitsOf (w 5) 31 27) || bitsOf (w 5) 24 0 != 0)) ||
  (on 6 && (decide (7 < fmt) || bitsOf (w 6) 27 26 == 3 || bitsOf (w 6) 19 0 != 0 || ((w 6).testBit 24 && decide (5 < fmt))))

/-- TAILCFG (R192, R195, R202). -/
def Section.tailBad (x : Section) (idx : Nat) : Option Refuse :=
  let rs := x.records.map (·.2)
  let tables := (rs.filter fun r => fieldAt r 1 1 == 1).map fun r => fieldAt r 0 1
  firstBad rs fun r k => refuseIf (fieldAt r 0 1 != k || (match fieldAt r 1 1 with
    | 0 => tailRecBad tables r
    | 1 => tableRecBad r
    | _ => true)) 0x0603 idx k

/-- The rank count of a tenancy. -/
def Image.ranks (im : Image) (t : Nat) : Nat := ((im.sect 5 t).map (·.count)).getD 0

/-- A range is exactly one MEMLAYOUT range of a kind of the tenancy (R362). -/
def Image.isRange (im : Image) (t kind vault base bytes : Nat) : Bool :=
  ((im.memory t).filter fun r => r.kind == kind && r.vault == vault && r.base == base && r.bytes == bytes).length == 1

/-- A PAIR record breaks R361 or R362. -/
def Image.pairBad (im : Image) (t : Nat) (r : List (BitVec 8)) : Bool :=
  let v := fieldAt r 5 1
  let single : Bool := fieldAt r 6 1 % 2 == 1
  let a := fieldAt r 8 8
  let b := fieldAt r 0x10 8
  let n := fieldAt r 0x18 8
  let m := 8192 * (maskVaults (im.vaultMask t)).length
  decide (7 < fieldAt r 4 1) || (decide (7 < v) && v != 0xFF) || decide (7 < fieldAt r 6 1) || !zeroAt r 7 8 || !zeroAt r 0x20 0x40 ||
  n % 2048 != 0 || (single && b != 0) || !im.isRange t 1 v a n || (!single && !im.isRange t 2 v b n) ||
  (v == 0xFF && (m == 0 || a % m != 0 || (!single && b % m != 0)))

/-- A TREE record breaks R361 or R362. -/
def Image.treeBad (im : Image) (t : Nat) (r : List (BitVec 8)) : Bool :=
  let role := fieldAt r 5 1
  let nc := fieldAt r 6 1
  let parent := fieldAt r 8 2
  decide (63 < fieldAt r 4 1) || decide (2 < role) || decide (8 < nc) || (role == 2 && nc != 0) || !zeroAt r 7 8 || !zeroAt r 10 12 ||
  !zeroAt r 0x1C 0x40 || (if role = 0 then parent != 0xFFFF else decide (im.ranks t ≤ parent)) ||
  (List.range nc).any fun k => decide (im.ranks t ≤ fieldAt r (12 + 2 * k) 2)

/-- A SHARD record breaks R361 or R362; rs are the section's records, and the first k come before it. -/
def Image.shardBad (im : Image) (t : Nat) (rs : List (List (BitVec 8))) (k : Nat) (r : List (BitVec 8)) : Bool :=
  let src := fieldAt r 5 1
  let tree := fieldAt r 6 1
  let off := fieldAt r 8 8
  let n := fieldAt r 0x10 8
  let pair := rs.find? fun q => fieldAt q 2 1 == 1 && fieldAt q 4 1 == fieldAt r 4 1
  let node := rs.find? fun q => fieldAt q 2 1 == 3 && fieldAt q 4 1 == tree
  decide (2 < src) || (src == 0 && decide (15 < fieldAt r 7 1)) || off % 2048 != 0 || n % 2048 != 0 || n == 0 || !zeroAt r 0x2A 0x2C || !zeroAt r 0x38 0x40 ||
  bitsOf (fieldAt r 0x30 8) 62 39 != 0 || decide (im.ranks t ≤ fieldAt r 0x28 2) ||
  (match pair with | none => true | some q => decide (fieldAt q 0x18 8 < off + n)) ||
  ((rs.take k).any fun q => fieldAt q 2 1 == 2 && fieldAt q 4 1 == fieldAt r 4 1 && meet (fieldAt q 8 8) (fieldAt q 0x10 8) off n) ||
  (tree != 0xFF && node.isNone) || (src == 1 && node.any fun q => fieldAt q 5 1 == 0)

/-- WEIGHTS: records in the order PAIR, TREE, SHARD (R361, R362). -/
def Image.weightsBad (im : Image) (x : Section) (idx : Nat) : Option Refuse :=
  let rs := x.records.map (·.2)
  let place (r : List (BitVec 8)) : Nat := match fieldAt r 2 1 with | 1 => 0 | 3 => 1 | _ => 2
  firstBad rs fun r k => refuseIf (fieldAt r 0 2 != k || fieldAt r 3 1 != 0 || ((rs.take k).any fun q => decide (place r < place q)) ||
    (match fieldAt r 2 1 with
     | 1 => im.pairBad x.ten r
     | 3 => im.treeBad x.ten r
     | 2 => im.shardBad x.ten rs k r
     | _ => true)) 0x0B07 idx k

/-- A range lies wholly inside one MEMLAYOUT range of the tenancy (R385). -/
def Image.insideRange (im : Image) (t a n : Nat) : Bool :=
  let il := a.testBit 63
  let o := a % 2 ^ 39
  (im.memory t).any fun r => r.kind != 7 && (if il then r.vault == 0xFF else r.vault == vaultOf o) &&
    (if il then decide (r.base ≤ o) && decide (o + n ≤ r.base + r.bytes)
     else decide (vaultOffset r.base ≤ vaultOffset o) && decide (vaultOffset o + n ≤ vaultOffset r.base + r.bytes))

/-- A VARIANT record of a SERVE record's section breaks R383 or R385. -/
def variantBad (slots k : Nat) (before : Option (List (BitVec 8))) (r : List (BitVec 8)) : Bool :=
  let pf := fieldAt r 10 2
  let ch := fieldAt r 12 2
  let pos := fieldAt r 8 2 + pf
  decide (r.length < 32) || fieldAt r 4 2 != 2 || fieldAt r 6 1 != k || decide (4 < fieldAt r 7 1) || decide (8192 < fieldAt r 8 2) ||
  decide (8192 < pf) || (if pf = 0 then ch != 0 else decide (ch < 16) || decide (4096 < ch) || ch % 16 != 0) || !zeroAt r 14 32 ||
  pos == 0 || decide (slots < pos) ||
  (match before with | none => false | some q => decide (pf * ch ≤ fieldAt q 10 2 * fieldAt q 12 2))

/-- The SERVE record breaks R383 or R385. -/
def Image.serveBad (im : Image) (t : Nat) (r : List (BitVec 8)) (vs : List (List (BitVec 8))) : Bool :=
  let nv := fieldAt r 12 1
  let cf := fieldAt r 13 1
  let npos := (vs.map fun v => fieldAt v 8 2 + fieldAt v 10 2).foldl max 0
  let pfmax := (vs.map fun v => fieldAt v 10 2 * fieldAt v 12 2).foldl max 0
  let ib := roundUp (64 + 32 * npos + 4 * pfmax) 2048
  let addr (o : Nat) : Nat := fieldAt r o 8
  decide (r.length < 64) || fieldAt r 4 2 != 1 || !zeroAt r 6 8 || fieldAt r 10 2 == 0 || decide (8192 < fieldAt r 10 2) ||
  nv == 0 || decide (8 < nv) || nv != vs.length || decide (cf < 2) || decide (16 < cf) || fieldAt r 14 1 == 0 ||
  decide (nv ≤ fieldAt r 15 1) || decide (fieldAt r 16 4 < 2) || decide (2 ^ 24 < fieldAt r 16 4) ||
  decide (fieldAt r 0x14 2 ≤ fieldAt r 0x16 2) || !zeroAt r 0x38 0x40 || ([0x18, 0x20, 0x28, 0x30].any fun o => bitsOf (addr o) 62 39 != 0) ||
  decide (im.stepFrames t ≤ cf) || decide (cf < im.guardFrames) || decide (im.stepFrames t < 3) ||
  decide (im.ranks t ≤ fieldAt r 8 2) || !im.insideRange t (addr 0x18) 1024 || !im.insideRange t (addr 0x20) 1024 ||
  [(0x28, ib), (0x30, 64 * npos)].any fun (o, n) => !im.insideRange t (addr o) n || !im.insideRange t (addr o + n) n

/-- TELLER (R383, R385). -/
def Image.tellerBad (im : Image) (x : Section) (idx : Nat) : Option Refuse :=
  refuseIf (!im.serving x.ten || ((List.range im.tenancyCount).filter im.serving).length != 1) 0x0C06 idx 16 <|>
  (match x.records with
   | [] => some ⟨0x0C06, idx, 16⟩
   | (o, r) :: vs =>
     refuseIf (im.serveBad x.ten r (vs.map (·.2))) 0x0C06 idx o <|>
     firstBad vs fun v k => refuseIf (variantBad (fieldAt r 10 2) k (if k = 0 then none else (vs[k - 1]?).map (·.2)) v.2) 0x0C06 idx v.1)

/-- What a tenancy's program is translated for (R263). -/
def Image.bindCtx (im : Image) (t : Nat) : BindCtx :=
  { cells := im.cellsOf t, logical := (im.cellsOf t).map fun c => indexOf im.act c, ranges := im.cellRanges t,
    prog := sget {} im.progs t }

/-- Step 6 of a load: check 11 section by section in table order; a program that passes is written into its cells (R270). -/
def Lanorun.sections (im : Image) : List (Section × Nat) → Claims → Lanorun → Except Refuse Unit × Lanorun
  | [], _, s => (.ok (), s)
  | (x, k) :: rest, a, s =>
    let go (r : Option Refuse) : Except Refuse Unit × Lanorun := match r with
      | some e => (.error e, s)
      | none => Lanorun.sections im rest a s
    match x.ty with
    | 4 => go (x.routeBad s.ownId k)
    | 5 => go (im.rankBad x k)
    | 7 => match im.meshBad x k a with
      | .error e => (.error e, s)
      | .ok a => Lanorun.sections im rest a s
    | 8 => go (x.tailBad k)
    | 10 => go (im.weightsBad x k)
    | 11 => match spcCheck x k (im.tailConfigs x.ten) (im.bindCtx x.ten) with
      | .error e => (.error e, s)
      | .ok p => Lanorun.sections im rest a (s.writePrograms p (im.bindCtx x.ten))
    | 12 => go (im.tellerBad x k)
    | _ => go none

end Sys2Proof.Machine
end

