-- ==== Sys2Proof/Machine/Loader.lean ====
section
/-! DEFINITION. The plan loader (R68 to R71, R270, R271). -/
namespace Sys2Proof.Machine

/-- The loader's refusal leaves the slot FAILED (R84). -/
def Lanorun.refuse (s : Lanorun) (i : Nat) (r : Refuse) : Lanorun :=
  ((s.setPlan fun p' => { p' with load := none })).slotFail i r.code r.sec r.detail

/-- The load in progress, where its slot is still LOADING. -/
def Lanorun.loadNow (s : Lanorun) : Option Load := s.plan.load.filter fun l => s.slotState l.slot == slotLoading

/-- G rises by one in 24 bits and skips 0 (R70). -/
def nextGen (g : Nat) : Nat := if (g + 1) % 2 ^ 24 = 0 then 1 else (g + 1) % 2 ^ 24

/-- Why a LOAD is refused before its checks: unacknowledged Keep records, or an unconfirmed firmware image (R488, R500). -/
def Lanorun.keepRefusal (s : Lanorun) : Option Refuse :=
  refuseIf (s.flag F.KEP_STATUS_UNACKED) 0x100C <|> refuseIf (s.flag F.KEP_STATUS_TRIAL) 0x100D

/-- Image slot i enters LOADING, with the PLAN_ID that its bytes hold (R69, R101). -/
def Lanorun.slotLoads (s : Lanorun) (i : Nat) : Lanorun :=
  let h := s.slotBytes i 0 256
  let n := min (fieldAt h 0x10 8) (512 * 2 ^ 20)
  let s := (s.poisoned (i * 2 ^ 36 + reservedAt) (max 256 n)).foldl (fun s g => s.memUe g none) s
  let s := ((s.setReg R.PLN_SLOT_STAT (0xFFF0 + slotLoading) 0 i).setReg R.PLN_SLOT_DETAIL 0 0 i).dropImage i
  s.setReg R.PLN_SLOT_ID (fieldAt h 0x18 8) 0 i

/-- Steps 1 to 5 of a load (R270). -/
def Lanorun.loadBegin (s : Lanorun) (i : Nat) : Lanorun :=
  let s := s.setPlan fun p' => { p' with gen := nextGen s.plan.gen }
  let s := s.slotLoads i
  match s.keepRefusal with
  | some r => s.refuse i r
  | none =>
    match s.checkImage i with
    | .error r => s.refuse i r
    | .ok im =>
      let s := s.setPlan fun p' => { p' with images := sset {} s.plan.images i im, load := some { slot := i } }
      s.pdQueue 1 (s.switchesOn ((List.range 112).filter im.setsOn))

/-- LOAD (R69, R70, R271, R491, R533): only in READY; held while frozen. -/
def Lanorun.planLoad (s : Lanorun) (i : Nat) : Lanorun :=
  let st := s.slotState i
  if s.get F.KEP_STATUS_STAGE ≠ 3 then s
  else if s.frozen then s.setPlan fun p' => { p' with held := s.plan.held ++ [i] }
  else if st = slotLoading ∨ st = slotActive then s
  else if s.loadNow.isSome then s.slotFail i 0x080E
  else s.loadBegin i

/-- LOADs written during a freeze take place at the resume (R533). -/
def Lanorun.heldLoads (s : Lanorun) : Lanorun :=
  if s.frozen then s
  else s.plan.held.foldl Lanorun.planLoad (s.setPlan fun p' => { p' with held := [] })

/-- The loader's switch-ons are done and the vaults that the image sets ON are READY (R270 step 5). -/
def Lanorun.domainsReady (s : Lanorun) (im : Image) : Bool :=
  !(s.power.job.any fun j => j.src == 1) && !(s.power.wait.any fun j => j.src == 1) &&
  (List.range 8).all fun v => !im.setsOn (96 + v) || s.vaultReady v

/-- Steps 6 and 7 of a load; ABORT acts before them. A change of the active cells since the binding is LOAD_STALE (R69, R521,
R270), and so is a program range that meets one of an image activated since (R271; DESIGN CHOICE, log entry 90). -/
def Lanorun.loadFinish (s : Lanorun) : Lanorun :=
  match s.loadNow with
  | none => s
  | some l =>
    let i := l.slot
    let im := s.image i
    if s.domainsReady im = false then s
    else if l.abort then ((s.setPlan fun p' => { p' with load := none })).slotClear i
    else if s.activeCells ≠ im.act then s.refuse i ⟨0x080D, 0xFFF, 0⟩
    else if let some c := s.activeImage.bind im.overlaps then s.refuse i ⟨0x080D, 0xFFF, c⟩
    else
      match Lanorun.sections im (im.secs.zipIdx) {} s with
      | (.error r, s) => s.refuse i r
      | (.ok _, s) =>
        let s := s.setPlan fun p' => { p' with load := none }
        (s.setReg R.PLN_SLOT_STAT ((s.plan.gen * 256 + i + 1) * 2 ^ 32 + 0xFFF0 + slotReady) 0 i).event F.PLN_EVENT_LOAD_DONE

/-- UNLOAD of a READY or FAILED slot (R69). -/
def Lanorun.unload (s : Lanorun) (i : Nat) : Lanorun :=
  if s.slotState i = slotReady ∨ s.slotState i = slotFailed then s.slotClear i else s

/-- ABORT of a LOADING slot, which acts at the loader's next step boundary (R69, R270). -/
def Lanorun.loadAbort (s : Lanorun) (i : Nat) : Lanorun :=
  match s.loadNow with
  | some l => if l.slot = i then (s.setPlan fun p' => { p' with load := some { l with abort := true } }) else s
  | none => s

end Sys2Proof.Machine
end

