-- ==== Sys2Proof/Machine/Activate.lean ====
section
/-! DEFINITION. Activation and swap of plan images, and the command slots of the Belfry (R51 to R53, R86 to R89, R271, R272). -/
namespace Sys2Proof.Machine

/-- The VC1 packets that are on the mesh, each once. -/
def Lanorun.meshPkts (s : Lanorun) : List Packet :=
  (((s.ni.routers.flatMap fun r => r.2.flatMap (·.2)).filter (·.vc ≠ 3)).map fun m => (m.id, m.pkt.port, m.pkt.tc)).eraseDups.map
    fun m => { hdr := [0#8, BitVec.ofNat 8 m.2.2], port := m.2.1 }

/-- VC1 packets that arrived on port p and remain in the module: in its receive buffer, in part or whole, on the mesh, at the
interface, on their way to an engine, or at an output port (R348). -/
def Lanorun.vc1Held (s : Lanorun) (p : Nat) : Nat :=
  let vc1 (k : Packet) : Bool := k.tc == 1 || k.tc == 2
  let here (k : Packet) : Bool := k.port == some p && vc1 k
  ((s.port p).parts.filter (·.1 = 2)).length + ((s.port p).arrived.filter vc1).length + (s.meshPkts.filter here).length +
  (s.ni.inbox.filter here).length + (s.ni.ucmds.filter fun u => here u.2.2).length +
  (s.ports.map fun x => (x.2.vc1.filter here).length + (if x.2.rest ≠ [] ∧ x.2.restFrom = some p then 1 else 0)).sum

/-- DRAINED of port p (R348, R349). -/
def Lanorun.drained (s : Lanorun) (p : Nat) : Bool := s.linkState p == 7 || (s.flag F.MOD_NI_CTRL_HOLD && s.vc1Held p == 0)

/-- Port p's ROUTE record of an image. -/
def Image.routeRec (im : Image) (p : Nat) : List (BitVec 8) := im.recd 4 0xFF p

/-- The swap to an image changes port p's table (R347). -/
def Lanorun.routeChanges (s : Lanorun) (im : Image) (p : Nat) : Bool :=
  (List.range 4096).any fun j => fieldAt (im.routeRec p) (8 * j) 8 != s.reg R.LNK_ROUTE p j

/-- A handle's READY slot (R70). -/
def Lanorun.slotOfHandle (s : Lanorun) (h : Nat) : Option Nat :=
  (List.range 4).find? fun i => s.slotState i == slotReady && s.get F.PLN_SLOT_STAT_HANDLE 0 i == h

/-- The first of conditions 3 to 6 of R86 that fails for a handle. -/
def Lanorun.actBad (s : Lanorun) (h : Nat) : Option Nat :=
  let slot := s.slotOfHandle h
  if (h ≠ 0 ∧ slot = none) ∨ (h = 0 ∧ s.plan.active = none) then some 3
  else if (List.range 16).any fun t => s.tenState t == tenFaulted then some 4
  else if s.plan.active ≠ none ∧ s.plan.syncedAll = false then some 5
  else match slot with
    | some i => if (List.range 18).any fun p => s.routeChanges (s.image i) p && !s.drained p then some 6 else none
    | none => none

/-- A failed activation is recorded (R86). -/
def Lanorun.actFail (s : Lanorun) (reason f : Nat) : Lanorun :=
  (((s.put F.PLN_ACT_REASON reason).put F.PLN_ACT_RESULT 2).put F.PLN_ACT_FRAME_FRAME f).event F.PLN_EVENT_ACT_FAIL

/-- The outgoing image's tenancies end (R88, R397). -/
def Lanorun.endTenancies (s : Lanorun) : Lanorun :=
  let s := match s.activeImage with
    | some im => forN (fun t (s : Lanorun) => ((s.stopTenancy t).detFault t).tellStewards t false) 0 im.tenancyCount s
    | none => s
  let s := if s.served.isSome then s.tlrAbort else s
  forN (fun t (s : Lanorun) => ((s.setTen t {}).setReg R.PLN_TEN_STAT 0 0 t).setReg R.PLN_TEN_STEP 0 0 t) 0 16 s

/-- The most VC0 units that windows put on a port in one frame, summed over tenancies (R312). -/
def Image.schedMax (im : Image) (p : Nat) : Nat :=
  let ws := windowsOf (im.linkRec p)
  ((List.range im.tenancyCount).map fun t =>
    let mine := ws.filter fun w => w.ten == t
    (mine.map fun w => ((mine.filter fun v => v.frame == w.frame).map (·.units)).sum).foldl max 0).sum

/-- An image's route, rank and schedule tables come into force (R88, R310, R312, R335, R336). -/
def Lanorun.applyTables (s : Lanorun) (im : Image) : Lanorun :=
  let s := forN (fun p (s : Lanorun) =>
    let r := im.routeRec p
    let s := forN (fun j (s : Lanorun) => s.setReg R.LNK_ROUTE (fieldAt r (8 * j) 8) p j) 0 4096 s
    let s := (s.put F.LNK_SCHED_CARRY_UT (fieldAt (im.linkRec p) 8 2) p).put F.LNK_SCHED_SCHED_MAX (im.schedMax p) p
    s.put F.LNK_STATUS_RETIRED 0 p) 0 18 s
  let ranks := (List.range im.tenancyCount).flatMap fun t => match im.sect 5 t with
    | some x => (List.range x.count).flatMap fun k => (x.record k).take 2
    | none => []
  forN (fun j (s : Lanorun) => s.setReg R.MOD_RANK (fieldAt ranks (8 * j) 8) 0 j) 0 4096 s

/-- The tail-chain tables of a tenancy (R192). -/
def Image.tailTable (im : Image) (t : Nat) : Nat × List (Nat × BitVec 8) :=
  match im.sect 8 t with
  | some x => (x.count, ssets 0#8 [] 0 ((List.range x.count).flatMap fun k => (x.record k).take 64))
  | none => (1, [])

/-- A tenancy of the incoming image and its cells are configured (R76, R88, R269). -/
def Lanorun.configTenancy (im : Image) (t : Nat) (s : Lanorun) : Lanorun :=
  let p : Prog := sget {} im.progs t
  let (n, tab) := im.tailTable t
  let s := (im.cellsOf t).foldl (fun s c =>
    let s := s.setCell c { s.cell c with tail := tab, tailRecs := n }
    let s := (s.put F.CEL_PROG_BASE p.base c).put F.CEL_PROG_LIMIT p.limit c
    (s.put F.CEL_PC_ENTRY p.entry c).put F.CEL_DESC_BASE p.desc c) s
  let s := (s.put F.PLN_TEN_STAT_PKEY (im.pkey t) 0 t).put F.PLN_TEN_STEP_STEP (im.firstStep t) 0 t
  s.setTen t { live := true, step := im.firstStep t,
               seed0 := BitVec.ofNat 64 (s.reg R.MOD_TALLY_SEED0 0 t), seed1 := BitVec.ofNat 64 (s.reg R.MOD_TALLY_SEED1 0 t) }

/-- A region takes the image's step, in calibrated mode (R55, R63, R81, R88). -/
def Lanorun.configRegion (im : Image) (r : Nat) (s : Lanorun) : Lanorun :=
  let step := im.clkStep r
  if step = 0xFF ∨ ¬ s.isOn (80 + r) then s
  else
    let s := ((s.put F.RGN_CLK_PLAN_STEP step r).put F.RGN_XCAL_LAT_PLAN im.xlat r).put F.RGN_CLK_MODE 0 r
    let g := s.rgn r
    if g.aligned ∨ s.get F.RGN_CLK_ACT_STEP r ≠ step then s.startRetune r
    else s.setRgn r { g with modeReq := none, stepReq := false }

/-- READY slots whose program range meets a range that the new active image uses in the same cell become FAILED (R271). -/
def Lanorun.staleOverlaps (s : Lanorun) (im : Image) : Lanorun :=
  forN (fun i (s : Lanorun) =>
    if s.slotState i ≠ slotReady then s
    else match (s.image i).overlaps im with
      | some c => s.slotFail i 0x080D 0xFFF c
      | none => s) 0 4 s

/-- The outgoing image's slot becomes READY, and at once FAILED with LOAD_STALE where what READY says of a slot has ceased to
hold while it was ACTIVE: the active cells have changed, or a domain that it sets ON is not on (R69, R521; DEDUCED, log
entry 90). -/
def Lanorun.slotReturns (s : Lanorun) (o : Nat) : Lanorun :=
  let s := s.put F.PLN_SLOT_STAT_STATE slotReady 0 o
  if (s.image o).act ≠ s.activeCells ∨ (List.range 112).any (fun d => (s.image o).setsOn d && !s.domainOn d)
  then s.slotFail o 0x080D else s

/-- The empty plan, or the image of a slot, becomes active at the Bell of frame f (R69, R80, R88, R375, R422). -/
def Lanorun.swap (s : Lanorun) (h f : Nat) : Lanorun :=
  let slot := s.slotOfHandle h
  let s := s.endTenancies
  let s := match s.plan.active with
    | some o => s.slotReturns o
    | none => s
  let s := ((s.put F.PLN_ACT_HANDLE h).put F.PLN_ACT_RESULT 3).put F.PLN_ACT_FRAME_FRAME f
  let s := s.setPlan fun p' => { p' with active := slot, act := some ⟨f, slot⟩ }
  match slot with
  | none => (s.bindBanks {}).detActivate none
  | some i =>
    let im := s.image i
    let s := (s.put F.PLN_SLOT_STAT_STATE slotActive 0 i).applyTables im
    let s := s.cells.foldl (fun s e => if e.2.st = 1 then s.stopCell e.1 else s) s
    let s := forN (Lanorun.configTenancy im) 0 im.tenancyCount s
    let s := forN (Lanorun.configRegion im) 0 16 s
    let s := ((s.bindBanks im).detActivate (some im)).setTeller fun y => { y with upc := 0, dnc := 0 }
    let s := s.staleOverlaps im
    s.pdQueue 2 (s.switchesOff ((List.range 110).filter im.setsOff))

/-- An ACTIVATE_PLAN slot fires in frame f: conditions 3 to 6 of R86, then the swap. -/
def Lanorun.activate (s : Lanorun) (h f : Nat) : Lanorun :=
  match s.actBad h with
  | some r => s.actFail r f
  | none => s.swap h f

/-- At T + 12,000: regions whose LAT_ACT differs from XLAT are refused, and their tenancies halt (R89, R272). -/
def Lanorun.actXlat (s : Lanorun) : Lanorun :=
  match s.plan.active with
  | none => s
  | some i =>
    let im := s.image i
    let bad := (List.range 16).filter fun r => im.blocks.any (fun b => b / 5 == r) && s.get F.RGN_XCAL_LAT_ACT r != im.xlat
    if bad = [] then s
    else
      let s := (s.put F.PLN_SLOT_STAT_CODE 0x080F 0 i).setReg R.PLN_SLOT_DETAIL ((bad.map fun r => 2 ^ r).sum) 0 i
      forN (fun t (s : Lanorun) => if (List.range 80).any fun b => (im.blockMask t).testBit b && bad.contains (b / 5)
        then s.haltTenancy t 0x080F false else s) 0 im.tenancyCount s

/-- The Bell of F + 4: incoming tenancies begin their first step (R88). -/
def Lanorun.actDone (s : Lanorun) : Lanorun :=
  let s := s.setPlan fun p' => { p' with act := none }
  let s := (s.put F.PLN_ACT_RESULT 1).event F.PLN_EVENT_ACT_DONE
  match s.activeImage with
  | none => s
  | some im => forN (fun t (s : Lanorun) =>
      if s.tenState t = tenIdle ∧ (s.ten t).halt = none then (s.runTenancy t (im.firstStep t)).tlrFirst t (im.firstStep t) else s)
      0 im.tenancyCount s

/-- The activation's share of the Bell that opens the present frame. -/
def Lanorun.actBell (s : Lanorun) : Lanorun :=
  match s.plan.act with
  | none => s
  | some a => if s.frame = a.f + 3 then s.actXlat else if a.f + 4 ≤ s.frame then s.actDone else s

/-! ## Command slots -/

def slotArmed (s : Lanorun) (i : Nat) : Bool := s.get F.BLF_CMD_CTRL_STAT 0 i == 1
def Lanorun.slotTick (s : Lanorun) (i : Nat) : Nat := s.get F.BLF_CMD_TICK_TICK 0 i
def Lanorun.slotKind (s : Lanorun) (i : Nat) : Nat := s.get F.BLF_CMD_CTRL_KIND 0 i
def Lanorun.setStat (s : Lanorun) (i st : Nat) : Lanorun := s.put F.BLF_CMD_CTRL_STAT st 0 i

/-- A slot becomes MISSED. -/
def Lanorun.missed (s : Lanorun) (i : Nat) : Lanorun := (s.setStat i 5).event F.BLF_EVENT_CMD_MISSED

/-- The slots due on the edge of a tick (R52). -/
def Lanorun.dueSlots (s : Lanorun) (tick : Nat) : List Nat := (List.range 8).filter fun i => slotArmed s i && s.slotTick i == tick

/-- The action of one slot (R52, R86). -/
def Lanorun.fireSlot (s : Lanorun) (i tick : Nat) : Lanorun :=
  let arg := s.get F.BLF_CMD_CTRL_ARG 0 i
  match s.slotKind i with
  | 1 => if s.locked then (s.setStat i 2).activate arg (tick / 4000) else (s.missed i).actFail 1 (tick / 4000)
  | 2 => (s.setStat i 2).switchBank arg
  | _ =>
    let s := s.setStat i 2
    s.setHall fun h' => { h' with headEvents := s.hall.headEvents ++ [BitVec.ofNat 32 arg] }

/-- A freeze is due on the edge: FREEZE slots fire as one, the others are MISSED (R52, R86, R530). -/
def Lanorun.fireFreeze (s : Lanorun) (due : List Nat) (tick : Nat) : Lanorun :=
  let s := due.foldl (fun s i =>
    if s.slotKind i = 3 then s.setStat i 2
    else
      let s := s.missed i
      if s.slotKind i = 1 then s.actFail (if s.locked then 2 else 1) (tick / 4000) else s) s
  if s.frz.tz = none then (s.armFreeze tick 2).freezeAt tick else s

/-- Slots due on the edge of a tick fire in the order of R52; while frozen they are MISSED (R53). -/
def Lanorun.fireAt (s : Lanorun) (tick : Nat) : Lanorun :=
  let due := s.dueSlots tick
  if s.frozen then due.foldl Lanorun.missed s
  else if due.any fun i => s.slotKind i == 3 then s.fireFreeze due tick
  else ([1, 2, 4].flatMap fun k => due.filter fun i => s.slotKind i == k).foldl (fun s i => s.fireSlot i tick) s

/-- The earliest tick from the counter's present value up to a limit at which a slot is armed. A tick that a counter step has
passed is never reached: its slot does not fire and stays ARMED (R52, R53; DEDUCED, log entry 81). -/
def Lanorun.nextTick (s : Lanorun) (lim : Nat) : Option Nat :=
  (((List.range 8).filter fun i => slotArmed s i && decide (s.slotTick i ≤ lim) &&
      decide (s.hall.lat ≤ latOf (s.slotTick i))).map s.slotTick).foldl
    (fun (b : Option Nat) x => some (min x (b.getD x))) none

/-- Hall time passes up to a tick: slots fire at theirs, in order. -/
def Lanorun.settle (s : Lanorun) (lim : Nat) : Lanorun :=
  forN (fun _ (s : Lanorun) => match s.nextTick lim with
    | some k => (s.setHall fun h' => { h' with lat := max s.hall.lat (latOf k) }).fireAt k
    | none => s) 0 8 s

/-- The event of one slot's tick in the present frame: slots that come before it, and those on its edge. -/
def Lanorun.slotDue (s : Lanorun) (i kind : Nat) : Lanorun :=
  if slotArmed s i ∧ s.slotKind i = kind ∧ s.frozen = false ∧ s.slotTick i < 4000 * (s.frame + 1) then s.settle (s.slotTick i) else s

/-- A plan will become active on the edge of a Bell's tick: an ACTIVATE_PLAN slot fires on it and its conditions hold. -/
def Lanorun.swapDue (s : Lanorun) (tick : Nat) : Bool :=
  let due := s.dueSlots tick
  s.locked && !(due.any fun i => s.slotKind i == 3) &&
  due.any fun i => s.slotKind i == 1 && s.actBad (s.get F.BLF_CMD_CTRL_ARG 0 i) == none

/-- A slot's tick passes while the module is frozen (R53). -/
def Lanorun.slotFrozen (s : Lanorun) (i : Nat) : Lanorun :=
  if slotArmed s i ∧ s.frozen ∧ s.slotTick i < 4000 * (s.frame + 1) then s.settle (s.slotTick i) else s

/-- ARM (R50, R51); the counter counts with its fraction. -/
def Lanorun.slotArm (s : Lanorun) (i : Nat) : Lanorun :=
  let k := s.slotKind i
  let t := s.slotTick i
  if slotArmed s i then s
  else if k = 0 ∨ 4 < k then s.setStat i 7
  else if 25 * t < 16 * s.hall.lat + 200000 then (s.setStat i 4).event F.BLF_EVENT_CMD_LATE
  else if (k ≤ 2 ∧ t % 4000 ≠ 0) ∨ t % 16 ≠ 0 then s.setStat i 6
  else s.setStat i 1

/-- CANCEL (R52). -/
def Lanorun.slotCancel (s : Lanorun) (i : Nat) : Lanorun :=
  let s := s.settle s.ticks
  if slotArmed s i then s.setStat i 3 else s

end Sys2Proof.Machine
end

