-- ==== Sys2Proof/Machine/Bell.lean ====
section
/-! DEFINITION. The Bell: the end of a frame and the start of the next in every unit (R37, R38). -/
namespace Sys2Proof.Machine

/-- The cells that a region waits for in the frame that ends (R59). -/
def Lanorun.awaited (s : Lanorun) (r : Nat) : List Nat :=
  match s.activeImage with
  | some im => ((List.range im.tenancyCount).filter fun t => s.tenState t == tenRunning).flatMap fun t =>
      (s.tenCellsIn t r).filter fun c => !s.cellRetired c
  | none => (s.cells.filter fun e => e.2.st == 1 && regionOf e.1 == r && !(e.2.sync && e.2.syncRc == none)).map (·.1)

/-- LAST_SYNC_RC, MAX_SYNC_RC and the overrun count of the frame that ends (R59). -/
def Lanorun.frameStat (r : Nat) (s : Lanorun) : Lanorun :=
  let cs := s.awaited r
  if ¬ s.isOn (80 + r) then s
  else if cs = [] then s.put F.RGN_FSTAT_LAST_SYNC_RC 0 r
  else
    let all := cs.all fun c => (s.cell c).sync
    let v := if all then (cs.filterMap fun c => (s.cell c).syncRc).foldl max 0 else 0xFFFF
    let s := s.put F.RGN_FSTAT_LAST_SYNC_RC v r
    let s := s.put F.RGN_FSTAT_MAX_SYNC_RC (max v (s.get F.RGN_FSTAT_MAX_SYNC_RC r)) r
    if all then s else s.countEvt R.RGN_OVERRUN_CNT 1 r

/-- How many of the n positions from p on satisfy f. -/
def countFrom (f : Nat → Bool) : Nat → Nat → Nat
  | _, 0 => 0
  | p, n + 1 => (if f p then 1 else 0) + countFrom f (p + 1) n

/-- A cell at end-of-frame sync lets the rest of the frame's delivered rc pass; one that has not reached it keeps counting the
positions of its cell frame past the Bell (R104, R122, R124). -/
def Lanorun.cellClose (s : Lanorun) (c : Nat) : Lanorun :=
  let x := s.cell c
  let g := s.rgn (regionOf c)
  if x.st ≠ 1 ∨ s.retuning (regionOf c) then s
  else if x.sync = false then
    let b := x.base + s.budget (regionOf c)
    s.setCell c { x with late := true, base := b, pos := b }
  else
    let n := countFrom (fun p => !g.removed p) x.pos (s.budget (regionOf c) - x.pos)
    (s.setCell c { x with rc := x.rc + n }).landAll c (x.rc + n - 1)

/-- The cell's new frame: at sync it goes on in it, else it runs late into it; while its region retunes it waits (R55, R90,
R123 to R125). -/
def Lanorun.cellOpen (s : Lanorun) (c : Nat) : Lanorun :=
  let x := { (s.cell c).drainSends (6250 * s.frame) with frc := 0, syncRc := none }
  let r := regionOf c
  if x.st ≠ 1 then s.setCell c { x with pos := 0, base := 0, late := false }
  else if ¬ x.sync then s.setCell c x
  else if s.retuning r then s.setCell c { x with pos := 0 }
  else
    let y := { x with sync := false, pos := 0 }
    s.setCell c (if x.lastSync then { y.stepEntry (s.get F.CEL_PC_ENTRY c) with lastSync := false } else y)

/-- The part of a Bell that runs while frozen: the Belfry, the clocks of the regions that are on, and power (R532, R533). -/
def Lanorun.frozenBell (s : Lanorun) (decl : Nat) : Lanorun :=
  let prot := s.protActs
  let s := s.belfryBell
  let s := forN (fun r (s : Lanorun) => if s.isOn (80 + r) then s.regionFrozen r (s.levelFalls r) else s) 0 16 s
  s.powerBell decl prot

/-- The stewards' sources 18 and 19 hold for a frame. -/
def Lanorun.stewardBell (s : Lanorun) : Lanorun :=
  { s with stewards := (s.stewards.map fun (b, x) => (b, { x with opened := false, changed := false })).filter fun e => e.2 ≠ {} }

/-- The tenancies at the Bell: halts, faults and restarts, then, unless a plan becomes active on this edge, the next frame of
those that run; a TIME_FAULT of the frame before faults them in the new frame (R50, R88, R96). -/
def Lanorun.tenanciesBell (s : Lanorun) (timeFault : Bool) : Lanorun :=
  let go := (List.range 16).filter s.tenAdvances
  let s := ((List.range 16).filter fun t => !go.contains t).foldl Lanorun.tenancyBell s
  let s := if s.swapDue (4000 * s.frame) then s else go.foldl Lanorun.advanceTenancy s
  if timeFault then forN (fun t (s : Lanorun) => s.partitionFault t) 0 16 s else s

/-- The Bell of the present frame outside a freeze. -/
def Lanorun.openFrame (s : Lanorun) (late : Bool) (decl : Nat) : Lanorun :=
  let timeFault := s.hall.timeFault
  let prot := s.protActs
  let s := (s.setHall fun h' => { h' with timeFault := false }).belfryBell.stewardBell
  let s := (s.setMesh fun e' => { e' with moves := [] }).maskInForce
  let synced := (List.range 16).all fun r => (s.awaited r).all fun c => (s.cell c).sync
  let s := forN Lanorun.frameStat 0 16 (s.setPlan fun p' => { p' with syncedAll := synced })
  let cs := s.cells.map (·.1)
  let s := cs.foldl Lanorun.cellClose s
  let s := forN (fun r (s : Lanorun) => if s.isOn (80 + r) then s.regionBell r (s.levelFalls r) else s) 0 16 s
  let s := (s.detBell.tenanciesBell timeFault).actBell
  let s := forN (fun t (s : Lanorun) => s.releaseStep t) 0 16 s
  let s := (s.cells.map (·.1)).foldl Lanorun.cellOpen s
  (s.tlrBell late).powerBell decl prot

/-- A freeze tick in the present frame has come: slots before it fire, then the freeze takes effect (R53, R532). -/
def Lanorun.reachFreeze (s : Lanorun) : Lanorun :=
  match s.frz.tz with
  | some tz => if s.frozen ∨ tz / 4000 ≠ s.frame then s else (s.settle (tz - 1)).freezeTakes
  | none => s

/-- An armed resume whose tick lies in the present frame is due: slots before it are MISSED, then the module resumes, and LOADs
that were written while frozen begin (R53, R533, R535). -/
def Lanorun.reachResume (s : Lanorun) : Lanorun :=
  let tr := s.get F.DBG_RESUME_AT_TICK
  if s.flag F.DBG_STATUS_RESUME_ARMED ∧ tr / 4000 = s.frame then (s.settle (tr - 1)).resumeTakes.heldLoads.moverResume else s

/-- A freeze or a resume that takes effect on a Bell's own edge. -/
def Lanorun.edgeFreeze (s : Lanorun) (tick : Nat) : Lanorun :=
  if s.frozen then
    if s.flag F.DBG_STATUS_RESUME_ARMED ∧ s.get F.DBG_RESUME_AT_TICK = tick then (s.resumeNow tick).heldLoads.moverResume else s
  else if (s.dueSlots tick).any (fun i => s.slotKind i == 3) then s.fireFreeze (s.dueSlots tick) tick
  else if s.frz.tz = some tick then s.freezeAt tick
  else s

/-- The counter reaches its next multiple of 4,000 ticks (R35, R37). -/
def Lanorun.nextFrame (s : Lanorun) : Lanorun := s.setHall fun h' => { h' with lat := (s.hall.lat / 6250 + 1) * 6250 }

/-- The Bell: what was due in the frame that ends, the counter's next multiple of 4,000, and the new frame. -/
def Lanorun.bell (s : Lanorun) (late : Bool) : Lanorun :=
  let s := s.reachFreeze.reachResume
  let s := s.settle (4000 * (s.frame + 1) - 1)
  let decl := s.declaredW
  let s := (forN Lanorun.linkBell 0 18 s).nextFrame
  let s := s.edgeFreeze (4000 * s.frame)
  if s.frozen then s.frozenBell decl else s.openFrame late decl

end Sys2Proof.Machine
end

