-- ==== Sys2Proof/Machine/Ethernet.lean ====
section
/-! DEFINITION. The Ethernet ports: links, the RoCE transport and PTP (R451 to R457). -/
namespace Sys2Proof.Machine

/-- A port that receives: its domain is on and its link up. -/
def Lanorun.ethUp (s : Lanorun) (e : Nat) : Bool := s.isOn (108 + e) && s.flag F.ETH_STATUS_LINK_UP e

/-- The port's link comes up (R451). -/
def Lanorun.ethLinkUp (s : Lanorun) (e pmd : Nat) : Lanorun :=
  if s.isOn (108 + e) ∧ s.flag F.ETH_CTRL_ENABLE e ∧ ¬ s.flag F.ETH_STATUS_LINK_UP e then
    (((s.put F.ETH_STATUS_LINK_UP 1 e).put F.ETH_STATUS_FEC_LOCK 1 e).put F.ETH_STATUS_PMD pmd e).event F.ETH_EVENT_LINK_UP e
  else s

/-- The port loses its link (ETH_LINK_DOWN). -/
def Lanorun.ethLinkDown (s : Lanorun) (e : Nat) : Lanorun :=
  if s.flag F.ETH_STATUS_LINK_UP e then
    (((s.put F.ETH_STATUS_LINK_UP 0 e).put F.ETH_STATUS_FEC_LOCK 0 e).put F.ETH_STATUS_PMD 0 e).event F.ETH_EVENT_LINK_DOWN e
  else s

/-- An uncorrectable FEC codeword: its frame is dropped (ETH_FEC_UE); and the codewords corrected since the last one. -/
def Lanorun.ethFecUe (s : Lanorun) (e corrected : Nat) : Lanorun :=
  if s.ethUp e then
    ((s.event F.ETH_EVENT_FEC_UE e).countErr R.ETH_FEC_UE_CNT 1 e).countEvt R.ETH_FEC_CE_CNT corrected e
  else s

/-- A priority flow control frame with its class-enable vector, and its quanta for PFC_PRIO (R451). -/
def Lanorun.pfcReceive (s : Lanorun) (e enable quanta : Nat) : Lanorun :=
  if s.ethUp e ∧ s.flag F.ETH_CTRL_PFC_EN e ∧ enable.testBit (s.get F.ETH_CTRL_PFC_PRIO e) then
    s.setEth e { s.eth e with pause := quanta }
  else s

/-- A frame that is neither RoCE nor PTP goes to the firmware (R451, R452). -/
def Lanorun.mgmtReceive (s : Lanorun) (e : Nat) (frame : List (BitVec 8)) : Lanorun :=
  if s.ethUp e ∧ frame.length ≤ 9216 then
    (s.setEth e { s.eth e with mgmt := (s.eth e).mgmt ++ [frame] }).event F.ETH_EVENT_RX_MGMT e
  else s

/-- An operation fails as if by E2E_GIVEUP: it ends a LOAD (R371) or a ring (R406). -/
def Lanorun.opFails (s : Lanorun) (o : RoceOp) : Lanorun :=
  match o.owner with
  | .chunk op _ _ => s.moverFail op
  | .ring i req => s.ringFail i req

/-- Every pending operation of an entry fails (R453). -/
def Lanorun.qpFlush (s : Lanorun) (e i : Nat) : Lanorun :=
  let ops := (s.qp e i).ops
  ops.foldl Lanorun.opFails (s.setQp e i { s.qp e i with ops := [], tries := 0 })

/-- The entry enters ERROR with ROCE_QP_ERR (R453). -/
def Lanorun.qpError (s : Lanorun) (e i : Nat) : Lanorun :=
  let s := (s.put F.ETH_QP_CTRL_STATE 2 e i).event F.ETH_EVENT_QP_ERR e
  (s.fault 0x0E07 .module e).qpFlush e i

/-- Go-back-N: every pending request packet is sent again. -/
def Lanorun.qpResend (s : Lanorun) (e i : Nat) : Lanorun :=
  let q := s.qp e i
  if q.ops = [] ∨ s.qpState e i ≠ 1 then s
  else if q.tries < s.get F.ETH_CTRL_RETRY e then
    (s.setQp e i { q with tries := q.tries + 1 }).countEvt R.ETH_RETX_CNT q.ops.length e
  else s.qpError e i

/-- An acknowledgement timeout (R453). -/
def Lanorun.ackTimeout (s : Lanorun) (e i : Nat) : Lanorun := if s.frozen then s else s.qpResend e i

/-- PSN a is at or before b, in 24 bits. -/
def psnLe (a b : Nat) : Bool := decide ((b + 2 ^ 24 - a % 2 ^ 24) % 2 ^ 24 < 2 ^ 23)

/-- READ data of a chunk lands in the bank; the granules that are whole are marked (R365, R455). -/
def Lanorun.chunkData (s : Lanorun) (op n c off : Nat) (bs : List (BitVec 8)) : Lanorun :=
  if s.loading ∧ s.mover.op = op ∧ s.mover.fetching.contains (n, c) then
    let s := s.dramWrite (s.shardByte n (c * 2 ^ 20 + off)) bs
    let lo := off / 2048
    let hi := (off + bs.length) / 2048
    forN (fun g s => s.moverMark (s.shardByte n (c * 2 ^ 20 + 2048 * g)) 2048) lo (hi - lo) s
  else s

/-- A response advances an entry's operations, oldest first (R453). -/
def Lanorun.roceResponse (s : Lanorun) (e i : Nat) (r : RoceResponse) : Lanorun :=
  let q := s.qp e i
  if ¬ s.ethUp e ∨ s.frozen ∨ s.qpState e i ≠ 1 then s
  else match r with
    | .ack psn =>
      let gone := q.ops.takeWhile fun o => !o.read && psnLe (o.psn + o.n - 1) psn
      if gone = [] ∨ psnLe (s.get F.ETH_QP_CTRL_PSN_TX e i) psn then s
      else (s.setQp e i { q with ops := q.ops.drop gone.length, tries := 0 }).put F.ETH_QP_KEY_PSN_RX ((psn + 1) % 2 ^ 24) e i
    | .nak _ fatal => if fatal then s.qpError e i else s.qpResend e i
    | .readData psn bs =>
      match q.ops with
      | o :: rest =>
        if ¬ o.read ∨ psn % 2 ^ 24 ≠ (o.psn + o.got) % 2 ^ 24 ∨ psn % 2 ^ 24 ≠ s.get F.ETH_QP_KEY_PSN_RX e i then s
        else
          let mtu := pmtuBytes (s.get F.ETH_QP_CTRL_PMTU e i)
          let off := o.got * mtu
          let o' := { o with got := o.got + 1 }
          let s := (s.setQp e i { q with ops := if o'.got = o.n then rest else o' :: rest, tries := 0 }).put
            F.ETH_QP_KEY_PSN_RX ((psn + 1) % 2 ^ 24) e i
          match o.owner with
          | .chunk op n c => s.chunkData op n c off (bs.take (min mtu (o.len - off)))
          | .ring _ _ => s
      | [] => s

/-- An incoming RoCE request is answered with a NAK for remote access error (R452). -/
def Lanorun.roceRequest (s : Lanorun) (e : Nat) : Lanorun :=
  if s.ethUp e then s.setEth e { s.eth e with naks := (s.eth e).naks + 1 } else s

/-- An ECN-marked packet: one congestion notification at most every 50 µs (R456). -/
def Lanorun.ecnReceive (s : Lanorun) (e i : Nat) : Lanorun :=
  let q := s.qp e i
  let due : Bool := match q.cnpAt with
    | some t => decide (t + 78125 ≤ s.hall.lat)
    | none => true
  if s.ethUp e ∧ due then
    let s := s.setQp e i { q with cnpAt := some s.hall.lat }
    s.setEth e { s.eth e with cnps := (s.eth e).cnps + 1 }
  else s

/-- A congestion notification halves the send rate, to 1 Gb/s at least (R456). -/
def Lanorun.cnpReceive (s : Lanorun) (e i : Nat) : Lanorun :=
  if s.ethUp e then s.setQp e i { s.qp e i with rate := max 1000000000 ((s.qp e i).rate / 2) } else s

/-- 55 µs without a notification raise the rate by an eighth of line rate (R456). -/
def Lanorun.rateRaise (s : Lanorun) (e i : Nat) : Lanorun :=
  s.setQp e i { s.qp e i with rate := min 800000000000 ((s.qp e i).rate + 100000000000) }

/-- A write of ETH_QP_CTRL(i): while STATE ≠ RESET it changes STATE alone; RTS is taken from RESET and RESET from any state;
writing RESET fails the pending operations (R453). -/
def Lanorun.qpCtrlWrite (s : Lanorun) (e i v : Nat) : Lanorun :=
  let st := s.qpState e i
  let w := bitsOf v 63 62
  if w = 0 ∨ w = 3 then
    let s := s.put F.ETH_QP_CTRL_STATE w e i
    let s := if st = 0 then s.setReg R.ETH_QP_CTRL (setBits (setBits (s.reg R.ETH_QP_CTRL e i) 61 53 (bitsOf v 61 53)) 47 0
      (bitsOf v 47 0)) e i else s
    s.qpFlush e i
  else if st = 0 then
    let s := s.setReg R.ETH_QP_CTRL (setBits (setBits (s.reg R.ETH_QP_CTRL e i) 61 53 (bitsOf v 61 53)) 47 0 (bitsOf v 47 0)) e i
    if w = 1 then (s.put F.ETH_QP_CTRL_STATE 1 e i).setQp e i {} else s
  else s

/-- The newest measurements that arrived within 2 s and lie within 50 ns of each other, up to 16 (R457). -/
def validRun (now : Nat) : List (Nat × Int) → Int → Int → Nat
  | [], _, _ => 0
  | (t, o) :: l, lo, hi =>
    let lo := min lo o
    let hi := max hi o
    if now ≤ t + 2000000000000 ∧ hi - lo ≤ 50000 then validRun now l lo hi + 1 else 0

/-- ETH_PTP, ETH_STATUS.PTP_VALID and BLF_STATUS.PTP_VALID follow a port's measurements; BLF_EVENT.PTP_LOST is set where the
latter falls (R457, R66). -/
def Lanorun.ptpJudge (s : Lanorun) (e : Nat) : Lanorun :=
  let ms := (s.eth e).meas
  let n := match ms with
    | (_, o) :: _ => validRun s.nowPs ms o o
    | [] => 0
  let s := s.put F.ETH_PTP_COUNT (min n 16) e
  let ok := decide (16 ≤ n) && s.flag F.ETH_CTRL_PTP_EN e
  let s := if ok ∧ ¬ s.flag F.ETH_STATUS_PTP_VALID e then s.event F.ETH_EVENT_PTP_VALID e else s
  (s.put F.ETH_STATUS_PTP_VALID (if ok then 1 else 0) e).ptpValidNow

/-- One dataset is better than another: smaller at the first difference (R457). -/
def datasetBetter : List Nat → List Nat → Bool
  | a :: l, b :: m => if a = b then datasetBetter l m else decide (a < b)
  | _, _ => false

/-- A measurement: PTP time less the counter, from a complete Sync and a Delay_Resp; OFS follows (R457). -/
def Lanorun.ptpMeasure (s : Lanorun) (e : Nat) (o : Int) : Lanorun :=
  let x := s.eth e
  let s := s.setEth e { x with meas := ((s.nowPs, o) :: x.meas).take 16 }
  let (ns, s) := s.roundDiv (o - (s.get F.BLF_EPOCH_TAI_EPOCH : Int) * 1000000000000) 1000
  let ns := max (-2147483648) (min 2147483647 ns)
  (s.put F.ETH_PTP_OFS (ofSigned 32 ns) e).ptpJudge e

/-- A PTP message of a domain from a master, timestamped on arrival (R457). -/
def Lanorun.ptpReceive (s : Lanorun) (e domain : Nat) (fromMaster : Bool) (m : PtpMessage) (arrival : Int) : Lanorun :=
  let x := s.eth e
  if ¬ s.ethUp e ∨ ¬ s.flag F.ETH_CTRL_PTP_EN e ∨ domain ≠ s.get F.ETH_PTP_DOMAIN e then s
  else match m with
    | .announce d =>
      (match x.master with
       | none => s.setEth e { x with master := some d, sync := none, meas := [] }
       | some b =>
         if fromMaster then s.setEth e { x with master := some d }
         else if datasetBetter d b then s.setEth e { x with master := some d, sync := none, meas := [] } else s)
    | .sync q origin => if fromMaster then s.setEth e { x with sync := some (q, origin, arrival) } else s
    | .followUp q origin =>
      (match x.sync, fromMaster with
       | some (p, none, at_), true => if p = q then s.setEth e { x with sync := some (q, some origin, at_) } else s
       | _, _ => s)
    | .delayResp left received =>
      (match x.sync, fromMaster with
       | some (_, some t1, t2), true =>
         let (o, s) := s.roundDiv ((t1 - t2) + (received - left)) 2
         s.ptpMeasure e o
       | _, _ => s)

/-- A port's PTP time is no longer valid: its measurements are too old or spread too far (R457). -/
def Lanorun.ptpLost (s : Lanorun) (e : Nat) : Lanorun := s.ptpJudge e

/-- The PTP time in ns of the port that the Belfry uses: E0 while it is valid, else E1 (R457). -/
def Lanorun.ptpNow (s : Lanorun) : Nat × Lanorun :=
  let e := if s.flag F.ETH_STATUS_PTP_VALID 0 then 0 else 1
  match (s.eth e).meas with
  | (_, o) :: _ =>
    let (ns, s) := s.roundDiv ((s.nowPs : Int) + o) 1000
    (ns.toNat, s)
  | [] => (0, s)

end Sys2Proof.Machine
end

