-- ==== Sys2Proof/Machine/Keep.lean ====
section
/-! DEFINITION. The Keep: its log, clock and fuses, the flash directory, firmware images, and the boot stages (R483 to R501). -/
namespace Sys2Proof.Machine

def Lanorun.setKeep (s : Lanorun) (f : Keep → Keep) : Lanorun := { s with keep := f s.keep }

/-! ## Clock and log -/

/-- The RTC is observed: its count has moved on since it was last (R486). -/
def Lanorun.rtcNow (s : Lanorun) : Nat × Lanorun :=
  let (n, s) := s.draw
  let t := (s.reg R.KEP_RTC + (Config.rtcElapsed n).toNat) % 2 ^ 64
  (t, s.setReg R.KEP_RTC t)

/-- UNACKED and UNACKED_CNT (R488). -/
def Lanorun.unackedNow (s : Lanorun) : Lanorun :=
  let n := (s.keep.log.filter fun r => r.needs && !r.acked).length
  (s.put F.KEP_STATUS_UNACKED_CNT n).put F.KEP_STATUS_UNACKED (if n = 0 then 0 else 1)

/-- A record enters the log; a full one overwrites the oldest that may be overwritten, else the oldest of all (R489). -/
def Lanorun.logAdd (s : Lanorun) (kind : Nat) (needs : Bool) (data : List (BitVec 8)) : Lanorun :=
  let (t, s) := s.rtcNow
  let t := if s.flag F.KEP_STATUS_RTC_VALID then t else 0
  let log := s.keep.log
  let s := if log.length < 1024 then s
    else match log.find? fun r => !(r.needs && !r.acked) with
      | some r => s.setKeep fun k => { k with log := log.erase r }
      | none => (s.setKeep fun k => { k with log := log.drop 1 }).countErr R.KEP_LOG_LOST
  let q := (s.get F.KEP_LOG_CTRL_HEAD + 1) % 2 ^ 32
  let r : LogRec := { seq := q, kind := kind, src := s.keep.src, needs := needs, time := t, data := data }
  ((s.put F.KEP_LOG_CTRL_HEAD q).setKeep fun k => { k with log := k.log ++ [r] }).unackedNow

/-- The 32 bytes of a record (R489). -/
def LogRec.bytes (r : LogRec) : List (BitVec 8) :=
  leBytes 4 r.seq ++ leBytes 1 r.kind ++ leBytes 1 r.src ++
  leBytes 1 ((if r.needs then 1 else 0) + (if r.acked then 2 else 0)) ++ [0#8] ++ leBytes 8 r.time ++
  (r.data ++ List.replicate 16 0#8).take 16

/-- Doubleword k of the record that KEP_LOG_CTRL.SEL names (KEP_LOG_DATA). -/
def Lanorun.logData (s : Lanorun) (k : Nat) : Nat :=
  match s.keep.log.find? (·.seq = s.get F.KEP_LOG_CTRL_SEL) with
  | some r => fieldAt r.bytes (8 * k) 8
  | none => 0

/-- The cell is measured (R485). -/
def Lanorun.backupCheck (s : Lanorun) (mv : Nat) : Lanorun :=
  if mv < 2600 then
    ((s.put F.KEP_STATUS_BACKUP_LOW 1).keepEvent F.KEP_EVENT_BACKUP_LOW).logAdd 6 false (leBytes 2 mv)
  else s.put F.KEP_STATUS_BACKUP_LOW 0

/-- A write of KEP_RTC (R486). -/
def Lanorun.rtcWrite (s : Lanorun) (v : Nat) : Lanorun :=
  (s.setReg R.KEP_RTC v).put F.KEP_STATUS_RTC_VALID 1

/-- A change of the intrusion loop that held for 10 ms (R487). -/
def Lanorun.intrusion (s : Lanorun) (opened : Bool) : Lanorun :=
  let b := if opened then 1 else 0
  if s.get F.KEP_STATUS_LOOP_OPEN = b then s
  else
    let s := (s.put F.KEP_STATUS_LOOP_OPEN b).logAdd 4 true (leBytes 1 b)
    if s.keep.src = 2 then s.setKeep fun k => { k with late := true } else s.keepEvent F.KEP_EVENT_INTRUSION

/-- KEEP_ACK, mailbox opcode 0x02 (R488). -/
def Lanorun.keepAck (s : Lanorun) : Lanorun :=
  if s.mboxHas 2 then
    let q := s.reg R.HST_MBOX_REQ 0 0 % 2 ^ 32
    let s := (s.setKeep fun k => { k with log := k.log.map fun r =>
      if r.needs ∧ r.seq ≤ q then { r with acked := true } else r }).unackedNow
    (s.setReg R.HST_MBOX_RES (s.get F.KEP_STATUS_UNACKED_CNT) 0 0).mboxPost 0
  else s

/-! ## Flash and directory -/

/-- n bytes of the flash. -/
def Lanorun.flashRead (s : Lanorun) (off n : Nat) : List (BitVec 8) := sgets 0xFF#8 s.keep.flash off n
def Lanorun.flashWrite (s : Lanorun) (off : Nat) (bs : List (BitVec 8)) : Lanorun :=
  s.setKeep fun k => { k with flash := ssets 0xFF#8 k.flash off bs }

/-- Where slot A and slot B begin in the flash (R493). -/
def slotBase (i : Nat) : Nat := if i = 0 then 0x100000 else 0x2000000

/-- A directory copy, where it is valid (R494). -/
def Lanorun.dirCopy (s : Lanorun) (i : Nat) : Option Dir :=
  let b := s.flashRead (0x10000 * i) 64
  if fieldAt b 0 4 = 0x44464E4C ∧ fieldAt b 0x3C 4 = crc32c (b.take 0x3C) then
    some { dseq := fieldAt b 4 4, active := fieldAt b 8 1, stateA := fieldAt b 9 1, stateB := fieldAt b 0xA 1,
           attempts := fieldAt b 0xB 1, verA := fieldAt b 0x10 8, verB := fieldAt b 0x18 8 }
  else none

/-- The directory in force and its copy; with no valid copy both slots are EMPTY (R494). -/
def Lanorun.dir (s : Lanorun) : Dir × Nat :=
  match s.dirCopy 0, s.dirCopy 1 with
  | some a, some b => if b.dseq ≤ a.dseq then (a, 0) else (b, 1)
  | some a, none => (a, 0)
  | none, some b => (b, 1)
  | none, none => ({ dseq := 0, active := 0, stateA := 0, stateB := 0, attempts := 0, verA := 0, verB := 0 }, 1)

/-- The 64 bytes of a directory record (R494). -/
def Dir.bytes (d : Dir) : List (BitVec 8) :=
  let b := leBytes 4 0x44464E4C ++ leBytes 4 d.dseq ++ leBytes 1 d.active ++ leBytes 1 d.stateA ++ leBytes 1 d.stateB ++
    leBytes 1 d.attempts ++ leBytes 4 0 ++ leBytes 8 d.verA ++ leBytes 8 d.verB ++ leBytes 28 0
  b ++ leBytes 4 (crc32c b)

def Dir.state (d : Dir) (i : Nat) : Nat := if i = 0 then d.stateA else d.stateB
def Dir.version (d : Dir) (i : Nat) : Nat := if i = 0 then d.verA else d.verB
def Dir.setState (d : Dir) (i st : Nat) : Dir := if i = 0 then { d with stateA := st } else { d with stateB := st }
def Dir.setVersion (d : Dir) (i v : Nat) : Dir := if i = 0 then { d with verA := v } else { d with verB := v }
/-- ATTEMPTS of a slot: the directory keeps the active slot's. -/
def Dir.tries (d : Dir) (i : Nat) : Nat := if i = d.active then d.attempts else 0

/-- KEP_SLOT_STAT and KEP_SLOT_VER as the directory and the slots' manifests give them. -/
def Lanorun.slotRegs (s : Lanorun) : Lanorun :=
  let d := s.dir.1
  forN (fun i (s : Lanorun) =>
    let m := s.flashRead (slotBase i) 16
    let st := d.state i
    let s := ((s.put F.KEP_SLOT_STAT_STATE st 0 i).put F.KEP_SLOT_STAT_ATTEMPTS (if st = 2 then d.tries i else 0) 0 i).put
      F.KEP_SLOT_STAT_COUNTER (if st = 0 then 0 else fieldAt m 0xC 1) 0 i
    (s.put F.KEP_SLOT_STAT_SVN (if st = 0 then 0 else fieldAt m 0xD 1) 0 i).setReg R.KEP_SLOT_VER (d.version i) 0 i) 0 2 s

/-- An update of the directory: a record with DSEQ + 1 in the other copy (R494). -/
def Lanorun.setDir (s : Lanorun) (d : Dir) : Lanorun :=
  let (old, i) := s.dir
  (s.flashWrite (0x10000 * (1 - i)) { d with dseq := (old.dseq + 1) % 2 ^ 32 }.bytes).slotRegs

/-! ## Firmware images -/

/-- Bytes of the image that R496 checks, by offset and length. -/
abbrev Reader := Nat → Nat → List (BitVec 8)

def zeros (bs : List (BitVec 8)) : Bool := bs.all (· == 0#8)
def fwBlocks (rd : Reader) : Nat := fieldAt (rd 0x28 4) 0 4

/-- Check 1: the format (R495, R496). -/
def fwFormat (rd : Reader) (len : Nat) : Bool :=
  let m := rd 0 0x1000
  let n := fwBlocks rd
  let bs := fieldAt m 0x2C 4
  let bb := fieldAt m 0x30 4
  fieldAt m 0 4 == 0x57464E4C && fieldAt m 4 2 == 1 && decide (2 ≤ n) && decide (n ≤ 495) && decide ((n + 1) * 65536 ≤ len) &&
  bs % 4 == 0 && decide (4 ≤ bb) && decide (bb ≤ 65536) && decide (bs + bb ≤ n * 65536) &&
  decide (fieldAt m 0xC 1 ≤ 3) && decide (fieldAt m 0xD 1 ≤ 128) && decide (fieldAt m 0xE 1 ≤ 3) &&
  decide (fieldAt m 0xF 1 < 16) && !(fieldAt m 0xF 1).testBit (fieldAt m 0xE 1) &&
  zeros ((m.drop 0x34).take 4) && zeros ((m.drop 0x68).take 152) && zeros ((m.drop (0x100 + 4 * n)).take (0xF00 - 0x100 - 4 * n)) &&
  zeros ((m.drop 0xF61).take 63) && zeros (rd 0x1000 0xF000)

/-- Check 2: the target. -/
def Lanorun.fwTarget (s : Lanorun) (rd : Reader) : Bool :=
  let m := rd 0 0x1000
  let uid := fieldAt m 0x18 16
  fieldAt m 8 2 == 1 && (fieldAt m 0xA 1).testBit (if s.get F.MOD_IDENT_GRADE = 0x0A then 0 else 1) &&
  decide (fieldAt m 0xB 1 ≤ s.get F.MOD_IDENT_STEPPING) &&
  (uid == 0 || uid == s.get F.KEP_UNIT_ID + s.get F.KEP_UNIT_ID 0 1 * 2 ^ 64)

/-- Check 3: the key and the signature. -/
def Lanorun.fwSigned (s : Lanorun) (rd : Reader) : Bool :=
  let k := fieldAt (rd 0xE 1) 0 1
  Config.sha384 (rd 0xF00 97) == Config.rootHash k && !(s.get F.KEP_FUSE_REVOKE).testBit k &&
  Config.ecdsaOk (rd 0xF00 97) (rd 0 0xFA0) (rd 0xFA0 96)

/-- Rollback counter c. -/
def Lanorun.rollback (s : Lanorun) (c : Nat) : Nat := s.reg R.KEP_FUSE / 2 ^ (8 * c) % 2 ^ 8

/-- The CRC of payload block n matches. -/
def fwBlockOk (rd : Reader) (n : Nat) : Bool := fieldAt (rd (0x100 + 4 * (n - 1)) 4) 0 4 == crc32c (rd (65536 * n) 65536)

/-- Checks 1 to 4 of R496: the code of the first that fails, 0 for none. -/
def Lanorun.fwHead (s : Lanorun) (rd : Reader) (len : Nat) : Nat :=
  if ¬ fwFormat rd len then 0x1001
  else if ¬ s.fwTarget rd then 0x1002
  else if ¬ s.fwSigned rd then 0x1003
  else if fieldAt (rd 0xD 1) 0 1 < s.rollback (fieldAt (rd 0xC 1) 0 1) then 0x1004
  else 0

/-- Checks 1 to 5 of R496. -/
def Lanorun.fwCheck (s : Lanorun) (rd : Reader) (len : Nat) : Nat :=
  match s.fwHead rd len with
  | 0 =>
    let n := fwBlocks rd
    if ((List.range n).all fun i => fwBlockOk rd (i + 1)) ∧ Config.sha384 (rd 65536 (65536 * n)) = rd 0x38 48 then 0 else 0x1005
  | c => c

/-- The image in a slot. -/
def Lanorun.slotReader (s : Lanorun) (i : Nat) : Reader := fun o n => s.flashRead (slotBase i + o) n

/-! ## Boot -/

/-- Steward i: blocks 0 to 79, head stewards 80 to 83. -/
def Lanorun.steward (s : Lanorun) (i : Nat) : Steward := sget {} s.stewards i
def Lanorun.setSteward (s : Lanorun) (i : Nat) (x : Steward) : Lanorun := { s with stewards := sset {} s.stewards i x }

/-- Stage K, at PD111 power good: retention, the cell, POWER_ON, the boot ROM in HS0 (R485, R486, R490). -/
def Lanorun.stageK (s : Lanorun) (mv : Nat) (retained : Bool) : Lanorun :=
  if s.get F.KEP_STATUS_STAGE ≠ 0 ∨ ¬ s.site.powered then s
  else
    let s := s.setKeep fun k => { k with src := 0 }
    let s := if retained then s
      else
        let s := (s.setKeep fun k => { k with log := [] }).put F.KEP_LOG_CTRL_HEAD 0
        ((s.put F.KEP_STATUS_RTC_VALID 0).logAdd 5 true []).keepEvent F.KEP_EVENT_RTC_LOST
    let (n, s) := s.draw
    let s := s.logAdd 1 false [if retained then BitVec.ofNat 8 s.keep.lastStage else Config.freeByte n]
    let s := s.backupCheck mv
    let s := s.setSteward 80 { reset := false, isram := ssets 0#8 [] 0 (Config.bootRom.take 16384) }
    let s := s.put F.KEP_STATUS_STAGE 1
    if s.keep.late then (s.setKeep fun k => { k with late := false }).keepEvent F.KEP_EVENT_INTRUSION else s

/-- A slot is abandoned (R491). -/
def Lanorun.fwFallback (s : Lanorun) (d : Dir) (i code : Nat) : Lanorun × Dir :=
  let s := (s.logAdd 9 false (leBytes 2 i ++ leBytes 2 code)).keepEvent F.KEP_EVENT_FW_FALLBACK
  (s.put F.KEP_SLOT_STAT_CODE code 0 i, d.setState i 4)

/-- The slot that the boot ROM boots, trying the slots in order (R491). -/
def Lanorun.selectSlot (d0 : Dir) : List Nat → Lanorun × Dir → (Lanorun × Dir) × Option Nat
  | [], x => (x, none)
  | i :: rest, (s, d) =>
    if d.state i = 2 ∧ 1 ≤ d0.tries i then Lanorun.selectSlot d0 rest (s.fwFallback d i 0)
    else if d.state i ≠ 2 ∧ d.state i ≠ 3 then Lanorun.selectSlot d0 rest (s, d)
    else match s.fwCheck (s.slotReader i) 0x1F00000 with
      | 0 => ((s, { d with active := i, attempts := if d.state i = 2 then d0.tries i + 1 else d0.tries i }), some i)
      | code => Lanorun.selectSlot d0 rest (s.fwFallback d i code)

/-- Head stewards get the running image's instruction and data images and start (R490). -/
def Lanorun.bootHeads (s : Lanorun) (i : Nat) : Lanorun :=
  let rd := s.slotReader i
  forN (fun k (s : Lanorun) => s.setSteward (80 + k)
    { reset := false, isram := ssets 0#8 [] 0 (rd 65536 65536), dsram := ssets 0#8 [] 0 (rd 131072 65536) }) 0 4 s

/-- The block-steward image of the running firmware (R490, R495). -/
def Lanorun.blockImage (s : Lanorun) : List (BitVec 8) :=
  let rd := s.slotReader (s.get F.KEP_STATUS_SLOT)
  rd (65536 + fieldAt (rd 0x2C 4) 0 4) (fieldAt (rd 0x30 4) 0 4)

/-- Block stewards whose domain has come on get the running firmware's image (R490). -/
def Lanorun.loadBlocks (s old : Lanorun) : Lanorun :=
  if s.get F.KEP_STATUS_STAGE = 2 ∨ s.get F.KEP_STATUS_STAGE = 3 then
    forN (fun b (s : Lanorun) => if s.isOn b ∧ ¬ old.isOn b then
      s.setSteward b { s.steward b with isram := ssets 0#8 [] 0 s.blockImage } else s) 0 80 s
  else s

/-- Stage ROM (R458, R491, R492). -/
def Lanorun.stageRom (s : Lanorun) : Lanorun :=
  if s.get F.KEP_STATUS_STAGE ≠ 1 then s
  else
    let s := (s.put F.PWR_CLKEN_EN (s.get F.PWR_CLKEN_EN ||| 0xC)).put F.MOD_SVC_LINK_UP 1
    let d := s.dir.1
    let ((s, d'), slot) := Lanorun.selectSlot d [d.active, 1 - d.active] (s, d)
    let s := if d' = d then s.slotRegs else s.setDir d'
    match slot with
    | some i =>
      let trial := d'.state i = 2
      let s := ((s.put F.KEP_STATUS_SLOT i).put F.KEP_STATUS_TRIAL (if trial then 1 else 0)).put F.KEP_STATUS_PENDING_TRIAL 0
      (s.bootHeads i).put F.KEP_STATUS_STAGE 2
    | none => (s.put F.KEP_STATUS_STAGE 4).pdQueue 0 (s.switchesOn [96])

/-- Stage HEAD: PD96 to PD99 are switched on (R490). -/
def Lanorun.stageHead (s : Lanorun) : Lanorun :=
  if s.get F.KEP_STATUS_STAGE ≠ 2 then s else s.pdQueue 0 (s.switchesOn [96, 97, 98, 99])

/-- Stage READY, once the vaults are READY (R490). -/
def Lanorun.stageReady (s : Lanorun) : Lanorun :=
  if s.get F.KEP_STATUS_STAGE = 2 ∧ (List.range 4).all s.vaultReady then s.put F.KEP_STATUS_STAGE 3 else s

/-- The module resets: what the Keep and the flash hold stays, and the boot begins again (R498, R500). -/
def Lanorun.moduleReset (s : Lanorun) : Lanorun :=
  let keep := { s.keep with commit := none, got := [], mdigest := [], offerer := 0, hops := [] }
  let r := { Lanorun.reset with freeCtr := s.freeCtr, keep := keep, host := { mem := s.host.mem } }
  let r := ((r.setReg R.KEP_RTC (s.reg R.KEP_RTC)).setReg R.KEP_FUSE (s.reg R.KEP_FUSE)).setReg R.KEP_LOG_LOST (s.reg R.KEP_LOG_LOST)
  let r := (r.put F.KEP_LOG_CTRL_HEAD (s.get F.KEP_LOG_CTRL_HEAD)).put F.KEP_STATUS_RTC_VALID (s.get F.KEP_STATUS_RTC_VALID)
  (r.put F.KEP_STATUS_LOOP_OPEN (s.get F.KEP_STATUS_LOOP_OPEN)).unackedNow

/-- CONFIRM of a running TRIAL image: GOOD, and the fuses that its manifest names (R499 to R501). -/
def Lanorun.fwConfirm (s : Lanorun) : Lanorun :=
  if s.flag F.KEP_STATUS_TRIAL = false then s
  else
    let i := s.get F.KEP_STATUS_SLOT
    let rd := s.slotReader i
    let d := s.dir.1
    let c := fieldAt (rd 0xC 1) 0 1
    let svn := fieldAt (rd 0xD 1) 0 1
    let rev := fieldAt (rd 0xF 1) 0 1 % 16
    let s := (s.setDir ({ d with attempts := 0 }.setState i 3)).put F.KEP_STATUS_TRIAL 0
    let s := s.logAdd 8 false (leBytes 8 i ++ leBytes 8 (d.version i))
    let v := max svn (s.rollback c)
    let s := (s.setReg R.KEP_FUSE (setBits (s.reg R.KEP_FUSE) (8 * c + 7) (8 * c) v)).put F.KEP_FUSE_REVOKE (s.get F.KEP_FUSE_REVOKE ||| rev)
    s.logAdd 10 false (leBytes 1 c ++ leBytes 1 v ++ leBytes 1 rev)

/-- CONFIRM_S seconds have passed without a confirmation (R500). -/
def Lanorun.confirmTimeout (s : Lanorun) : Lanorun := if s.flag F.KEP_STATUS_TRIAL then s.moduleReset else s

/-- FW_ACTIVATE: its CODE, and whether the module resets (R492, R498, R499). -/
def Lanorun.fwActivate (s : Lanorun) (reboot : Bool) : Nat × Lanorun :=
  let d := s.dir.1
  let i := 1 - d.active
  if d.state d.active = 2 then (1, s)
  else if d.state i ≠ 1 then (4, s)
  else if reboot ∧ s.planActive then (3, s)
  else
    let s := s.setDir ({ d with active := i, attempts := 0 }.setState i 2)
    (0, (s.put F.KEP_STATUS_PENDING_TRIAL 1).logAdd 7 false (leBytes 8 i ++ leBytes 8 (d.version i)))

/-- Whether FW_ACTIVATE resets the module: with REBOOT, and in RECOVERY always (R492, R498). -/
def Lanorun.rebootAfter (s : Lanorun) (reboot : Bool) (code : Nat) : Bool :=
  code == 0 && (reboot || s.get F.KEP_STATUS_STAGE == 4)

end Sys2Proof.Machine
end

