-- ==== Sys2Proof/Machine/Mailbox.lean ====
section
/-! DEFINITION. Block mailboxes, watchdogs, and the reset and halt of stewards (R256 to R258, R523, R524). -/
namespace Sys2Proof.Machine

/-- Who writes a block's mailbox: HEAD is 1, BLOCK is 2 (BLK_MBOX_CTRL). -/
def side (head : Bool) : Nat := if head then 1 else 2

def Lanorun.mboxOwner (s : Lanorun) (n : Nat) : Nat := s.get F.BLK_MBOX_CTRL_OWNER n

/-- A mailbox gets an owner; its bit of MOD_MBOX_PEND is 1 while HEAD owns it after an odd number of HANDs (R256). -/
def Lanorun.mboxSet (s : Lanorun) (n owner : Nat) (handed : Bool) : Lanorun :=
  let s := (s.put F.BLK_MBOX_CTRL_OWNER owner n).setSteward n { s.steward n with handed := handed }
  let w := s.reg R.MOD_MBOX_PEND 0 (n / 64)
  s.setReg R.MOD_MBOX_PEND (setBits w (n % 64) (n % 64) (if owner = 1 ∧ handed then 1 else 0)) 0 (n / 64)

/-- ACQUIRE of a FREE mailbox (R256). -/
def Lanorun.mboxAcquire (s : Lanorun) (n : Nat) (head : Bool) : Lanorun :=
  if s.isOn n ∧ s.mboxOwner n = 0 then s.mboxSet n (side head) false else s

/-- HAND by the owner (R256). -/
def Lanorun.mboxHand (s : Lanorun) (n : Nat) (head : Bool) : Lanorun :=
  if s.isOn n ∧ s.mboxOwner n = side head then
    (s.put F.BLK_MBOX_CTRL_SEQ (s.get F.BLK_MBOX_CTRL_SEQ n + 1) n).mboxSet n (side !head) !(s.steward n).handed
  else s

/-- RELEASE by the owner (R256). -/
def Lanorun.mboxRelease (s : Lanorun) (n : Nat) (head : Bool) : Lanorun :=
  if s.isOn n ∧ s.mboxOwner n = side head then s.mboxSet n 0 (s.steward n).handed else s

/-- A write to BLK_MBOX_DATA, by the owner alone (R256). -/
def Lanorun.mboxData (s : Lanorun) (n : Nat) (head : Bool) (k v : Nat) : Lanorun :=
  if s.isOn n ∧ s.mboxOwner n = side head then s.setReg R.BLK_MBOX_DATA v n k else s

/-- KICK of a block steward's watchdog (R257). -/
def Lanorun.wdogKick (s : Lanorun) (n : Nat) : Lanorun :=
  if s.isOn n then
    (s.put F.BLK_STW_WDOG_EXPIRED 0 n).setSteward n { s.steward n with wdog := s.frame }
  else s

/-- A limit in µs can have been reached by a count that began in a hall frame: a frame lasts 4 µs. -/
def Lanorun.limitReached (s : Lanorun) (lim began : Nat) : Bool := lim != 0 && decide (lim ≤ 4 * (s.frame + 1 - began))

/-- A block steward's watchdog reaches its limit; a RUNNING tenancy of the block faults (R257). -/
def Lanorun.wdogExpire (s : Lanorun) (n : Nat) : Lanorun :=
  if s.isOn n ∧ s.flag F.BLK_STW_WDOG_EXPIRED n = false ∧ s.limitReached (s.get F.BLK_STW_WDOG_LIMIT n) (s.steward n).wdog then
    let s := s.put F.BLK_STW_WDOG_EXPIRED 1 n
    match s.activeImage.bind fun im => im.tenOfBlock n with
    | some t => if s.tenState t = tenRunning then (s.fault 0x0810 .block n).partitionFault t else s
    | none => s
  else s

/-- What a reset does to a core: registers and CSRs at reset, held; the SRAMs keep their contents (R258). -/
def Steward.inReset (x : Steward) : Steward := { isram := x.isram, dsram := x.dsram, reset := true, handed := x.handed }

/-- The reset of block steward n, with its mailbox and watchdog (R258). -/
def Lanorun.resetBlock (s : Lanorun) (n : Nat) : Lanorun :=
  let s := (s.setSteward n { (s.steward n).inReset with wdog := s.frame }).put F.BLK_STW_CTRL_STATE 2 n
  let s := s.put F.BLK_STW_WDOG_EXPIRED 0 n
  if s.mboxOwner n = 2 then (s.mboxSet n 0 (s.steward n).handed).put F.BLK_MBOX_CTRL_LOST 1 n else s

/-- RESET = 1 by a head steward (R258). -/
def Lanorun.stewardReset (s : Lanorun) (n : Nat) : Lanorun := if s.isOn n then s.resetBlock n else s

/-- A steward starts at its reset vector (R258). -/
def Lanorun.stewardStart (s : Lanorun) (i : Nat) : Lanorun :=
  let s := s.setSteward i { s.steward i with reset := false }
  if i < 80 then s.put F.BLK_STW_CTRL_STATE 0 i else s

/-- HALT written by a head steward: 1 holds the steward in reset, and 0 lets it start (R258). -/
def Lanorun.stewardHalt (s : Lanorun) (n : Nat) (on : Bool) : Lanorun :=
  if ¬ s.isOn n then s
  else
    let was := s.flag F.BLK_STW_CTRL_HALT n
    let s := s.put F.BLK_STW_CTRL_HALT (if on then 1 else 0) n
    if on ∧ ¬ was then s.resetBlock n else if was ∧ ¬ on then s.stewardStart n else s

/-- The 64 cycles of a reset are over (R258); head stewards are not held before HS0 to HS3 are released (R490). -/
def Lanorun.stewardRelease (s : Lanorun) (i : Nat) : Lanorun :=
  if i < 80 then
    (if s.isOn i ∧ (s.steward i).reset ∧ s.flag F.BLK_STW_CTRL_HALT i = false then s.stewardStart i else s)
  else if (s.steward i).reset ∧ (2 ≤ s.get F.KEP_STATUS_STAGE ∨ (i = 80 ∧ 1 ≤ s.get F.KEP_STATUS_STAGE)) then s.stewardStart i
  else s

/-! ## Head stewards -/

/-- KICK of a head steward's watchdog (R523). -/
def Lanorun.hsKick (s : Lanorun) (k : Nat) : Lanorun :=
  (s.put F.DBG_HS_EXPIRED 0 0 k).setSteward (80 + k) { s.steward (80 + k) with wdog := s.frame }

/-- The reset of one head steward; a LOAD that it ran ends as ABORT leaves it (R523, R524). -/
def Lanorun.resetHead (s : Lanorun) (loads : Bool) (k : Nat) : Lanorun :=
  let s := (s.setSteward (80 + k) { (s.steward (80 + k)).inReset with wdog := s.frame }).put F.DBG_HS_EXPIRED 0 0 k
  match s.loadNow with
  | some l => if loads then ((s.setPlan fun p' => { p' with load := none })).slotClear l.slot else s
  | none => s

/-- A head steward's watchdog reaches its limit; when all four have, all four reset (R523). -/
def Lanorun.hsHang (s : Lanorun) (k : Nat) : Lanorun :=
  if s.flag F.DBG_HS_EXPIRED 0 k = false ∧ s.limitReached (s.get F.DBG_HS_LIMIT 0 k) (s.steward (80 + k)).wdog then
    let s := ((s.put F.DBG_HS_EXPIRED 1 0 k).event F.DBG_EVENT_HS_HANG).fault 0x1105 .module 0
    if (List.range 4).all fun j => s.flag F.DBG_HS_EXPIRED 0 j then forN (fun j (s : Lanorun) => s.resetHead true j) 0 4 s else s
  else s

/-- RESET of HSk by another head steward, the host or JTAG (R523). -/
def Lanorun.hsReset (s : Lanorun) (who : Requester) (loads : Bool) (k : Nat) : Lanorun :=
  match who with
  | .head j => if j = k then s else s.resetHead loads k
  | .block _ => s
  | _ => s.resetHead loads k

end Sys2Proof.Machine
end

