-- ==== Sys2Proof/Machine/StewardCsr.lean ====
section
/-! DEFINITION. The CSRs of a steward and its interrupts (R253, R255), with the machine-mode CSRs that the RISC-V privileged
specification requires (R249; notes/assumptions has the choices). -/
namespace Sys2Proof.Machine

/-! ## Interrupt sources -/

/-- An event bit that its enable lets through: n bits of an event register against an enable field. -/
def Lanorun.enabled (s : Lanorun) (ev : Reg) (en : Fld) (u : Nat := 0) : Bool :=
  s.reg ev u &&& s.get en u % 2 ^ (en.hi - en.lo + 1) != 0

/-- Entries wait in a control ring (R245). -/
def Lanorun.cringFilled (s : Lanorun) (k : Nat) : Bool := s.get F.VLT_CRING_PROD 0 k != s.get F.VLT_CRING_CONS 0 k

/-- The sources of a block steward (R255). -/
def Lanorun.blockSource (s : Lanorun) (n k : Nat) : Bool :=
  if k ≤ 16 then
    let c := 17 * n + k
    s.enabled R.CEL_EVENT F.CEL_CTRL_EVENT_EN c || s.enabled R.CEL_MTX_EVENT F.CEL_MTX_CTRL_EVENT_EN c ||
    s.enabled R.CEL_VEC_EVENT F.CEL_VEC_CTRL_EVENT_EN c
  else if k = 17 then s.mboxOwner n == 2
  else if k = 18 then (s.steward n).opened
  else if k = 19 then (s.steward n).changed
  else false

/-- The sources of the head stewards (R255, R355, R381, R433, R565). -/
def Lanorun.headSource (s : Lanorun) (k : Nat) : Bool :=
  if k = 0 then s.enabled R.BLF_EVENT F.BLF_CTRL_EVENT_EN
  else if k = 1 then s.enabled R.PLN_EVENT F.PLN_CTRL_EVENT_EN
  else if k = 2 then (List.range 8).any fun v => s.enabled R.VLT_EVENT F.VLT_CTRL_EVENT_EN v
  else if k = 3 then s.cringFilled 0
  else if k = 4 then s.cringFilled 1
  else if k = 5 then s.reg R.MOD_MBOX_PEND 0 0 != 0 || s.reg R.MOD_MBOX_PEND 0 1 != 0
  else if k = 6 then (List.range 80).any fun n => s.flag F.BLK_STW_WDOG_EXPIRED n
  else if k = 7 then s.enabled R.HST_EVENT F.HST_CTRL_EVENT_EN
  else if k = 8 then (List.range 18).any fun p => s.enabled R.LNK_EVENT F.LNK_CTRL_EVENT_EN p
  else if k = 9 then s.enabled R.DBG_EVENT F.DBG_CTRL_EVENT_EN || s.enabled R.MOD_NI_EVENT F.MOD_NI_CTRL_EVENT_EN ||
    s.enabled R.MOD_WGT_EVENT F.MOD_WGT_CTRL_EVENT_EN || s.enabled R.MOD_DET_EVENT F.MOD_DET_CTRL_EVENT_EN ||
    s.reg R.MOD_PINS / 2 ^ 24 &&& s.get F.MOD_PINS_EVENT_EN % 2 ^ 7 != 0
  else if k = 10 then s.enabled R.PWR_EVENT F.PWR_CTRL_EVENT_EN
  else if k = 11 then s.enabled R.KEP_EVENT F.KEP_CTRL_EVENT_EN
  else if k = 12 then s.enabled R.TLR_EVENT F.TLR_CTRL_EVENT_EN
  else if k = 13 then (List.range 2).any fun e => s.enabled R.ETH_EVENT F.ETH_CTRL_EVENT_EN e
  else false

/-- virqpend of steward i. -/
def Lanorun.virqpend (s : Lanorun) (i : Nat) : Nat :=
  (List.range 20).foldl (fun w k => if (if i < 80 then s.blockSource i k else s.headSource k) then w + 2 ^ k else w) 0

/-! ## CSRs -/

/-- The reset value of a CSR: vtimecmp all ones; mstatus with MPP machine mode; misa RV64IMAC; zero elsewhere. -/
def csrReset (n : Nat) : Nat :=
  if n = 0x7C0 then 2 ^ 64 - 1 else if n = 0x300 then 0x1800 else if n = 0x301 then 2 ^ 63 + 0x1105 else 0

/-- A CSR that holds what was written to it. -/
def Steward.csr (x : Steward) (n : Nat) : Nat := (sget (BitVec.ofNat 64 (csrReset n)) x.csrs n).toNat
def Steward.setCsr (x : Steward) (n v : Nat) : Steward :=
  { x with csrs := sset (BitVec.ofNat 64 (csrReset n)) x.csrs n (BitVec.ofNat 64 v) }

/-- The hart number: n for BS n and 0x80 + k for HSk. -/
def hartId (i : Nat) : Nat := if i < 80 then i else 0x80 + (i - 80)

/-- mip: MEIP, MTIP and MSIP, which always reads 0 (R253). -/
def Lanorun.mip (s : Lanorun) (i : Nat) : Nat :=
  let x := s.steward i
  (if s.virqpend i &&& x.csr 0x7C1 ≠ 0 then 2 ^ 11 else 0) + (if x.csr 0x7C0 ≤ s.ticks then 2 ^ 7 else 0)

/-- What a read of CSR n returns; none where the core has no such CSR. -/
def Lanorun.csrRead (s : Lanorun) (i n : Nat) : Option Nat :=
  let x := s.steward i
  if n = 0xF14 then some (hartId i)
  else if n = 0xC01 then some (s.ticks % 2 ^ 64)
  else if n = 0x7C2 then some (s.virqpend i)
  else if n = 0x344 then some (s.mip i)
  else if n = 0xF11 ∨ n = 0xF12 ∨ n = 0xF13 then some (Config.coreId n).toNat
  else if n = 0xF15 ∨ n = 0x7C8 then some 0
  else if [0x300, 0x301, 0x304, 0x305, 0x320, 0x340, 0x341, 0x342, 0x343, 0x7C0, 0x7C1, 0x7C4, 0x7C5, 0x7C6, 0x7C7, 0xB00,
    0xB02].contains n then some (x.csr n)
  else if (0xB03 ≤ n ∧ n ≤ 0xB1F) ∨ (0x323 ≤ n ∧ n ≤ 0x33F) then some 0
  else none

/-- The value that a CSR holds after a write: fields that the core does not have keep theirs. -/
def csrLegal (n old v : Nat) : Nat :=
  if n = 0x300 then 0x1800 + v % 16 / 8 * 8 + v % 256 / 128 * 128
  else if n = 0x301 then old
  else if n = 0x304 then v % 4096 / 2048 * 2048 + v % 256 / 128 * 128 + v % 16 / 8 * 8
  else if n = 0x305 then (if v % 4 ≤ 1 then v else v / 4 * 4 + old % 4)
  else if n = 0x320 then v % 8 / 4 * 4 + v % 2
  else if n = 0x341 then v / 2 * 2
  else v

/-- A write of CSR n by its own steward, beyond vwidego: read-only and absent ones stay as they are. -/
def Lanorun.csrWrite (s : Lanorun) (i n v : Nat) : Lanorun :=
  let x := s.steward i
  if [0x300, 0x301, 0x304, 0x305, 0x320, 0x340, 0x341, 0x342, 0x343, 0x7C0, 0x7C1, 0x7C4, 0x7C5, 0x7C6, 0x7C7, 0xB00,
    0xB02].contains n then s.setSteward i (x.setCsr n (csrLegal n (x.csr n) (v % 2 ^ 64)))
  else s

/-! ## Traps -/

/-- A trap: mepc, mcause and mtval are written, MIE moves to MPIE and is cleared, and the pc goes to mtvec, vectored for an
interrupt in mode 1. -/
def Steward.trap (x : Steward) (irq : Bool) (cause tval : Nat) : Steward :=
  let st := x.csr 0x300
  let v := x.csr 0x305
  let y := (((x.setCsr 0x341 x.pc).setCsr 0x342 (cause + if irq then 2 ^ 63 else 0)).setCsr 0x343 tval).setCsr 0x300
    (0x1800 + st % 16 / 8 * 128)
  { y with pc := (v / 4 * 4 + if irq ∧ v % 4 = 1 then 4 * cause else 0) % 2 ^ 64, wfi := false }

/-- MRET. -/
def Steward.mret (x : Steward) : Steward :=
  let st := x.csr 0x300
  { x.setCsr 0x300 (0x1800 + 128 + st % 256 / 128 * 8) with pc := x.csr 0x341 }

/-- BLK_STW_CTRL.STATE of a block steward: 0 running, 1 in WFI. -/
def Lanorun.stwShow (s : Lanorun) (i : Nat) : Lanorun :=
  if i < 80 then s.put F.BLK_STW_CTRL_STATE (if (s.steward i).wfi then 1 else 0) i else s

/-- An exception of steward i with its cause and the value for mtval. -/
def Lanorun.stwTrap (s : Lanorun) (i cause tval : Nat) : Lanorun :=
  (s.setSteward i ((s.steward i).trap false cause (if Config.trapValue then tval % 2 ^ 64 else 0))).stwShow i

/-- A steward issues instructions: it is powered, out of reset, and not a block steward of a frozen module (R258, R532). -/
def Lanorun.stwRuns (s : Lanorun) (i : Nat) : Bool :=
  !(s.steward i).reset && s.site.powered && (if i < 80 then s.isOn i && !s.frozen else true)

/-- The enabled interrupts of steward i that are pending. -/
def Lanorun.stwPending (s : Lanorun) (i : Nat) : Nat := s.mip i &&& (s.steward i).csr 0x304

/-- A pending enabled interrupt is taken while mstatus.MIE is 1, the external before the timer (R253, R255). -/
def Lanorun.stwInterrupt (s : Lanorun) (i : Nat) : Lanorun :=
  let x := s.steward i
  let p := s.stwPending i
  if s.stwRuns i = false ∨ (x.csr 0x300).testBit 3 = false ∨ p = 0 then s
  else (s.setSteward i (x.trap true (if p.testBit 11 then 11 else 7) 0)).stwShow i

/-- Hall time reaches vtimecmp within the present frame: MTIP is 1 (R253). -/
def Lanorun.stwTimer (s : Lanorun) (i : Nat) : Lanorun :=
  let t := (s.steward i).csr 0x7C0
  if t / 4000 = s.frame then (s.setHall fun h' => { h' with lat := max s.hall.lat (latOf t) }) else s

end Sys2Proof.Machine
end

