-- ==== Sys2Proof/Machine/Readback.lean ====
section
/-! DEFINITION. The readback window and the capture engine (R537 to R539). -/
namespace Sys2Proof.Machine

/-! ## The window -/

/-- A steward's number from its readback unit: 0 to 79, and 0x80 to 0x83 (R537). -/
def stwOfUnit (u : Nat) : Nat := if u < 80 then u else 80 + (u - 0x80)

/-- The class and unit exist, and the unit's domain is ON (R537). -/
def Lanorun.rbExists (s : Lanorun) (cls u : Nat) : Bool :=
  if 1 ≤ cls ∧ cls ≤ 5 then decide (u < 1360) && s.isOn (u / 17) && !s.cellFused u
  else if cls = 6 then (decide (u < 80) && s.isOn u) || (decide (0x80 ≤ u) && decide (u ≤ 0x83))
  else if cls = 7 then decide (u < 256) && s.isOn (96 + u / 32)
  else if cls = 8 then decide (u < 18) && s.isOn (blkDomain .lnk u)
  else if cls = 9 then decide (u < 80) && s.isOn u
  else if 10 ≤ cls ∧ cls ≤ 15 then decide (u = 0) && s.isOn (if cls = 12 ∨ cls = 14 then 110 else 111)
  else false

/-- The unit counts as stopped for its class, or the class never needs it (R537). -/
def Lanorun.rbStopped (s : Lanorun) (cls u : Nat) : Bool :=
  s.flag F.DBG_STATUS_FROZEN ||
  (if 1 ≤ cls ∧ cls ≤ 4 then [0, 2, 3, 4].contains (s.cell u).st
   else if cls = 6 then (s.steward (stwOfUnit u)).reset
   else if cls = 7 then (s.engine u).run == none
   else if cls = 8 then s.linkState u == 0 || s.linkState u == 7
   else cls != 9)

/-- The flits of a packet, its header first. -/
def Packet.flits (k : Packet) : List (List (BitVec 8)) := (List.range (k.nflit + 1)).map k.flit

/-- The flits in a router's input buffers, input by input in the order of R537, those of VC1 before those of VC2. -/
def Lanorun.routerFlits (s : Lanorun) (r : Nat) : List (List (BitVec 8)) :=
  (routerInputs r).flatMap fun i =>
    let q := s.routerQ r i
    (q.filter (·.vc ≠ 3) ++ q.filter (·.vc = 3)).flatMap fun m =>
      (List.range m.here).map fun n => m.pkt.flit (m.total - m.left + n)

/-- The flits in a port's receive buffers: VC0, then VC1 and VC2 in order of arrival, then packets that are still arriving. -/
def Port.rxFlits (x : Port) : List (List (BitVec 8)) := (x.rx0 ++ x.arrived ++ x.parts.map (·.2)).flatMap Packet.flits

/-- Byte o of flits laid out at 64 bytes each; none past the last. -/
def flitByte (fs : List (List (BitVec 8))) (o : Nat) : Option (BitVec 8) := (fs[o / 64]?).map fun f => listGet 0#8 f (o % 64)

/-- The bytes of a unit's layout (R537, R538). -/
def Lanorun.rbLength (s : Lanorun) (cls u : Nat) : Nat :=
  if cls = 1 then 0xB000 else if cls = 2 then 0x100000 else if cls = 3 then 0x10000 else if cls = 4 then 0x20000
  else if cls = 5 then 64 * (s.cell u).tailRecs else if cls = 6 then 0x30000
  else if cls = 7 then max 0x2100010 (Config.layoutBytes cls u).toNat
  else if cls = 8 then max 0x800008 (Config.layoutBytes cls u).toNat
  else if cls = 9 then max (64 * (s.routerFlits u).length) (Config.layoutBytes cls u).toNat
  else (Config.layoutBytes cls u).toNat

/-- A send-queue entry as R538 lays it out; the bytes it does not name are none. -/
def sendBytes (e : SendEntry) (o : Nat) : Option (BitVec 8) :=
  if o < 32 then some (listGet 0#8 e.desc o) else if o < 36 then some (listGet 0#8 (leBytes 4 e.left) (o - 32))
  else if o = 36 then some 1#8 else none

/-- The value of a doubleword's byte o of 8. -/
def byteOf (w o : Nat) : Option (BitVec 8) := some (BitVec.ofNat 8 (w / 2 ^ (8 * o)))

/-- A guard record of the timing guard: READY, then FREE of a register or BUSY of a unit (R132, R538). -/
def Cell.guardWord (x : Cell) (r : Nat) (second : Bool) : Nat :=
  if second then max (sget 0 x.free r - 1) (sget 0 x.busy r) else sget 0 x.ready r - 1

/-- Byte o of class 0x01 (R538); none where the rule lays nothing out. -/
def Cell.rbRegs (x : Cell) (o : Nat) : Option (BitVec 8) :=
  if o < 0x100 then byteOf (x.s (o / 8)).toNat (o % 8)
  else if o < 0x108 then byteOf ((List.range 8).foldl (fun w p => if x.p p then w + 2 ^ p else w) 0) (o % 8)
  else if o < 0x110 then byteOf (x.pc % 2 ^ 20) (o % 8)
  else if o < 0x118 then byteOf (x.cframe % 2 ^ 16 * 2 ^ 32 + min x.pos 0xFFFF) (o % 8)
  else if o < 0x120 then byteOf x.rc (o % 8)
  else if 0x180 ≤ o ∧ o < 0x200 then byteOf (sget 0#16 x.tallies ((o - 0x180) / 8)).toNat (o % 8)
  else if 0x200 ≤ o ∧ o < 0x400 then
    match x.sendq[(o - 0x200) / 64]? with
    | some e => sendBytes e (o % 64)
    | none => if o % 64 = 36 then some 0#8 else none
  else if 0x2000 ≤ o ∧ o < 0x4000 then
    byteOf (listGet 0#32 (x.v ((o - 0x2000) / 256)) (o % 256 / 4)).toNat (o % 4)
  else if 0x4000 ≤ o ∧ o < 0x8000 then byteOf (x.guardWord ((o - 0x4000) / 16) (8 ≤ o % 16)) (o % 8)
  else if 0x8000 ≤ o ∧ o < 0x8400 then
    match (x.pend.filter fun e => x.rc < e.2)[(o - 0x8000) / 16]? with
    | some e => byteOf (if o % 16 < 8 then 256 * e.1 else e.2) (o % 8)
    | none => none
  else none

/-- Byte o of an element in LEDGER mode: X, the wrap count W and the flags (R537). -/
def Elem.rbByte (e : Elem) (o : Nat) : Option (BitVec 8) :=
  if o < 17 then byteOf (ofSigned 136 e.x) o
  else if o < 19 then byteOf (ofSigned 16 e.w) (o - 17)
  else if o = 19 then
    let b (f : Bool) (k : Nat) : Nat := if f then 2 ^ k else 0
    some (BitVec.ofNat 8 (b e.nan 0 + b e.pinf 1 + b e.ninf 2 + b e.isOver 3 + b e.low 4))
  else none

/-- Byte o of an accumulator bank (R537). -/
def Bank.rbByte (v : Bank) (o : Nat) : Option (BitVec 8) :=
  if v.ledger then (if o / 32 < v.count then (v.get (o / 32)).rbByte (o % 32) else none)
  else if o / 4 < v.count then byteOf (v.get (o / 4)).f.toNat (o % 4) else none

/-- Byte o of a steward: registers, pc, CSRs and SRAMs (R537). -/
def Lanorun.rbSteward (s : Lanorun) (i o : Nat) : Option (BitVec 8) :=
  let x := s.steward i
  if o < 0x100 then byteOf (sget 0#64 x.x (o / 8)).toNat (o % 8)
  else if o < 0x108 then byteOf x.pc (o % 8)
  else if 0x1000 ≤ o ∧ o < 0x9000 then
    match s.csrRead i ((o - 0x1000) / 8) with
    | some v => byteOf v (o % 8)
    | none => none
  else if 0x10000 ≤ o ∧ o < 0x20000 then some (sget 0#8 x.isram (o - 0x10000))
  else if 0x20000 ≤ o then some (sget 0#8 x.dsram (o - 0x20000))
  else none

/-- Byte o of an engine: the records in its queues, the results that wait in the result buffer, and D of the command that runs or
is suspended (R537). -/
def Engine.rbByte (x : Engine) (o : Nat) : Option (BitVec 8) :=
  if o < 0x1400000 then
    let e := if o < 0x400000 then x.sq[o / 0x40000]? else x.uq[(o - 0x400000) / 0x40000]?
    match e with
    | some c => if o % 0x40000 < c.bytes.length then some (listGet 0#8 c.bytes (o % 0x40000)) else none
    | none => none
  else if 0x2000000 ≤ o ∧ o < 0x2100000 then (x.results.flatMap (·.data))[o - 0x2000000]?
  else if 0x2100000 ≤ o ∧ o < 0x2100008 then
    match x.susp, x.run with
    | some r, _ => byteOf r.d (o % 8)
    | none, some r => byteOf r.d (o % 8)
    | none, none => none
  else none

/-- Byte o of a port: the unit of SEQ s in the replay buffer at 128 s, flit and trailer, and the flits of the receive buffers
(R277, R537). -/
def Port.rbByte (x : Port) (o : Nat) : Option (BitVec 8) :=
  if o < 0x200000 then
    match x.buffer.find? fun u => u.seq == o / 128 with
    | some u =>
      if o % 128 < 64 then some (listGet 0#8 u.bytes (o % 128))
      else if o % 128 < 68 then byteOf (unitTrailer u.kind u.seq u.bytes) (o % 128 - 64)
      else none
    | none => none
  else if 0x400000 ≤ o ∧ o < 0x800000 then flitByte x.rxFlits (o - 0x400000)
  else none

/-- Byte o of a unit's layout, as far as the rules lay it out. -/
def Lanorun.rbKnown (s : Lanorun) (cls u o : Nat) : Option (BitVec 8) :=
  let x := s.cell u
  if cls = 1 then x.rbRegs o
  else if cls = 2 then (x.storeBytes o 1)[0]?
  else if cls = 3 then some (x.cofferByte o)
  else if cls = 4 then (if o < 0x10000 then x.bank0.rbByte o else x.bank1.rbByte (o - 0x10000))
  else if cls = 5 then some (sget 0#8 x.tail o)
  else if cls = 6 then s.rbSteward (stwOfUnit u) o
  else if cls = 7 then (s.engine u).rbByte o
  else if cls = 8 then (s.port u).rbByte o
  else if cls = 9 then flitByte (s.routerFlits u) o
  else none

/-- Byte o of a unit's layout; what no rule lays out is free. -/
def Lanorun.rbByte (s : Lanorun) (cls u draw o : Nat) : BitVec 8 := (s.rbKnown cls u o).getD (Config.readback cls u o draw)

/-- The status of a read at an offset: 0 OK, 1 NOT_STOPPED, 2 NO_UNIT (R537). -/
def Lanorun.rbStatus (s : Lanorun) (cls u o : Nat) : Nat :=
  if s.rbExists cls u = false ∨ s.rbLength cls u < o + 8 then 2 else if s.rbStopped cls u then 0 else 1

/-- A read of DBG_RB_DATA(k): the doubleword, and DBG_RB_STAT (R537). -/
def Lanorun.rbRead (s : Lanorun) (k : Nat) : Nat × Lanorun :=
  let cls := s.get F.DBG_RB_ADDR_CLASS
  let u := s.get F.DBG_RB_ADDR_UNIT
  let o := s.get F.DBG_RB_ADDR_OFFSET / 8 * 8 + 8 * k
  let st := s.rbStatus cls u o
  let (n, t) := s.draw
  (if st = 0 then leNat ((List.range 8).map fun i => s.rbByte cls u n (o + i)) else 0, t.put F.DBG_RB_STAT_STATUS st)

/-- A read of DBG_RB_DATA(k) that shows its value in the register (R537). -/
def Lanorun.rbShow (s : Lanorun) (k : Nat) : Lanorun :=
  let (v, s) := s.rbRead k
  s.setReg R.DBG_RB_DATA v 0 k

/-! ## Capture -/

/-- Where a capture stops: 3,968 MiB, 496 MiB in each vault (R539). -/
def capBuffer : Nat := 496 * 2 ^ 20
def capLimit : Nat := 8 * capBuffer

/-- START (R539). -/
def Lanorun.capStart (s : Lanorun) : Lanorun :=
  if s.flag F.DBG_STATUS_FROZEN = false then s.put F.DBG_CAP_STAT_STATE 5
  else if s.get F.DBG_CAP_STAT_STATE = 1 then s
  else s.setReg R.DBG_CAP_STAT 1

/-- ABORT of a running capture (R539). -/
def Lanorun.capAbort (s : Lanorun) : Lanorun :=
  if s.get F.DBG_CAP_STAT_STATE = 1 then (s.put F.DBG_CAP_STAT_STATE 3).event F.DBG_EVENT_CAP_DONE else s

/-- The units that a class may have, in ascending order (R537). -/
def rbUnits (cls : Nat) : List Nat :=
  if cls ≤ 5 then List.range 1360 else if cls = 6 then List.range 80 ++ [0x80, 0x81, 0x82, 0x83]
  else if cls = 7 then List.range 256 else if cls = 8 then List.range 18 else if cls = 9 then List.range 80 else [0]

/-- The classes and units of a capture, in order (R539). -/
def Lanorun.capUnits (s : Lanorun) : List (Nat × Nat) :=
  ((List.range 15).filter (s.get F.DBG_CAP_CTRL_CLASSES).testBit).flatMap fun i =>
    ((rbUnits (i + 1)).filter fun u => s.rbStatus (i + 1) u 0 != 2).map fun u => (i + 1, u)

/-- The header of a record (R539). -/
def capHeader (cls u : Nat) (data : List (BitVec 8)) : List (BitVec 8) :=
  leBytes 1 cls ++ [0#8] ++ leBytes 2 u ++ leBytes 4 data.length ++ leBytes 8 0 ++ leBytes 4 (crc32c data) ++
  List.replicate 12 0#8

/-- The record of a unit: its header, its layout, and the padding (R539). -/
def Lanorun.capRecord (s : Lanorun) (cls u draw : Nat) : List (BitVec 8) :=
  let d := (List.range (s.rbLength cls u)).map (s.rbByte cls u draw)
  capHeader cls u d ++ d ++ List.replicate (roundUp d.length 32 - d.length) 0#8

/-- The record that ends a capture of n bytes (R539). -/
def capEnd (n : Nat) : List (BitVec 8) := [0#8, 0#8, 0#8, 0#8] ++ leBytes 4 n ++ leBytes 8 0 ++ leBytes 4 (crc32c []) ++ List.replicate 12 0#8

/-- Bytes at position o of a capture: the capture buffers of vaults 0 to 7 in turn, or host memory (R216, R539). -/
def Lanorun.capWrite (s : Lanorun) (o : Nat) (bs : List (BitVec 8)) : Lanorun :=
  if s.flag F.DBG_CAP_CTRL_DEST then (s.hostWrite (s.get F.DBG_CAP_HOST_ADDR * 4096 + o) bs none).2
  else
    let at_ (p : Nat) : Nat := p / capBuffer * 2 ^ 36 + 0xFE0000000 + p % capBuffer
    let k := capBuffer - o % capBuffer
    let s := s.dramWrite (at_ o) (bs.take k)
    if bs.length ≤ k then s else s.dramWrite (at_ (o + k)) (bs.drop k)

/-- The records from a position on; the answer is the position reached and whether the limit stopped it. -/
def Lanorun.capRecords (s : Lanorun) (o : Nat) : List (Nat × Nat) → Nat × Bool × Lanorun
  | [] => (o, false, s)
  | (cls, u) :: t =>
    let (n, s) := s.draw
    let r := s.capRecord cls u n
    if capLimit < o + r.length + 32 then (o, true, s) else (s.capWrite o r).capRecords (o + r.length) t

/-- A running capture ends: every record and the end record are written, or it stops full (R539). With DEST = 1 it waits while
the host-write queue is held (R443). -/
def Lanorun.capDone (s : Lanorun) : Lanorun :=
  if s.get F.DBG_CAP_STAT_STATE ≠ 1 ∨ (s.flag F.DBG_CAP_CTRL_DEST ∧ s.hostHeld) then s
  else
    let (n, full, s) := s.capRecords 0 s.capUnits
    if full then
      (((s.put F.DBG_CAP_STAT_BYTES n).put F.DBG_CAP_STAT_CODE 0x110A).put F.DBG_CAP_STAT_STATE 4).event F.DBG_EVENT_CAP_DONE
    else
      let s := s.capWrite n (capEnd n)
      ((s.put F.DBG_CAP_STAT_BYTES (n + 32)).put F.DBG_CAP_STAT_STATE 2).event F.DBG_EVENT_CAP_DONE

end Sys2Proof.Machine
end

