-- ==== Sys2Proof/Machine/Update.lean ====
section
/-! DEFINITION. Firmware update and attestation: the staging buffer, commits, the service port, chains and SPDM (R492, R502 to
R511). -/
namespace Sys2Proof.Machine

/-! ## The staging buffer -/

/-- Adds the range from a to b to an ascending list of disjoint ranges that do not touch. -/
def rangeAdd (a b : Nat) : List (Nat × Nat) → List (Nat × Nat)
  | [] => [(a, b)]
  | (c, d) :: t => if b < c then (a, b) :: (c, d) :: t else if d < a then (c, d) :: rangeAdd a b t else rangeAdd (min a c) (max b d) t

/-- Block n of the buffer has been written whole. -/
def Lanorun.blockHeld (s : Lanorun) (n : Nat) : Bool :=
  s.keep.got.any fun r => decide (r.1 ≤ n * 65536) && decide ((n + 1) * 65536 ≤ r.2)

/-- The lowest block that is not complete (R504, R507). -/
def Lanorun.lowestBlock (s : Lanorun) : Nat := ((List.range 512).takeWhile s.blockHeld).length

/-- The image in the buffer. -/
def Lanorun.stageReader (s : Lanorun) : Reader := fun o n => s.dram (workArea + o) n

def Lanorun.stageOwner (s : Lanorun) : Nat := s.get F.KEP_STAGE_OWNER
/-- Source src, 1 HOST, 2 SERVICE, 3 CHAIN, may write the buffer (R502). -/
def Lanorun.stageFree (s : Lanorun) (src : Nat) : Bool := s.stageOwner == 0 || s.stageOwner == src

/-- A source takes the buffer, where it does not have it yet. -/
def Lanorun.stageTake (s : Lanorun) (src : Nat) : Lanorun :=
  if s.stageOwner = src then s
  else (((s.setKeep fun k => { k with got := [] }).put F.KEP_STAGE_OWNER src).put F.KEP_STAGE_STATE 1).put F.KEP_STAGE_BLOCKS 0

/-- n bytes at offset off of the buffer have been written. -/
def Lanorun.stageWritten (s : Lanorun) (off n : Nat) : Lanorun :=
  if n = 0 then s
  else
    let s := s.setKeep fun k => { k with got := rangeAdd off (off + n) k.got }
    s.put F.KEP_STAGE_BLOCKS ((List.range 496).filter s.blockHeld).length

/-- The owner returns to NONE (R502). -/
def Lanorun.stageRelease (s : Lanorun) : Lanorun :=
  ((s.setKeep fun k => { k with got := [], mdigest := [], offerer := 0 }).put F.KEP_STAGE_OWNER 0).put F.KEP_STAGE_BLOCKS 0

/-- ABORT_STAGE, or STAGE_HOLD seconds without a write, while no commit runs (R502). -/
def Lanorun.stageAbort (s : Lanorun) : Lanorun :=
  if s.stageOwner ≠ 0 ∧ s.keep.commit = none then s.stageRelease.put F.KEP_STAGE_STATE 0 else s

/-! ## Chain messages -/

/-- A chain message (R507) to a module, in key 0 and TC2 (R506). -/
def Lanorun.chainMsg (s : Lanorun) (dst kind code n version : Nat) (mdigest : List (BitVec 8)) (from_ : Sender) : Lanorun :=
  s.sendCtlPkt 2 0 dst 0x15
    (leBytes 2 kind ++ leBytes 2 code ++ leBytes 4 n ++ leBytes 8 version ++ (mdigest ++ List.replicate 16 0#8).take 16) from_

/-- Next hop h of KEP_CHAIN: its port, where it is VALID and ACTIVE (R506). -/
def Lanorun.hopPort (s : Lanorun) (h : Nat) : Option Nat :=
  let b := s.reg R.KEP_CHAIN / 2 ^ (8 * h) % 2 ^ 8
  if b.testBit 7 ∧ s.linkState (b % 32) = 5 then some (b % 32) else none

/-- An OFFER of the image in the buffer to next hop h (R508). -/
def Lanorun.chainOffer (s : Lanorun) (h : Nat) : Lanorun :=
  match s.hopPort h with
  | none => s
  | some p =>
    let rd := s.stageReader
    let s := s.setKeep fun k => { k with hops := sset 0 k.hops h 1 }
    s.chainMsg (s.get F.LNK_STATUS_PEER_ID p) 1 0 (fwBlocks rd + 1) (fieldAt (rd 0x10 8) 0 8) (Config.sha384 (rd 0 0x1000)) (.chain h)

/-! ## Commits -/

/-- An answer on the service port (R504). -/
def Lanorun.svcAnswer (s : Lanorun) (op seq status : Nat) (off : Nat := 0) (data : List (BitVec 8) := []) : Lanorun :=
  s.setKeep fun k => { k with svc := k.svc ++ [{ op := op, seq := seq, status := status, off := off, data := data }] }

/-- The answer to whoever asked for a commit: 0 stored, 1 BUSY, 2 refused (R503, R504, R508). -/
def Lanorun.commitAnswer (s : Lanorun) (c : Commit) (status code : Nat) : Lanorun :=
  if c.src = 1 then (if status = 1 then s else s.setReg R.HST_MBOX_RES code 0 0).mboxPost status
  else if c.src = 2 then s.svcAnswer 5 c.seq status
  else s.chainMsg s.keep.offerer 3 code 0 (fieldAt (s.stageReader 0x10 8) 0 8) s.keep.mdigest .steward

/-- A commit is asked for (R503 step 1). -/
def Lanorun.commitStart (s : Lanorun) (c : Commit) : Lanorun :=
  let d := s.dir.1
  if d.state d.active = 2 ∨ s.keep.commit ≠ none then s.commitAnswer c 1 1
  else (s.setKeep fun k => { k with commit := some c }).put F.KEP_STAGE_STATE 2

/-- A commit ends with a code, 0 for stored (R502, R503); a stored image is offered to the next hops (R508). -/
def Lanorun.commitDone (s : Lanorun) (c : Commit) (code : Nat) : Lanorun :=
  let s := s.commitAnswer c (if code = 0 then 0 else 2) code
  let s := (s.put F.KEP_STAGE_CODE code).put F.KEP_STAGE_STATE (if code = 0 then 4 else 5)
  let s := (s.setKeep fun k => { k with commit := none }).keepEvent F.KEP_EVENT_STAGE_DONE
  let s := if code = 0 then forN (fun h (s : Lanorun) => s.chainOffer h) 0 4 s else s
  s.stageRelease

/-- The checks of a commit, or its store, have ended; bad is a block that mismatched twice (R503). -/
def Lanorun.commitEnd (s : Lanorun) (bad : Bool) : Lanorun :=
  match s.keep.commit with
  | none => s
  | some c =>
    let rd := s.stageReader
    let d := s.dir.1
    let i := 1 - d.active
    let n := fwBlocks rd + 1
    if s.get F.KEP_STAGE_STATE = 2 then
      match s.fwCheck rd c.len with
      | 0 => (s.setDir (d.setState i 0)).put F.KEP_STAGE_STATE 3
      | code => s.commitDone c code
    else if bad ∨ (List.range (n - 1)).any (fun k => !fwBlockOk rd (k + 1)) then (s.fault 0x1006 .module 0).commitDone c 0x1006
    else
      let s := s.setKeep fun k => { k with flash := k.flash.filter fun e =>
        !(decide (slotBase i ≤ e.1) && decide (e.1 < slotBase i + 0x1F00000)) }
      let s := s.flashWrite (slotBase i) (rd 0 (65536 * n))
      let s := s.setDir ((d.setState i 1).setVersion i (fieldAt (rd 0x10 8) 0 8))
      s.commitDone c 0

/-- The mailbox request FW_STAGE, opcode 0x04 (R503). -/
def Lanorun.fwStage (s : Lanorun) : Lanorun :=
  if s.mboxHas 4 then s.commitStart { src := 1, len := s.reg R.HST_MBOX_REQ 0 0, seq := 0 } else s

/-- The mailbox request FW_ACTIVATE, opcode 0x05 (R498, R503). -/
def Lanorun.mboxActivate (s : Lanorun) : Lanorun :=
  if s.mboxHas 5 then
    let reboot := s.reg R.HST_MBOX_REQ 0 0 % 2 = 1
    let (code, s) := s.fwActivate reboot
    if s.rebootAfter reboot code then s.moduleReset else s.mboxPost code
  else s

/-! ## The service port -/

/-- The firmware serves an operation: all of R504 from stage HEAD on, those of R492 in RECOVERY. -/
def Lanorun.svcServes (s : Lanorun) (op : Nat) : Bool :=
  s.flag F.MOD_SVC_LINK_UP && (s.get F.KEP_STATUS_STAGE == 2 || s.get F.KEP_STATUS_STAGE == 3 ||
    (s.get F.KEP_STATUS_STAGE == 4 && decide (op ≤ 6)))

/-- A request on the service port; one that is not served is unknown, and before stage HEAD there is nobody to answer. -/
def Lanorun.svc (s : Lanorun) (op seq : Nat) (f : Lanorun → Lanorun) : Lanorun :=
  if s.svcServes op then f s
  else if s.flag F.MOD_SVC_LINK_UP ∧ s.get F.KEP_STATUS_STAGE = 4 then s.svcAnswer op seq 0xFF else s

def Lanorun.svcIdent (s : Lanorun) (seq : Nat) : Lanorun :=
  let d := s.dir.1
  s.svcAnswer 1 seq 0 0 (leBytes 8 (s.reg R.MOD_IDENT) ++ leBytes 8 (s.reg R.HST_IFVER) ++ leBytes 8 (s.get F.KEP_UNIT_ID) ++
    leBytes 8 (s.get F.KEP_UNIT_ID 0 1) ++ leBytes 1 d.stateA ++ leBytes 1 d.stateB ++ leBytes 8 d.verA ++ leBytes 8 d.verB)

/-- STAGE_WRITE; while vault 0 is not READY the buffer takes no write (R217, R502, R504). -/
def Lanorun.svcWrite (s : Lanorun) (seq off : Nat) (data : List (BitVec 8)) : Lanorun :=
  if ¬ s.stageFree 2 then s.svcAnswer 3 seq 1
  else if 0x2000000 < off + data.length ∨ 1024 < data.length ∨ ¬ s.vaultReady 0 then s.svcAnswer 3 seq 2
  else (((s.stageTake 2).dramWrite (workArea + off) data).stageWritten off data.length).svcAnswer 3 seq 0

def Lanorun.svcActivate (s : Lanorun) (seq : Nat) (reboot : Bool) : Lanorun :=
  let (code, s) := s.fwActivate reboot
  let s := s.svcAnswer 6 seq code
  if s.rebootAfter reboot code then s.moduleReset else s

/-- SET_POSITION: MOD_POSID.ID, which an active plan locks (R9, R461, R504). -/
def Lanorun.svcPosition (s : Lanorun) (seq id : Nat) : Lanorun :=
  let s := if s.planActive then s else (s.put F.MOD_POSID_ID id).put F.MOD_POSID_VALID 1
  s.svcAnswer 7 seq 0

/-- LOG_READ: up to 32 records from a SEQ on (R504). -/
def Lanorun.svcLog (s : Lanorun) (seq first n : Nat) : Lanorun :=
  let rs := (s.keep.log.filter fun r => decide (first ≤ r.seq)).take (min n 32)
  s.svcAnswer 8 seq 0 first (rs.flatMap LogRec.bytes)

/-! ## Chains: the receiver -/

/-- OFFER (R508). -/
def Lanorun.chainOffered (s : Lanorun) (src version : Nat) (mdigest : List (BitVec 8)) : Lanorun :=
  let own := s.stageOwner = 3 ∧ s.keep.mdigest = mdigest
  if s.flag F.KEP_CHAIN_ACCEPT ∧ (own ∨ s.stageOwner = 0) then
    let s := (s.stageTake 3).setKeep fun k => { k with mdigest := mdigest, offerer := src }
    s.chainMsg src 2 0 s.lowestBlock version mdigest .steward
  else s.chainMsg src 3 1 0 version mdigest .steward

/-- A MGMT_WRITE has written bytes of the buffer for CHAIN: complete blocks are checked, and a complete image is committed
(R497, R508). -/
def Lanorun.chainBlock (s : Lanorun) (off n : Nat) : Lanorun :=
  if s.stageOwner ≠ 3 ∨ s.keep.commit ≠ none ∨ 0x2000000 < off + n then s
  else
    let before := (List.range 496).filter s.blockHeld
    let s := s.stageWritten off n
    let rd := s.stageReader
    let fresh := (List.range 496).filter fun b => s.blockHeld b && !before.contains b
    let code := if fresh = [] ∨ ¬ s.blockHeld 0 then 0
      else if fresh.contains 0 then
        (match s.fwHead rd 0x1F00000 with
         | 0 => if (List.range (fwBlocks rd)).any (fun b => s.blockHeld (b + 1) && !fwBlockOk rd (b + 1)) then 0x1005 else 0
         | c => c)
      else if fresh.any fun b => decide (b ≤ fwBlocks rd) && !fwBlockOk rd b then 0x1005 else 0
    if code ≠ 0 then
      let s := s.chainMsg s.keep.offerer 3 code 0 (fieldAt (rd 0x10 8) 0 8) s.keep.mdigest .steward
      (s.stageRelease.put F.KEP_STAGE_CODE code).put F.KEP_STAGE_STATE 5
    else if s.blockHeld 0 ∧ fwBlocks rd + 1 ≤ s.lowestBlock then
      s.commitStart { src := 3, len := 65536 * (fwBlocks rd + 1), seq := 0 }
    else s

/-- A MGMT_WRITE packet, with what it means for a chain (R330, R508). -/
def Lanorun.mgmtArrive (s : Lanorun) (k : Packet) : Lanorun :=
  let a := k.target % 2 ^ 39
  let t := s.applyMgmtWrite k
  if a + k.bytes ≤ 0x40000000 ∧ s.vaultReady 0 then t.chainBlock a k.payload.length else t

/-! ## Chains: the sender -/

/-- The next hop whose peer is a module. -/
def Lanorun.hopOf (s : Lanorun) (src : Nat) : Option Nat :=
  (List.range 4).find? fun h => match s.hopPort h with
    | some p => s.keep.hops.any (·.1 = h) && s.get F.LNK_STATUS_PEER_ID p == src
    | none => false

/-- NEED: blocks from that block onward go to the hop (R509). -/
def Lanorun.chainNeed (s : Lanorun) (src block : Nat) : Lanorun :=
  match s.hopOf src with
  | none => s
  | some h =>
    let n := fwBlocks s.stageReader + 1
    let s := s.setKeep fun k => { k with hops := sset 0 k.hops h 2 }
    let off := 65536 * block
    s.sendData 2 0 src 4 off 0 0 0 (workArea + off) (65536 * n - off) (.chain h)

/-- DONE: the hop has stored the image, or the code that ended it there (R509). -/
def Lanorun.chainDone (s : Lanorun) (src code : Nat) : Lanorun :=
  match s.hopOf src with
  | none => s
  | some h =>
    let s := s.keepEvent F.KEP_EVENT_CHAIN_DONE
    if code = 0 then
      let s := s.setKeep fun k => { k with hops := sset 0 k.hops h 0 }
      s.put F.KEP_CHAIN_HOP_DONE (s.get F.KEP_CHAIN_HOP_DONE ||| 2 ^ h)
    else s.hopFail h

/-- ABORT ends a transfer: at the receiver the buffer is freed, at the sender the hop fails (R507). -/
def Lanorun.chainAbort (s : Lanorun) (src : Nat) : Lanorun :=
  let s := if s.stageOwner = 3 ∧ s.keep.offerer = src ∧ s.keep.commit = none then s.stageAbort else s
  match s.hopOf src with
  | some h => s.hopFail h
  | none => s

/-- A hop that waits in a phase, 1 for NEED and 2 for DONE, has waited too long (R509). -/
def Lanorun.hopTimeout (s : Lanorun) (h phase : Nat) : Lanorun :=
  if sget 0 s.keep.hops h = phase then s.hopFail h else s

/-- A write of KEP_CHAIN; an image stored since is offered to a next hop that is new (R506, R509). -/
def Lanorun.chainWrite (s : Lanorun) (v : Nat) : Lanorun :=
  let old := s.reg R.KEP_CHAIN
  let s := s.setReg R.KEP_CHAIN (v % 2 ^ 33)
  if s.get F.KEP_STAGE_STATE = 4 then
    forN (fun h (s : Lanorun) => if v / 2 ^ (8 * h) % 2 ^ 8 = old / 2 ^ (8 * h) % 2 ^ 8 then s else s.chainOffer h) 0 4 s
  else s

/-! ## Attestation -/

/-- The value of a measurement (R511). -/
def Lanorun.measure (s : Lanorun) (i : Nat) : List (BitVec 8) :=
  let d := s.dir.1
  let rd := s.slotReader d.active
  if i = 1 then Config.sha384 Config.bootRom
  else if i = 2 then Config.sha384 (rd 0 0x1000) ++ leBytes 8 (d.version d.active) ++ rd 0xD 1
  else if i = 3 then leBytes 5 (s.reg R.KEP_FUSE) ++ (List.range 4).flatMap Config.rootHash
  else if i = 4 then leBytes 4 (s.get F.KEP_LOG_CTRL_HEAD) ++ leBytes 4 (s.get F.KEP_STATUS_UNACKED_CNT) ++
    leBytes 4 (s.keep.log.filter (·.kind = 4)).length
  else leBytes 8 (s.reg R.MOD_IDENT) ++ leBytes 8 (s.reg R.MOD_POSID)

/-- The response to an SPDM request (R510, R511). -/
def Lanorun.spdmReply (s : Lanorun) : SpdmRequest → List (BitVec 8)
  | .getVersion => Config.spdm 0x84 []
  | .getCapabilities => Config.spdm 0xE1 []
  | .negotiateAlgorithms => Config.spdm 0xE3 []
  | .getDigests => Config.spdm 0x81 (Config.sha384 Config.certChain)
  | .getCertificate slot off n => Config.spdm 0x82 (if slot = 0 then (Config.certChain.drop off).take n else [])
  | .challenge slot nonce =>
    let body := Config.sha384 Config.certChain ++ nonce
    Config.spdm 0x83 (if slot = 0 then body ++ Config.unitSign body else [])
  | .getMeasurements i nonce =>
    let body := (if i = 0xFF then (List.range 5).flatMap fun j => s.measure (j + 1) else if 1 ≤ i ∧ i ≤ 5 then s.measure i else []) ++ nonce
    Config.spdm 0xE0 (body ++ Config.unitSign body)
  | .other _ => Config.spdm 0x7F [7#8]

/-- An SPDM request through Data Object Exchange (R510). -/
def Lanorun.spdm (s : Lanorun) (q : SpdmRequest) : Lanorun :=
  let r := s.spdmReply q
  s.setKeep fun k => { k with spdm := r }

/-- ATTEST, mailbox opcode 0x03: the response goes to the host's buffer (R510). -/
def Lanorun.attest (s : Lanorun) (q : SpdmRequest) : Lanorun :=
  if s.mboxHas 3 then
    let s := s.spdm q
    let r := s.keep.spdm
    if 4096 < s.reg R.HST_MBOX_REQ 0 1 ∨ 4096 < r.length then s.mboxPost 2
    else ((s.hostWrite (s.reg R.HST_MBOX_REQ 0 2) r none).2.setReg R.HST_MBOX_RES r.length 0 0).mboxPost 0
  else s

/-- The service-port operation SPDM (R504, R510). -/
def Lanorun.svcSpdm (s : Lanorun) (seq : Nat) (q : SpdmRequest) : Lanorun :=
  let s := s.spdm q
  s.svcAnswer 2 seq 0 0 s.keep.spdm

end Sys2Proof.Machine
end

