-- ==== Sys2Proof/Machine/Site.lean ====
section
/-! DEFINITION. The module in its slot: insertion and removal, input loss and the hold-up bank, reference inputs, the SMBus, and the
JTAG TAP (R458 to R461, R525, R526, R540, R546 to R559). -/
namespace Sys2Proof.Machine

def Lanorun.setSite (s : Lanorun) (f : Site → Site) : Lanorun := { s with site := f s.site }

/-! ## Insertion, removal and power -/

/-- The flush begins: clocks and cells stop, every RUNNING tenancy faults, the ports send DOWN_NOTICE and go DOWN, the endpoint
stops, and the Keep logs the cause (R459, R505, R559). -/
def Lanorun.flushBegin (s : Lanorun) (cause code kind : Nat) (masked : Bool) : Lanorun :=
  let s := s.fault code .module 0
  let s := forN (fun t (s : Lanorun) =>
    if s.tenState t = tenRunning then (((s.partitionFault t).stopTenancy t).setTenState t tenFaulted) else s) 0 16 s
  let s := forN (fun p (s : Lanorun) =>
    if s.linkState p = 0 ∨ s.linkState p = 7 ∨ s.linkState p = 8 then s else s.portDown p code) 0 18 s
  let s := (s.event F.HST_EVENT_REMOVAL).wakeReason 1
  let s := if s.get F.HST_STATUS_DSTATE = 0 then s.msixSend 14 masked else s
  let s := (s.setHost fun h => { h with hwq := [] }).put F.HST_HWQ_DEPTH 0
  let s := s.setKeep fun k => { k with src := 1, commit := none }
  (s.logAdd kind false []).setSite fun x => { x with flush := cause, off := false, again := false }

/-- EB_N opens (R459). -/
def Lanorun.ebOpen (s : Lanorun) (masked : Bool) : Lanorun :=
  let s := (s.put F.MOD_PINS_EB 0).event F.MOD_PINS_EB_OPEN
  if s.site.flush = 0 then s.flushBegin 1 0x0E08 3 masked else s

/-- The input stays below 36 V for 10 µs with EB_N grounded (R559). -/
def Lanorun.inputLoss (s : Lanorun) (masked : Bool) : Lanorun :=
  if s.site.flush = 0 ∧ s.flag F.MOD_PINS_EB then
    ((s.event F.MOD_PINS_INPUT_LOSS).flushBegin 2 0x1201 2 masked).setSite fun x => { x with input := false }
  else s

/-- PD111 has power and the module boots from stage K (R461, R557). -/
def Lanorun.bootAgain (s : Lanorun) : Lanorun := s.moduleReset

/-- 4 ms into a flush: PD0 to PD110 are off; the flush has run, and a module that may boots again (R459, R460). -/
def Lanorun.flushOff (s : Lanorun) : Lanorun :=
  if s.site.flush = 0 ∨ s.site.off then s
  else
    let s := forN (fun d (s : Lanorun) => if s.isOn d then ((s.setOn d false).domainLost d).keepRetired d else s) 0 111 s
    if s.site.again then s.bootAgain else s.setSite fun x => { x with off := true }

/-- EB_N closes again, or the input returns, during a flush: the module boots as on insertion once the flush has run (R460, R559). -/
def Lanorun.flushReturn (s : Lanorun) : Lanorun :=
  if s.site.flush = 0 then s
  else if s.site.off then s.bootAgain
  else s.setSite fun x => { x with again := true }

def Lanorun.ebClose (s : Lanorun) : Lanorun := (s.put F.MOD_PINS_EB 1).flushReturn

/-- The hold-up bank is exhausted: PD111 loses power, and the Keep runs from the backup cell (R459, R485). -/
def Lanorun.powerGone (s : Lanorun) : Lanorun :=
  if s.site.flush ≠ 0 ∧ s.site.off then
    let stage := s.get F.KEP_STATUS_STAGE
    let s := s.moduleReset
    (s.setKeep fun k => { k with src := 2, lastStage := stage }).setSite fun x => { x with input := false, powered := false }
  else s

/-- PRES_N and EB_N have been grounded for 100 ms and the input is above 38 V: the input is connected (R546). -/
def Lanorun.inputConnect (s : Lanorun) : Lanorun :=
  if s.flag F.MOD_PINS_PRES ∧ s.flag F.MOD_PINS_EB then
    (s.setSite fun x => { x with input := true }).flushReturn
  else s

/-- The bank reaches the input voltage less 0.5 V: the main converters start, and PD110 comes on (R557). -/
def Lanorun.bankCharged (s : Lanorun) : Lanorun :=
  if s.site.input ∧ s.site.powered ∧ s.site.flush = 0 ∧ ¬ s.isOn 110 then s.domainReady 110 else s

/-- Insertion: the module powers up and boots (R461, R557). -/
def Lanorun.insertion (s : Lanorun) : Lanorun :=
  if s.site.powered then s
  else
    let s := s.bootAgain
    (s.setKeep fun k => { k with src := 0 }).setSite fun x => { x with input := true, powered := true }

/-- A vault that was switched on does not become READY in time (R522). -/
def Lanorun.vaultLate (s : Lanorun) (v : Nat) : Lanorun :=
  if (s.vault v).training ∧ ¬ s.vaultReady v then s.setReplace 4 else s

/-! ## Reference inputs -/

/-- HREF is lost: the master clock moves to the internal oscillator (R551). -/
def Lanorun.hrefLost (s : Lanorun) : Lanorun :=
  ((s.event F.MOD_PINS_HREF_LOST).put F.MOD_PINS_HREF_OK 0).put F.MOD_PINS_CLK_SRC 1

/-- HREF is within its limits again (R551). -/
def Lanorun.hrefBack (s : Lanorun) : Lanorun :=
  if s.flag F.MOD_PINS_HREF_OK then s else (s.put F.MOD_PINS_HREF_OK 1).event F.MOD_PINS_HREF_BACK

/-- CLK_RET (R551). -/
def Lanorun.clkReturn (s : Lanorun) : Lanorun :=
  if s.flag F.MOD_PINS_HREF_OK ∧ s.planActive = false then s.put F.MOD_PINS_CLK_SRC 0 else s

/-- A rising edge of PPS at a tick of the present frame and a number of 8 ps units within it (R552). -/
def Lanorun.ppsEdge (s : Lanorun) (off ps8 : Nat) : Lanorun :=
  let s := (s.setReg R.MOD_PPS_TICK (4000 * s.frame + off)).put F.MOD_PPS_FRAC_FRAC (ps8 * 65536 / 125)
  (s.put F.MOD_PPS_FRAC_VALID 1).event F.MOD_PINS_PPS_RISE

/-! ## The SMBus -/

def Lanorun.smbOn (s : Lanorun) : Bool := (s.get F.PWR_CLKEN_EN).testBit 0

/-- Every rail's reading is stale (R526). -/
def Lanorun.railsStale (s : Lanorun) : Lanorun := forN (fun k (s : Lanorun) => s.put F.PWR_RAIL_STALE 1 0 k) 0 12 s

/-- Steps 1 to 4 of the recovery; free says that SDA went high (R525). -/
def Lanorun.smbRecover (s : Lanorun) (free : Bool) : Lanorun :=
  let s := (s.railsStale.countErr R.DBG_SMB_CNT).put F.DBG_SMB_SDA (if free then 1 else 0)
  if free then s.put F.DBG_SMB_STATE 0
  else (s.event F.DBG_EVENT_SMB).put F.DBG_SMB_STATE 2

/-- SDA has been low for 100 µs with SCL high (R525). -/
def Lanorun.smbStuck (s : Lanorun) (free : Bool) : Lanorun :=
  if s.smbOn ∧ s.get F.DBG_SMB_STATE = 0 then s.smbRecover free else s

/-- VTEL has been cycled: steps 5 and 6 (R525). -/
def Lanorun.smbCycled (s : Lanorun) (free : Bool) : Lanorun :=
  if s.get F.DBG_SMB_STATE ≠ 2 then s
  else
    let s := (s.countErr R.DBG_SMB_CNT).put F.DBG_SMB_SDA (if free then 1 else 0)
    if free then s.put F.DBG_SMB_STATE 0
    else (((s.event F.DBG_EVENT_SMB).fault 0x1107 .module 0).setReplace 16).put F.DBG_SMB_STATE 3

/-- RECOVER (R526). -/
def Lanorun.smbRetry (s : Lanorun) (free : Bool) : Lanorun :=
  let st := s.get F.DBG_SMB_STATE
  if s.smbOn ∧ (st = 0 ∨ st = 3) then s.smbRecover free else s

/-! ## JTAG -/

def Lanorun.setJtag (s : Lanorun) (f : Jtag → Jtag) : Lanorun := { s with jtag := f s.jtag }

/-! ## Front LEDs (R563) -/

/-- What an LED shows. -/
inductive Led where
  | off | steady | green | amber | blink1 | blink4
  deriving DecidableEq, Repr

/-- POWER: blinking at 4 Hz while a flush runs, steady while PD111 is powered from the input. -/
def Lanorun.powerLed (s : Lanorun) : Led :=
  if s.site.flush ≠ 0 then .blink4 else if s.site.powered ∧ s.site.input then .steady else .off

/-- STATUS: the firmware's choice. -/
def Lanorun.statusLed (s : Lanorun) : Led :=
  match s.get F.MOD_LED_STATUS with
  | 0 => .off
  | 1 => .green
  | 2 => .amber
  | _ => .blink1

/-- REPLACE: blinking at 1 Hz while LOCATE is 1, steady while REPLACE_REQUESTED is 1. -/
def Lanorun.replaceLed (s : Lanorun) : Led :=
  if s.flag F.MOD_LED_LOCATE then .blink1 else if s.flag F.DBG_STATUS_REPLACE_REQUESTED then .steady else .off

/-- The levels of the boundary-scan contacts that the state holds, by wafer times 8 plus contact, and 600 and 601 for PRES_N and
EB_N (R548). -/
def Lanorun.pinLevels (s : Lanorun) : List (Nat × Bool) :=
  [(62 * 8 + 1, !s.flag F.MOD_PINS_PERST), (62 * 8 + 2, !s.flag F.MOD_PINS_WAKE), (62 * 8 + 3, !s.flag F.MOD_PINS_FREEZE),
   (62 * 8 + 5, !s.flag F.DBG_STATUS_REPLACE_REQUESTED), (62 * 8 + 6, !s.flag F.PWR_EVENT_TRIP)] ++
  ((List.range 6).map fun k => (63 * 8 + 1 + k, (s.get F.MOD_PINS_GA).testBit k)) ++
  [(600, !s.flag F.MOD_PINS_PRES), (601, !s.flag F.MOD_PINS_EB)]

/-- EXTEST: the boundary cells drive and capture the contacts (R540). -/
def Lanorun.extest (s : Lanorun) (cells : List (Nat × Bool)) : Lanorun :=
  let p := s.pinLevels
  s.setJtag fun j => { j with ir := 0, drive := cells, captured := p }

/-- SAMPLE/PRELOAD: the contacts are captured and keep their own levels (R540). -/
def Lanorun.samplePreload (s : Lanorun) : Lanorun :=
  let p := s.pinLevels
  s.setJtag fun j => { j with ir := 2, drive := [], captured := p }

/-- IDCODE (R540). -/
def Lanorun.idcode (s : Lanorun) : Lanorun :=
  let id := s.get F.MOD_IDENT_STEPPING % 16 * 2 ^ 28 + s.get F.MOD_IDENT_PART_CODE * 2 ^ 12 + Config.manufacturer.toNat * 2 + 1
  s.setJtag fun j => { j with ir := 1, drive := [], dr := id }

/-- BYPASS (R540). -/
def Lanorun.bypass (s : Lanorun) : Lanorun := s.setJtag fun j => { j with ir := 0xFF, drive := [], dr := 0 }

/-- TRST_N low holds the TAP in reset: IDCODE is in force and nothing drives (R548). -/
def Lanorun.trst (s : Lanorun) : Lanorun := s.setJtag fun j => { j with ir := 1, drive := [], dr := 0 }

/-- FREEZE_NOW through JTAG, unless locked (R530, R541). -/
def Lanorun.jtagFreeze (s : Lanorun) (t : Nat) : Lanorun :=
  let s := s.setJtag fun j => { j with ir := 0x21, drive := [] }
  if s.flag F.DBG_CTRL_JTAG_LOCK then s else s.freezeNow t 4

/-- CTRL_ACCESS at Update-DR: one access starts, unless one runs or JTAG is locked (R541). -/
def Lanorun.ctrlStart (s : Lanorun) (write : Bool) (addr data : Nat) : Lanorun :=
  let s := s.setJtag fun j => { j with ir := 0x20, drive := [] }
  if s.flag F.DBG_CTRL_JTAG_LOCK then s.setJtag fun j => { j with status := 3 }
  else if s.jtag.run ≠ none then s
  else s.setJtag fun j => { j with run := some (write, addr, data), status := 1 }

end Sys2Proof.Machine
end

