-- ==== Sys2Proof/Machine/CtrlAccess.lean ====
section
/-! DEFINITION. Reads and writes of the control space by the stewards, the host and JTAG: what an address reaches, what a
read returns, and what a write does beyond the access codes of its fields (R9 to R13, R21 to R24, R251, R470, R478, R479,
R566). -/
namespace Sys2Proof.Machine

/-! ## What an address reaches -/

inductive Target where
  | error
  | zero
  | firmware
  | reg (r : Reg) (fs : List Fld) (u i : Nat)

def Lanorun.clken (s : Lanorun) (k : Nat) : Bool := (s.get F.PWR_CLKEN_EN).testBit k

/-- The clock-gated peripheral window that an offset lies in, as its bit of PWR_CLKEN (R478). -/
def gateBit (b : Blk) (o : Nat) : Option Nat :=
  match b with
  | .pwr => if 0x1000 ≤ o ∧ o < 0x1800 then some 0 else if 0x1800 ≤ o ∧ o < 0x1900 then some 1 else none
  | .kep => if 0x8000 ≤ o ∧ o < 0xC000 then some 2 else none
  | .mod => if 0x800 ≤ o ∧ o < 0x1000 then some 3 else none
  | _ => none

/-- The registers that one instance of their block has, and that read as zero in the others (R247, R465). -/
def onlyFirst (r : Reg) : Bool := r == R.VLT_CRING || r == R.VLT_CRING_DROP || r == R.ETH_STORE

/-- What a control-space address reaches (R21 to R24, R470, R478, R566). -/
def Lanorun.target (s : Lanorun) (a : Nat) : Target :=
  match findBlock a with
  | none => .error
  | some (b, u, o) =>
    if b = .cel ∧ s.cellFused u then .zero
    else if ¬ s.isOn (blkDomain b u) then .error
    else
      let gated := match gateBit b o with
        | some k => !s.clken k
        | none => false
      if gated then .error
      else if b = .kep ∧ 0x8000 ≤ o ∧ o < 0xC000 ∨ b = .mod ∧ 0x800 ≤ o ∧ o < 0x1000 then .firmware
      else match findEntry (regsOf b) o with
        | none => .error
        | some (r, fs, i) => if onlyFirst r ∧ u ≠ 0 then .zero else .reg r fs u i

/-! ## Reads -/

/-- Sets a field of a word. -/
def Fld.into (f : Fld) (v w : Nat) : Nat := setBits w f.hi f.lo v

def satBits (n v : Nat) : Nat := min v (2 ^ n - 1)

/-- RGN_VMON: VMAX, VMIN and the rail's setting at the present step (R55, R56). -/
def Lanorun.vmonWord (s : Lanorun) (r w : Nat) : Nat :=
  let k := s.get F.RGN_CLK_ACT_STEP r
  F.RGN_VMON_VMAX.into (Config.vmax r k).toNat (F.RGN_VMON_VMIN.into (Config.vmin r k).toNat (F.RGN_VMON_VOUT.into (s.vout r) w))

/-- A cell is active in the present binding; the empty plan binds none (R141). -/
def Lanorun.inBinding (s : Lanorun) (c : Nat) : Bool := (s.activeImage.isNone) || s.planCells.contains c

/-- CEL_STATUS (R141). -/
def Cell.statusWord (x : Cell) (w : Nat) : Nat :=
  F.CEL_STATUS_FPOS.into (min x.pos 0xFFFF) (F.CEL_STATUS_CFRAME.into x.cframe (F.CEL_STATUS_WHY.into x.why
    (F.CEL_STATUS_STATE.into x.st w)))

/-- An element is NaN or infinite, or has NAN, PINF or NINF. -/
def Elem.special (e : Elem) (ledger : Bool) : Bool :=
  if ledger then e.nan || e.pinf || e.ninf else e.f.toNat / 2 ^ 23 % 256 == 255

/-- CEL_BANK (R153 to R160). -/
def Bank.word (v : Bank) (w : Nat) : Nat :=
  let els := (v.els.filter fun e => e.1 < v.count).map (·.2)
  let b (p : Bool) : Nat := if p then 1 else 0
  F.CEL_BANK_WE.into (ofSigned 10 v.we) (F.CEL_BANK_MQ.into v.mq (F.CEL_BANK_NQ.into v.nq (F.CEL_BANK_MODE.into (b v.ledger)
    (F.CEL_BANK_OVER_SEEN.into (b (els.any (·.isOver))) (F.CEL_BANK_HIGH_SEEN.into (b v.high)
      (F.CEL_BANK_LOW_SEEN.into (b (els.any (·.low))) (F.CEL_BANK_SPECIAL_SEEN.into (b (els.any (·.special v.ledger))) w)))))))

/-- VLT_ENG_STAT (R230). -/
def Lanorun.engineWord (s : Lanorun) (v e w : Nat) : Nat :=
  let x := s.engine (32 * v + e)
  let st := match x.run with
    | none => 0
    | some r => if s.frozen || (s.vault v).window then 3 else if r.sched then 1 else 2
  F.VLT_ENG_STAT_LAST_OP.into x.lastOp (F.VLT_ENG_STAT_UQ.into x.uq.length (F.VLT_ENG_STAT_SQ.into x.sq.length
    (F.VLT_ENG_STAT_STATE.into st w)))

/-- HOLD is in force and no TC1 or TC2 packet of the module is leaving (R348). -/
def Lanorun.niHeld (s : Lanorun) : Bool :=
  let own (k : Packet) : Bool := k.port == none && (k.tc == 1 || k.tc == 2)
  s.flag F.MOD_NI_CTRL_HOLD &&
  !s.meshPkts.any own && (List.range 18).all fun p =>
    !((s.port p).vc1.any own) && ((s.port p).rest.isEmpty || (s.port p).restFrom.isSome)

/-- MOD_NI_STATUS. -/
def Lanorun.niWord (s : Lanorun) (w : Nat) : Nat :=
  F.MOD_NI_STATUS_RECORDS.into s.ni.records.length (F.MOD_NI_STATUS_FILTER.into s.ni.filter.length
    (F.MOD_NI_STATUS_NOTICES.into s.ni.notices.length (F.MOD_NI_STATUS_HELD.into (if s.niHeld then 1 else 0) w)))

/-- TLR_STATUS: LEAD, TENANCY and FREE. -/
def Lanorun.tlrWord (s : Lanorun) (w : Nat) : Nat :=
  F.TLR_STATUS_LEAD.into (if s.isLead then 1 else 0)
    (F.TLR_STATUS_TENANCY.into (match s.served with | some (_, t) => t | none => 0)
      (F.TLR_STATUS_FREE.into (8192 - s.usedSlots.length) w))

/-- TLR_SLOT_QUERY. -/
def Lanorun.slotWord (s : Lanorun) (w : Nat) : Nat :=
  match s.req (s.get F.TLR_SLOT_QUERY_SLOT) with
  | none => F.TLR_SLOT_QUERY_STATE.into 0 (F.TLR_SLOT_QUERY_ACCOUNT.into 0 (F.TLR_SLOT_QUERY_GENERATED.into 0 w))
  | some r =>
    F.TLR_SLOT_QUERY_STATE.into r.state (F.TLR_SLOT_QUERY_ACCOUNT.into r.account
      (F.TLR_SLOT_QUERY_GENERATED.into (satBits 24 r.gen) w))

/-- The present word of a register whose fields follow other state. -/
def Lanorun.liveWord (s : Lanorun) (r : Reg) (u i : Nat) : Nat :=
  let w := s.reg r u i
  match r.blk with
  | .rgn => if r = R.RGN_VMON then s.vmonWord u w else w
  | .cel =>
    let x := s.cell u
    if r = R.CEL_STATUS then { x with st := if s.cellRetired u || !s.inBinding u then 4 else x.st }.statusWord w
    else if r = R.CEL_PC then F.CEL_PC_PC.into x.pc w
    else if r = R.CEL_TALLY then (sget 0#16 x.tallies i).toNat
    else if r = R.CEL_BANK then (if i = 0 then x.bank0 else x.bank1).word w
    else w
  | .vlt => if r = R.VLT_ENG_STAT then s.engineWord u i w else w
  | .lnk =>
    if r = R.LNK_LAG then F.LNK_LAG_LAG.into (satBits 16 (s.port u).due.length) w
    else if r = R.LNK_FAB then
      F.LNK_FAB_DRAINED.into (if s.drained u then 1 else 0) (F.LNK_FAB_VC1_HELD.into (satBits 16 (s.vc1Held u)) w)
    else w
  | .mod =>
    if r = R.MOD_NI_STATUS then s.niWord w
    else if r = R.MOD_WGT_STATUS then F.MOD_WGT_STATUS_OPEN.into s.mover.open_.length w
    else if r = R.MOD_DET_PDATA then s.detPartial
    else if r = R.MOD_LED then F.MOD_LED_REPLACE.into (if s.replaceLed = .steady then 1 else 0) w
    else w
  | .tlr => if r = R.TLR_STATUS then s.tlrWord w else if r = R.TLR_SLOT_QUERY then s.slotWord w else w
  | .hst =>
    if r = R.HST_ID then
      F.HST_ID_DEVICE.into (s.get F.MOD_IDENT_PART_CODE) (F.HST_ID_REV.into (s.get F.MOD_IDENT_STEPPING) w)
    else w
  | .pwr =>
    if r = R.PWR_PROT then
      F.PWR_PROT_MAX_LEVEL.into ((List.range 16).foldl (fun m k => max m (s.get F.RGN_CLK_PROT_LEVEL k)) 0) w
    else w
  | .kep => if r = R.KEP_LOG_DATA then s.logData i else w
  | _ => w

/-- The word that a read of a register returns: the latch on the bits of its counter group, the present value elsewhere
(R13). -/
def Lanorun.readWord (s : Lanorun) (r : Reg) (u i : Nat) : Nat :=
  ((s.liveWord r u i) &&& (2 ^ 64 - 1 - r.latched)) ||| (s.latched r u i &&& r.latched)

/-- The bits of a register that a read returns: those of its fields that are not write-only (R9, R11). -/
def readMask : List Fld → Nat
  | [] => 0
  | f :: fs => (if f.acc = .wo then 0 else (2 ^ (f.hi + 1 - f.lo) - 1) * 2 ^ f.lo) ||| readMask fs

def fromHost (w : Requester) : Bool := w == .host

/-- A read of one register (R9), with what reading it does. -/
def Lanorun.readReg (s : Lanorun) (who : Requester) (r : Reg) (u i : Nat) : Nat × Lanorun :=
  if r = R.DBG_RB_DATA then s.rbRead i
  else if r = R.KEP_RTC then s.rtcNow
  else if r = R.HST_MBOX_STATUS ∧ fromHost who then s.mboxStatusRead
  else (s.readWord r u i % 2 ^ 64, s)

/-- The access passes the steward bridge, whose dividers broke their rule (R479). -/
def Lanorun.bridgeBad (s : Lanorun) (who : Requester) : Bool :=
  !s.power.ruleKept && (match who with
    | .head _ => true
    | .block _ => true
    | _ => false)

/-- A read of the control space; none is a bus error. -/
def Lanorun.ctrlRead (s : Lanorun) (who : Requester) (a : Nat) : Option (Nat × Lanorun) :=
  if a % 8 ≠ 0 then none
  else match s.target a with
    | .error => none
    | .zero => some (0, s)
    | .firmware =>
      let (n, s) := s.draw
      some ((Config.firmwareReg n).toNat, s)
    | .reg r fs u i =>
      let (v, t) := s.readReg who r u i
      let v := v &&& readMask fs
      if s.bridgeBad who then
        let (n, t) := t.draw
        some ((Config.bridgeRead n).toNat, t)
      else some (v, t)

/-! ## Writes -/

/-- A write by the access codes alone, with the clear of an error counter by its OVF (R9, R528). -/
def Lanorun.plain (s : Lanorun) (r : Reg) (fs : List Fld) (v u i : Nat) : Lanorun :=
  let s := s.regWrite r fs v u i
  if isErrCounter fs ∧ v.testBit 32 then s.clearErr r u i else s

def fieldOf (f : Fld) (v : Nat) : Nat := bitsOf v f.hi f.lo

/-- The SNAP of a counter group (R13). -/
def Lanorun.snapBy (s : Lanorun) (r : Reg) (u v : Nat) : Lanorun :=
  match snapGrp r with
  | some g => if v.testBit 63 then s.snapGroup g u else s
  | none => s

/-- MOD_ registers. -/
def Lanorun.modWrite (s : Lanorun) (r : Reg) (fs : List Fld) (v u i : Nat) : Lanorun :=
  if r = R.MOD_POSID then
    (if s.planActive then s else (s.put F.MOD_POSID_ID (fieldOf F.MOD_POSID_ID v)).put F.MOD_POSID_VALID 1)
  else
    let s := s.plain r fs v u i
    if r = R.MOD_NI_CTRL then s.snapBy r u v
    else if r = R.MOD_NI_SEND then s.niSend (fieldOf F.MOD_NI_SEND_PKEY v) (fieldOf F.MOD_NI_SEND_ADDR v)
    else if r = R.MOD_WGT_CTRL then
      let s := s.snapBy r u v
      let c := fieldOf F.MOD_WGT_CTRL_CMD v
      if c = 3 then s.moverAbort else s.moverCmd c v
    else if r = R.MOD_DET_CTRL then
      let s := s.snapBy r u v
      if fieldOf F.MOD_DET_CTRL_CAPCLR v = 1 then s.capClr else s
    else if r = R.MOD_PINS ∧ fieldOf F.MOD_PINS_CLK_RET v = 1 then s.clkReturn
    else s

/-- BLF_ registers; an armed slot's tick, kind and argument stay (R51, R52). -/
def Lanorun.blfWrite (s : Lanorun) (r : Reg) (fs : List Fld) (v u i : Nat) : Lanorun :=
  if r = R.BLF_CMD_TICK then (if slotArmed s i then s else s.plain r fs v u i)
  else if r = R.BLF_CMD_CTRL then
    if slotArmed s i then (if fieldOf F.BLF_CMD_CTRL_CANCEL v = 1 then s.slotCancel i else s)
    else
      let s := s.plain r fs v u i
      if fieldOf F.BLF_CMD_CTRL_ARM v = 1 then s.slotArm i else s
  else
    let s := s.plain r fs v u i
    if r = R.BLF_CTRL then
      let s := if fieldOf F.BLF_CTRL_RESTART v = 1 then s.blfRestart else s
      if fieldOf F.BLF_CTRL_SNAP v = 1 then s.blfSnap else s
    else if r = R.BLF_LIMITS then s.setBound s.hall.bound
    else s

/-- RGN_ registers (R54, R55). -/
def Lanorun.rgnWrite (s : Lanorun) (r : Reg) (fs : List Fld) (v u i : Nat) : Lanorun :=
  if r = R.RGN_CLK then
    let s := s.snapBy r u v
    if s.planActive then s
    else
      let m := fieldOf F.RGN_CLK_MODE v
      let s := if m = s.get F.RGN_CLK_MODE u then s else s.modeWrite u (m == 1)
      s.planStepWrite u (fieldOf F.RGN_CLK_PLAN_STEP v)
  else s.plain r fs v u i

/-- PLN_ registers (R69). -/
def Lanorun.plnWrite (s : Lanorun) (r : Reg) (fs : List Fld) (v u i : Nat) : Lanorun :=
  let s := s.plain r fs v u i
  if r = R.PLN_CTRL then
    let s := s.snapBy r u v
    let k := fieldOf F.PLN_CTRL_SLOT v
    let c := fieldOf F.PLN_CTRL_CMD v
    if c = 1 then s.planLoad k else if c = 2 then s.unload k else if c = 3 then s.loadAbort k else s
  else s

/-- CEL_ registers (R127, R141). -/
def Lanorun.celWrite (s : Lanorun) (r : Reg) (fs : List Fld) (v u i : Nat) : Lanorun :=
  let s := s.plain r fs v u i
  if r = R.CEL_CTRL then
    let s := s.snapBy r u v
    let c := fieldOf F.CEL_CTRL_CMD v
    if c = 1 then s.cellStart u else if c = 2 then s.cellStop u else if c = 3 then s.cellStepCmd u else s
  else if r = R.CEL_TALLY_ADD then s.tallyAddWrite u v
  else s

/-- VLT_ registers (R245). -/
def Lanorun.vltWrite (s : Lanorun) (r : Reg) (fs : List Fld) (v u i : Nat) : Lanorun :=
  if r = R.VLT_CRING then s.cringCons i (fieldOf F.VLT_CRING_CONS v) else (s.plain r fs v u i).snapBy r u v

/-- BLK_ registers: block n writes as BLOCK, every other requester as HEAD (R256 to R258). -/
def Lanorun.blkWrite (s : Lanorun) (who : Requester) (r : Reg) (fs : List Fld) (v u i : Nat) : Lanorun :=
  let head := match who with
    | .block _ => false
    | _ => true
  if r = R.BLK_STW_CTRL then
    if head then
      let s := s.stewardHalt u (fieldOf F.BLK_STW_CTRL_HALT v == 1)
      if fieldOf F.BLK_STW_CTRL_RESET v = 1 then s.stewardReset u else s
    else s
  else if r = R.BLK_MBOX_DATA then s.mboxData u head i v
  else
    let s := s.plain r fs v u i
    if r = R.BLK_STW_WDOG then (if fieldOf F.BLK_STW_WDOG_KICK v = 1 then s.wdogKick u else s)
    else if r = R.BLK_MBOX_CTRL then
      let c := fieldOf F.BLK_MBOX_CTRL_CMD v
      if c = 1 then s.mboxAcquire u head else if c = 2 then s.mboxHand u head else if c = 3 then s.mboxRelease u head else s
    else s

/-- LNK_ registers (R298, R306, R307). -/
def Lanorun.lnkWrite (s : Lanorun) (r : Reg) (fs : List Fld) (v u i : Nat) : Lanorun :=
  let s := s.plain r fs v u i
  if r = R.LNK_CTRL then
    let s := s.snapBy r u v
    let c := fieldOf F.LNK_CTRL_CMD v
    let s := if c = 4 then s.cmdTest u else s
    let s := s.linkEnable u (fieldOf F.LNK_CTRL_ENABLE v == 1)
    if c = 1 then s.cmdRetrain u else if c = 2 then s.cmdDown u else if c = 3 then s.cmdPllCal u else s
  else if r = R.LNK_TEST then
    let c := fieldOf F.LNK_TEST_CMD v
    if c = 1 then s.testStart u
    else if c = 2 then
      let (n, s) := s.draw
      s.testStop u (Config.testErrors n).toNat
    else s
  else s

/-- How many variants the SERVING tenancy has (R383); 8 where none serves. -/
def Lanorun.variants (s : Lanorun) : Nat :=
  match s.served with
  | some (im, t) => fieldAt (im.serve t) 0xC 1
  | none => 8

/-- TLR_ registers (R382, R402, R407 to R411). -/
def Lanorun.tellerWrite (s : Lanorun) (r : Reg) (fs : List Fld) (v u i : Nat) : Lanorun :=
  if r = R.TLR_SQ_PTR then
    let s := if s.planActive then s else s.put F.TLR_SQ_PTR_SIZE (fieldOf F.TLR_SQ_PTR_SIZE v)
    let n := queueSize (s.get F.TLR_SQ_PTR_SIZE)
    let s := (s.put F.TLR_SQ_PTR_HEAD (s.get F.TLR_SQ_PTR_HEAD % n)).put F.TLR_SQ_PTR_TAIL (s.get F.TLR_SQ_PTR_TAIL % n)
    s.sqTail (fieldOf F.TLR_SQ_PTR_TAIL v)
  else if r = R.TLR_CQ_PTR then
    let s := if s.planActive then s else s.put F.TLR_CQ_PTR_SIZE (fieldOf F.TLR_CQ_PTR_SIZE v)
    let n := queueSize (s.get F.TLR_CQ_PTR_SIZE)
    (s.put F.TLR_CQ_PTR_TAIL (s.get F.TLR_CQ_PTR_TAIL % n)).put F.TLR_CQ_PTR_HEAD (fieldOf F.TLR_CQ_PTR_HEAD v % n)
  else if r = R.TLR_REQ_CMD then
    let c := fieldOf F.TLR_REQ_CMD_CMD v
    if s.isLead = false then s.notLead
    else if c = 1 ∨ c = 2 then s.reqCmd (c == 2) (fieldOf F.TLR_REQ_CMD_SLOT v) (fieldOf F.TLR_REQ_CMD_TAG v)
    else s.plain r fs v u i
  else if r = R.TLR_VARIANT then
    let s := s.put F.TLR_VARIANT_PIN_EN (fieldOf F.TLR_VARIANT_PIN_EN v)
    let p := fieldOf F.TLR_VARIANT_PIN v
    if p < s.variants then s.put F.TLR_VARIANT_PIN p else s
  else
    let s := s.plain r fs v u i
    if r = R.TLR_CTRL then s.snapBy r u v
    else if r = R.TLR_ACCT_CMD then
      let c := fieldOf F.TLR_ACCT_CMD_CMD v
      let a := fieldOf F.TLR_ACCT_CMD_ACCOUNT v
      if c = 1 then s.acctRead a else if c = 2 then s.acctWrite a else if c = 3 then s.acctAdd a else s
    else s

/-- HST_ registers (R441, R444, R447). Whether a vector is masked is a free value here; MSI-X tables are the host's. -/
def Lanorun.hstWrite (s : Lanorun) (who : Requester) (r : Reg) (fs : List Fld) (v u i : Nat) : Lanorun :=
  if r = R.HST_MBOX_REQ then
    (if fromHost who ∧ s.flag F.HST_MBOX_STATUS_BUSY = false ∧ s.flag F.HST_MBOX_STATUS_READY = false then s.plain r fs v u i
     else s)
  else if r = R.HST_MBOX_RES then
    (if fromHost who = false ∧ s.flag F.HST_MBOX_STATUS_BUSY then s.plain r fs v u i else s)
  else if r = R.HST_MBOX_CTRL then
    let c := fieldOf F.HST_MBOX_CTRL_CMD v
    let a := fieldOf F.HST_MBOX_CTRL_ARG v
    if c = 1 ∧ fromHost who then s.doorbell a
    else if c = 2 ∧ fromHost who then s.mboxAck (fieldOf F.HST_MBOX_CTRL_SEQ v)
    else if c = 3 ∧ fromHost who = false then s.mboxPost a
    else s
  else if r = R.HST_WAKE ∧ fromHost who = false then
    let w := s.get F.HST_WAKE_REASON
    (s.plain r fs v u i).put F.HST_WAKE_REASON w
  else
    let s := s.plain r fs v u i
    if r = R.HST_IRQ_MAP ∧ fieldOf F.HST_IRQ_MAP_REARM v = 1 then
      let (n, s) := s.draw
      s.rearm i (Config.freeBit n)
    else s

/-- ETH_ registers (R453, R457). -/
def Lanorun.ethWrite (s : Lanorun) (r : Reg) (fs : List Fld) (v u i : Nat) : Lanorun :=
  if r = R.ETH_QP_CTRL then s.qpCtrlWrite u i v
  else if r = R.ETH_QP_KEY ∨ r = R.ETH_QP_GID_HI ∨ r = R.ETH_QP_GID_LO then
    (if s.qpState u i = 0 then s.plain r fs v u i else s)
  else
    let s := (s.plain r fs v u i).snapBy r u v
    if r = R.ETH_CTRL then s.ptpJudge u else s

/-- PWR_ registers (R466, R474, R478 to R480). -/
def Lanorun.pwrWrite (s : Lanorun) (r : Reg) (fs : List Fld) (v u i : Nat) : Lanorun :=
  if r = R.PWR_CLKEN then s.clkenWrite (fieldOf F.PWR_CLKEN_EN v)
  else if r = R.PWR_CPCLK then s.cpclkWrite (fieldOf F.PWR_CPCLK_PER_DIV v) (fieldOf F.PWR_CPCLK_STW_DIV v)
  else
    let s := s.plain r fs v u i
    if r = R.PWR_CTRL then s.snapBy r u v
    else if r = R.PWR_EVENT then (if fieldOf F.PWR_EVENT_TRIP v = 1 then forN (fun j (s : Lanorun) => s.put F.PWR_THERM_TRIPPED 0 0 j) 0 24 s else s)
    else if r = R.PWR_PD_CTRL then
      let c := fieldOf F.PWR_PD_CTRL_CMD v
      if c = 1 ∨ c = 2 then s.pdRequest (fieldOf F.PWR_PD_CTRL_DOMAIN v) (c == 1) else s
    else if r = R.PWR_CMU_CTRL ∧ fieldOf F.PWR_CMU_CTRL_START v = 1 then s.cmuStart
    else s

/-- KEP_ registers (R486, R500, R502, R506). -/
def Lanorun.kepWrite (s : Lanorun) (r : Reg) (fs : List Fld) (v u i : Nat) : Lanorun :=
  if r = R.KEP_RTC then s.rtcWrite v
  else if r = R.KEP_CHAIN then s.chainWrite v
  else
    let s := s.plain r fs v u i
    if r = R.KEP_CTRL then
      let s := if fieldOf F.KEP_CTRL_CONFIRM v = 1 then s.fwConfirm else s
      if fieldOf F.KEP_CTRL_ABORT_STAGE v = 1 then s.stageAbort else s
    else s

/-- DBG_ registers (R519, R522, R523, R526, R530, R534, R539). -/
def Lanorun.dbgWrite (s : Lanorun) (who : Requester) (r : Reg) (fs : List Fld) (v u i : Nat) : Lanorun :=
  if r = R.DBG_STATUS then s.setReplace (fieldOf F.DBG_STATUS_REPLACE_CAUSE v)
  else
    let s := s.plain r fs v u i
    if r = R.DBG_CTRL then s.snapBy r u v
    else if r = R.DBG_FREEZE then
      let c := fieldOf F.DBG_FREEZE_CMD v
      if c = 1 then s.freezeNow s.ticks 3 else if c = 2 then s.resumeCmd (fieldOf F.DBG_FREEZE_MODE v == 1)
      else if c = 3 then s.resumeCancel else s
    else if r = R.DBG_RETIRE then
      (if fieldOf F.DBG_RETIRE_CMD v = 1 then s.retire (fieldOf F.DBG_RETIRE_KIND v) (fieldOf F.DBG_RETIRE_UNIT v) else s)
    else if r = R.DBG_SMB then
      (if fieldOf F.DBG_SMB_RECOVER v = 1 then
        let (n, s) := s.draw
        s.smbRetry (Config.freeBit n)
       else s)
    else if r = R.DBG_HS then
      let s := if fieldOf F.DBG_HS_KICK v = 1 then s.hsKick i else s
      if fieldOf F.DBG_HS_RESET v = 1 then
        let (n, s) := s.draw
        s.hsReset who (Config.freeBit n) i
      else s
    else if r = R.DBG_CAP_CTRL then
      let c := fieldOf F.DBG_CAP_CTRL_CMD v
      if c = 1 then s.capStart else if c = 2 then s.capAbort else s
    else s

/-- A write that reaches a register. -/
def Lanorun.writeReg (s : Lanorun) (who : Requester) (r : Reg) (fs : List Fld) (v u i : Nat) : Lanorun :=
  match r.blk with
  | .mod => s.modWrite r fs v u i
  | .blf => s.blfWrite r fs v u i
  | .rgn => s.rgnWrite r fs v u i
  | .pln => s.plnWrite r fs v u i
  | .cel => s.celWrite r fs v u i
  | .vlt => s.vltWrite r fs v u i
  | .blk => s.blkWrite who r fs v u i
  | .lnk => s.lnkWrite r fs v u i
  | .tlr => s.tellerWrite r fs v u i
  | .hst => s.hstWrite who r fs v u i
  | .eth => s.ethWrite r fs v u i
  | .pwr => s.pwrWrite r fs v u i
  | .kep => s.kepWrite r fs v u i
  | .dbg => s.dbgWrite who r fs v u i

/-- A block steward writes the BLK_ window of its block and the CEL_ windows of its cells; every other requester has the
rights of a head steward (R251, R438, R541). -/
def mayWrite (who : Requester) (a : Nat) : Bool :=
  match who, findBlock a with
  | .block n, some (.blk, u, _) => u == n
  | .block n, some (.cel, u, _) => u / 17 == n
  | .block _, _ => false
  | _, _ => true

/-- A write of v at an address that the requester may write; none is a bus error. -/
def Lanorun.writeAt (s : Lanorun) (who : Requester) (a v : Nat) : Option Lanorun :=
  match s.target a with
  | .error => none
  | .zero => some s
  | .firmware => some s
  | .reg r fs u i => some (s.writeReg who r fs (v % 2 ^ 64) u i)

/-- A write to the control space; none is a bus error (R12, R23, R251, R470). Through a bridge that broke its rule it arrives, is
lost, or reaches another register (R479). -/
def Lanorun.ctrlWrite (s : Lanorun) (who : Requester) (a v : Nat) : Option Lanorun :=
  if a % 8 ≠ 0 ∨ mayWrite who a = false then none
  else if s.bridgeBad who then
    match s.target a with
    | .error => none
    | _ =>
      let (n, s) := s.draw
      match Config.bridgeWrite n with
      | some none => s.writeAt who a v
      | some (some b) => some ((s.writeAt who b.toNat v).getD s)
      | none => some s
  else s.writeAt who a v

/-! ## The host and JTAG -/

/-- A host access met a bus error (R438, R439). -/
def Lanorun.hostBusErr (s : Lanorun) (vault : Bool) (a : Nat) : Lanorun :=
  ((s.event F.HST_EVENT_BUS_ERR).put F.HST_BUSERR_SPACE (if vault then 1 else 0)).put F.HST_BUSERR_ADDR a

/-- The host's read is answered: bytes, or Completer Abort. -/
def Lanorun.hostAnswer (s : Lanorun) (a : Option (List (BitVec 8))) (ep : Bool) : Lanorun :=
  s.setHost fun h => { h with answer := a, poisoned := ep }

/-- The endpoint takes memory requests: PD110 is on, it is out of reset, in D0 with its link trained, and stage HEAD has begun,
before which it answers Configuration Requests with Request Retry Status (R442, R443, R490). -/
def Lanorun.hostReaches (s : Lanorun) : Bool :=
  s.isOn 110 && !s.host.inReset && s.get F.HST_STATUS_DSTATE == 0 && decide (s.get F.HST_STATUS_LSTATE ≤ 2) && s.configReady

/-- The control-space address of a BAR0 offset (R437). -/
def Lanorun.bar0 (s : Lanorun) (o : Nat) : Nat :=
  if o < 0x1000000 then o else (s.get F.HST_CWIN_BASE * 2 ^ 24 + (o - 0x1000000)) % 2 ^ 48

/-- A BAR0 access (R438). -/
def Lanorun.bar0Access (s : Lanorun) (write : Bool) (o n v : Nat) : Lanorun :=
  if s.hostReaches = false then s
  else
    let a := s.bar0 o
    if write then
      match (if n = 8 then s.ctrlWrite .host a v else none) with
      | some t => t
      | none => s.hostBusErr false a
    else
      match (if n = 8 then s.ctrlRead .host a else none) with
      | some (w, t) => t.hostAnswer (some (leBytes 8 w)) false
      | none => (s.hostBusErr false a).hostAnswer none false

/-- The vault address of a BAR2 offset (R437). -/
def Lanorun.bar2 (s : Lanorun) (o : Nat) : Nat := s.get F.HST_MWIN_VAULT * 2 ^ 36 + o % 2 ^ 36

/-- A BAR2 read of n bytes (R439). -/
def Lanorun.bar2Read (s : Lanorun) (o n : Nat) (errs : List VaultErr) : Lanorun :=
  if s.hostReaches = false then s
  else
    let a := s.bar2 o
    if s.vaultReady (vaultOf a) = false then (s.hostBusErr true a).hostAnswer none false
    else
      let s := s.vaultErrs errs
      let bad := s.poisoned a n
      let d := s.dram a n
      (bad.foldl (fun s g => s.memUe g none) s).hostAnswer (some d) (!bad.isEmpty)

/-- Bytes a to a + n - 1 of vault space touch the control-ring region (R216). -/
def inCring (a n : Nat) : Bool := decide (a < 0x1000000000) && decide (0xFFF000000 < a + n) && decide (n ≠ 0)

/-- Bytes a to a + n - 1 of vault space touch the staging buffer (R502). -/
def inStage (a n : Nat) : Bool := decide (a < 0xFA2000000) && decide (0xFA0000000 < a + n) && decide (n ≠ 0)

/-- The reason that an active tenancy's PROTECT refuses a write of n bytes at a, where one does (R360). -/
def Lanorun.protects (s : Lanorun) (a n : Nat) : Bool :=
  match s.activeImage with
  | some im => (List.range im.tenancyCount).any fun t => (s.protectReason im t a n).isSome
  | none => false

/-- A BAR2 write (R439, R502). -/
def Lanorun.bar2Write (s : Lanorun) (o : Nat) (data : List (BitVec 8)) : Lanorun :=
  if s.hostReaches = false then s
  else
    let a := s.bar2 o
    let n := data.length
    if s.vaultReady (vaultOf a) = false ∨ inCring a n ∨ (inStage a n ∧ s.stageFree 1 = false) then s.hostBusErr true a
    else if s.protects a n then (s.event F.MOD_WGT_EVENT_PROTECT).hostBusErr true a
    else if inStage a n then
      let lo := max a 0xFA0000000
      ((s.stageTake 1).dramWrite a data).stageWritten (lo - 0xFA0000000) (min (a + n) 0xFA2000000 - lo)
    else s.dramWrite a data

/-- The JTAG control access that runs completes: 0 OK with its data, 2 bus error (R541). -/
def Lanorun.ctrlFinish (s : Lanorun) : Lanorun :=
  match s.jtag.run with
  | none => s
  | some (write, a, v) =>
    let s := s.setJtag fun j => { j with run := none, status := 2 }
    if write then
      match s.ctrlWrite .jtag a v with
      | some t => t.setJtag fun j => { j with status := 0 }
      | none => s
    else
      match s.ctrlRead .jtag a with
      | some (w, t) => t.setJtag fun j => { j with data := w, status := 0 }
      | none => s

/-- The W1C bits of a register (R9). -/
def w1cMask : List Fld → Nat
  | [] => 0
  | f :: fs => (if f.acc = .w1c then (2 ^ (f.hi + 1 - f.lo) - 1) * 2 ^ f.lo else 0) ||| w1cMask fs

/-- The value that a write amounts to where hardware sets the bits of same in its cycle: a W1C bit that has been set so stays
set, as if the write had not named it (R10). -/
def Lanorun.writeValue (s : Lanorun) (a v same : Nat) : Nat :=
  match s.target a with
  | .reg r fs u i => v &&& (2 ^ 64 - 1 - (s.reg r u i &&& same &&& w1cMask fs))
  | _ => v

/-- A register write by a requester, with the bus error that the host meets (R9, R10, R438). -/
def Lanorun.regWriteBy (s : Lanorun) (who : Requester) (a v same : Nat) : Lanorun :=
  match s.ctrlWrite who a (s.writeValue a (v % 2 ^ 64) same) with
  | some t => t
  | none => if fromHost who then s.hostBusErr false a else s

end Sys2Proof.Machine
end

