-- ==== Sys2Proof/Machine/Steward.lean ====
section
/-! DEFINITION. The steward cores: RV64IMAC with Zicsr and Zifencei in machine mode (R249), their address spaces and rights
(R250 to R252), wide writes (R254) and WFI. -/
namespace Sys2Proof.Machine

/-! ## Memory -/

/-- The outcome of an access: a value and the state after it, or the cause of an exception (R252). -/
inductive MemRes where
  | ok (v : Nat) (s : Lanorun)
  | fault (cause : Nat)

/-- Where a steward address lies (R250). -/
inductive Space where
  | ctrl (a : Nat)
  | isram (o : Nat)
  | dsram (o : Nat)
  | vault (a : Nat)
  | store (p o : Nat)
  | other (j o : Nat)
  | none
  deriving DecidableEq, Repr

/-- The steward of an SRAM window: 0 to 79 are block stewards, 0x80 to 0x83 head stewards (R250). -/
def sramOwner (n : Nat) : Option Nat :=
  if n < 80 then some n else if 0x80 ≤ n ∧ n ≤ 0x83 then some (80 + (n - 0x80)) else none

/-- The space that a steward address names (R250). -/
def spaceOf (a : Nat) : Space :=
  let k := a / 2 ^ 48
  let o := a % 2 ^ 48
  if k = 0 then .ctrl o
  else if k = 1 then (if o < 0x10000 then .isram o else if o < 0x20000 then .dsram (o - 0x10000) else .none)
  else if k = 2 then (if o < 2 ^ 39 then .vault o else .none)
  else if k = 3 then (if o / 2 ^ 20 < 1360 then .store (o / 2 ^ 20) (o % 2 ^ 20) else .none)
  else if k = 4 then
    match sramOwner (o / 0x20000) with
    | some j => .other j (o % 0x20000)
    | none => .none
  else .none

/-- The space that an address of steward i names; its own window of the table's last row holds its own SRAMs (R250, R251). -/
def spaceFor (i a : Nat) : Space :=
  match spaceOf a with
  | .other j o => if j = i then (if o < 0x10000 then .isram o else .dsram (o - 0x10000)) else .other j o
  | sp => sp

/-- A steward as a requester of the control space. -/
def stwWho (i : Nat) : Requester := if i < 80 then .block i else .head (i - 80)

/-- Vault bytes that a block steward may not write: the image slots and the control-ring region (R216, R251). -/
def heldVault (a n : Nat) : Bool :=
  let v := vaultOf a
  let o := vaultOffset a
  (decide (v < 4) && decide (o < 0xFA0000000) && decide (0xF80000000 < o + n)) || (decide (v = 0) && decide (0xFFF000000 < o + n))

/-- Steward i may reach a space, apart from writes that R251 keeps from block stewards; the domain concerned is ON (R251, R470). -/
def Lanorun.stwReaches (s : Lanorun) (i : Nat) : Space → Bool
  | .ctrl _ | .isram _ | .dsram _ => true
  | .vault a => s.vaultReady (vaultOf a)
  | .store p _ => (decide (80 ≤ i) || p / 17 == i) && s.isOn (p / 17)
  | .other j _ => decide (80 ≤ i) && (decide (80 ≤ j) || s.isOn j)
  | .none => false

/-- A load of n bytes from address a (R252). -/
def Lanorun.stwLoad (s : Lanorun) (i a n : Nat) : MemRes :=
  let sp := spaceFor i a
  match sp with
  | .dsram o => if a % n ≠ 0 then .fault 4 else .ok (leNat (sgets 0#8 (s.steward i).dsram o n)) s
  | _ =>
    if a % n ≠ 0 ∨ s.stwReaches i sp = false then .fault 5
    else match sp with
      | .ctrl x =>
        match (if n = 8 then s.ctrlRead (stwWho i) x else none) with
        | some (v, t) => .ok v t
        | none => .fault 5
      | .isram o => .ok (leNat (sgets 0#8 (s.steward i).isram o n)) s
      | .vault x => .ok (leNat (s.dram x n)) ((s.poisoned x n).foldl (fun t g => t.memUe g none) s)
      | .store p o =>
        let c := s.cell p
        .ok (leNat (c.storeBytes o n)) (if c.poison.contains (o / 32) then s.cellUe p 15 c.pc else s)
      | .other j o =>
        let y := s.steward j
        .ok (leNat (if o < 0x10000 then sgets 0#8 y.isram o n else sgets 0#8 y.dsram (o - 0x10000) n)) s
      | _ => .fault 5

/-- Bytes written to an instruction SRAM; what they replace may still be fetched until FENCE.I (R252). -/
def Steward.putCode (x : Steward) (o : Nat) (bs : List (BitVec 8)) : Steward :=
  let old := (List.range bs.length).filterMap fun k =>
    if x.stale.any (fun e => e.1 == o + k) then none else some (o + k, sget 0#8 x.isram (o + k))
  { x with isram := ssets 0#8 x.isram o bs, stale := x.stale ++ old }

/-- Bytes written to a data SRAM by another agent break a reservation that they meet. -/
def Steward.putData (x : Steward) (o : Nat) (bs : List (BitVec 8)) (own : Bool) : Steward :=
  let meets := match x.resv with
    | some (r, n) => decide (r < o + bs.length) && decide (o < r + n)
    | none => false
  { x with dsram := ssets 0#8 x.dsram o bs, resv := if meets && !own then none else x.resv }

/-- A vault write by a steward; the unused bytes of the control-ring region ignore writes (R245). -/
def Lanorun.stwVault (s : Lanorun) (a : Nat) (bs : List (BitVec 8)) : Lanorun :=
  if 0xFFF0C0000 ≤ a ∧ a < 0x1000000000 then s else s.dramWrite a bs

/-- A write of whole bytes to vault or cell-store space, by a store or a wide write; none is refused (R251, R252). -/
def Lanorun.stwPut (s : Lanorun) (i : Nat) (sp : Space) (bs : List (BitVec 8)) : Option Lanorun :=
  if s.stwReaches i sp = false then none
  else match sp with
    | .vault a => if i < 80 ∧ heldVault a bs.length then none else some (s.stwVault a bs)
    | .store p o => some (s.setCell p ((s.cell p).meshWrite o bs))
    | _ => none

/-- A store of n bytes of v to address a (R252). -/
def Lanorun.stwStore (s : Lanorun) (i a n v : Nat) : MemRes :=
  let sp := spaceFor i a
  let bs := leBytes n v
  match sp with
  | .dsram o => if a % n ≠ 0 then .fault 6 else .ok 0 (s.setSteward i ((s.steward i).putData o bs true))
  | _ =>
    if a % n ≠ 0 ∨ s.stwReaches i sp = false then .fault 7
    else match sp with
      | .ctrl x =>
        match (if n = 8 then s.ctrlWrite (stwWho i) x v else none) with
        | some t => .ok 0 t
        | none => .fault 7
      | .isram o => .ok 0 (s.setSteward i ((s.steward i).putCode o bs))
      | .other j o =>
        let y := s.steward j
        .ok 0 (s.setSteward j (if o < 0x10000 then y.putCode o bs else y.putData (o - 0x10000) bs (i == j)))
      | _ =>
        match s.stwPut i sp bs with
        | some t => .ok 0 t
        | none => .fault 7

/-- The 32 bytes of vwide0 to vwide3. -/
def Steward.wide (x : Steward) : List (BitVec 8) := (List.range 4).flatMap fun k => leBytes 8 (x.csr (0x7C4 + k))

/-- A write of address a to vwidego: one write of 32 bytes to cell-store or vault space, else cause 7 (R254). -/
def Lanorun.wideWrite (s : Lanorun) (i a : Nat) : Option Lanorun :=
  if a % 32 ≠ 0 then none else s.stwPut i (spaceFor i a) (s.steward i).wide

/-! ## Instructions -/

/-- The outcome of an instruction: the next pc, or an exception with its cause and mtval. -/
inductive RvRes where
  | next (s : Lanorun) (pc : Nat)
  | trap (cause tval : Nat)

/-- The low n bits of v, sign-extended to 64 bits. -/
def sx (n v : Nat) : Nat := ofSigned 64 (toSigned n (v % 2 ^ n))

/-- Register r of a steward; x0 reads zero. -/
def Steward.rx (x : Steward) (r : Nat) : Nat := if r = 0 then 0 else (sget 0#64 x.x r).toNat
def Lanorun.rx (s : Lanorun) (i r : Nat) : Nat := (s.steward i).rx r
/-- Writes register r; a write to x0 is discarded. -/
def Lanorun.setX (s : Lanorun) (i r v : Nat) : Lanorun :=
  if r = 0 then s
  else
    let x := s.steward i
    s.setSteward i { x with x := sset 0#64 x.x r (BitVec.ofNat 64 v) }

/-- OP and OP-IMM by funct3; alt is SUB and SRA. -/
def aluOp (f3 : Nat) (alt : Bool) (a b : BitVec 64) : BitVec 64 :=
  let sh := b.toNat % 64
  if f3 = 0 then (if alt then a - b else a + b)
  else if f3 = 1 then a <<< sh
  else if f3 = 2 then (if a.slt b then 1 else 0)
  else if f3 = 3 then (if a.ult b then 1 else 0)
  else if f3 = 4 then a ^^^ b
  else if f3 = 5 then (if alt then a.sshiftRight sh else a >>> sh)
  else if f3 = 6 then a ||| b
  else a &&& b

/-- The 32-bit forms; the result is sign-extended. -/
def aluOp32 (f3 : Nat) (alt : Bool) (a b : BitVec 32) : BitVec 64 :=
  let sh := b.toNat % 32
  (if f3 = 0 then (if alt then a - b else a + b)
   else if f3 = 1 then a <<< sh
   else if alt then a.sshiftRight sh else a >>> sh).signExtend 64

/-- Signed division: by zero all ones, and the overflow keeps the dividend. -/
def divS {w : Nat} (a b : BitVec w) : BitVec w := if b = 0 then BitVec.allOnes w else a.sdiv b
def remS {w : Nat} (a b : BitVec w) : BitVec w := if b = 0 then a else a.srem b
def divU {w : Nat} (a b : BitVec w) : BitVec w := if b = 0 then BitVec.allOnes w else a / b
def remU {w : Nat} (a b : BitVec w) : BitVec w := if b = 0 then a else a % b

/-- The M extension by funct3. -/
def mulOp (f3 : Nat) (a b : BitVec 64) : BitVec 64 :=
  if f3 = 0 then a * b
  else if f3 = 1 then BitVec.ofInt 64 (a.toInt * b.toInt / 2 ^ 64)
  else if f3 = 2 then BitVec.ofInt 64 (a.toInt * b.toNat / 2 ^ 64)
  else if f3 = 3 then BitVec.ofNat 64 (a.toNat * b.toNat / 2 ^ 64)
  else if f3 = 4 then divS a b
  else if f3 = 5 then divU a b
  else if f3 = 6 then remS a b
  else remU a b

/-- The 32-bit M forms. -/
def mulOp32 (f3 : Nat) (a b : BitVec 32) : BitVec 64 :=
  (if f3 = 0 then a * b else if f3 = 4 then divS a b else if f3 = 5 then divU a b
   else if f3 = 6 then remS a b else remU a b).signExtend 64

/-- A branch is taken, by funct3; none for a reserved code. -/
def branchTaken (f3 : Nat) (a b : BitVec 64) : Option Bool :=
  if f3 = 0 then some (a == b) else if f3 = 1 then some (a != b) else if f3 = 4 then some (a.slt b)
  else if f3 = 5 then some (!a.slt b) else if f3 = 6 then some (a.ult b) else if f3 = 7 then some (!a.ult b) else none

/-- The value that an AMO stores, by funct5; none for a reserved code. -/
def amoOp {w : Nat} (f5 : Nat) (m r : BitVec w) : Option (BitVec w) :=
  if f5 = 0 then some (m + r) else if f5 = 1 then some r else if f5 = 4 then some (m ^^^ r)
  else if f5 = 8 then some (m ||| r) else if f5 = 12 then some (m &&& r)
  else if f5 = 16 then some (if m.slt r then m else r) else if f5 = 20 then some (if m.slt r then r else m)
  else if f5 = 24 then some (if m.ult r then m else r) else if f5 = 28 then some (if m.ult r then r else m)
  else none

/-- Fields of a 32-bit instruction. -/
def rvRd (w : Nat) : Nat := bitsOf w 11 7
def rvF3 (w : Nat) : Nat := bitsOf w 14 12
def rvRs1 (w : Nat) : Nat := bitsOf w 19 15
def rvRs2 (w : Nat) : Nat := bitsOf w 24 20
def rvF7 (w : Nat) : Nat := bitsOf w 31 25
def immI (w : Nat) : Nat := sx 12 (bitsOf w 31 20)
def immS (w : Nat) : Nat := sx 12 (bitsOf w 31 25 * 32 + bitsOf w 11 7)
def immB (w : Nat) : Nat := sx 13 (bitsOf w 31 31 * 4096 + bitsOf w 7 7 * 2048 + bitsOf w 30 25 * 32 + bitsOf w 11 8 * 2)
def immU (w : Nat) : Nat := sx 32 (bitsOf w 31 12 * 4096)
def immJ (w : Nat) : Nat :=
  sx 21 (bitsOf w 31 31 * 2 ^ 20 + bitsOf w 19 12 * 4096 + bitsOf w 20 20 * 2048 + bitsOf w 30 21 * 2)

/-- The context of an instruction: its steward, its word as a 32-bit instruction, its bits as fetched, and its length. -/
structure RvCtx where
  i : Nat
  w : Nat
  raw : Nat
  len : Nat
  pc : Nat

def RvCtx.illegal (k : RvCtx) : RvRes := .trap 2 k.raw
def RvCtx.seq (k : RvCtx) : Nat := (k.pc + k.len) % 2 ^ 64
/-- The instruction writes rd and goes on. -/
def RvCtx.write (k : RvCtx) (s : Lanorun) (v : Nat) : RvRes := .next (s.setX k.i (rvRd k.w) v) k.seq
def RvCtx.a (k : RvCtx) (s : Lanorun) : BitVec 64 := BitVec.ofNat 64 (s.rx k.i (rvRs1 k.w))
def RvCtx.b (k : RvCtx) (s : Lanorun) : BitVec 64 := BitVec.ofNat 64 (s.rx k.i (rvRs2 k.w))

/-- OP-IMM and OP-IMM-32. -/
def rvImm (k : RvCtx) (s : Lanorun) : RvRes :=
  let f3 := rvF3 k.w
  let b := BitVec.ofNat 64 (immI k.w)
  let hi := bitsOf k.w 31 26
  if f3 = 1 then (if hi = 0 then k.write s (aluOp 1 false (k.a s) (b &&& 63)).toNat else k.illegal)
  else if f3 = 5 then
    (if hi = 0 ∨ hi = 0x10 then k.write s (aluOp 5 (hi == 0x10) (k.a s) (b &&& 63)).toNat else k.illegal)
  else k.write s (aluOp f3 false (k.a s) b).toNat

def rvImm32 (k : RvCtx) (s : Lanorun) : RvRes :=
  let f3 := rvF3 k.w
  let a := (k.a s).setWidth 32
  let f7 := rvF7 k.w
  if f3 = 0 then k.write s (aluOp32 0 false a (BitVec.ofNat 32 (immI k.w))).toNat
  else if (f3 = 1 ∧ f7 = 0) ∨ (f3 = 5 ∧ (f7 = 0 ∨ f7 = 0x20)) then
    k.write s (aluOp32 f3 (f7 == 0x20) a (BitVec.ofNat 32 (rvRs2 k.w))).toNat
  else k.illegal

/-- OP and OP-32, with the M extension. -/
def rvOp (k : RvCtx) (s : Lanorun) : RvRes :=
  let f3 := rvF3 k.w
  let f7 := rvF7 k.w
  if f7 = 1 then k.write s (mulOp f3 (k.a s) (k.b s)).toNat
  else if f7 = 0 ∨ (f7 = 0x20 ∧ (f3 = 0 ∨ f3 = 5)) then k.write s (aluOp f3 (f7 == 0x20) (k.a s) (k.b s)).toNat
  else k.illegal

def rvOp32 (k : RvCtx) (s : Lanorun) : RvRes :=
  let f3 := rvF3 k.w
  let f7 := rvF7 k.w
  let a := (k.a s).setWidth 32
  let b := (k.b s).setWidth 32
  if f7 = 1 then (if f3 = 0 ∨ 4 ≤ f3 then k.write s (mulOp32 f3 a b).toNat else k.illegal)
  else if (f7 = 0 ∧ (f3 = 0 ∨ f3 = 1 ∨ f3 = 5)) ∨ (f7 = 0x20 ∧ (f3 = 0 ∨ f3 = 5)) then
    k.write s (aluOp32 f3 (f7 == 0x20) a b).toNat
  else k.illegal

/-- Loads and stores. -/
def rvLoad (k : RvCtx) (s : Lanorun) : RvRes :=
  let f3 := rvF3 k.w
  let a := ((k.a s).toNat + immI k.w) % 2 ^ 64
  let n := 2 ^ (f3 % 4)
  if f3 = 7 then k.illegal
  else match s.stwLoad k.i a n with
    | .ok v t => k.write t (if f3 < 4 then sx (8 * n) v else v)
    | .fault c => .trap c a

def rvStore (k : RvCtx) (s : Lanorun) : RvRes :=
  let f3 := rvF3 k.w
  let a := ((k.a s).toNat + immS k.w) % 2 ^ 64
  if 3 < f3 then k.illegal
  else match s.stwStore k.i a (2 ^ f3) ((k.b s).toNat % 2 ^ (8 * 2 ^ f3)) with
    | .ok _ t => .next t k.seq
    | .fault c => .trap c a

/-- LR, SC and the AMOs, on the steward's own data SRAM alone (R252). -/
def rvAmo (k : RvCtx) (s : Lanorun) : RvRes :=
  let f3 := rvF3 k.w
  let f5 := bitsOf k.w 31 27
  let n := 2 ^ f3
  let a := (k.a s).toNat
  let x := s.steward k.i
  let b := (k.b s).toNat
  if f3 ≠ 2 ∧ f3 ≠ 3 then k.illegal
  else if f5 ≠ 3 ∧ (f5 ≠ 2 ∨ rvRs2 k.w ≠ 0) ∧ amoOp f5 (0#64) 0#64 = none then k.illegal
  else match spaceFor k.i a with
    | .dsram o =>
      if a % n ≠ 0 then .trap (if f5 = 2 then 4 else 6) a
      else
        let old := leNat (sgets 0#8 x.dsram o n)
        if f5 = 2 then k.write (s.setSteward k.i { x with resv := some (o, n) }) (sx (8 * n) old)
        else if f5 = 3 then
          if x.resv = some (o, n) then
            k.write (s.setSteward k.i { x.putData o (leBytes n b) true with resv := none }) 0
          else k.write (s.setSteward k.i { x with resv := none }) 1
        else
          let v := if n = 4 then ((amoOp f5 (BitVec.ofNat 32 old) (BitVec.ofNat 32 b)).getD 0).toNat
            else ((amoOp f5 (BitVec.ofNat 64 old) (BitVec.ofNat 64 b)).getD 0).toNat
          k.write (s.setSteward k.i (x.putData o (leBytes n v) true)) (sx (8 * n) old)
    | _ => .trap 7 a

/-- A CSR instruction writes its CSR: CSRRW always, the others where their source field is not zero. -/
def csrWrites (w : Nat) : Bool := rvF3 w % 4 == 1 || rvRs1 w != 0

/-- CSRRW, CSRRS, CSRRC and their immediate forms (R253, R254). -/
def rvCsr (k : RvCtx) (s : Lanorun) : RvRes :=
  let f3 := rvF3 k.w
  let n := bitsOf k.w 31 20
  let src := if 4 ≤ f3 then rvRs1 k.w else (k.a s).toNat
  match s.csrRead k.i n with
  | none => k.illegal
  | some old =>
    if csrWrites k.w = false then k.write s old
    else if n / 1024 = 3 then k.illegal
    else
      let v := if f3 % 4 = 1 then src else if f3 % 4 = 2 then old ||| src else old &&& (2 ^ 64 - 1 - src)
      if n = 0x7C8 then
        match s.wideWrite k.i v with
        | some t => k.write t old
        | none => .trap 7 v
      else k.write (s.csrWrite k.i n v) old

/-- WFI: issue stops until an enabled interrupt is pending (R249). -/
def rvWfi (k : RvCtx) (s : Lanorun) : RvRes :=
  .next (if s.stwPending k.i = 0 then s.setSteward k.i { s.steward k.i with wfi := true } else s) k.seq

/-- SYSTEM. -/
def rvSystem (k : RvCtx) (s : Lanorun) : RvRes :=
  if rvF3 k.w % 4 ≠ 0 then rvCsr k s
  else if k.w = 0x73 then .trap 11 0
  else if k.w = 0x100073 then .trap 3 k.pc
  else if k.w = 0x30200073 then
    let x := (s.steward k.i).mret
    .next (s.setSteward k.i x) x.pc
  else if k.w = 0x10500073 then rvWfi k s
  else k.illegal

/-- Executes an instruction. -/
def rvExec (k : RvCtx) (s : Lanorun) : RvRes :=
  let op := k.w % 128
  let f3 := rvF3 k.w
  if op = 0x37 then k.write s (immU k.w)
  else if op = 0x17 then k.write s ((k.pc + immU k.w) % 2 ^ 64)
  else if op = 0x6F then .next (s.setX k.i (rvRd k.w) k.seq) ((k.pc + immJ k.w) % 2 ^ 64)
  else if op = 0x67 then
    (if f3 = 0 then .next (s.setX k.i (rvRd k.w) k.seq) (((k.a s).toNat + immI k.w) % 2 ^ 64 / 2 * 2) else k.illegal)
  else if op = 0x63 then
    match branchTaken f3 (k.a s) (k.b s) with
    | some t => .next s (if t then (k.pc + immB k.w) % 2 ^ 64 else k.seq)
    | none => k.illegal
  else if op = 0x03 then rvLoad k s
  else if op = 0x23 then rvStore k s
  else if op = 0x13 then rvImm k s
  else if op = 0x1B then rvImm32 k s
  else if op = 0x33 then rvOp k s
  else if op = 0x3B then rvOp32 k s
  else if op = 0x2F then rvAmo k s
  else if op = 0x0F then
    (if f3 = 0 then .next s k.seq
     else if f3 = 1 then .next (s.setSteward k.i { s.steward k.i with stale := [] }) k.seq
     else k.illegal)
  else if op = 0x73 then rvSystem k s
  else k.illegal

/-! ## Compressed instructions -/

def encI (op f3 rd rs1 imm : Nat) : Nat := imm % 4096 * 2 ^ 20 + rs1 * 2 ^ 15 + f3 * 2 ^ 12 + rd * 2 ^ 7 + op
def encR (op f3 f7 rd rs1 rs2 : Nat) : Nat := f7 * 2 ^ 25 + rs2 * 2 ^ 20 + rs1 * 2 ^ 15 + f3 * 2 ^ 12 + rd * 2 ^ 7 + op
def encS (f3 rs1 rs2 imm : Nat) : Nat := encR 0x23 f3 (imm / 32 % 128) (imm % 32) rs1 rs2
def encB (f3 rs1 imm : Nat) : Nat :=
  encR 0x63 f3 (imm / 4096 % 2 * 64 + imm / 32 % 64) (imm / 2 % 16 * 2 + imm / 2048 % 2) rs1 0
def encJ (rd imm : Nat) : Nat :=
  imm / 2 ^ 20 % 2 * 2 ^ 31 + imm / 2 % 1024 * 2 ^ 21 + imm / 2048 % 2 * 2 ^ 20 + imm / 4096 % 256 * 2 ^ 12 + rd * 2 ^ 7 + 0x6F

/-- The 6-bit immediate of a compressed instruction, and its 3-bit registers. -/
def cImm (h : Nat) : Nat := sx 6 (bitsOf h 12 12 * 32 + bitsOf h 6 2)
def cShamt (h : Nat) : Nat := bitsOf h 12 12 * 32 + bitsOf h 6 2
def cHi (h : Nat) : Nat := 8 + bitsOf h 9 7
def cLo (h : Nat) : Nat := 8 + bitsOf h 4 2

def rvc0 (h : Nat) : Option Nat :=
  let f := bitsOf h 15 13
  let d := bitsOf h 12 10 * 8 + bitsOf h 6 5 * 64
  let w := bitsOf h 12 10 * 8 + bitsOf h 6 6 * 4 + bitsOf h 5 5 * 64
  let n := bitsOf h 12 11 * 16 + bitsOf h 10 7 * 64 + bitsOf h 6 6 * 4 + bitsOf h 5 5 * 8
  if f = 0 then (if n = 0 then none else some (encI 0x13 0 (cLo h) 2 n))
  else if f = 2 then some (encI 0x03 2 (cLo h) (cHi h) w)
  else if f = 3 then some (encI 0x03 3 (cLo h) (cHi h) d)
  else if f = 6 then some (encS 2 (cHi h) (cLo h) w)
  else if f = 7 then some (encS 3 (cHi h) (cLo h) d)
  else none

def rvc1Alu (h : Nat) : Option Nat :=
  let k := bitsOf h 11 10
  let r := cHi h
  let j := bitsOf h 6 5
  if k = 0 then some (encI 0x13 5 r r (cShamt h))
  else if k = 1 then some (encI 0x13 5 r r (1024 + cShamt h))
  else if k = 2 then some (encI 0x13 7 r r (cImm h))
  else if bitsOf h 12 12 = 0 then
    some (if j = 0 then encR 0x33 0 0x20 r r (cLo h) else encR 0x33 (if j = 1 then 4 else if j = 2 then 6 else 7) 0 r r (cLo h))
  else if j = 0 then some (encR 0x3B 0 0x20 r r (cLo h))
  else if j = 1 then some (encR 0x3B 0 0 r r (cLo h))
  else none

def rvc1 (h : Nat) : Option Nat :=
  let f := bitsOf h 15 13
  let rd := bitsOf h 11 7
  let sp := sx 10 (bitsOf h 12 12 * 512 + bitsOf h 4 3 * 128 + bitsOf h 5 5 * 64 + bitsOf h 2 2 * 32 + bitsOf h 6 6 * 16)
  let j := sx 12 (bitsOf h 12 12 * 2048 + bitsOf h 8 8 * 1024 + bitsOf h 10 9 * 256 + bitsOf h 6 6 * 128 + bitsOf h 7 7 * 64 +
    bitsOf h 2 2 * 32 + bitsOf h 11 11 * 16 + bitsOf h 5 3 * 2)
  let b := sx 9 (bitsOf h 12 12 * 256 + bitsOf h 6 5 * 64 + bitsOf h 2 2 * 32 + bitsOf h 11 10 * 8 + bitsOf h 4 3 * 2)
  if f = 0 then some (encI 0x13 0 rd rd (cImm h))
  else if f = 1 then (if rd = 0 then none else some (encI 0x1B 0 rd rd (cImm h)))
  else if f = 2 then some (encI 0x13 0 rd 0 (cImm h))
  else if f = 3 then
    if rd = 2 then (if sp = 0 then none else some (encI 0x13 0 2 2 sp))
    else if cShamt h = 0 then none
    else some (cImm h % 2 ^ 20 * 4096 + rd * 2 ^ 7 + 0x37)
  else if f = 4 then rvc1Alu h
  else if f = 5 then some (encJ 0 j)
  else some (encB (f - 6) (cHi h) b)

def rvc2 (h : Nat) : Option Nat :=
  let f := bitsOf h 15 13
  let rd := bitsOf h 11 7
  let rs2 := bitsOf h 6 2
  if f = 0 then some (encI 0x13 1 rd rd (cShamt h))
  else if f = 2 then
    (if rd = 0 then none else some (encI 0x03 2 rd 2 (bitsOf h 12 12 * 32 + bitsOf h 6 4 * 4 + bitsOf h 3 2 * 64)))
  else if f = 3 then
    (if rd = 0 then none else some (encI 0x03 3 rd 2 (bitsOf h 12 12 * 32 + bitsOf h 6 5 * 8 + bitsOf h 4 2 * 64)))
  else if f = 4 then
    if bitsOf h 12 12 = 0 then
      if rs2 = 0 then (if rd = 0 then none else some (encI 0x67 0 0 rd 0)) else some (encR 0x33 0 0 rd 0 rs2)
    else if rs2 = 0 then (if rd = 0 then some 0x100073 else some (encI 0x67 0 1 rd 0))
    else some (encR 0x33 0 0 rd rd rs2)
  else if f = 6 then some (encS 2 2 rs2 (bitsOf h 12 9 * 4 + bitsOf h 8 7 * 64))
  else if f = 7 then some (encS 3 2 rs2 (bitsOf h 12 10 * 8 + bitsOf h 9 7 * 64))
  else none

/-- The 32-bit instruction that a compressed one stands for; none where it is reserved or outside the profile. -/
def rvc (h : Nat) : Option Nat := if h % 4 = 0 then rvc0 h else if h % 4 = 1 then rvc1 h else rvc2 h

/-! ## Issue -/

/-- A byte fetched from the instruction SRAM: one written since the last FENCE.I may be the old or the new one (R252). -/
def Steward.fetchByte (x : Steward) (draw o : Nat) : BitVec 8 :=
  match x.stale.find? fun e => e.1 == o with
  | some e => if Config.fetchNew draw o then sget 0#8 x.isram o else e.2
  | none => sget 0#8 x.isram o

/-- n bytes of instruction at a steward address; none outside the own instruction SRAM (R252). -/
def Steward.fetch (x : Steward) (draw a n : Nat) : Option Nat :=
  match spaceOf a with
  | .isram o =>
    if o + n ≤ 0x10000 then some (leNat ((List.range n).map fun k => x.fetchByte draw (o + k))) else none
  | _ => none

/-- The instruction at the pc: its bits and length; or the address of the halfword that cannot be fetched. -/
def Steward.fetchInstr (x : Steward) (draw : Nat) : Nat ⊕ (Nat × Nat) :=
  match x.fetch draw x.pc 2 with
  | none => .inl x.pc
  | some h =>
    if h % 4 = 3 then
      match x.fetch draw (x.pc + 2) 2 with
      | none => .inl (x.pc + 2)
      | some g => .inr (h + g * 2 ^ 16, 4)
    else .inr (h, 2)

/-- mcycle counts the instruction's cycles and minstret the instruction, where it retires; a write of a counter is its value. -/
def Lanorun.stwCount (s : Lanorun) (i draw w : Nat) (retires : Bool) : Lanorun :=
  let x := s.steward i
  let wr (n : Nat) : Bool := w % 128 == 0x73 && rvF3 w % 4 != 0 && csrWrites w && bitsOf w 31 20 == n && retires
  let hold := x.csr 0x320
  let x := if wr 0xB00 || hold.testBit 0 then x else x.setCsr 0xB00 (x.csr 0xB00 + 1 + (Config.stall draw).toNat)
  let x := if wr 0xB02 || hold.testBit 2 || !retires then x else x.setCsr 0xB02 (x.csr 0xB02 + 1)
  s.setSteward i x

/-- Steward i executes the instruction at its pc (R249). -/
def Lanorun.stwIssue (s : Lanorun) (i : Nat) : Lanorun :=
  let (n, s) := s.draw
  let x := { s.steward i with wfi := false }
  let s := s.setSteward i x
  match x.fetchInstr n with
  | .inl a => (s.stwTrap i 1 a).stwCount i n 0 false
  | .inr (raw, len) =>
    match (if len = 4 then some raw else rvc raw) with
    | none => (s.stwTrap i 2 raw).stwCount i n 0 false
    | some w =>
      match rvExec { i := i, w := w, raw := raw, len := len, pc := x.pc } s with
      | .next t pc =>
        (if (t.steward i).reset then t
         else ((t.setSteward i { t.steward i with pc := pc }).stwShow i).stwCount i n w true)
      | .trap c v => (s.stwTrap i c v).stwCount i n w false

/-- One instruction of a steward that issues: it is not waiting in WFI, or an enabled interrupt is pending (R249). -/
def Lanorun.stwInstr (s : Lanorun) (i : Nat) (errs : List VaultErr) : Lanorun :=
  let x := s.steward i
  if s.stwRuns i = false ∨ (x.wfi ∧ s.stwPending i = 0) then s else (s.vaultErrs errs).stwIssue i

/-- The instruction at the pc of a steward that issues is one that satisfies p. -/
def Lanorun.stwAt (s : Lanorun) (i : Nat) (p : Nat → Bool) : Bool :=
  let x := s.steward i
  x.stale.isEmpty && (match x.fetchInstr 0 with
    | .inr (raw, 4) => p raw
    | _ => false)

/-- The steward executes its instruction, where that is one that satisfies p. -/
def Lanorun.stwWhere (s : Lanorun) (i : Nat) (p : Nat → Bool) : Lanorun := if s.stwAt i p then s.stwInstr i [] else s

/-- An instruction that writes vwidego. -/
def isWideGo (w : Nat) : Bool := w % 128 == 0x73 && rvF3 w % 4 != 0 && bitsOf w 31 20 == 0x7C8 && csrWrites w

end Sys2Proof.Machine
end

