-- ==== Sys2Proof/Machine/ExecCore.lean ====
section
/-! DEFINITION. Commands of the steward cores (R249 to R255). -/
namespace Sys2Proof.Machine

/-- A steward executes one RV64IMAC instruction, faulting on disallowed accesses (R249). -/
def execStewardInstruction (steward : StewardIx) (errs : List VaultErr) (s : State) : Host.Outcome State Fault Refusal :=
  .next (s.on fun s => s.stwInstr steward.val errs)

/-- Stops steward issue until an enabled interrupt is pending (R249). -/
def execWfi (steward : StewardIx) (s : State) : Host.Outcome State Fault Refusal :=
  .next (s.on fun s => s.stwWhere steward.val (· == 0x10500073))

/-- A write to vwidego writes 32 bytes as one write (R254). -/
def execWideWrite (steward : StewardIx) (s : State) : Host.Outcome State Fault Refusal :=
  .next (s.on fun s => s.stwWhere steward.val isWideGo)

/-- Hall time reaching vtimecmp sets MTIP (R253). -/
def execStewardTimer (steward : StewardIx) (s : State) : Host.Outcome State Fault Refusal :=
  .next (s.on fun s => s.stwTimer steward.val)

/-- A steward takes a pending enabled interrupt (R255). -/
def execStewardInterrupt (steward : StewardIx) (s : State) : Host.Outcome State Fault Refusal :=
  .next (s.on fun s => s.stwInterrupt steward.val)

end Sys2Proof.Machine
end

