-- ==== Sys2Proof/Machine/ExecCtrl.lean ====
section
/-! DEFINITION. Commands of the control space, the host windows, readback, capture and the JTAG control access (R9 to R12, R437 to R439, R537 to R541). -/
namespace Sys2Proof.Machine

/-- A write to a register field that has no behaviour of its own sets or ignores the field by its access code (R9). -/
def execRegWrite (who : Requester) (addr : BitVec 48) (value : WriteData) (s : State) : Host.Outcome State Fault Refusal :=
  .next (s.on fun s => s.regWriteBy who addr.toNat value.value.toNat value.same.toNat)

/-- A host control-space access through BAR0 (R438). -/
def execHostBar0Access (write : Bool) (offset : BitVec 25) (length : Nat) (value : Word) (s : State) : Host.Outcome State Fault Refusal :=
  .next (s.on fun s => s.bar0Access write offset.toNat length value.toNat)

/-- A host read of vault memory through BAR2 (R439). -/
def execHostBar2Read (offset : BitVec 36) (length : Nat) (errs : List VaultErr) (s : State) : Host.Outcome State Fault Refusal :=
  .next (s.on fun s => s.bar2Read offset.toNat length errs)

/-- A host write of vault memory through BAR2 (R439). -/
def execHostBar2Write (offset : BitVec 36) (data : List Byte) (s : State) : Host.Outcome State Fault Refusal :=
  .next (s.on fun s => s.bar2Write offset.toNat data)

/-- A read of the readback window returns state or a status (R537). -/
def execRbDataRead (index : Fin 32) (s : State) : Host.Outcome State Fault Refusal :=
  .next (s.on fun s => s.rbShow index.val)

/-- Starts a capture of selected state classes (R539). -/
def execCapStart (s : State) : Host.Outcome State Fault Refusal :=
  .next (s.on fun s => s.capStart)

/-- Aborts a running capture (R539). -/
def execCapAbort (s : State) : Host.Outcome State Fault Refusal :=
  .next (s.on fun s => s.capAbort)

/-- The capture writes its end record, or stops full (R539). -/
def execCapDone (s : State) : Host.Outcome State Fault Refusal :=
  .next (s.on fun s => s.capDone)

/-- The JTAG control access completes with its status (R541). -/
def execCtrlAccessComplete (s : State) : Host.Outcome State Fault Refusal :=
  .next (s.on fun s => s.ctrlFinish)

end Sys2Proof.Machine
end

