-- ==== Sys2Proof/Machine/ExecEth.lean ====
section
/-! DEFINITION. Commands of the Ethernet ports (R451 to R457). -/
namespace Sys2Proof.Machine

/-- An Ethernet port's link comes up (R451). -/
def execEthLinkUp (port : EthIx) (pmd : BitVec 4) (s : State) : Host.Outcome State Fault Refusal :=
  .next (s.on fun s => s.ethLinkUp port.val pmd.toNat)

/-- An Ethernet port loses its link (R451). -/
def execEthLinkDown (port : EthIx) (s : State) : Host.Outcome State Fault Refusal :=
  .next (s.on fun s => s.ethLinkDown port.val)

/-- An uncorrectable FEC codeword drops its frame (R451). -/
def execEthFecUe (port : EthIx) (corrected : BitVec 32) (s : State) : Host.Outcome State Fault Refusal :=
  .next (s.on fun s => s.ethFecUe port.val corrected.toNat)

/-- A received IEEE 802.1Qbb priority flow control frame pauses transmission on priority PFC_PRIO (R451). -/
def execPfcFrameReceive (port : EthIx) (enable : BitVec 8) (quanta : BitVec 16) (s : State) : Host.Outcome State Fault Refusal :=
  .next (s.on fun s => s.pfcReceive port.val enable.toNat quanta.toNat)

/-- A non-RoCE, non-PTP frame goes to firmware (R452). -/
def execMgmtFrameReceive (port : EthIx) (frame : List Byte) (s : State) : Host.Outcome State Fault Refusal :=
  .next (s.on fun s => s.mgmtReceive port.val frame)

/-- An incoming RoCE request is answered with a remote access NAK (R452). -/
def execRoceRequestReceive (port : EthIx) (s : State) : Host.Outcome State Fault Refusal :=
  .next (s.on fun s => s.roceRequest port.val)

/-- A RoCE response advances a queue pair's operations (R453). -/
def execRoceResponseReceive (port : EthIx) (qp : BitVec 8) (response : RoceResponse) (s : State) : Host.Outcome State Fault Refusal :=
  .next (s.on fun s => s.roceResponse port.val qp.toNat response)

/-- A queue pair's acknowledgement timer expires: go-back-N retransmit or ERROR (R453). -/
def execRoceAckTimeout (port : EthIx) (qp : BitVec 8) (s : State) : Host.Outcome State Fault Refusal :=
  .next (s.on fun s => s.ackTimeout port.val qp.toNat)

/-- An ECN-marked packet triggers a congestion notification (R456). -/
def execEcnReceive (port : EthIx) (qp : BitVec 8) (s : State) : Host.Outcome State Fault Refusal :=
  .next (s.on fun s => s.ecnReceive port.val qp.toNat)

/-- A congestion notification halves a queue pair's send rate (R456). -/
def execCnpReceive (port : EthIx) (qp : BitVec 8) (s : State) : Host.Outcome State Fault Refusal :=
  .next (s.on fun s => s.cnpReceive port.val qp.toNat)

/-- After 55 µs without notification the send rate rises by an eighth (R456). -/
def execRoceRateRaise (port : EthIx) (qp : BitVec 8) (s : State) : Host.Outcome State Fault Refusal :=
  .next (s.on fun s => if s.frozen then s else s.rateRaise port.val qp.toNat)

/-- A host write of a queue pair entry, limited by its state (R453). -/
def execQpCtrlWrite (port : EthIx) (qp : BitVec 8) (value : Word) (s : State) : Host.Outcome State Fault Refusal :=
  .next (s.on fun s => s.inDomain (108 + port.val) fun s => s.qpCtrlWrite port.val qp.toNat value.toNat)

/-- A PTP message is timestamped and updates the port's PTP time (R457). -/
def execPtpMessageReceive (port : EthIx) (domain : Byte) (fromMaster : Bool) (message : PtpMessage) (arrival : Int) (s : State) : Host.Outcome State Fault Refusal :=
  .next (s.on fun s => s.ptpReceive port.val domain.toNat fromMaster message arrival)

/-- A port's PTP time stops being valid when its measurements no longer arrive within 2 s or within a 50 ns spread, and PTP_VALID can fall (R457). -/
def execPtpLost (port : EthIx) (s : State) : Host.Outcome State Fault Refusal :=
  .next (s.on fun s => s.ptpLost port.val)

end Sys2Proof.Machine
end

