-- ==== Sys2Proof/Machine/ExecFabric.lean ====
section
/-! DEFINITION. Commands of the mesh and of the network interface (R316 to R348). -/
namespace Sys2Proof.Machine

/-- A scheduled mesh entry member moves its data over its slots, missing or clashing as found (R323). -/
def execMeshMemberStart (tenancy : TenancyIx) (entry member : BitVec 16) (ue : List Nat) (s : State) : Host.Outcome State Fault Refusal :=
  .next (s.on fun s => (s.memberStart tenancy.val entry.toNat member.toNat ue).autoRetires s)

/-- A router sends a waiting unscheduled flit in a free slot (R320). -/
def execUnschedFlitForward (router : BlockIx) (fc : BitVec 13) (ue : List Nat) (s : State) : Host.Outcome State Fault Refusal :=
  .next (s.on fun s => if s.frozen then s else s.flitForward router.val fc.toNat ue)

/-- A packet arriving on a port is key-checked and routed, delivered or dropped (R337). -/
def execPacketArrive (port : PortIx) (s : State) : Host.Outcome State Fault Refusal :=
  .next (s.on fun s => if s.frozen then s else s.packetArrive port.val)

/-- A WRITE packet is applied to its target and acknowledged if unscheduled (R340). -/
def execWrite (s : State) : Host.Outcome State Fault Refusal :=
  .next (s.on fun s => s.deliver 1 Lanorun.applyWrite)

/-- An ENGINE packet queues its command record (R330). -/
def execEngine (s : State) : Host.Outcome State Fault Refusal :=
  .next (s.on fun s => s.deliver 2 Lanorun.applyEngine)

/-- A READ_DATA packet writes its reply payload to its target (R340). -/
def execReadData (s : State) : Host.Outcome State Fault Refusal :=
  .next (s.on fun s => s.deliver 3 Lanorun.applyWrite)

/-- A MGMT_WRITE writes the firmware work area (R330). -/
def execMgmtWrite (s : State) : Host.Outcome State Fault Refusal :=
  .next (s.on fun s => s.deliver 4 Lanorun.mgmtArrive)

/-- An ACK frees the source's re-send record (R343). -/
def execAck (s : State) : Host.Outcome State Fault Refusal :=
  .next (s.on fun s => s.deliver 0x10 Lanorun.applyAck)

/-- A NACK triggers re-send or give-up by its reason (R343). -/
def execNack (s : State) : Host.Outcome State Fault Refusal :=
  .next (s.on fun s => s.deliver 0x11 Lanorun.applyNack)

/-- A READ_REQ is accepted by the read engine or refused BUSY (R346). -/
def execReadReq (s : State) : Host.Outcome State Fault Refusal :=
  .next (s.on fun s => s.deliver 0x12 Lanorun.applyReadReq)

/-- A fault notice stops a RUNNING tenancy at its next Bell and sets the restart frame (R97). -/
def execFaultNotice (s : State) : Host.Outcome State Fault Refusal :=
  .next (s.on fun s => s.deliver 0x13 (fun s k => s.applyNotice k false))

/-- A halt notice halts the partition at the next Bell (R98). -/
def execHaltNotice (s : State) : Host.Outcome State Fault Refusal :=
  .next (s.on fun s => s.deliver 0x14 (fun s k => s.applyNotice k true))

/-- A MSG packet is written into CR0 or CR1 (R245). -/
def execMsg (s : State) : Host.Outcome State Fault Refusal :=
  .next (s.on fun s => s.deliver 0x15 Lanorun.applyMsg)

/-- The read engine sends READ_DATA packets for an accepted request (R346). -/
def execReadEngineReply (s : State) : Host.Outcome State Fault Refusal :=
  .next (s.on fun s => if s.frozen then s else s.readReply)

/-- A re-send record's timer expires and the packet is re-sent or given up (R343). -/
def execResendTimeout (tag : BitVec 32) (s : State) : Host.Outcome State Fault Refusal :=
  .next (s.on fun s => if s.frozen then s else s.resendTimeout tag.toNat)

/-- A duplicate-filter pair ages out (R344). -/
def execFilterExpire (src : BitVec 14) (tag : BitVec 32) (s : State) : Host.Outcome State Fault Refusal :=
  .next (s.on fun s => s.filterExpire src.toNat tag.toNat)

/-- A write to MOD_NI_SEND makes the network interface send the described packet (R346). -/
def execNiSend (key : BitVec 16) (addr : BitVec 39) (s : State) : Host.Outcome State Fault Refusal :=
  .next (s.on fun s => s.niSend key.toNat addr.toNat)

/-- Setting HOLD stops TC1 and TC2 sends and re-send timers (R348). -/
def execHoldWrite (on : Bool) (s : State) : Host.Outcome State Fault Refusal :=
  .next (s.on fun s => s.holdWrite on)

end Sys2Proof.Machine
end

