-- ==== Sys2Proof/Machine/ExecFreeze.lean ====
section
/-! DEFINITION. Commands of freezing and resuming (R530 to R536). -/
namespace Sys2Proof.Machine

/-- A FREEZE_N falling edge held 64 fc sets the freeze tick (R530). -/
def execFreezeNFall (offset : Fin 4000) (s : State) : Host.Outcome State Fault Refusal :=
  .next (s.on fun s => s.freezePin (4000 * s.frame + offset.val))

/-- DBG_FREEZE FREEZE_NOW arms a freeze, by pin when forwarding (R530). -/
def execFreezeNow (offset : Fin 4000) (s : State) : Host.Outcome State Fault Refusal :=
  .next (s.on fun s => s.freezeNow (4000 * s.frame + offset.val) 3)

/-- JTAG requests a freeze (R540). -/
def execJtagFreezeNow (offset : Fin 4000) (s : State) : Host.Outcome State Fault Refusal :=
  .next (s.on fun s => s.jtagFreeze (4000 * s.frame + offset.val))

/-- At TZ the module stops its plan while hall time and control paths run (R532). -/
def execFreezeTakeEffect (s : State) : Host.Outcome State Fault Refusal :=
  .next (s.on fun s => s.reachFreeze)

/-- Arms a resume at TR with a mode (R534). -/
def execResume (fault : Bool) (s : State) : Host.Outcome State Fault Refusal :=
  .next (s.on fun s => s.resumeCmd fault)

/-- Cancels an armed resume (R534). -/
def execResumeCancel (s : State) : Host.Outcome State Fault Refusal :=
  .next (s.on fun s => s.resumeCancel)

/-- At TR the module resumes with D frames inserted, or raises RESUME_FAIL (R535). -/
def execResumeAtTr (s : State) : Host.Outcome State Fault Refusal :=
  .next (s.on fun s => s.reachResume)

end Sys2Proof.Machine
end

