-- ==== Sys2Proof/Machine/ExecHost.lean ====
section
/-! DEFINITION. Commands of the host interface (R440 to R450). -/
namespace Sys2Proof.Machine

/-- When its hold ends the host-write queue drains in order (R443). -/
def execHwqDrain (s : State) : Host.Outcome State Fault Refusal :=
  .next (s.on fun s => s.hwqDrain)

/-- A host interrupt source becoming pending sends its MSI-X message (R441). -/
def execMsixSend (source : Fin 16) (masked : Bool) (s : State) : Host.Outcome State Fault Refusal :=
  .next (s.on fun s => s.msixSend source.val masked)

/-- REARM resends the message of a pending source, or raises source 15 (R441). -/
def execRearm (source : Fin 16) (masked : Bool) (s : State) : Host.Outcome State Fault Refusal :=
  .next (s.on fun s => s.rearm source.val masked)

/-- An enabled wake reason in D3 sends PME or asserts WAKE_N (R444). -/
def execWakeRequest (s : State) : Host.Outcome State Fault Refusal :=
  .next (s.on fun s => s.wakeRequest)

/-- The host's exit from low power ends the wake request (R445). -/
def execWakeExit (s : State) : Host.Outcome State Fault Refusal :=
  .next (s.on fun s => s.wakeExit)

/-- The host moves the endpoint between D-states (R442). -/
def execDStateChange (d0 busMaster : Bool) (s : State) : Host.Outcome State Fault Refusal :=
  .next (s.on fun s => s.dState d0 busMaster)

/-- PERST_N or a hot reset resets the endpoint's configuration and windows (R446). -/
def execPerstReset (pin : Bool) (s : State) : Host.Outcome State Fault Refusal :=
  .next (s.on fun s => s.perstReset pin)

/-- The endpoint leaves reset once PERST_N is high and PD110 good (R558). -/
def execPerstRelease (rate : BitVec 3) (width : BitVec 5) (flit : Bool) (s : State) : Host.Outcome State Fault Refusal :=
  .next (s.on fun s => s.perstRelease rate.toNat width.toNat flit)

/-- The PCIe link leaves L0, L0p or L1 other than by a D-state change, raising HST_LINK_DOWN and holding the host-write queue (R443). -/
def execPcieLinkDown (s : State) : Host.Outcome State Fault Refusal :=
  .next (s.on fun s => s.pcieLinkDown)

/-- Function Level Reset resets the endpoint and discards the host-write queue (R446). -/
def execFlr (s : State) : Host.Outcome State Fault Refusal :=
  .next (s.on fun s => s.flr)

/-- Host DOORBELL hands a mailbox request to firmware (R447). -/
def execDoorbell (opcode : Byte) (s : State) : Host.Outcome State Fault Refusal :=
  .next (s.on fun s => s.doorbell opcode.toNat)

/-- A head steward posts a mailbox result (R447). -/
def execPost (code : BitVec 16) (s : State) : Host.Outcome State Fault Refusal :=
  .next (s.on fun s => s.mboxPost code.toNat)

/-- Host ACK with matching SEQ consumes the result (R447). -/
def execMboxAck (seq : BitVec 16) (s : State) : Host.Outcome State Fault Refusal :=
  .next (s.on fun s => s.mboxAck seq.toNat)

/-- A host read of mailbox status sets ALREADY_READ in READY (R448). -/
def execMboxStatusRead (s : State) : Host.Outcome State Fault Refusal :=
  .next (s.on fun s => s.mboxStatusRead.2)

/-- Mailbox request returning identity and versions (R450). -/
def execIdent (s : State) : Host.Outcome State Fault Refusal :=
  .next (s.on fun s => s.identRequest)

end Sys2Proof.Machine
end

