-- ==== Sys2Proof/Machine/ExecKeep.lean ====
section
/-! DEFINITION. Boot, the Keep, firmware update and attestation (R485 to R511). -/
namespace Sys2Proof.Machine

/-- At PD111 power good the Keep checks retention, logs POWER_ON and releases HS0 (R490). -/
def execStageK (millivolts : BitVec 16) (retained : Bool) (s : State) : Host.Outcome State Fault Refusal :=
  .next (s.on fun s => s.stageK millivolts.toNat retained)

/-- The boot ROM selects and verifies a slot and boots it or enters RECOVERY (R491). -/
def execStageRom (s : State) : Host.Outcome State Fault Refusal :=
  .next (s.on fun s => s.stageRom)

/-- Head firmware switches on PD96 to PD99 and starts its services (R490). -/
def execStageHead (s : State) : Host.Outcome State Fault Refusal :=
  .next (s.on fun s => s.stageHead)

/-- Once the vaults are READY the module enters READY (R490). -/
def execStageReady (s : State) : Host.Outcome State Fault Refusal :=
  .next (s.on fun s => s.stageReady)

/-- Every 24 h the Keep measures the backup cell (R485). -/
def execBackupCheck (millivolts : BitVec 16) (s : State) : Host.Outcome State Fault Refusal :=
  .next (s.on fun s => if s.keep.src = 0 then s.backupCheck millivolts.toNat else s)

/-- A write of KEP_RTC sets the count and RTC_VALID (R486). -/
def execRtcWrite (value : Word) (s : State) : Host.Outcome State Fault Refusal :=
  .next (s.on fun s => s.rtcWrite value.toNat)

/-- A held change of the intrusion loop writes an INTRUSION record (R487). -/
def execIntrusion (opened : Bool) (s : State) : Host.Outcome State Fault Refusal :=
  .next (s.on fun s => s.intrusion opened)

/-- Mailbox request acknowledging Keep log records (R488). -/
def execKeepAck (s : State) : Host.Outcome State Fault Refusal :=
  .next (s.on fun s => s.keepAck)

/-- Mailbox request carrying one SPDM exchange (R510). -/
def execAttest (request : SpdmRequest) (s : State) : Host.Outcome State Fault Refusal :=
  .next (s.on fun s => s.attest request)

/-- Mailbox request committing the staged image (R503). -/
def execFwStage (s : State) : Host.Outcome State Fault Refusal :=
  .next (s.on fun s => s.fwStage)

/-- Makes a STAGED slot ACTIVE in TRIAL, optionally rebooting (R498). -/
def execFwActivate (s : State) : Host.Outcome State Fault Refusal :=
  .next (s.on fun s => s.mboxActivate)

/-- Confirms the running TRIAL image and raises fuses (R500). -/
def execConfirm (s : State) : Host.Outcome State Fault Refusal :=
  .next (s.on fun s => s.fwConfirm)

/-- CONFIRM_S without confirmation resets the module (R500). -/
def execConfirmTimeout (s : State) : Host.Outcome State Fault Refusal :=
  .next (s.on fun s => s.confirmTimeout)

/-- Frees the staging buffer (R502). -/
def execAbortStage (s : State) : Host.Outcome State Fault Refusal :=
  .next (s.on fun s => s.stageAbort)

/-- STAGE_HOLD seconds without a write free the staging buffer (R502). -/
def execStageHoldExpire (s : State) : Host.Outcome State Fault Refusal :=
  .next (s.on fun s => s.stageAbort)

/-- A commit finishes storing the idle slot as STAGED or fails (R503). -/
def execFwCommitEnd (mismatch : Bool) (s : State) : Host.Outcome State Fault Refusal :=
  .next (s.on fun s => s.commitEnd mismatch)

/-- Service-port IDENT request (R504). -/
def execSvcIdent (seq : BitVec 16) (s : State) : Host.Outcome State Fault Refusal :=
  .next (s.on fun s => s.svc 1 seq.toNat fun s => s.svcIdent seq.toNat)

/-- Service-port SPDM request (R504). -/
def execSvcSpdm (seq : BitVec 16) (request : SpdmRequest) (s : State) : Host.Outcome State Fault Refusal :=
  .next (s.on fun s => s.svc 2 seq.toNat fun s => s.svcSpdm seq.toNat request)

/-- Writes bytes into the staging buffer (R504). -/
def execStageWrite (seq : BitVec 16) (offset : BitVec 32) (data : List Byte) (s : State) : Host.Outcome State Fault Refusal :=
  .next (s.on fun s => s.svc 3 seq.toNat fun s => s.svcWrite seq.toNat offset.toNat data)

/-- Returns the lowest incomplete block (R504). -/
def execStageQuery (seq : BitVec 16) (s : State) : Host.Outcome State Fault Refusal :=
  .next (s.on fun s => s.svc 4 seq.toNat fun s => s.svcAnswer 4 seq.toNat 0 s.lowestBlock)

/-- Starts a commit of the staged image (R503). -/
def execStageCommit (seq : BitVec 16) (length : BitVec 32) (s : State) : Host.Outcome State Fault Refusal :=
  .next (s.on fun s => s.svc 5 seq.toNat fun s => s.commitStart { src := 2, len := length.toNat, seq := seq.toNat })

/-- Service-port activation of a staged slot (R498). -/
def execSvcFwActivate (seq : BitVec 16) (reboot : Bool) (s : State) : Host.Outcome State Fault Refusal :=
  .next (s.on fun s => s.svc 6 seq.toNat fun s => s.svcActivate seq.toNat reboot)

/-- Writes MOD_POSID with the physical module ID (R504). -/
def execSetPosition (seq : BitVec 16) (id : BitVec 14) (s : State) : Host.Outcome State Fault Refusal :=
  .next (s.on fun s => s.svc 7 seq.toNat fun s => s.svcPosition seq.toNat id.toNat)

/-- Returns Keep log records (R504). -/
def execLogRead (seq : BitVec 16) (first count : BitVec 32) (s : State) : Host.Outcome State Fault Refusal :=
  .next (s.on fun s => s.svc 8 seq.toNat fun s => s.svcLog seq.toNat first.toNat count.toNat)

/-- SPDM version request (R510). -/
def execGetVersion (s : State) : Host.Outcome State Fault Refusal :=
  .next (s.on fun s => s.spdm .getVersion)

/-- SPDM capabilities request (R510). -/
def execGetCapabilities (s : State) : Host.Outcome State Fault Refusal :=
  .next (s.on fun s => s.spdm .getCapabilities)

/-- SPDM algorithm negotiation (R510). -/
def execNegotiateAlgorithms (s : State) : Host.Outcome State Fault Refusal :=
  .next (s.on fun s => s.spdm .negotiateAlgorithms)

/-- SPDM certificate digest request (R510). -/
def execGetDigests (s : State) : Host.Outcome State Fault Refusal :=
  .next (s.on fun s => s.spdm .getDigests)

/-- SPDM certificate chain request (R510). -/
def execGetCertificate (slot : BitVec 4) (offset length : BitVec 16) (s : State) : Host.Outcome State Fault Refusal :=
  .next (s.on fun s => s.spdm (.getCertificate slot.toNat offset.toNat length.toNat))

/-- SPDM challenge signed with the unit key (R510). -/
def execChallenge (slot : BitVec 4) (nonce : List Byte) (s : State) : Host.Outcome State Fault Refusal :=
  .next (s.on fun s => s.spdm (.challenge slot.toNat nonce))

/-- SPDM signed measurement report (R511). -/
def execGetMeasurements (index : Byte) (nonce : List Byte) (s : State) : Host.Outcome State Fault Refusal :=
  .next (s.on fun s => s.spdm (.getMeasurements index.toNat nonce))

/-- A chain OFFER is answered NEED or DONE BUSY (R508). -/
def execChainOffer (src : BitVec 14) (version : Word) (mdigest : BitVec 128) (s : State) : Host.Outcome State Fault Refusal :=
  .next (s.on fun s => s.chainOffered src.toNat version.toNat (leBytes 16 mdigest.toNat))

/-- A NEED makes the sender send blocks from that block onward (R509). -/
def execChainNeed (src : BitVec 14) (block : BitVec 9) (s : State) : Host.Outcome State Fault Refusal :=
  .next (s.on fun s => s.chainNeed src.toNat block.toNat)

/-- A DONE ends a hop as stored or failed (R509). -/
def execChainDone (src : BitVec 14) (code : BitVec 16) (s : State) : Host.Outcome State Fault Refusal :=
  .next (s.on fun s => s.chainDone src.toNat code.toNat)

/-- A chain ABORT message ends a chain transfer (R507). -/
def execChainAbort (src : BitVec 14) (s : State) : Host.Outcome State Fault Refusal :=
  .next (s.on fun s => s.chainAbort src.toNat)

/-- No NEED within 1 s of an OFFER fails the hop (R509). -/
def execChainNeedTimeout (hop : Fin 4) (s : State) : Host.Outcome State Fault Refusal :=
  .next (s.on fun s => s.hopTimeout hop.val 1)

/-- No DONE within COMMIT_S seconds fails the hop (R509). -/
def execChainDoneTimeout (hop : Fin 4) (s : State) : Host.Outcome State Fault Refusal :=
  .next (s.on fun s => s.hopTimeout hop.val 2)

/-- A write of KEP_CHAIN sets next hops and ACCEPT and clears the hop bits (R506). -/
def execKepChainWrite (value : Word) (s : State) : Host.Outcome State Fault Refusal :=
  .next (s.on fun s => s.chainWrite value.toNat)

end Sys2Proof.Machine
end

