-- ==== Sys2Proof/Machine/ExecLink.lean ====
section
/-! DEFINITION. Commands of the link ports (R276 to R310). -/
namespace Sys2Proof.Machine

/-- Setting ENABLE moves a port from DISABLED to DETECT; clearing it disables the port (R298). -/
def execLinkEnableWrite (port : PortIx) (on : Bool) (s : State) : Host.Outcome State Fault Refusal :=
  .next (s.on fun s => s.linkEnable port.val on)

/-- Signal found on a half of the lanes moves the port to EQUALISE (R298). -/
def execSignalDetect (port : PortIx) (lanes : BitVec 16) (s : State) : Host.Outcome State Fault Refusal :=
  .next (s.on fun s => s.signalDetect port.val lanes.toNat)

/-- Both directions reach a usable width and the port moves to CONFIG (R299). -/
def execEqualiseDone (port : PortIx) (rx tx polarity : BitVec 16) (reversed : Bool) (s : State) : Host.Outcome State Fault Refusal :=
  .next (s.on fun s => s.equaliseDone port.val rx.toNat tx.toNat polarity.toNat reversed)

/-- No usable width within 50 ms raises TRAIN_FAIL (R298). -/
def execEqualiseTimeout (port : PortIx) (s : State) : Host.Outcome State Fault Refusal :=
  .next (s.on fun s => s.equaliseTimeout port.val)

/-- A CONFIG unit agrees version and widths and moves the port to CALIBRATE (R300). -/
def execConfigReceive (port : PortIx) (flit : BitVec 512) (txrx : Int) (s : State) : Host.Outcome State Fault Refusal :=
  .next (s.on fun s => s.configReceive port.val (flitBytes flit) txrx)

/-- After two frames of exchanges the reach check passes or fails (R301). -/
def execCalibrateDone (port : PortIx) (s : State) : Host.Outcome State Fault Refusal :=
  .next (s.on fun s => s.calibrateDone port.val)

/-- In each unit time an ACTIVE port sends the first ready item of its priority list (R282). -/
def execLinkUnitTransmit (port : PortIx) (s : State) : Host.Outcome State Fault Refusal :=
  .next (s.on fun s => s.linkTransmit port.val)

/-- A received flit unit is accepted in order or discarded with a NAK (R286). -/
def execFlitUnitReceive (port : PortIx) (unit : BitVec 544) (s : State) : Host.Outcome State Fault Refusal :=
  .next (s.on fun s => s.unitReceive port.val unit)

/-- An LSTAT frees acknowledged units and updates credit limits (R295). -/
def execLstatReceive (port : PortIx) (flit : BitVec 512) (s : State) : Host.Outcome State Fault Refusal :=
  .next (s.on fun s => s.lstatReceive port.val (flitBytes flit))

/-- A NAK schedules a replay or, at the limit, a retrain (R287). -/
def execNakReceive (port : PortIx) (flit : BitVec 512) (s : State) : Host.Outcome State Fault Refusal :=
  .next (s.on fun s => s.nakReceive port.val (flitBytes flit))

/-- Within 8 unit times of a NAK the transmitter replays from the named unit (R287). -/
def execReplayStart (port : PortIx) (s : State) : Host.Outcome State Fault Refusal :=
  .next (s.on fun s => s.replayStart port.val)

/-- No acceptance within rtt + 256 unit times resends the NAK (R286). -/
def execNakTimeout (port : PortIx) (s : State) : Host.Outcome State Fault Refusal :=
  .next (s.on fun s => s.nakTimeout port.val)

/-- A held VC0 unit's lateness passes CARRY_UT and its partition faults (R291). -/
def execCarryExceeded (port : PortIx) (s : State) : Host.Outcome State Fault Refusal :=
  .next (s.on fun s => s.carryCheck port.val)

/-- After 256 frames a port's probation ends (R289). -/
def execProbationEnd (port : PortIx) (s : State) : Host.Outcome State Fault Refusal :=
  .next (s.on fun s => s.probationEnd port.val)

/-- A received FRT_REQ starts or answers a fast retrain (R303). -/
def execFrtReqReceive (port : PortIx) (flit : BitVec 512) (s : State) : Host.Outcome State Fault Refusal :=
  .next (s.on fun s => s.frtReqReceive port.val (flitBytes flit))

/-- The peer holds lock detection during the announced calibration (R306). -/
def execCalNoticeReceive (port : PortIx) (flit : BitVec 512) (s : State) : Host.Outcome State Fault Refusal :=
  .next (s.on fun s => s.calNoticeReceive port.val (flitBytes flit))

/-- A DOWN_NOTICE takes the port DOWN (R298). -/
def execDownNoticeReceive (port : PortIx) (flit : BitVec 512) (s : State) : Host.Outcome State Fault Refusal :=
  .next (s.on fun s => s.downNoticeReceive port.val (flitBytes flit))

/-- Loss of lock on a lane starts FRT or takes the port DOWN (R303). -/
def execLaneLockLoss (port : PortIx) (good : BitVec 16) (s : State) : Host.Outcome State Fault Refusal :=
  .next (s.on fun s => s.laneLoss port.val good.toNat)

/-- Fast retrain ends and the port returns to ACTIVE (R303). -/
def execFrtDone (port : PortIx) (s : State) : Host.Outcome State Fault Refusal :=
  .next (s.on fun s => s.frtDone port.val)

/-- FRT not done within 4 µs takes the port DOWN (R298). -/
def execFrtTimeout (port : PortIx) (s : State) : Host.Outcome State Fault Refusal :=
  .next (s.on fun s => s.frtTimeout port.val)

/-- A version 1 long retrain ends and the port returns to ACTIVE at the next Bell (R298). -/
def execRetrainDone (port : PortIx) (expect : BitVec 14) (s : State) : Host.Outcome State Fault Refusal :=
  .next (s.on fun s => s.retrainDone port.val expect.toNat)

/-- A long retrain not done within 100 µs takes the port DOWN (R298). -/
def execRetrainTimeout (port : PortIx) (s : State) : Host.Outcome State Fault Refusal :=
  .next (s.on fun s => s.retrainTimeout port.val)

/-- After 1 ms in DOWN with AUTO_TRAIN the port returns to DETECT (R298). -/
def execDownRetry (port : PortIx) (s : State) : Host.Outcome State Fault Refusal :=
  .next (s.on fun s => s.downRetry port.val)

/-- LNK_CTRL RETRAIN takes the port to DOWN and then to DETECT (R298). -/
def execRetrain (port : PortIx) (s : State) : Host.Outcome State Fault Refusal :=
  .next (s.on fun s => s.cmdRetrain port.val)

/-- LNK_CTRL DOWN takes the port DOWN (R298). -/
def execDown (port : PortIx) (s : State) : Host.Outcome State Fault Refusal :=
  .next (s.on fun s => s.cmdDown port.val)

/-- LNK_CTRL PLL_CAL sends CAL_NOTICE for a later frame (R306). -/
def execPllCal (port : PortIx) (s : State) : Host.Outcome State Fault Refusal :=
  .next (s.on fun s => s.cmdPllCal port.val)

/-- LNK_CTRL TEST enters TEST from DISABLED or DOWN (R298). -/
def execTest (port : PortIx) (s : State) : Host.Outcome State Fault Refusal :=
  .next (s.on fun s => s.cmdTest port.val)

/-- After 4,687 unit times the port resumes sending (R306). -/
def execPllCalDone (port : PortIx) (s : State) : Host.Outcome State Fault Refusal :=
  .next (s.on fun s => s.pllCalDone port.val)

/-- PLL temperature drifting over 10 °C sets DRIFT (R306). -/
def execPllDrift (port : PortIx) (temperature : Int) (s : State) : Host.Outcome State Fault Refusal :=
  .next (s.on fun s => s.pllDrift port.val temperature)

/-- LNK_TEST START sends a raw pattern in TEST (R307). -/
def execTestStart (port : PortIx) (s : State) : Host.Outcome State Fault Refusal :=
  .next (s.on fun s => s.testStart port.val)

/-- LNK_TEST STOP stops the raw pattern (R307). -/
def execTestStop (port : PortIx) (errors : BitVec 32) (s : State) : Host.Outcome State Fault Refusal :=
  .next (s.on fun s => s.testStop port.val errors.toNat)

end Sys2Proof.Machine
end

