-- ==== Sys2Proof/Machine/ExecMatrix.lean ====
section
/-! DEFINITION. The matrix-slot commands: each issues its operation in the present rc of a cell, with the 64-bit slot body (R104, R145 to
R169). -/
namespace Sys2Proof.Machine

/-- Multiplies coffer panels A and B into an accumulator bank in FP32 or exact mode (R146). -/
def execMma (cell : CellIx) (body : BitVec 64) (s : State) : Host.Outcome State Fault Refusal :=
  .next (s.on fun s => if s.frozen then s else s.runM cell.val .mma body.toNat)

/-- Sends a bank's elements through the tail chain to the cell store or coffer (R167). -/
def execDrain (cell : CellIx) (body : BitVec 64) (s : State) : Host.Outcome State Fault Refusal :=
  .next (s.on fun s => if s.frozen then s else s.runM cell.val .drain body.toNat)

/-- Writes a ledger bank as ledger wire words (R168). -/
def execDrainl (cell : CellIx) (body : BitVec 64) (s : State) : Host.Outcome State Fault Refusal :=
  .next (s.on fun s => if s.frozen then s else s.runM cell.val .drainl body.toNat)

/-- Adds ledger wire words from the coffer into a ledger bank (R169). -/
def execMladd (cell : CellIx) (body : BitVec 64) (s : State) : Host.Outcome State Fault Refusal :=
  .next (s.on fun s => if s.frozen then s else s.runM cell.val .mladd body.toNat)

/-- Sets a bank to zero in a given mode, shape and window (R166). -/
def execBinit (cell : CellIx) (body : BitVec 64) (s : State) : Host.Outcome State Fault Refusal :=
  .next (s.on fun s => if s.frozen then s else s.runM cell.val .binit body.toNat)

end Sys2Proof.Machine
end

