-- ==== Sys2Proof/Machine/ExecMemory.lean ====
section
/-! DEFINITION. The load-, store- and sync-slot commands: each issues its operation in the present rc of a cell, with its slot body (R104,
R122 to R130, R211 to R213). -/
namespace Sys2Proof.Machine

/-- Loads 256 bytes into a vector register (R212). -/
def execLdv (cell : CellIx) (body : BitVec 64) (s : State) : Host.Outcome State Fault Refusal :=
  .next (s.on fun s => if s.frozen then s else s.runL cell.val .ldv body.toNat)

/-- Loads 8 bytes into a scalar register (R212). -/
def execLds (cell : CellIx) (body : BitVec 64) (s : State) : Host.Outcome State Fault Refusal :=
  .next (s.on fun s => if s.frozen then s else s.runL cell.val .lds body.toNat)

/-- Loads 4 bytes zero-extended into a scalar register (R212). -/
def execLdw (cell : CellIx) (body : BitVec 64) (s : State) : Host.Outcome State Fault Refusal :=
  .next (s.on fun s => if s.frozen then s else s.runL cell.val .ldw body.toNat)

/-- Loads cell-store bytes into coffer lines (R213). -/
def execLdc (cell : CellIx) (body : BitVec 64) (s : State) : Host.Outcome State Fault Refusal :=
  .next (s.on fun s => if s.frozen then s else s.runL cell.val .ldc body.toNat)

/-- Stores a vector register (R212). -/
def execStv (cell : CellIx) (body : BitVec 64) (s : State) : Host.Outcome State Fault Refusal :=
  .next (s.on fun s => if s.frozen then s else s.runT cell.val .stv body.toNat)

/-- Stores a scalar register (R212). -/
def execSts (cell : CellIx) (body : BitVec 64) (s : State) : Host.Outcome State Fault Refusal :=
  .next (s.on fun s => if s.frozen then s else s.runT cell.val .sts body.toNat)

/-- Stores the low 32 bits of a scalar register (R212). -/
def execStw (cell : CellIx) (body : BitVec 64) (s : State) : Host.Outcome State Fault Refusal :=
  .next (s.on fun s => if s.frozen then s else s.runT cell.val .stw body.toNat)

/-- Stores a coffer line to the cell store (R213). -/
def execStc (cell : CellIx) (body : BitVec 64) (s : State) : Host.Outcome State Fault Refusal :=
  .next (s.on fun s => if s.frozen then s else s.runT cell.val .stc body.toNat)

/-- Holds its bundle until the frame position reaches POS (R126). -/
def execWaitpos (cell : CellIx) (body : BitVec 32) (s : State) : Host.Outcome State Fault Refusal :=
  .next (s.on fun s => if s.frozen then s else s.runY cell.val .waitpos body.toNat)

/-- Ends the cell frame, or the step with LAST, and resumes at RESUME of the next frame (R123). -/
def execEfs (cell : CellIx) (body : BitVec 32) (s : State) : Host.Outcome State Fault Refusal :=
  .next (s.on fun s => if s.frozen then s else s.cellEvent cell.val fun s => s.runY cell.val .efs body.toNat)

/-- Waits until a tally reaches N and subtracts N (R128). -/
def execTwait (cell : CellIx) (body : BitVec 32) (s : State) : Host.Outcome State Fault Refusal :=
  .next (s.on fun s => if s.frozen then s else s.runY cell.val .twait body.toNat)

/-- Adds N to a tally (R128). -/
def execTadd (cell : CellIx) (body : BitVec 32) (s : State) : Host.Outcome State Fault Refusal :=
  .next (s.on fun s => if s.frozen then s else s.runY cell.val .tadd body.toNat)

/-- Sets a predicate from a tally comparison (R128). -/
def execTtest (cell : CellIx) (body : BitVec 32) (s : State) : Host.Outcome State Fault Refusal :=
  .next (s.on fun s => if s.frozen then s else s.runY cell.val .ttest body.toNat)

/-- Checks a descriptor and launches its transfer through the send queue (R129). -/
def execSend (cell : CellIx) (body : BitVec 32) (s : State) : Host.Outcome State Fault Refusal :=
  .next (s.on fun s => if s.frozen then s else s.runY cell.val .send body.toNat)

end Sys2Proof.Machine
end

