-- ==== Sys2Proof/Machine/ExecPlan.lean ====
section
/-! DEFINITION. The Bell, the Belfry command slots and the plan loader (R37, R50 to R53, R69, R86, R270). -/
namespace Sys2Proof.Machine

/-- At the fc edge where the counter reaches a multiple of 4,000 the Belfry issues the Bell and every frame schedule restarts (R37). -/
def execBell (fillLate : Bool) (s : State) : Host.Outcome State Fault Refusal :=
  .next (s.on fun s => s.bell fillLate)

/-- Writing ARM checks KIND, lateness and alignment and arms the command slot or records a refusal (R51). -/
def execSlotArm (slot : CmdSlotIx) (s : State) : Host.Outcome State Fault Refusal :=
  .next (s.on fun s => s.slotArm slot.val)

/-- Writing CANCEL makes an armed slot CANCELLED, with no effect once its tick is reached (R52). -/
def execSlotCancel (slot : CmdSlotIx) (s : State) : Host.Outcome State Fault Refusal :=
  .next (s.on fun s => s.slotCancel slot.val)

/-- At its tick the slot checks the activation conditions and switches the incoming image in, or records ACT_FAIL (R86). -/
def execActivatePlan (slot : CmdSlotIx) (s : State) : Host.Outcome State Fault Refusal :=
  .next (s.on fun s => s.slotDue slot.val 1)

/-- At its tick the slot records a bank switch of a tenancy as PENDING or as refused (R373). -/
def execSwitchBank (slot : CmdSlotIx) (s : State) : Host.Outcome State Fault Refusal :=
  .next (s.on fun s => s.slotDue slot.val 2)

/-- At its tick a FREEZE slot sets the freeze tick, making other slots due on that edge MISSED (R530). -/
def execFreeze (slot : CmdSlotIx) (s : State) : Host.Outcome State Fault Refusal :=
  .next (s.on fun s => s.slotDue slot.val 3)

/-- At its tick an EVENT slot passes its ARG to the head stewards (R66). -/
def execEvent (slot : CmdSlotIx) (s : State) : Host.Outcome State Fault Refusal :=
  .next (s.on fun s => s.slotDue slot.val 4)

/-- A slot whose tick passes during a freeze becomes MISSED and raises CMD_MISSED with no activation attempt (R53). -/
def execSlotMissedFrozen (slot : CmdSlotIx) (s : State) : Host.Outcome State Fault Refusal :=
  .next (s.on fun s => s.slotFrozen slot.val)

/-- PLN_CTRL LOAD starts the loader on a slot: checks, binding, capacity and domain switch-ons (R270). -/
def execPlanLoad (slot : SlotIx) (s : State) : Host.Outcome State Fault Refusal :=
  .next (s.on fun s => s.planLoad slot.val)

/-- Once the image's domains are on and vaults READY the loader checks and writes each section and makes the slot READY (R270). -/
def execLoadDomainsReady (s : State) : Host.Outcome State Fault Refusal :=
  .next (s.on fun s => s.loadFinish)

/-- PLN_CTRL UNLOAD returns a READY or FAILED slot to EMPTY (R69). -/
def execUnload (slot : SlotIx) (s : State) : Host.Outcome State Fault Refusal :=
  .next (s.on fun s => s.unload slot.val)

/-- PLN_CTRL ABORT returns a LOADING slot to EMPTY at the loader's next step boundary (R69). -/
def execAbort (slot : SlotIx) (s : State) : Host.Outcome State Fault Refusal :=
  .next (s.on fun s => s.loadAbort slot.val)

end Sys2Proof.Machine
end

