-- ==== Sys2Proof/Machine/ExecPower.lean ====
section
/-! DEFINITION. Commands of power, clocks and retirement (R466 to R480, R519). -/
namespace Sys2Proof.Machine

/-- PWR_PD_CTRL ON switches a domain on through the sequencer (R466). -/
def execPdOn (domain : BitVec 7) (s : State) : Host.Outcome State Fault Refusal :=
  .next (s.on fun s => s.pdRequest domain.toNat true)

/-- PWR_PD_CTRL OFF switches a domain off through the sequencer (R466). -/
def execPdOff (domain : BitVec 7) (s : State) : Host.Outcome State Fault Refusal :=
  .next (s.on fun s => s.pdRequest domain.toNat false)

/-- A domain switch completes and the domain reads ON or OFF (R466). -/
def execPdSwitchDone (s : State) : Host.Outcome State Fault Refusal :=
  .next (s.on fun s => s.switchDone.loadBlocks s)

/-- A domain not reaching power good in twice its time returns to OFF (R469). -/
def execPdFail (s : State) : Host.Outcome State Fault Refusal :=
  .next (s.on fun s => s.pdFail)

/-- Every 100 ticks the input monitor samples voltage and current, checking peak power (R471). -/
def execInputSample (millivolts milliamps : BitVec 32) (s : State) : Host.Outcome State Fault Refusal :=
  .next (s.on fun s => s.inputSample millivolts.toNat milliamps.toNat)

/-- At each 1 µs evaluation the input averages are formed and protective levels rise where a cause holds (R473). -/
def execMonitorEvaluate (margins : List Byte) (sensors vaults : List Int) (s : State) : Host.Outcome State Fault Refusal :=
  .next (s.on fun s => s.evaluate (margins.map (·.toNat)) sensors vaults)

/-- Every 5 ms the PMBus controller polls each rail device (R477). -/
def execPmbusPoll (rail : Fin 12) (answer : Option (BitVec 16 × BitVec 16 × BitVec 16 × BitVec 16)) (s : State) : Host.Outcome State Fault Refusal :=
  .next (s.on fun s => s.pmbusPoll rail.val answer)

/-- A write of PWR_CLKEN gates or ungates peripheral clocks (R478). -/
def execClkenWrite (value : Word) (s : State) : Host.Outcome State Fault Refusal :=
  .next (s.on fun s => s.clkenWrite value.toNat)

/-- A write of PWR_CPCLK changes both control-plane dividers together (R479). -/
def execCpclkWrite (per : BitVec 8) (steward : BitVec 4) (s : State) : Host.Outcome State Fault Refusal :=
  .next (s.on fun s => s.cpclkWrite per.toNat steward.toNat)

/-- START begins a clock measurement (R480). -/
def execCmuStart (s : State) : Host.Outcome State Fault Refusal :=
  .next (s.on fun s => s.cmuStart)

/-- The measurement gate ends and COUNT is written (R480). -/
def execCmuDone (count : BitVec 32) (s : State) : Host.Outcome State Fault Refusal :=
  .next (s.on fun s => s.cmuDone count.toNat)

/-- DBG_RETIRE RETIRE retires a cell, block or region as one remap (R519). -/
def execRetire (kind : BitVec 2) (unit : BitVec 11) (s : State) : Host.Outcome State Fault Refusal :=
  .next (s.on fun s => s.retire kind.toNat unit.toNat)

end Sys2Proof.Machine
end

