-- ==== Sys2Proof/Machine/ExecScalar.lean ====
section
/-! DEFINITION. The scalar-slot commands: each issues its operation in the present rc of a cell, with the 32-bit slot body and the LIMM
extension where it has one (R104, R111 to R117). -/
namespace Sys2Proof.Machine

/-- Scalar add modulo 2^64 (R114). -/
def execAdd (cell : CellIx) (body : BitVec 32) (ext : Option (BitVec 32)) (s : State) : Host.Outcome State Fault Refusal :=
  .next (s.on fun s => if s.frozen then s else s.runS cell.val .add body.toNat (ext.map (·.toNat)))

/-- Scalar subtract modulo 2^64 (R114). -/
def execSub (cell : CellIx) (body : BitVec 32) (ext : Option (BitVec 32)) (s : State) : Host.Outcome State Fault Refusal :=
  .next (s.on fun s => if s.frozen then s else s.runS cell.val .sub body.toNat (ext.map (·.toNat)))

/-- Scalar bitwise AND (R114). -/
def execAnd (cell : CellIx) (body : BitVec 32) (ext : Option (BitVec 32)) (s : State) : Host.Outcome State Fault Refusal :=
  .next (s.on fun s => if s.frozen then s else s.runS cell.val .and body.toNat (ext.map (·.toNat)))

/-- Scalar bitwise OR (R114). -/
def execOr (cell : CellIx) (body : BitVec 32) (ext : Option (BitVec 32)) (s : State) : Host.Outcome State Fault Refusal :=
  .next (s.on fun s => if s.frozen then s else s.runS cell.val .or body.toNat (ext.map (·.toNat)))

/-- Scalar bitwise XOR (R114). -/
def execXor (cell : CellIx) (body : BitVec 32) (ext : Option (BitVec 32)) (s : State) : Host.Outcome State Fault Refusal :=
  .next (s.on fun s => if s.frozen then s else s.runS cell.val .xor body.toNat (ext.map (·.toNat)))

/-- Scalar shift left by rb[5:0] (R114). -/
def execSll (cell : CellIx) (body : BitVec 32) (ext : Option (BitVec 32)) (s : State) : Host.Outcome State Fault Refusal :=
  .next (s.on fun s => if s.frozen then s else s.runS cell.val .sll body.toNat (ext.map (·.toNat)))

/-- Scalar logical shift right by rb[5:0] (R114). -/
def execSrl (cell : CellIx) (body : BitVec 32) (ext : Option (BitVec 32)) (s : State) : Host.Outcome State Fault Refusal :=
  .next (s.on fun s => if s.frozen then s else s.runS cell.val .srl body.toNat (ext.map (·.toNat)))

/-- Scalar arithmetic shift right by rb[5:0] (R114). -/
def execSra (cell : CellIx) (body : BitVec 32) (ext : Option (BitVec 32)) (s : State) : Host.Outcome State Fault Refusal :=
  .next (s.on fun s => if s.frozen then s else s.runS cell.val .sra body.toNat (ext.map (·.toNat)))

/-- Scalar signed minimum (R114). -/
def execMin (cell : CellIx) (body : BitVec 32) (ext : Option (BitVec 32)) (s : State) : Host.Outcome State Fault Refusal :=
  .next (s.on fun s => if s.frozen then s else s.runS cell.val .min body.toNat (ext.map (·.toNat)))

/-- Scalar signed maximum (R114). -/
def execMax (cell : CellIx) (body : BitVec 32) (ext : Option (BitVec 32)) (s : State) : Host.Outcome State Fault Refusal :=
  .next (s.on fun s => if s.frozen then s else s.runS cell.val .max body.toNat (ext.map (·.toNat)))

/-- Scalar unsigned minimum (R114). -/
def execMinu (cell : CellIx) (body : BitVec 32) (ext : Option (BitVec 32)) (s : State) : Host.Outcome State Fault Refusal :=
  .next (s.on fun s => if s.frozen then s else s.runS cell.val .minu body.toNat (ext.map (·.toNat)))

/-- Scalar unsigned maximum (R114). -/
def execMaxu (cell : CellIx) (body : BitVec 32) (ext : Option (BitVec 32)) (s : State) : Host.Outcome State Fault Refusal :=
  .next (s.on fun s => if s.frozen then s else s.runS cell.val .maxu body.toNat (ext.map (·.toNat)))

/-- Low 64 bits of the scalar product (R114). -/
def execMul (cell : CellIx) (body : BitVec 32) (ext : Option (BitVec 32)) (s : State) : Host.Outcome State Fault Refusal :=
  .next (s.on fun s => if s.frozen then s else s.runS cell.val .mul body.toNat (ext.map (·.toNat)))

/-- High 64 bits of the unsigned scalar product (R114). -/
def execMulhu (cell : CellIx) (body : BitVec 32) (ext : Option (BitVec 32)) (s : State) : Host.Outcome State Fault Refusal :=
  .next (s.on fun s => if s.frozen then s else s.runS cell.val .mulhu body.toNat (ext.map (·.toNat)))

/-- Scalar add immediate (R114). -/
def execAddi (cell : CellIx) (body : BitVec 32) (ext : Option (BitVec 32)) (s : State) : Host.Outcome State Fault Refusal :=
  .next (s.on fun s => if s.frozen then s else s.runS cell.val .addi body.toNat (ext.map (·.toNat)))

/-- Scalar AND immediate (R114). -/
def execAndi (cell : CellIx) (body : BitVec 32) (ext : Option (BitVec 32)) (s : State) : Host.Outcome State Fault Refusal :=
  .next (s.on fun s => if s.frozen then s else s.runS cell.val .andi body.toNat (ext.map (·.toNat)))

/-- Scalar OR immediate (R114). -/
def execOri (cell : CellIx) (body : BitVec 32) (ext : Option (BitVec 32)) (s : State) : Host.Outcome State Fault Refusal :=
  .next (s.on fun s => if s.frozen then s else s.runS cell.val .ori body.toNat (ext.map (·.toNat)))

/-- Scalar XOR immediate (R114). -/
def execXori (cell : CellIx) (body : BitVec 32) (ext : Option (BitVec 32)) (s : State) : Host.Outcome State Fault Refusal :=
  .next (s.on fun s => if s.frozen then s else s.runS cell.val .xori body.toNat (ext.map (·.toNat)))

/-- Scalar shift left by immediate (R114). -/
def execSlli (cell : CellIx) (body : BitVec 32) (ext : Option (BitVec 32)) (s : State) : Host.Outcome State Fault Refusal :=
  .next (s.on fun s => if s.frozen then s else s.runS cell.val .slli body.toNat (ext.map (·.toNat)))

/-- Scalar logical shift right by immediate (R114). -/
def execSrli (cell : CellIx) (body : BitVec 32) (ext : Option (BitVec 32)) (s : State) : Host.Outcome State Fault Refusal :=
  .next (s.on fun s => if s.frozen then s else s.runS cell.val .srli body.toNat (ext.map (·.toNat)))

/-- Scalar arithmetic shift right by immediate (R114). -/
def execSrai (cell : CellIx) (body : BitVec 32) (ext : Option (BitVec 32)) (s : State) : Host.Outcome State Fault Refusal :=
  .next (s.on fun s => if s.frozen then s else s.runS cell.val .srai body.toNat (ext.map (·.toNat)))

/-- Sets a predicate to ra = rb (R114). -/
def execCmpEq (cell : CellIx) (body : BitVec 32) (ext : Option (BitVec 32)) (s : State) : Host.Outcome State Fault Refusal :=
  .next (s.on fun s => if s.frozen then s else s.runS cell.val .cmpEq body.toNat (ext.map (·.toNat)))

/-- Sets a predicate to ra ≠ rb (R114). -/
def execCmpNe (cell : CellIx) (body : BitVec 32) (ext : Option (BitVec 32)) (s : State) : Host.Outcome State Fault Refusal :=
  .next (s.on fun s => if s.frozen then s else s.runS cell.val .cmpNe body.toNat (ext.map (·.toNat)))

/-- Sets a predicate to signed ra < rb (R114). -/
def execCmpLt (cell : CellIx) (body : BitVec 32) (ext : Option (BitVec 32)) (s : State) : Host.Outcome State Fault Refusal :=
  .next (s.on fun s => if s.frozen then s else s.runS cell.val .cmpLt body.toNat (ext.map (·.toNat)))

/-- Sets a predicate to signed ra ≥ rb (R114). -/
def execCmpGe (cell : CellIx) (body : BitVec 32) (ext : Option (BitVec 32)) (s : State) : Host.Outcome State Fault Refusal :=
  .next (s.on fun s => if s.frozen then s else s.runS cell.val .cmpGe body.toNat (ext.map (·.toNat)))

/-- Sets a predicate to unsigned ra < rb (R114). -/
def execCmpLtu (cell : CellIx) (body : BitVec 32) (ext : Option (BitVec 32)) (s : State) : Host.Outcome State Fault Refusal :=
  .next (s.on fun s => if s.frozen then s else s.runS cell.val .cmpLtu body.toNat (ext.map (·.toNat)))

/-- Sets a predicate to unsigned ra ≥ rb (R114). -/
def execCmpGeu (cell : CellIx) (body : BitVec 32) (ext : Option (BitVec 32)) (s : State) : Host.Outcome State Fault Refusal :=
  .next (s.on fun s => if s.frozen then s else s.runS cell.val .cmpGeu body.toNat (ext.map (·.toNat)))

/-- Sets a predicate to ra = imm (R114). -/
def execCmpeqi (cell : CellIx) (body : BitVec 32) (ext : Option (BitVec 32)) (s : State) : Host.Outcome State Fault Refusal :=
  .next (s.on fun s => if s.frozen then s else s.runS cell.val .cmpeqi body.toNat (ext.map (·.toNat)))

/-- Sets a predicate to signed ra < imm (R114). -/
def execCmplti (cell : CellIx) (body : BitVec 32) (ext : Option (BitVec 32)) (s : State) : Host.Outcome State Fault Refusal :=
  .next (s.on fun s => if s.frozen then s else s.runS cell.val .cmplti body.toNat (ext.map (·.toNat)))

/-- Sets a predicate to signed ra ≥ imm (R114). -/
def execCmpgei (cell : CellIx) (body : BitVec 32) (ext : Option (BitVec 32)) (s : State) : Host.Outcome State Fault Refusal :=
  .next (s.on fun s => if s.frozen then s else s.runS cell.val .cmpgei body.toNat (ext.map (·.toNat)))

/-- Sets a predicate to unsigned ra < imm (R114). -/
def execCmpltui (cell : CellIx) (body : BitVec 32) (ext : Option (BitVec 32)) (s : State) : Host.Outcome State Fault Refusal :=
  .next (s.on fun s => if s.frozen then s else s.runS cell.val .cmpltui body.toNat (ext.map (·.toNat)))

/-- Predicate AND (R114). -/
def execPlogAnd (cell : CellIx) (body : BitVec 32) (ext : Option (BitVec 32)) (s : State) : Host.Outcome State Fault Refusal :=
  .next (s.on fun s => if s.frozen then s else s.runS cell.val .plogAnd body.toNat (ext.map (·.toNat)))

/-- Predicate OR (R114). -/
def execPlogOr (cell : CellIx) (body : BitVec 32) (ext : Option (BitVec 32)) (s : State) : Host.Outcome State Fault Refusal :=
  .next (s.on fun s => if s.frozen then s else s.runS cell.val .plogOr body.toNat (ext.map (·.toNat)))

/-- Predicate XOR (R114). -/
def execPlogXor (cell : CellIx) (body : BitVec 32) (ext : Option (BitVec 32)) (s : State) : Host.Outcome State Fault Refusal :=
  .next (s.on fun s => if s.frozen then s else s.runS cell.val .plogXor body.toNat (ext.map (·.toNat)))

/-- Predicate pa AND NOT pb (R114). -/
def execPlogAndn (cell : CellIx) (body : BitVec 32) (ext : Option (BitVec 32)) (s : State) : Host.Outcome State Fault Refusal :=
  .next (s.on fun s => if s.frozen then s else s.runS cell.val .plogAndn body.toNat (ext.map (·.toNat)))

/-- Scalar FP32 add (R115). -/
def execFadd (cell : CellIx) (body : BitVec 32) (ext : Option (BitVec 32)) (s : State) : Host.Outcome State Fault Refusal :=
  .next (s.on fun s => if s.frozen then s else s.runS cell.val .fadd body.toNat (ext.map (·.toNat)))

/-- Scalar FP32 subtract (R115). -/
def execFsub (cell : CellIx) (body : BitVec 32) (ext : Option (BitVec 32)) (s : State) : Host.Outcome State Fault Refusal :=
  .next (s.on fun s => if s.frozen then s else s.runS cell.val .fsub body.toNat (ext.map (·.toNat)))

/-- Scalar FP32 multiply (R115). -/
def execFmul (cell : CellIx) (body : BitVec 32) (ext : Option (BitVec 32)) (s : State) : Host.Outcome State Fault Refusal :=
  .next (s.on fun s => if s.frozen then s else s.runS cell.val .fmul body.toNat (ext.map (·.toNat)))

/-- Scalar FP32 minimumNumber (R115). -/
def execFmin (cell : CellIx) (body : BitVec 32) (ext : Option (BitVec 32)) (s : State) : Host.Outcome State Fault Refusal :=
  .next (s.on fun s => if s.frozen then s else s.runS cell.val .fmin body.toNat (ext.map (·.toNat)))

/-- Scalar FP32 maximumNumber (R115). -/
def execFmax (cell : CellIx) (body : BitVec 32) (ext : Option (BitVec 32)) (s : State) : Host.Outcome State Fault Refusal :=
  .next (s.on fun s => if s.frozen then s else s.runS cell.val .fmax body.toNat (ext.map (·.toNat)))

/-- FP32 from signed 64-bit integer (R115). -/
def execFcvtfi (cell : CellIx) (body : BitVec 32) (ext : Option (BitVec 32)) (s : State) : Host.Outcome State Fault Refusal :=
  .next (s.on fun s => if s.frozen then s else s.runS cell.val .fcvtfi body.toNat (ext.map (·.toNat)))

/-- Signed 64-bit integer from FP32, saturating (R115). -/
def execFcvtif (cell : CellIx) (body : BitVec 32) (ext : Option (BitVec 32)) (s : State) : Host.Outcome State Fault Refusal :=
  .next (s.on fun s => if s.frozen then s else s.runS cell.val .fcvtif body.toNat (ext.map (·.toNat)))

/-- Reads a special register into a scalar register (R116). -/
def execMfs (cell : CellIx) (body : BitVec 32) (ext : Option (BitVec 32)) (s : State) : Host.Outcome State Fault Refusal :=
  .next (s.on fun s => if s.frozen then s else s.runS cell.val .mfs body.toNat (ext.map (·.toNat)))

/-- Relative branch with two delay positions (R117). -/
def execB (cell : CellIx) (body : BitVec 32) (ext : Option (BitVec 32)) (s : State) : Host.Outcome State Fault Refusal :=
  .next (s.on fun s => if s.frozen then s else s.runS cell.val .b body.toNat (ext.map (·.toNat)))

/-- Relative branch that writes the return address (R117). -/
def execBal (cell : CellIx) (body : BitVec 32) (ext : Option (BitVec 32)) (s : State) : Host.Outcome State Fault Refusal :=
  .next (s.on fun s => if s.frozen then s else s.runS cell.val .bal body.toNat (ext.map (·.toNat)))

/-- Branch to the address in ra (R117). -/
def execJr (cell : CellIx) (body : BitVec 32) (ext : Option (BitVec 32)) (s : State) : Host.Outcome State Fault Refusal :=
  .next (s.on fun s => if s.frozen then s else s.runS cell.val .jr body.toNat (ext.map (·.toNat)))

/-- Branch to the address in ra writing the return address (R117). -/
def execJalr (cell : CellIx) (body : BitVec 32) (ext : Option (BitVec 32)) (s : State) : Host.Outcome State Fault Refusal :=
  .next (s.on fun s => if s.frozen then s else s.runS cell.val .jalr body.toNat (ext.map (·.toNat)))

end Sys2Proof.Machine
end

