-- ==== Sys2Proof/Machine/ExecSite.lean ====
section
/-! DEFINITION. The module in its slot, its reference inputs, the SMBus and the JTAG TAP (R459 to R461, R525, R540, R546 to R559). -/
namespace Sys2Proof.Machine

/-- EB_N opening starts the removal flush from the hold-up bank (R459). -/
def execHotplugRemove (masked : Bool) (s : State) : Host.Outcome State Fault Refusal :=
  .next (s.on fun s => s.ebOpen masked)

/-- At 4 ms of a flush PD0 to PD110 switch off (R459). -/
def execFlushDomainsOff (s : State) : Host.Outcome State Fault Refusal :=
  .next (s.on fun s => s.flushOff)

/-- PRES_N asserted powers up and boots the module (R461). -/
def execInsertion (s : State) : Host.Outcome State Fault Refusal :=
  .next (s.on fun s => s.insertion)

/-- After 100 ms of presence the input is connected and the bank charges (R546). -/
def execHotSwapConnect (s : State) : Host.Outcome State Fault Refusal :=
  .next (s.on fun s => s.inputConnect)

/-- Input below 36 V for 10 µs starts the flush (R559). -/
def execInputLoss (masked : Bool) (s : State) : Host.Outcome State Fault Refusal :=
  .next (s.on fun s => s.inputLoss masked)

/-- EB_N closes again during a flush, so the module resets and boots as on insertion once the flush ends (R460). -/
def execEbNReclose (s : State) : Host.Outcome State Fault Refusal :=
  .next (s.on fun s => s.ebClose)

/-- The hold-up bank runs out after a flush, PD111 loses power and the Keep moves to the backup cell (R459). -/
def execHoldupExhausted (s : State) : Host.Outcome State Fault Refusal :=
  .next (s.on fun s => s.powerGone)

/-- The hold-up bank reaches the input voltage less 0.5 V, the main converters start and PD110 comes on (R557). -/
def execHoldupBankCharged (s : State) : Host.Outcome State Fault Refusal :=
  .next (s.on fun s => s.bankCharged)

/-- A switched-on vault fails to reach READY within the time of R217 and sets the VAULT replacement cause (R522). -/
def execVaultReadyTimeout (vault : VaultIx) (s : State) : Host.Outcome State Fault Refusal :=
  .next (s.on fun s => s.vaultLate vault.val)

/-- Lost HREF moves the master to the internal oscillator (R551). -/
def execHrefLoss (s : State) : Host.Outcome State Fault Refusal :=
  .next (s.on fun s => s.hrefLost)

/-- HREF comes back within its limits, setting HREF_OK and the HREF_BACK edge bit (R551). -/
def execHrefReturn (s : State) : Host.Outcome State Fault Refusal :=
  .next (s.on fun s => s.hrefBack)

/-- Returns the master clock to HREF when allowed (R551). -/
def execClkRet (s : State) : Host.Outcome State Fault Refusal :=
  .next (s.on fun s => s.clkReturn)

/-- A PPS rising edge latches the hall-time counter (R552). -/
def execPpsEdge (offset : Fin 4000) (ps8 : Fin 125) (s : State) : Host.Outcome State Fault Refusal :=
  .next (s.on fun s => s.ppsEdge offset.val ps8.val)

/-- SDA low for 100 µs starts clock-pulse recovery of the SMBus (R525). -/
def execSmbStuckDetect (free : Bool) (s : State) : Host.Outcome State Fault Refusal :=
  .next (s.on fun s => s.smbStuck free)

/-- After the VTEL power cycle recovery runs again, ending OK or FAILED (R525). -/
def execSmbVtelCycleDone (free : Bool) (s : State) : Host.Outcome State Fault Refusal :=
  .next (s.on fun s => s.smbCycled free)

/-- Writing RECOVER runs the SMBus recovery from step 1 (R526). -/
def execRecover (free : Bool) (s : State) : Host.Outcome State Fault Refusal :=
  .next (s.on fun s => s.smbRetry free)

/-- JTAG boundary-scan drive (R540). -/
def execExtest (cells : List (Nat × Bool)) (s : State) : Host.Outcome State Fault Refusal :=
  .next (s.on fun s => s.extest cells)

/-- JTAG identity read (R540). -/
def execIdcode (s : State) : Host.Outcome State Fault Refusal :=
  .next (s.on fun s => s.idcode)

/-- JTAG boundary-scan sample (R540). -/
def execSamplePreload (s : State) : Host.Outcome State Fault Refusal :=
  .next (s.on fun s => s.samplePreload)

/-- JTAG bypass (R540). -/
def execBypass (s : State) : Host.Outcome State Fault Refusal :=
  .next (s.on fun s => s.bypass)

/-- TRST_N going low holds the JTAG TAP in reset (R548). -/
def execTrstAssert (s : State) : Host.Outcome State Fault Refusal :=
  .next (s.on fun s => s.trst)

/-- Setting JTAG_LOCK locks JTAG access until reset (R541). -/
def execJtagLock (s : State) : Host.Outcome State Fault Refusal :=
  .next (s.on fun s => s.put F.DBG_CTRL_JTAG_LOCK 1)

/-- JTAG starts one control-space access (R541). -/
def execCtrlAccess (write : Bool) (addr : BitVec 48) (data : Word) (s : State) : Host.Outcome State Fault Refusal :=
  .next (s.on fun s => s.ctrlStart write addr.toNat data.toNat)

end Sys2Proof.Machine
end

