-- ==== Sys2Proof/Machine/ExecSteward.lean ====
section
/-! DEFINITION. Block mailboxes, watchdogs and steward resets (R256 to R258, R523). -/
namespace Sys2Proof.Machine

/-- Takes a free block mailbox (R256). -/
def execAcquire (block : BlockIx) (head : Bool) (s : State) : Host.Outcome State Fault Refusal :=
  .next (s.on fun s => s.mboxAcquire block.val head)

/-- Passes mailbox ownership to the other side and increments SEQ (R256). -/
def execHand (block : BlockIx) (head : Bool) (s : State) : Host.Outcome State Fault Refusal :=
  .next (s.on fun s => s.mboxHand block.val head)

/-- Frees the mailbox (R256). -/
def execRelease (block : BlockIx) (head : Bool) (s : State) : Host.Outcome State Fault Refusal :=
  .next (s.on fun s => s.mboxRelease block.val head)

/-- Writes mailbox data, ignored unless by the owner (R256). -/
def execMboxDataWrite (block : BlockIx) (head : Bool) (index : Fin 8) (value : Word) (s : State) : Host.Outcome State Fault Refusal :=
  .next (s.on fun s => s.mboxData block.val head index.val value.toNat)

/-- Restarts a block steward watchdog count (R257). -/
def execWdogKick (block : BlockIx) (s : State) : Host.Outcome State Fault Refusal :=
  .next (s.on fun s => s.wdogKick block.val)

/-- The watchdog reaches LIMIT, sets EXPIRED and may raise STW_HANG (R257). -/
def execWdogExpire (block : BlockIx) (s : State) : Host.Outcome State Fault Refusal :=
  .next (s.on fun s => s.wdogExpire block.val)

/-- BLK_STW_CTRL RESET holds a block steward in reset and frees a BLOCK-owned mailbox (R258). -/
def execStewardReset (block : BlockIx) (s : State) : Host.Outcome State Fault Refusal :=
  .next (s.on fun s => s.stewardReset block.val)

/-- HALT holds a block steward in reset while set (R258). -/
def execStewardHalt (block : BlockIx) (on : Bool) (s : State) : Host.Outcome State Fault Refusal :=
  .next (s.on fun s => s.stewardHalt block.val on)

/-- After 64 cycles a reset steward starts at its reset vector (R258). -/
def execStewardResetRelease (steward : StewardIx) (s : State) : Host.Outcome State Fault Refusal :=
  .next (s.on fun s => s.stewardRelease steward.val)

/-- Restarts a head-steward watchdog count (R523). -/
def execHsKick (head : HeadIx) (s : State) : Host.Outcome State Fault Refusal :=
  .next (s.on fun s => s.hsKick head.val)

/-- A head-steward watchdog reaching LIMIT sets EXPIRED (R523). -/
def execHsHang (head : HeadIx) (s : State) : Host.Outcome State Fault Refusal :=
  .next (s.on fun s => s.hsHang head.val)

/-- Resets a head steward from another head steward, host or JTAG (R523). -/
def execHsReset (head : HeadIx) (who : Requester) (loads : Bool) (s : State) : Host.Outcome State Fault Refusal :=
  .next (s.on fun s => s.hsReset who loads head.val)

end Sys2Proof.Machine
end

