-- ==== Sys2Proof/Machine/ExecTeller.lean ====
section
/-! DEFINITION. Commands of the Teller (R382 to R411). -/
namespace Sys2Proof.Machine

/-- A host doorbell write of the SQ tail, ignored on a module that is not lead (R382). -/
def execSqTailWrite (tail : BitVec 16) (s : State) : Host.Outcome State Fault Refusal :=
  .next (s.on fun s => s.sqTail tail.toNat)

/-- The lead reads an SQ entry and accepts or refuses the request (R390). -/
def execSqEntryRead (entry : BitVec 512) (s : State) : Host.Outcome State Fault Refusal :=
  .next (s.on fun s => s.sqRead (flitBytes entry))

/-- A request's next prompt chunk arrives in the Teller state area (R391). -/
def execPromptChunkFetched (slot : BitVec 13) (tokens : List (BitVec 32)) (s : State) : Host.Outcome State Fault Refusal :=
  .next (s.on fun s => s.chunkFetched slot.toNat tokens)

/-- Each module reads MASK_IN for the next frame's mask in force (R399). -/
def execMaskLatch (s : State) : Host.Outcome State Fault Refusal :=
  .next (s.on fun s => s.maskLatch)

/-- Cancels a request and suppresses its later writes (R407). -/
def execCancel (slot : BitVec 13) (tag : BitVec 32) (s : State) : Host.Outcome State Fault Refusal :=
  .next (s.on fun s => s.reqCmd false slot.toNat tag.toNat)

/-- Ends a request after its placed steps commit (R408). -/
def execPause (slot : BitVec 13) (tag : BitVec 32) (s : State) : Host.Outcome State Fault Refusal :=
  .next (s.on fun s => s.reqCmd true slot.toNat tag.toNat)

/-- Refills and copies an account record to TLR_ACCT_DATA (R402). -/
def execAcctRead (account : BitVec 16) (s : State) : Host.Outcome State Fault Refusal :=
  .next (s.on fun s => s.acctRead account.toNat)

/-- Refills and replaces an account's writable fields (R402). -/
def execAcctWrite (account : BitVec 16) (s : State) : Host.Outcome State Fault Refusal :=
  .next (s.on fun s => s.acctWrite account.toNat)

/-- Refills and adds an amount to an account balance (R402). -/
def execAcctAdd (account : BitVec 16) (s : State) : Host.Outcome State Fault Refusal :=
  .next (s.on fun s => s.acctAdd account.toNat)

/-- An ENDING request writes its end entries once CQ space exists (R405). -/
def execEndingFlush (slot : BitVec 13) (s : State) : Host.Outcome State Fault Refusal :=
  .next (s.on fun s => s.endFlush slot.toNat)

/-- A failed ring write ends the request ABORTED (R406). -/
def execRingWriteFail (slot : BitVec 13) (s : State) : Host.Outcome State Fault Refusal :=
  .next (s.on fun s => s.ringFail slot.toNat (((s.req slot.toNat).map (·.reqId)).getD 0))

/-- A partner record in the inbox is compared with the own record (R428). -/
def execDigestRecordArrive (index : BitVec 15) (s : State) : Host.Outcome State Fault Refusal :=
  .next (s.on fun s => s.detCompare index.toNat)

/-- No matching partner record within WAIT frames raises DET_MISSING (R429). -/
def execDetMissing (s : State) : Host.Outcome State Fault Refusal :=
  .next (s.on fun s => s.detMissing)

/-- Releases the digest capture (R430). -/
def execCapclr (s : State) : Host.Outcome State Fault Refusal :=
  .next (s.on fun s => s.capClr)

end Sys2Proof.Machine
end

