-- ==== Sys2Proof/Machine/ExecTime.lean ====
section
/-! DEFINITION. Commands of the registers, of hall time and of the regions (R13, R36 to R64, R528). -/
namespace Sys2Proof.Machine

/-- Writing a group's SNAP copies every live counter of the group into its latch at one instant (R13). -/
def execCounterSnap (addr : BitVec 48) (s : State) : Host.Outcome State Fault Refusal :=
  .next (s.on fun s => s.snapAt addr.toNat)

/-- Writing 1 to an error counter's OVF clears OVF and sets COUNT to zero in the same access (R528). -/
def execOvfClear (addr : BitVec 48) (s : State) : Host.Outcome State Fault Refusal :=
  .next (s.on fun s => s.ovfClear addr.toNat)

/-- After 256 frames below 100 ps with the bound within BOUND_LIM the Belfry enters LOCKED (R40). -/
def execLockGained (s : State) : Host.Outcome State Fault Refusal :=
  .next (s.on fun s => s.lockGained)

/-- BLF_CTRL.SNAP latches counter, fc position, steering, bound and port times on one fc edge (R36). -/
def execBlfSnap (s : State) : Host.Outcome State Fault Refusal :=
  .next (s.on fun s => s.blfSnap)

/-- BLF_CTRL.RESTART returns the Belfry to FREERUN without stepping the counter, unless a plan is active (R40). -/
def execRestart (s : State) : Host.Outcome State Fault Refusal :=
  .next (s.on fun s => s.blfRestart)

/-- With ENABLE set the Belfry leaves FREERUN for COARSE, FINE or LOCKED as its role and PTP setting give (R40). -/
def execBlfLeaveFreerun (s : State) : Host.Outcome State Fault Refusal :=
  .next (s.on fun s => s.leaveFreerun)

/-- At the first fc edge in COARSE with PTP_VALID the counter is stepped once to PTP time (R40). -/
def execPtpCoarseStep (s : State) : Host.Outcome State Fault Refusal :=
  .next (s.on fun s => if s.blfState ≠ blfCoarse then s else (s.ptpNow.2).coarseStep s.ptpNow.1)

/-- A received TIME control unit completes an exchange, giving rtt and theta for the port (R42). -/
def execTimeReceive (port : PortIx) (unit : TimeUnit) (t4 own : Nat) (s : State) : Host.Outcome State Fault Refusal :=
  .next (s.on fun s => s.timeReceive port.val unit t4 own)

/-- When the active parent becomes invalid the Belfry moves to the next valid candidate or enters HOLDOVER (R48). -/
def execParentLost (s : State) : Host.Outcome State Fault Refusal :=
  .next (s.on fun s => s.parentLost)

/-- Each millisecond in HOLDOVER the error bound grows by HOLD_RATE, raising TIME_FAULT past BOUND_LIM (R49). -/
def execHoldoverBoundGrow (s : State) : Host.Outcome State Fault Refusal :=
  .next (s.on fun s => s.holdoverGrow)

/-- A PLAN_STEP write records the step and, in calibrated mode, starts a retune at the next Bell (R55). -/
def execPlanStepWrite (region : RegionIx) (clkStep : BitVec 7) (s : State) : Host.Outcome State Fault Refusal :=
  .next (s.on fun s => if s.planActive then s else s.inDomain (80 + region.val) fun s => s.planStepWrite region.val clkStep.toNat)

/-- A write of MODE = 0 outside a plan runs the retune and calibration from the next Bell (R55). -/
def execModeCalibratedWrite (region : RegionIx) (s : State) : Host.Outcome State Fault Refusal :=
  .next (s.on fun s => if s.planActive then s else s.inDomain (80 + region.val) fun s => s.modeWrite region.val false)

/-- A write of MODE = 1 outside a plan puts the region into aligned mode at the next Bell (R63). -/
def execModeAlignedWrite (region : RegionIx) (s : State) : Host.Outcome State Fault Refusal :=
  .next (s.on fun s => if s.planActive then s else s.inDomain (80 + region.val) fun s => s.modeWrite region.val true)

/-- At the 65th Bell after power good the region selects its alignment tap and sets ALIGN_DONE or raises XCAL_FAIL (R64). -/
def execAlignDone (region : RegionIx) (passing : BitVec 64) (s : State) : Host.Outcome State Fault Refusal :=
  .next (s.on fun s => s.inDomain (80 + region.val) fun s => s.alignDone region.val passing.toNat)

/-- A sentinel detecting droop makes the region remove its next rc edge (R57). -/
def execDroopDetect (region : RegionIx) (s : State) : Host.Outcome State Fault Refusal :=
  .next (s.on fun s => s.inDomain (80 + region.val) fun s => s.droop region.val)

end Sys2Proof.Machine
end

