-- ==== Sys2Proof/Machine/ExecVault.lean ====
section
/-! DEFINITION. Commands of the vaults, their engines and the control rings (R214 to R247). -/
namespace Sys2Proof.Machine

/-- A switched-on vault finishes training and zeroing and sets READY (R217). -/
def execVaultReady (vault : VaultIx) (s : State) : Host.Outcome State Fault Refusal :=
  .next (s.on fun s => s.vaultReadyNow vault.val)

/-- A scheduled vault read accesses DRAM 96 fc before its slot, with ECC (R222). -/
def execVaultScheduledRead (tenancy : TenancyIx) (entry member : BitVec 16) (errs : List VaultErr) (s : State) : Host.Outcome State Fault Refusal :=
  .next (s.on fun s => if s.frozen then s else s.scheduledRead tenancy.val entry.toNat member.toNat errs)

/-- A scheduled vault write accesses DRAM 64 fc after its last byte, subject to the slot mask (R222). -/
def execVaultScheduledWrite (vault : VaultIx) (errs : List VaultErr) (s : State) : Host.Outcome State Fault Refusal :=
  .next (s.on fun s => if s.frozen then s else s.scheduledWrite vault.val errs)

/-- In W1 and W2 every channel refreshes or scrubs and engines pause (R223). -/
def execRefreshWindow (vault : VaultIx) (opens second : Bool) (errs : List VaultErr) (s : State) : Host.Outcome State Fault Refusal :=
  .next (s.on fun s => s.refreshWindow vault.val opens second errs)

/-- A vault's hottest layer moves into another temperature band (R223). -/
def execVaultBandChange (vault : VaultIx) (temperature : Int) (s : State) : Host.Outcome State Fault Refusal :=
  .next (s.on fun s => s.bandChange vault.val temperature)

/-- A command record reaches an engine's scheduled or unscheduled queue (R230). -/
def execEngineCmdArrive (engine : EngineIx) (s : State) : Host.Outcome State Fault Refusal :=
  .next (s.on fun s => if s.frozen then s else s.cmdArrive engine.val)

/-- An engine starts its next command once due and free (R230). -/
def execEngineCmdStart (engine : EngineIx) (s : State) : Host.Outcome State Fault Refusal :=
  .next (s.on fun s => if s.frozen then s else s.engStart engine.val)

/-- A running unscheduled command suspends at its next suspend point when a scheduled one is due (R230). -/
def execEngineSuspend (engine : EngineIx) (s : State) : Host.Outcome State Fault Refusal :=
  .next (s.on fun s => if s.frozen then s else s.engSuspend engine.val)

/-- A command completes after D active ec (R231). -/
def execEngineCmdComplete (engine : EngineIx) (s : State) : Host.Outcome State Fault Refusal :=
  .next (s.on fun s => if s.frozen then s else s.engComplete engine.val)

/-- At its result slot a command's result leaves the vault, or the slot is missed (R232). -/
def execEngineResultSlot (engine : EngineIx) (tenancy : TenancyIx) (entry : BitVec 16) (ue : List Nat) (s : State) : Host.Outcome State Fault Refusal :=
  .next (s.on fun s => if s.frozen then s else s.resultSlot engine.val tenancy.val entry.toNat ue)

/-- Computes decode attention partials over the engine's KV rows (R237). -/
def execAttn (engine : EngineIx) (errs : List VaultErr) (s : State) : Host.Outcome State Fault Refusal :=
  .next (s.on fun s => if s.frozen then s else s.engOp engine.val 1 errs)

/-- Reduces C sources into a destination (R240). -/
def execReduce (engine : EngineIx) (errs : List VaultErr) (s : State) : Host.Outcome State Fault Refusal :=
  .next (s.on fun s => if s.frozen then s else s.engOp engine.val 2 errs)

/-- Copies indexed rows to a cell (R241). -/
def execGather (engine : EngineIx) (errs : List VaultErr) (s : State) : Host.Outcome State Fault Refusal :=
  .next (s.on fun s => if s.frozen then s else s.engOp engine.val 3 errs)

/-- Writes rows to indexed places (R241). -/
def execScatter (engine : EngineIx) (errs : List VaultErr) (s : State) : Host.Outcome State Fault Refusal :=
  .next (s.on fun s => if s.frozen then s else s.engOp engine.val 4 errs)

/-- Adds entry values into indexed elements (R242). -/
def execAtomic (engine : EngineIx) (errs : List VaultErr) (s : State) : Host.Outcome State Fault Refusal :=
  .next (s.on fun s => if s.frozen then s else s.engOp engine.val 5 errs)

/-- The fabric writes a received control packet into CR0 or CR1, or drops it (R245). -/
def execCringWrite (ring : Fin 2) (packet : BitVec 512) (s : State) : Host.Outcome State Fault Refusal :=
  .next (s.on fun s => (s.cringWrite ring.val (flitBytes packet)).2)

/-- A head steward writes CONS, ignored beyond PROD (R245). -/
def execCringConsWrite (ring : Fin 2) (cons : BitVec 32) (s : State) : Host.Outcome State Fault Refusal :=
  .next (s.on fun s => s.cringCons ring.val cons.toNat)

end Sys2Proof.Machine
end

