-- ==== Sys2Proof/Machine/ExecVector.lean ====
section
/-! DEFINITION. The vector-slot commands: each issues its operation in the present rc of a cell, with the 64-bit slot body (R104, R177 to
R190). -/
namespace Sys2Proof.Machine

/-- Vector INT32 add (R180). -/
def execViadd (cell : CellIx) (body : BitVec 64) (s : State) : Host.Outcome State Fault Refusal :=
  .next (s.on fun s => if s.frozen then s else s.runV cell.val .viadd body.toNat)

/-- Vector INT32 subtract (R180). -/
def execVisub (cell : CellIx) (body : BitVec 64) (s : State) : Host.Outcome State Fault Refusal :=
  .next (s.on fun s => if s.frozen then s else s.runV cell.val .visub body.toNat)

/-- Vector bitwise AND (R180). -/
def execVand (cell : CellIx) (body : BitVec 64) (s : State) : Host.Outcome State Fault Refusal :=
  .next (s.on fun s => if s.frozen then s else s.runV cell.val .vand body.toNat)

/-- Vector bitwise OR (R180). -/
def execVor (cell : CellIx) (body : BitVec 64) (s : State) : Host.Outcome State Fault Refusal :=
  .next (s.on fun s => if s.frozen then s else s.runV cell.val .vor body.toNat)

/-- Vector bitwise XOR (R180). -/
def execVxor (cell : CellIx) (body : BitVec 64) (s : State) : Host.Outcome State Fault Refusal :=
  .next (s.on fun s => if s.frozen then s else s.runV cell.val .vxor body.toNat)

/-- Vector INT32 minimum (R180). -/
def execVimin (cell : CellIx) (body : BitVec 64) (s : State) : Host.Outcome State Fault Refusal :=
  .next (s.on fun s => if s.frozen then s else s.runV cell.val .vimin body.toNat)

/-- Vector INT32 maximum (R180). -/
def execVimax (cell : CellIx) (body : BitVec 64) (s : State) : Host.Outcome State Fault Refusal :=
  .next (s.on fun s => if s.frozen then s else s.runV cell.val .vimax body.toNat)

/-- Vector shift left (R180). -/
def execVsll (cell : CellIx) (body : BitVec 64) (s : State) : Host.Outcome State Fault Refusal :=
  .next (s.on fun s => if s.frozen then s else s.runV cell.val .vsll body.toNat)

/-- Vector logical shift right (R180). -/
def execVsrl (cell : CellIx) (body : BitVec 64) (s : State) : Host.Outcome State Fault Refusal :=
  .next (s.on fun s => if s.frozen then s else s.runV cell.val .vsrl body.toNat)

/-- Vector arithmetic shift right (R180). -/
def execVsra (cell : CellIx) (body : BitVec 64) (s : State) : Host.Outcome State Fault Refusal :=
  .next (s.on fun s => if s.frozen then s else s.runV cell.val .vsra body.toNat)

/-- Vector INT32 multiply, low 32 bits (R180). -/
def execVimul (cell : CellIx) (body : BitVec 64) (s : State) : Host.Outcome State Fault Refusal :=
  .next (s.on fun s => if s.frozen then s else s.runV cell.val .vimul body.toNat)

/-- Vector move of operand B (R180). -/
def execVmov (cell : CellIx) (body : BitVec 64) (s : State) : Host.Outcome State Fault Refusal :=
  .next (s.on fun s => if s.frozen then s else s.runV cell.val .vmov body.toNat)

/-- Lane select by vc (R180). -/
def execVsel (cell : CellIx) (body : BitVec 64) (s : State) : Host.Outcome State Fault Refusal :=
  .next (s.on fun s => if s.frozen then s else s.runV cell.val .vsel body.toNat)

/-- Masked lane move by sVC bits (R180). -/
def execVmovm (cell : CellIx) (body : BitVec 64) (s : State) : Host.Outcome State Fault Refusal :=
  .next (s.on fun s => if s.frozen then s else s.runV cell.val .vmovm body.toNat)

/-- Vector integer compare equal (R180). -/
def execVicmpEq (cell : CellIx) (body : BitVec 64) (s : State) : Host.Outcome State Fault Refusal :=
  .next (s.on fun s => if s.frozen then s else s.runV cell.val .vicmpEq body.toNat)

/-- Vector integer compare not equal (R180). -/
def execVicmpNe (cell : CellIx) (body : BitVec 64) (s : State) : Host.Outcome State Fault Refusal :=
  .next (s.on fun s => if s.frozen then s else s.runV cell.val .vicmpNe body.toNat)

/-- Vector signed compare less than (R180). -/
def execVicmpLt (cell : CellIx) (body : BitVec 64) (s : State) : Host.Outcome State Fault Refusal :=
  .next (s.on fun s => if s.frozen then s else s.runV cell.val .vicmpLt body.toNat)

/-- Vector unsigned compare less than (R180). -/
def execVicmpLtu (cell : CellIx) (body : BitVec 64) (s : State) : Host.Outcome State Fault Refusal :=
  .next (s.on fun s => if s.frozen then s else s.runV cell.val .vicmpLtu body.toNat)

/-- Vector FP32 compare equal (R180). -/
def execVfcmpEq (cell : CellIx) (body : BitVec 64) (s : State) : Host.Outcome State Fault Refusal :=
  .next (s.on fun s => if s.frozen then s else s.runV cell.val .vfcmpEq body.toNat)

/-- Vector FP32 compare less than (R180). -/
def execVfcmpLt (cell : CellIx) (body : BitVec 64) (s : State) : Host.Outcome State Fault Refusal :=
  .next (s.on fun s => if s.frozen then s else s.runV cell.val .vfcmpLt body.toNat)

/-- Vector FP32 compare less or equal (R180). -/
def execVfcmpLe (cell : CellIx) (body : BitVec 64) (s : State) : Host.Outcome State Fault Refusal :=
  .next (s.on fun s => if s.frozen then s else s.runV cell.val .vfcmpLe body.toNat)

/-- Vector FP32 unordered test (R180). -/
def execVfcmpUn (cell : CellIx) (body : BitVec 64) (s : State) : Host.Outcome State Fault Refusal :=
  .next (s.on fun s => if s.frozen then s else s.runV cell.val .vfcmpUn body.toNat)

/-- Vector FP32 add (R180). -/
def execVfadd (cell : CellIx) (body : BitVec 64) (s : State) : Host.Outcome State Fault Refusal :=
  .next (s.on fun s => if s.frozen then s else s.runV cell.val .vfadd body.toNat)

/-- Vector FP32 subtract (R180). -/
def execVfsub (cell : CellIx) (body : BitVec 64) (s : State) : Host.Outcome State Fault Refusal :=
  .next (s.on fun s => if s.frozen then s else s.runV cell.val .vfsub body.toNat)

/-- Vector FP32 multiply (R180). -/
def execVfmul (cell : CellIx) (body : BitVec 64) (s : State) : Host.Outcome State Fault Refusal :=
  .next (s.on fun s => if s.frozen then s else s.runV cell.val .vfmul body.toNat)

/-- Vector FP32 minimum (R180). -/
def execVfmin (cell : CellIx) (body : BitVec 64) (s : State) : Host.Outcome State Fault Refusal :=
  .next (s.on fun s => if s.frozen then s else s.runV cell.val .vfmin body.toNat)

/-- Vector FP32 maximum (R180). -/
def execVfmax (cell : CellIx) (body : BitVec 64) (s : State) : Host.Outcome State Fault Refusal :=
  .next (s.on fun s => if s.frozen then s else s.runV cell.val .vfmax body.toNat)

/-- Vector fused multiply-add (R180). -/
def execVfma (cell : CellIx) (body : BitVec 64) (s : State) : Host.Outcome State Fault Refusal :=
  .next (s.on fun s => if s.frozen then s else s.runV cell.val .vfma body.toNat)

/-- Vector negated fused multiply-add (R180). -/
def execVfnma (cell : CellIx) (body : BitVec 64) (s : State) : Host.Outcome State Fault Refusal :=
  .next (s.on fun s => if s.frozen then s else s.runV cell.val .vfnma body.toNat)

/-- Clears the sign bit of each lane (R176). -/
def execVfabs (cell : CellIx) (body : BitVec 64) (s : State) : Host.Outcome State Fault Refusal :=
  .next (s.on fun s => if s.frozen then s else s.runV cell.val .vfabs body.toNat)

/-- Inverts the sign bit of each lane (R176). -/
def execVfneg (cell : CellIx) (body : BitVec 64) (s : State) : Host.Outcome State Fault Refusal :=
  .next (s.on fun s => if s.frozen then s else s.runV cell.val .vfneg body.toNat)

/-- FP32 from INT32 lanes (R180). -/
def execVcvtfi (cell : CellIx) (body : BitVec 64) (s : State) : Host.Outcome State Fault Refusal :=
  .next (s.on fun s => if s.frozen then s else s.runV cell.val .vcvtfi body.toNat)

/-- INT32 from FP32 lanes, saturating (R180). -/
def execVcvtif (cell : CellIx) (body : BitVec 64) (s : State) : Host.Outcome State Fault Refusal :=
  .next (s.on fun s => if s.frozen then s else s.runV cell.val .vcvtif body.toNat)

/-- Converts FP32 lanes to a narrow format in a register (R183). -/
def execVpack (cell : CellIx) (body : BitVec 64) (s : State) : Host.Outcome State Fault Refusal :=
  .next (s.on fun s => if s.frozen then s else s.runV cell.val .vpack body.toNat)

/-- Converts narrow elements to FP32 lanes (R183). -/
def execVunpk (cell : CellIx) (body : BitVec 64) (s : State) : Host.Outcome State Fault Refusal :=
  .next (s.on fun s => if s.frozen then s else s.runV cell.val .vunpk body.toNat)

/-- Computes MX block scale bytes of 32-lane blocks (R183). -/
def execVmxsc (cell : CellIx) (body : BitVec 64) (s : State) : Host.Outcome State Fault Refusal :=
  .next (s.on fun s => if s.frozen then s else s.runV cell.val .vmxsc body.toNat)

/-- Vector permute by index (R180). -/
def execVperm (cell : CellIx) (body : BitVec 64) (s : State) : Host.Outcome State Fault Refusal :=
  .next (s.on fun s => if s.frozen then s else s.runV cell.val .vperm body.toNat)

/-- Vector lane rotate (R180). -/
def execVrot (cell : CellIx) (body : BitVec 64) (s : State) : Host.Outcome State Fault Refusal :=
  .next (s.on fun s => if s.frozen then s else s.runV cell.val .vrot body.toNat)

/-- Broadcasts one lane (R180). -/
def execVbcl (cell : CellIx) (body : BitVec 64) (s : State) : Host.Outcome State Fault Refusal :=
  .next (s.on fun s => if s.frozen then s else s.runV cell.val .vbcl body.toNat)

/-- Lane-wise e^x (R182). -/
def execVexp (cell : CellIx) (body : BitVec 64) (s : State) : Host.Outcome State Fault Refusal :=
  .next (s.on fun s => if s.frozen then s else s.runV cell.val .vexp body.toNat)

/-- Lane-wise 2^x (R182). -/
def execVexp2 (cell : CellIx) (body : BitVec 64) (s : State) : Host.Outcome State Fault Refusal :=
  .next (s.on fun s => if s.frozen then s else s.runV cell.val .vexp2 body.toNat)

/-- Lane-wise natural logarithm (R182). -/
def execVlog (cell : CellIx) (body : BitVec 64) (s : State) : Host.Outcome State Fault Refusal :=
  .next (s.on fun s => if s.frozen then s else s.runV cell.val .vlog body.toNat)

/-- Lane-wise base-2 logarithm (R182). -/
def execVlog2 (cell : CellIx) (body : BitVec 64) (s : State) : Host.Outcome State Fault Refusal :=
  .next (s.on fun s => if s.frozen then s else s.runV cell.val .vlog2 body.toNat)

/-- Lane-wise reciprocal (R182). -/
def execVrcp (cell : CellIx) (body : BitVec 64) (s : State) : Host.Outcome State Fault Refusal :=
  .next (s.on fun s => if s.frozen then s else s.runV cell.val .vrcp body.toNat)

/-- Lane-wise reciprocal square root (R182). -/
def execVrsqrt (cell : CellIx) (body : BitVec 64) (s : State) : Host.Outcome State Fault Refusal :=
  .next (s.on fun s => if s.frozen then s else s.runV cell.val .vrsqrt body.toNat)

/-- FP32 tree sum across lanes (R181). -/
def execVrsum (cell : CellIx) (body : BitVec 64) (s : State) : Host.Outcome State Fault Refusal :=
  .next (s.on fun s => if s.frozen then s else s.runV cell.val .vrsum body.toNat)

/-- Maximum across lanes (R181). -/
def execVrmax (cell : CellIx) (body : BitVec 64) (s : State) : Host.Outcome State Fault Refusal :=
  .next (s.on fun s => if s.frozen then s else s.runV cell.val .vrmax body.toNat)

/-- Minimum across lanes (R181). -/
def execVrmin (cell : CellIx) (body : BitVec 64) (s : State) : Host.Outcome State Fault Refusal :=
  .next (s.on fun s => if s.frozen then s else s.runV cell.val .vrmin body.toNat)

/-- INT32 tree sum across lanes (R181). -/
def execVrisum (cell : CellIx) (body : BitVec 64) (s : State) : Host.Outcome State Fault Refusal :=
  .next (s.on fun s => if s.frozen then s else s.runV cell.val .vrisum body.toNat)

/-- Writes a 64-bit nonzero-lane mask to a scalar register (R181). -/
def execVrmsk (cell : CellIx) (body : BitVec 64) (s : State) : Host.Outcome State Fault Refusal :=
  .next (s.on fun s => if s.frozen then s else s.runV cell.val .vrmsk body.toNat)

/-- Folds a chunk into a softmax or moment row state (R186). -/
def execVstat (cell : CellIx) (body : BitVec 64) (s : State) : Host.Outcome State Fault Refusal :=
  .next (s.on fun s => if s.frozen then s else s.runV cell.val .vstat body.toNat)

/-- Finishes softmax probabilities from a row state (R187). -/
def execVsmxp (cell : CellIx) (body : BitVec 64) (s : State) : Host.Outcome State Fault Refusal :=
  .next (s.on fun s => if s.frozen then s else s.runV cell.val .vsmxp body.toNat)

/-- Log-sum-exp of 16 row states (R187). -/
def execVlse (cell : CellIx) (body : BitVec 64) (s : State) : Host.Outcome State Fault Refusal :=
  .next (s.on fun s => if s.frozen then s else s.runV cell.val .vlse body.toNat)

/-- Merges two softmax row states (R187). -/
def execVpmrg (cell : CellIx) (body : BitVec 64) (s : State) : Host.Outcome State Fault Refusal :=
  .next (s.on fun s => if s.frozen then s else s.runV cell.val .vpmrg body.toNat)

/-- Divides lanes by a row's l (R187). -/
def execVonrm (cell : CellIx) (body : BitVec 64) (s : State) : Host.Outcome State Fault Refusal :=
  .next (s.on fun s => if s.frozen then s else s.runV cell.val .vonrm body.toNat)

/-- Computes norm parameters from a moment state (R190). -/
def execVnrmf (cell : CellIx) (body : BitVec 64) (s : State) : Host.Outcome State Fault Refusal :=
  .next (s.on fun s => if s.frozen then s else s.runV cell.val .vnrmf body.toNat)

/-- Vector shift left by immediate (R180). -/
def execVslli (cell : CellIx) (body : BitVec 64) (s : State) : Host.Outcome State Fault Refusal :=
  .next (s.on fun s => if s.frozen then s else s.runV cell.val .vslli body.toNat)

/-- Vector logical shift right by immediate (R180). -/
def execVsrli (cell : CellIx) (body : BitVec 64) (s : State) : Host.Outcome State Fault Refusal :=
  .next (s.on fun s => if s.frozen then s else s.runV cell.val .vsrli body.toNat)

/-- Vector arithmetic shift right by immediate (R180). -/
def execVsrai (cell : CellIx) (body : BitVec 64) (s : State) : Host.Outcome State Fault Refusal :=
  .next (s.on fun s => if s.frozen then s else s.runV cell.val .vsrai body.toNat)

/-- Moves a lane range given by immediate (R180). -/
def execVmovmi (cell : CellIx) (body : BitVec 64) (s : State) : Host.Outcome State Fault Refusal :=
  .next (s.on fun s => if s.frozen then s else s.runV cell.val .vmovmi body.toNat)

/-- Writes Tally generator words into lanes (R184). -/
def execVrng (cell : CellIx) (body : BitVec 64) (s : State) : Host.Outcome State Fault Refusal :=
  .next (s.on fun s => if s.frozen then s else s.runV cell.val .vrng body.toNat)

/-- Scales lanes by a power of two (R180). -/
def execVscl2 (cell : CellIx) (body : BitVec 64) (s : State) : Host.Outcome State Fault Refusal :=
  .next (s.on fun s => if s.frozen then s else s.runV cell.val .vscl2 body.toNat)

/-- Clamps lanes to BF16 immediate bounds (R180). -/
def execVclampi (cell : CellIx) (body : BitVec 64) (s : State) : Host.Outcome State Fault Refusal :=
  .next (s.on fun s => if s.frozen then s else s.runV cell.val .vclampi body.toNat)

end Sys2Proof.Machine
end

