-- ==== Sys2Proof/Machine/ExecWeights.lean ====
section
/-! DEFINITION. Commands of the weight mover (R363 to R371). -/
namespace Sys2Proof.Machine

/-- The mover fills every shard of a tenancy into a bank (R363). -/
def execWgtLoad (s : State) : Host.Outcome State Fault Refusal :=
  .next (s.on fun s => s.moverCmd 1 (s.reg R.MOD_WGT_CTRL))

/-- The mover checks every shard of a bank as it stands (R363). -/
def execVerify (s : State) : Host.Outcome State Fault Refusal :=
  .next (s.on fun s => s.moverCmd 2 (s.reg R.MOD_WGT_CTRL))

/-- Ends the mover's operation with the bank not valid (R363). -/
def execWgtAbort (s : State) : Host.Outcome State Fault Refusal :=
  .next (s.on fun s => s.moverAbort)

/-- A fully marked chunk is read back into its shard CRC and queued for forwarding (R366). -/
def execWgtChunkComplete (s : State) : Host.Outcome State Fault Refusal :=
  .next (s.on fun s => if s.frozen then s else s.chunkComplete)

/-- When every shard passes and every forward is acknowledged the LOAD ends DONE (R368). -/
def execWgtLoadDone (s : State) : Host.Outcome State Fault Refusal :=
  .next (s.on fun s => if s.frozen then s else s.loadDone)

/-- A LOAD not DONE within LIMIT seconds fails (R371). -/
def execWgtTimeout (s : State) : Host.Outcome State Fault Refusal :=
  .next (s.on fun s => if s.frozen then s else s.moverTimeout)

/-- A VERIFY operation finishes checking every shard and sets the bank's VALID, or fails (R363). -/
def execWgtVerifyDone (s : State) : Host.Outcome State Fault Refusal :=
  .next (s.on fun s => if s.frozen then s else s.verifyDone)

end Sys2Proof.Machine
end

