-- ==== Sys2Proof/Machine/Dispatch.lean ====
section
/-! DEFINITION. The dispatch of commands to their meanings: one arm per constructor, one direct call each. -/
namespace Sys2Proof.Machine

def exec (i : Instr) (s : State) : Host.Outcome State Fault Refusal :=
  match i with
  | .regWrite who addr value => Sys2Proof.Machine.execRegWrite who addr value s
  | .counterSnap addr => Sys2Proof.Machine.execCounterSnap addr s
  | .ovfClear addr => Sys2Proof.Machine.execOvfClear addr s
  | .bell fillLate => Sys2Proof.Machine.execBell fillLate s
  | .lockGained => Sys2Proof.Machine.execLockGained s
  | .blfSnap => Sys2Proof.Machine.execBlfSnap s
  | .restart => Sys2Proof.Machine.execRestart s
  | .blfLeaveFreerun => Sys2Proof.Machine.execBlfLeaveFreerun s
  | .ptpCoarseStep => Sys2Proof.Machine.execPtpCoarseStep s
  | .timeReceive port unit t4 own => Sys2Proof.Machine.execTimeReceive port unit t4 own s
  | .parentLost => Sys2Proof.Machine.execParentLost s
  | .holdoverBoundGrow => Sys2Proof.Machine.execHoldoverBoundGrow s
  | .slotArm slot => Sys2Proof.Machine.execSlotArm slot s
  | .slotCancel slot => Sys2Proof.Machine.execSlotCancel slot s
  | .activatePlan slot => Sys2Proof.Machine.execActivatePlan slot s
  | .switchBank slot => Sys2Proof.Machine.execSwitchBank slot s
  | .freeze slot => Sys2Proof.Machine.execFreeze slot s
  | .event slot => Sys2Proof.Machine.execEvent slot s
  | .slotMissedFrozen slot => Sys2Proof.Machine.execSlotMissedFrozen slot s
  | .planStepWrite region clkStep => Sys2Proof.Machine.execPlanStepWrite region clkStep s
  | .modeCalibratedWrite region => Sys2Proof.Machine.execModeCalibratedWrite region s
  | .modeAlignedWrite region => Sys2Proof.Machine.execModeAlignedWrite region s
  | .alignDone region passing => Sys2Proof.Machine.execAlignDone region passing s
  | .monitorEvaluate margins sensors vaults => Sys2Proof.Machine.execMonitorEvaluate margins sensors vaults s
  | .droopDetect region => Sys2Proof.Machine.execDroopDetect region s
  | .planLoad slot => Sys2Proof.Machine.execPlanLoad slot s
  | .loadDomainsReady => Sys2Proof.Machine.execLoadDomainsReady s
  | .unload slot => Sys2Proof.Machine.execUnload slot s
  | .abort slot => Sys2Proof.Machine.execAbort slot s
  | .slipBeyondSlack tenancy region => Sys2Proof.Machine.execSlipBeyondSlack tenancy region s
  | .bundleIssue cell errs => Sys2Proof.Machine.execBundleIssue cell errs s
  | .idleRepeat cell count => Sys2Proof.Machine.execIdleRepeat cell count s
  | .resultLand cell errs => Sys2Proof.Machine.execResultLand cell errs s
  | .add cell body ext => Sys2Proof.Machine.execAdd cell body ext s
  | .sub cell body ext => Sys2Proof.Machine.execSub cell body ext s
  | .and cell body ext => Sys2Proof.Machine.execAnd cell body ext s
  | .or cell body ext => Sys2Proof.Machine.execOr cell body ext s
  | .xor cell body ext => Sys2Proof.Machine.execXor cell body ext s
  | .sll cell body ext => Sys2Proof.Machine.execSll cell body ext s
  | .srl cell body ext => Sys2Proof.Machine.execSrl cell body ext s
  | .sra cell body ext => Sys2Proof.Machine.execSra cell body ext s
  | .min cell body ext => Sys2Proof.Machine.execMin cell body ext s
  | .max cell body ext => Sys2Proof.Machine.execMax cell body ext s
  | .minu cell body ext => Sys2Proof.Machine.execMinu cell body ext s
  | .maxu cell body ext => Sys2Proof.Machine.execMaxu cell body ext s
  | .mul cell body ext => Sys2Proof.Machine.execMul cell body ext s
  | .mulhu cell body ext => Sys2Proof.Machine.execMulhu cell body ext s
  | .addi cell body ext => Sys2Proof.Machine.execAddi cell body ext s
  | .andi cell body ext => Sys2Proof.Machine.execAndi cell body ext s
  | .ori cell body ext => Sys2Proof.Machine.execOri cell body ext s
  | .xori cell body ext => Sys2Proof.Machine.execXori cell body ext s
  | .slli cell body ext => Sys2Proof.Machine.execSlli cell body ext s
  | .srli cell body ext => Sys2Proof.Machine.execSrli cell body ext s
  | .srai cell body ext => Sys2Proof.Machine.execSrai cell body ext s
  | .cmpEq cell body ext => Sys2Proof.Machine.execCmpEq cell body ext s
  | .cmpNe cell body ext => Sys2Proof.Machine.execCmpNe cell body ext s
  | .cmpLt cell body ext => Sys2Proof.Machine.execCmpLt cell body ext s
  | .cmpGe cell body ext => Sys2Proof.Machine.execCmpGe cell body ext s
  | .cmpLtu cell body ext => Sys2Proof.Machine.execCmpLtu cell body ext s
  | .cmpGeu cell body ext => Sys2Proof.Machine.execCmpGeu cell body ext s
  | .cmpeqi cell body ext => Sys2Proof.Machine.execCmpeqi cell body ext s
  | .cmplti cell body ext => Sys2Proof.Machine.execCmplti cell body ext s
  | .cmpgei cell body ext => Sys2Proof.Machine.execCmpgei cell body ext s
  | .cmpltui cell body ext => Sys2Proof.Machine.execCmpltui cell body ext s
  | .plogAnd cell body ext => Sys2Proof.Machine.execPlogAnd cell body ext s
  | .plogOr cell body ext => Sys2Proof.Machine.execPlogOr cell body ext s
  | .plogXor cell body ext => Sys2Proof.Machine.execPlogXor cell body ext s
  | .plogAndn cell body ext => Sys2Proof.Machine.execPlogAndn cell body ext s
  | .fadd cell body ext => Sys2Proof.Machine.execFadd cell body ext s
  | .fsub cell body ext => Sys2Proof.Machine.execFsub cell body ext s
  | .fmul cell body ext => Sys2Proof.Machine.execFmul cell body ext s
  | .fmin cell body ext => Sys2Proof.Machine.execFmin cell body ext s
  | .fmax cell body ext => Sys2Proof.Machine.execFmax cell body ext s
  | .fcvtfi cell body ext => Sys2Proof.Machine.execFcvtfi cell body ext s
  | .fcvtif cell body ext => Sys2Proof.Machine.execFcvtif cell body ext s
  | .mfs cell body ext => Sys2Proof.Machine.execMfs cell body ext s
  | .b cell body ext => Sys2Proof.Machine.execB cell body ext s
  | .bal cell body ext => Sys2Proof.Machine.execBal cell body ext s
  | .jr cell body ext => Sys2Proof.Machine.execJr cell body ext s
  | .jalr cell body ext => Sys2Proof.Machine.execJalr cell body ext s
  | .viadd cell body => Sys2Proof.Machine.execViadd cell body s
  | .visub cell body => Sys2Proof.Machine.execVisub cell body s
  | .vand cell body => Sys2Proof.Machine.execVand cell body s
  | .vor cell body => Sys2Proof.Machine.execVor cell body s
  | .vxor cell body => Sys2Proof.Machine.execVxor cell body s
  | .vimin cell body => Sys2Proof.Machine.execVimin cell body s
  | .vimax cell body => Sys2Proof.Machine.execVimax cell body s
  | .vsll cell body => Sys2Proof.Machine.execVsll cell body s
  | .vsrl cell body => Sys2Proof.Machine.execVsrl cell body s
  | .vsra cell body => Sys2Proof.Machine.execVsra cell body s
  | .vimul cell body => Sys2Proof.Machine.execVimul cell body s
  | .vmov cell body => Sys2Proof.Machine.execVmov cell body s
  | .vsel cell body => Sys2Proof.Machine.execVsel cell body s
  | .vmovm cell body => Sys2Proof.Machine.execVmovm cell body s
  | .vicmpEq cell body => Sys2Proof.Machine.execVicmpEq cell body s
  | .vicmpNe cell body => Sys2Proof.Machine.execVicmpNe cell body s
  | .vicmpLt cell body => Sys2Proof.Machine.execVicmpLt cell body s
  | .vicmpLtu cell body => Sys2Proof.Machine.execVicmpLtu cell body s
  | .vfcmpEq cell body => Sys2Proof.Machine.execVfcmpEq cell body s
  | .vfcmpLt cell body => Sys2Proof.Machine.execVfcmpLt cell body s
  | .vfcmpLe cell body => Sys2Proof.Machine.execVfcmpLe cell body s
  | .vfcmpUn cell body => Sys2Proof.Machine.execVfcmpUn cell body s
  | .vfadd cell body => Sys2Proof.Machine.execVfadd cell body s
  | .vfsub cell body => Sys2Proof.Machine.execVfsub cell body s
  | .vfmul cell body => Sys2Proof.Machine.execVfmul cell body s
  | .vfmin cell body => Sys2Proof.Machine.execVfmin cell body s
  | .vfmax cell body => Sys2Proof.Machine.execVfmax cell body s
  | .vfma cell body => Sys2Proof.Machine.execVfma cell body s
  | .vfnma cell body => Sys2Proof.Machine.execVfnma cell body s
  | .vfabs cell body => Sys2Proof.Machine.execVfabs cell body s
  | .vfneg cell body => Sys2Proof.Machine.execVfneg cell body s
  | .vcvtfi cell body => Sys2Proof.Machine.execVcvtfi cell body s
  | .vcvtif cell body => Sys2Proof.Machine.execVcvtif cell body s
  | .vpack cell body => Sys2Proof.Machine.execVpack cell body s
  | .vunpk cell body => Sys2Proof.Machine.execVunpk cell body s
  | .vmxsc cell body => Sys2Proof.Machine.execVmxsc cell body s
  | .vperm cell body => Sys2Proof.Machine.execVperm cell body s
  | .vrot cell body => Sys2Proof.Machine.execVrot cell body s
  | .vbcl cell body => Sys2Proof.Machine.execVbcl cell body s
  | .vexp cell body => Sys2Proof.Machine.execVexp cell body s
  | .vexp2 cell body => Sys2Proof.Machine.execVexp2 cell body s
  | .vlog cell body => Sys2Proof.Machine.execVlog cell body s
  | .vlog2 cell body => Sys2Proof.Machine.execVlog2 cell body s
  | .vrcp cell body => Sys2Proof.Machine.execVrcp cell body s
  | .vrsqrt cell body => Sys2Proof.Machine.execVrsqrt cell body s
  | .vrsum cell body => Sys2Proof.Machine.execVrsum cell body s
  | .vrmax cell body => Sys2Proof.Machine.execVrmax cell body s
  | .vrmin cell body => Sys2Proof.Machine.execVrmin cell body s
  | .vrisum cell body => Sys2Proof.Machine.execVrisum cell body s
  | .vrmsk cell body => Sys2Proof.Machine.execVrmsk cell body s
  | .vstat cell body => Sys2Proof.Machine.execVstat cell body s
  | .vsmxp cell body => Sys2Proof.Machine.execVsmxp cell body s
  | .vlse cell body => Sys2Proof.Machine.execVlse cell body s
  | .vpmrg cell body => Sys2Proof.Machine.execVpmrg cell body s
  | .vonrm cell body => Sys2Proof.Machine.execVonrm cell body s
  | .vnrmf cell body => Sys2Proof.Machine.execVnrmf cell body s
  | .vslli cell body => Sys2Proof.Machine.execVslli cell body s
  | .vsrli cell body => Sys2Proof.Machine.execVsrli cell body s
  | .vsrai cell body => Sys2Proof.Machine.execVsrai cell body s
  | .vmovmi cell body => Sys2Proof.Machine.execVmovmi cell body s
  | .vrng cell body => Sys2Proof.Machine.execVrng cell body s
  | .vscl2 cell body => Sys2Proof.Machine.execVscl2 cell body s
  | .vclampi cell body => Sys2Proof.Machine.execVclampi cell body s
  | .mma cell body => Sys2Proof.Machine.execMma cell body s
  | .drain cell body => Sys2Proof.Machine.execDrain cell body s
  | .drainl cell body => Sys2Proof.Machine.execDrainl cell body s
  | .mladd cell body => Sys2Proof.Machine.execMladd cell body s
  | .binit cell body => Sys2Proof.Machine.execBinit cell body s
  | .ldv cell body => Sys2Proof.Machine.execLdv cell body s
  | .lds cell body => Sys2Proof.Machine.execLds cell body s
  | .ldw cell body => Sys2Proof.Machine.execLdw cell body s
  | .ldc cell body => Sys2Proof.Machine.execLdc cell body s
  | .stv cell body => Sys2Proof.Machine.execStv cell body s
  | .sts cell body => Sys2Proof.Machine.execSts cell body s
  | .stw cell body => Sys2Proof.Machine.execStw cell body s
  | .stc cell body => Sys2Proof.Machine.execStc cell body s
  | .waitpos cell body => Sys2Proof.Machine.execWaitpos cell body s
  | .efs cell body => Sys2Proof.Machine.execEfs cell body s
  | .twait cell body => Sys2Proof.Machine.execTwait cell body s
  | .tadd cell body => Sys2Proof.Machine.execTadd cell body s
  | .ttest cell body => Sys2Proof.Machine.execTtest cell body s
  | .send cell body => Sys2Proof.Machine.execSend cell body s
  | .cofferScheduledRead cell => Sys2Proof.Machine.execCofferScheduledRead cell s
  | .cellStart cell => Sys2Proof.Machine.execCellStart cell s
  | .cellStop cell => Sys2Proof.Machine.execCellStop cell s
  | .cellStep cell => Sys2Proof.Machine.execCellStep cell s
  | .cellStopped cell => Sys2Proof.Machine.execCellStopped cell s
  | .tallyAddWrite cell value => Sys2Proof.Machine.execTallyAddWrite cell value s
  | .arrivalLand cell => Sys2Proof.Machine.execArrivalLand cell s
  | .vaultReady vault => Sys2Proof.Machine.execVaultReady vault s
  | .vaultScheduledRead tenancy entry member errs => Sys2Proof.Machine.execVaultScheduledRead tenancy entry member errs s
  | .vaultScheduledWrite vault errs => Sys2Proof.Machine.execVaultScheduledWrite vault errs s
  | .refreshWindow vault opens second errs => Sys2Proof.Machine.execRefreshWindow vault opens second errs s
  | .vaultBandChange vault temperature => Sys2Proof.Machine.execVaultBandChange vault temperature s
  | .engineCmdArrive engine => Sys2Proof.Machine.execEngineCmdArrive engine s
  | .engineCmdStart engine => Sys2Proof.Machine.execEngineCmdStart engine s
  | .engineSuspend engine => Sys2Proof.Machine.execEngineSuspend engine s
  | .engineCmdComplete engine => Sys2Proof.Machine.execEngineCmdComplete engine s
  | .engineResultSlot engine tenancy entry ue => Sys2Proof.Machine.execEngineResultSlot engine tenancy entry ue s
  | .attn engine errs => Sys2Proof.Machine.execAttn engine errs s
  | .reduce engine errs => Sys2Proof.Machine.execReduce engine errs s
  | .gather engine errs => Sys2Proof.Machine.execGather engine errs s
  | .scatter engine errs => Sys2Proof.Machine.execScatter engine errs s
  | .atomic engine errs => Sys2Proof.Machine.execAtomic engine errs s
  | .cringWrite ring packet => Sys2Proof.Machine.execCringWrite ring packet s
  | .cringConsWrite ring cons => Sys2Proof.Machine.execCringConsWrite ring cons s
  | .stewardInstruction steward errs => Sys2Proof.Machine.execStewardInstruction steward errs s
  | .wfi steward => Sys2Proof.Machine.execWfi steward s
  | .wideWrite steward => Sys2Proof.Machine.execWideWrite steward s
  | .stewardTimer steward => Sys2Proof.Machine.execStewardTimer steward s
  | .stewardInterrupt steward => Sys2Proof.Machine.execStewardInterrupt steward s
  | .acquire block head => Sys2Proof.Machine.execAcquire block head s
  | .hand block head => Sys2Proof.Machine.execHand block head s
  | .release block head => Sys2Proof.Machine.execRelease block head s
  | .mboxDataWrite block head index value => Sys2Proof.Machine.execMboxDataWrite block head index value s
  | .wdogKick block => Sys2Proof.Machine.execWdogKick block s
  | .wdogExpire block => Sys2Proof.Machine.execWdogExpire block s
  | .stewardReset block => Sys2Proof.Machine.execStewardReset block s
  | .stewardHalt block on => Sys2Proof.Machine.execStewardHalt block on s
  | .stewardResetRelease steward => Sys2Proof.Machine.execStewardResetRelease steward s
  | .linkEnableWrite port on => Sys2Proof.Machine.execLinkEnableWrite port on s
  | .signalDetect port lanes => Sys2Proof.Machine.execSignalDetect port lanes s
  | .equaliseDone port rx tx polarity reversed => Sys2Proof.Machine.execEqualiseDone port rx tx polarity reversed s
  | .equaliseTimeout port => Sys2Proof.Machine.execEqualiseTimeout port s
  | .configReceive port flit txrx => Sys2Proof.Machine.execConfigReceive port flit txrx s
  | .calibrateDone port => Sys2Proof.Machine.execCalibrateDone port s
  | .linkUnitTransmit port => Sys2Proof.Machine.execLinkUnitTransmit port s
  | .flitUnitReceive port unit => Sys2Proof.Machine.execFlitUnitReceive port unit s
  | .lstatReceive port flit => Sys2Proof.Machine.execLstatReceive port flit s
  | .nakReceive port flit => Sys2Proof.Machine.execNakReceive port flit s
  | .replayStart port => Sys2Proof.Machine.execReplayStart port s
  | .nakTimeout port => Sys2Proof.Machine.execNakTimeout port s
  | .carryExceeded port => Sys2Proof.Machine.execCarryExceeded port s
  | .probationEnd port => Sys2Proof.Machine.execProbationEnd port s
  | .frtReqReceive port flit => Sys2Proof.Machine.execFrtReqReceive port flit s
  | .calNoticeReceive port flit => Sys2Proof.Machine.execCalNoticeReceive port flit s
  | .downNoticeReceive port flit => Sys2Proof.Machine.execDownNoticeReceive port flit s
  | .laneLockLoss port good => Sys2Proof.Machine.execLaneLockLoss port good s
  | .frtDone port => Sys2Proof.Machine.execFrtDone port s
  | .frtTimeout port => Sys2Proof.Machine.execFrtTimeout port s
  | .retrainDone port expect => Sys2Proof.Machine.execRetrainDone port expect s
  | .retrainTimeout port => Sys2Proof.Machine.execRetrainTimeout port s
  | .downRetry port => Sys2Proof.Machine.execDownRetry port s
  | .retrain port => Sys2Proof.Machine.execRetrain port s
  | .down port => Sys2Proof.Machine.execDown port s
  | .pllCal port => Sys2Proof.Machine.execPllCal port s
  | .test port => Sys2Proof.Machine.execTest port s
  | .pllCalDone port => Sys2Proof.Machine.execPllCalDone port s
  | .pllDrift port temperature => Sys2Proof.Machine.execPllDrift port temperature s
  | .testStart port => Sys2Proof.Machine.execTestStart port s
  | .testStop port errors => Sys2Proof.Machine.execTestStop port errors s
  | .meshMemberStart tenancy entry member ue => Sys2Proof.Machine.execMeshMemberStart tenancy entry member ue s
  | .unschedFlitForward router fc ue => Sys2Proof.Machine.execUnschedFlitForward router fc ue s
  | .packetArrive port => Sys2Proof.Machine.execPacketArrive port s
  | .write => Sys2Proof.Machine.execWrite s
  | .engine => Sys2Proof.Machine.execEngine s
  | .readData => Sys2Proof.Machine.execReadData s
  | .mgmtWrite => Sys2Proof.Machine.execMgmtWrite s
  | .ack => Sys2Proof.Machine.execAck s
  | .nack => Sys2Proof.Machine.execNack s
  | .readReq => Sys2Proof.Machine.execReadReq s
  | .faultNotice => Sys2Proof.Machine.execFaultNotice s
  | .haltNotice => Sys2Proof.Machine.execHaltNotice s
  | .msg => Sys2Proof.Machine.execMsg s
  | .readEngineReply => Sys2Proof.Machine.execReadEngineReply s
  | .resendTimeout tag => Sys2Proof.Machine.execResendTimeout tag s
  | .filterExpire src tag => Sys2Proof.Machine.execFilterExpire src tag s
  | .niSend key addr => Sys2Proof.Machine.execNiSend key addr s
  | .holdWrite on => Sys2Proof.Machine.execHoldWrite on s
  | .wgtLoad => Sys2Proof.Machine.execWgtLoad s
  | .verify => Sys2Proof.Machine.execVerify s
  | .wgtAbort => Sys2Proof.Machine.execWgtAbort s
  | .wgtChunkComplete => Sys2Proof.Machine.execWgtChunkComplete s
  | .wgtLoadDone => Sys2Proof.Machine.execWgtLoadDone s
  | .wgtTimeout => Sys2Proof.Machine.execWgtTimeout s
  | .sqTailWrite tail => Sys2Proof.Machine.execSqTailWrite tail s
  | .sqEntryRead entry => Sys2Proof.Machine.execSqEntryRead entry s
  | .promptChunkFetched slot tokens => Sys2Proof.Machine.execPromptChunkFetched slot tokens s
  | .maskLatch => Sys2Proof.Machine.execMaskLatch s
  | .cancel slot tag => Sys2Proof.Machine.execCancel slot tag s
  | .pause slot tag => Sys2Proof.Machine.execPause slot tag s
  | .acctRead account => Sys2Proof.Machine.execAcctRead account s
  | .acctWrite account => Sys2Proof.Machine.execAcctWrite account s
  | .acctAdd account => Sys2Proof.Machine.execAcctAdd account s
  | .endingFlush slot => Sys2Proof.Machine.execEndingFlush slot s
  | .ringWriteFail slot => Sys2Proof.Machine.execRingWriteFail slot s
  | .digestRecordArrive index => Sys2Proof.Machine.execDigestRecordArrive index s
  | .detMissing => Sys2Proof.Machine.execDetMissing s
  | .capclr => Sys2Proof.Machine.execCapclr s
  | .hostBar0Access write offset length value => Sys2Proof.Machine.execHostBar0Access write offset length value s
  | .hostBar2Read offset length errs => Sys2Proof.Machine.execHostBar2Read offset length errs s
  | .hostBar2Write offset data => Sys2Proof.Machine.execHostBar2Write offset data s
  | .msixSend source masked => Sys2Proof.Machine.execMsixSend source masked s
  | .rearm source masked => Sys2Proof.Machine.execRearm source masked s
  | .dStateChange d0 busMaster => Sys2Proof.Machine.execDStateChange d0 busMaster s
  | .wakeRequest => Sys2Proof.Machine.execWakeRequest s
  | .wakeExit => Sys2Proof.Machine.execWakeExit s
  | .perstReset pin => Sys2Proof.Machine.execPerstReset pin s
  | .perstRelease rate width flit => Sys2Proof.Machine.execPerstRelease rate width flit s
  | .flr => Sys2Proof.Machine.execFlr s
  | .hwqDrain => Sys2Proof.Machine.execHwqDrain s
  | .doorbell opcode => Sys2Proof.Machine.execDoorbell opcode s
  | .post code => Sys2Proof.Machine.execPost code s
  | .mboxAck seq => Sys2Proof.Machine.execMboxAck seq s
  | .mboxStatusRead => Sys2Proof.Machine.execMboxStatusRead s
  | .ident => Sys2Proof.Machine.execIdent s
  | .keepAck => Sys2Proof.Machine.execKeepAck s
  | .attest request => Sys2Proof.Machine.execAttest request s
  | .fwStage => Sys2Proof.Machine.execFwStage s
  | .fwActivate => Sys2Proof.Machine.execFwActivate s
  | .ethLinkUp port pmd => Sys2Proof.Machine.execEthLinkUp port pmd s
  | .ethLinkDown port => Sys2Proof.Machine.execEthLinkDown port s
  | .ethFecUe port corrected => Sys2Proof.Machine.execEthFecUe port corrected s
  | .roceRequestReceive port => Sys2Proof.Machine.execRoceRequestReceive port s
  | .roceResponseReceive port qp response => Sys2Proof.Machine.execRoceResponseReceive port qp response s
  | .roceAckTimeout port qp => Sys2Proof.Machine.execRoceAckTimeout port qp s
  | .ecnReceive port qp => Sys2Proof.Machine.execEcnReceive port qp s
  | .cnpReceive port qp => Sys2Proof.Machine.execCnpReceive port qp s
  | .roceRateRaise port qp => Sys2Proof.Machine.execRoceRateRaise port qp s
  | .ptpMessageReceive port domain fromMaster message arrival => Sys2Proof.Machine.execPtpMessageReceive port domain fromMaster message arrival s
  | .mgmtFrameReceive port frame => Sys2Proof.Machine.execMgmtFrameReceive port frame s
  | .qpCtrlWrite port qp value => Sys2Proof.Machine.execQpCtrlWrite port qp value s
  | .hotplugRemove masked => Sys2Proof.Machine.execHotplugRemove masked s
  | .flushDomainsOff => Sys2Proof.Machine.execFlushDomainsOff s
  | .insertion => Sys2Proof.Machine.execInsertion s
  | .pdOn domain => Sys2Proof.Machine.execPdOn domain s
  | .pdOff domain => Sys2Proof.Machine.execPdOff domain s
  | .pdSwitchDone => Sys2Proof.Machine.execPdSwitchDone s
  | .pdFail => Sys2Proof.Machine.execPdFail s
  | .inputSample millivolts milliamps => Sys2Proof.Machine.execInputSample millivolts milliamps s
  | .pmbusPoll rail answer => Sys2Proof.Machine.execPmbusPoll rail answer s
  | .clkenWrite value => Sys2Proof.Machine.execClkenWrite value s
  | .cpclkWrite per steward => Sys2Proof.Machine.execCpclkWrite per steward s
  | .cmuStart => Sys2Proof.Machine.execCmuStart s
  | .cmuDone count => Sys2Proof.Machine.execCmuDone count s
  | .stageK millivolts retained => Sys2Proof.Machine.execStageK millivolts retained s
  | .stageRom => Sys2Proof.Machine.execStageRom s
  | .stageHead => Sys2Proof.Machine.execStageHead s
  | .stageReady => Sys2Proof.Machine.execStageReady s
  | .backupCheck millivolts => Sys2Proof.Machine.execBackupCheck millivolts s
  | .rtcWrite value => Sys2Proof.Machine.execRtcWrite value s
  | .intrusion opened => Sys2Proof.Machine.execIntrusion opened s
  | .confirm => Sys2Proof.Machine.execConfirm s
  | .confirmTimeout => Sys2Proof.Machine.execConfirmTimeout s
  | .abortStage => Sys2Proof.Machine.execAbortStage s
  | .stageHoldExpire => Sys2Proof.Machine.execStageHoldExpire s
  | .fwCommitEnd mismatch => Sys2Proof.Machine.execFwCommitEnd mismatch s
  | .svcIdent seq => Sys2Proof.Machine.execSvcIdent seq s
  | .svcSpdm seq request => Sys2Proof.Machine.execSvcSpdm seq request s
  | .stageWrite seq offset data => Sys2Proof.Machine.execStageWrite seq offset data s
  | .stageQuery seq => Sys2Proof.Machine.execStageQuery seq s
  | .stageCommit seq length => Sys2Proof.Machine.execStageCommit seq length s
  | .svcFwActivate seq reboot => Sys2Proof.Machine.execSvcFwActivate seq reboot s
  | .setPosition seq id => Sys2Proof.Machine.execSetPosition seq id s
  | .logRead seq first count => Sys2Proof.Machine.execLogRead seq first count s
  | .getVersion => Sys2Proof.Machine.execGetVersion s
  | .getCapabilities => Sys2Proof.Machine.execGetCapabilities s
  | .negotiateAlgorithms => Sys2Proof.Machine.execNegotiateAlgorithms s
  | .getDigests => Sys2Proof.Machine.execGetDigests s
  | .getCertificate slot offset length => Sys2Proof.Machine.execGetCertificate slot offset length s
  | .challenge slot nonce => Sys2Proof.Machine.execChallenge slot nonce s
  | .getMeasurements index nonce => Sys2Proof.Machine.execGetMeasurements index nonce s
  | .chainOffer src version mdigest => Sys2Proof.Machine.execChainOffer src version mdigest s
  | .chainNeed src block => Sys2Proof.Machine.execChainNeed src block s
  | .chainDone src code => Sys2Proof.Machine.execChainDone src code s
  | .chainAbort src => Sys2Proof.Machine.execChainAbort src s
  | .chainNeedTimeout hop => Sys2Proof.Machine.execChainNeedTimeout hop s
  | .chainDoneTimeout hop => Sys2Proof.Machine.execChainDoneTimeout hop s
  | .kepChainWrite value => Sys2Proof.Machine.execKepChainWrite value s
  | .retire kind unit => Sys2Proof.Machine.execRetire kind unit s
  | .hsKick head => Sys2Proof.Machine.execHsKick head s
  | .hsHang head => Sys2Proof.Machine.execHsHang head s
  | .hsReset head who loads => Sys2Proof.Machine.execHsReset head who loads s
  | .smbStuckDetect free => Sys2Proof.Machine.execSmbStuckDetect free s
  | .smbVtelCycleDone free => Sys2Proof.Machine.execSmbVtelCycleDone free s
  | .recover free => Sys2Proof.Machine.execRecover free s
  | .freezeNFall offset => Sys2Proof.Machine.execFreezeNFall offset s
  | .freezeNow offset => Sys2Proof.Machine.execFreezeNow offset s
  | .freezeTakeEffect => Sys2Proof.Machine.execFreezeTakeEffect s
  | .resume fault => Sys2Proof.Machine.execResume fault s
  | .resumeCancel => Sys2Proof.Machine.execResumeCancel s
  | .resumeAtTr => Sys2Proof.Machine.execResumeAtTr s
  | .rbDataRead index => Sys2Proof.Machine.execRbDataRead index s
  | .capStart => Sys2Proof.Machine.execCapStart s
  | .capAbort => Sys2Proof.Machine.execCapAbort s
  | .capDone => Sys2Proof.Machine.execCapDone s
  | .extest cells => Sys2Proof.Machine.execExtest cells s
  | .idcode => Sys2Proof.Machine.execIdcode s
  | .samplePreload => Sys2Proof.Machine.execSamplePreload s
  | .ctrlAccess write addr data => Sys2Proof.Machine.execCtrlAccess write addr data s
  | .ctrlAccessComplete => Sys2Proof.Machine.execCtrlAccessComplete s
  | .jtagFreezeNow offset => Sys2Proof.Machine.execJtagFreezeNow offset s
  | .bypass => Sys2Proof.Machine.execBypass s
  | .jtagLock => Sys2Proof.Machine.execJtagLock s
  | .hotSwapConnect => Sys2Proof.Machine.execHotSwapConnect s
  | .inputLoss masked => Sys2Proof.Machine.execInputLoss masked s
  | .hrefLoss => Sys2Proof.Machine.execHrefLoss s
  | .clkRet => Sys2Proof.Machine.execClkRet s
  | .ppsEdge offset ps8 => Sys2Proof.Machine.execPpsEdge offset ps8 s
  | .ptpLost port => Sys2Proof.Machine.execPtpLost port s
  | .hrefReturn => Sys2Proof.Machine.execHrefReturn s
  | .ebNReclose => Sys2Proof.Machine.execEbNReclose s
  | .holdupExhausted => Sys2Proof.Machine.execHoldupExhausted s
  | .holdupBankCharged => Sys2Proof.Machine.execHoldupBankCharged s
  | .vaultReadyTimeout vault => Sys2Proof.Machine.execVaultReadyTimeout vault s
  | .pcieLinkDown => Sys2Proof.Machine.execPcieLinkDown s
  | .wgtVerifyDone => Sys2Proof.Machine.execWgtVerifyDone s
  | .pfcFrameReceive port enable quanta => Sys2Proof.Machine.execPfcFrameReceive port enable quanta s
  | .trstAssert => Sys2Proof.Machine.execTrstAssert s

end Sys2Proof.Machine
end

