-- ==== Sys2Proof/WellFormed.lean ====
section
/-! DEFINITION. Well-formed commands: a slot command's body encodes the command's own operation, and the operands that a type does
not hold to their range are within it. -/
namespace Sys2Proof
open Sys2Proof.Machine

/-- A requester that the module has (R16). -/
def Requester.wf : Requester → Bool
  | .head k => decide (k < 4)
  | .block n => decide (n < 80)
  | .host => true
  | .jtag => true

/-- The widths of the TIME unit's fields (R41, R280). -/
def TimeUnit.wf (u : TimeUnit) : Bool :=
  decide (u.state < 16) && decide (u.role < 4) && decide (-32768 ≤ u.locTxrx) && decide (u.locTxrx ≤ 32767) &&
  decide (u.bound < 65536) && decide (u.tDep < 2 ^ 80) && decide (u.tArr < 2 ^ 80)

/-- Nonces have 32 bytes, slots 4 bits, and the other fields the widths of their messages (R510). -/
def SpdmRequest.wf : SpdmRequest → Bool
  | .getCertificate slot offset length => decide (slot < 16) && decide (offset < 65536) && decide (length < 65536)
  | .challenge slot nonce => decide (slot < 16) && nonce.length == 32
  | .getMeasurements index nonce => decide (index < 256) && nonce.length == 32
  | .other code => decide (code < 256)
  | .getVersion => true
  | .getCapabilities => true
  | .negotiateAlgorithms => true
  | .getDigests => true

/-- How many units a kind of RETIRE has: cells, blocks, regions (R519). -/
def retireLimit : Nat → Nat
  | 0 => 1360
  | 1 => 80
  | 2 => 16
  | _ => 0

/-- A body whose decoding is the operation given. -/
def bodyIs {α : Type} [DecidableEq α] (d : Option α) (k : α) : Bool := decide (d = some k)

/-- The command is well formed. -/
def Instr.wf : Instr → Bool
  | .regWrite who _ _ => who.wf
  | .counterSnap _ => true
  | .ovfClear _ => true
  | .bell _ => true
  | .lockGained => true
  | .blfSnap => true
  | .restart => true
  | .blfLeaveFreerun => true
  | .ptpCoarseStep => true
  | .timeReceive _ unit t4 own => unit.wf && decide (own < 2 ^ 52) && decide (t4 < 2 ^ 80)
  | .parentLost => true
  | .holdoverBoundGrow => true
  | .slotArm _ => true
  | .slotCancel _ => true
  | .activatePlan _ => true
  | .switchBank _ => true
  | .freeze _ => true
  | .event _ => true
  | .slotMissedFrozen _ => true
  | .planStepWrite _ _ => true
  | .modeCalibratedWrite _ => true
  | .modeAlignedWrite _ => true
  | .alignDone _ _ => true
  | .monitorEvaluate margins sensors vaults => margins.length == 16 && sensors.length == 64 && vaults.length == 8
  | .droopDetect _ => true
  | .planLoad _ => true
  | .loadDomainsReady => true
  | .unload _ => true
  | .abort _ => true
  | .slipBeyondSlack _ _ => true
  | .bundleIssue _ _ => true
  | .idleRepeat _ _ => true
  | .resultLand _ _ => true
  | .add _ body ext => bodyIs (decodeS body.toNat (ext.map (·.toNat))) .add
  | .sub _ body ext => bodyIs (decodeS body.toNat (ext.map (·.toNat))) .sub
  | .and _ body ext => bodyIs (decodeS body.toNat (ext.map (·.toNat))) .and
  | .or _ body ext => bodyIs (decodeS body.toNat (ext.map (·.toNat))) .or
  | .xor _ body ext => bodyIs (decodeS body.toNat (ext.map (·.toNat))) .xor
  | .sll _ body ext => bodyIs (decodeS body.toNat (ext.map (·.toNat))) .sll
  | .srl _ body ext => bodyIs (decodeS body.toNat (ext.map (·.toNat))) .srl
  | .sra _ body ext => bodyIs (decodeS body.toNat (ext.map (·.toNat))) .sra
  | .min _ body ext => bodyIs (decodeS body.toNat (ext.map (·.toNat))) .min
  | .max _ body ext => bodyIs (decodeS body.toNat (ext.map (·.toNat))) .max
  | .minu _ body ext => bodyIs (decodeS body.toNat (ext.map (·.toNat))) .minu
  | .maxu _ body ext => bodyIs (decodeS body.toNat (ext.map (·.toNat))) .maxu
  | .mul _ body ext => bodyIs (decodeS body.toNat (ext.map (·.toNat))) .mul
  | .mulhu _ body ext => bodyIs (decodeS body.toNat (ext.map (·.toNat))) .mulhu
  | .addi _ body ext => bodyIs (decodeS body.toNat (ext.map (·.toNat))) .addi
  | .andi _ body ext => bodyIs (decodeS body.toNat (ext.map (·.toNat))) .andi
  | .ori _ body ext => bodyIs (decodeS body.toNat (ext.map (·.toNat))) .ori
  | .xori _ body ext => bodyIs (decodeS body.toNat (ext.map (·.toNat))) .xori
  | .slli _ body ext => bodyIs (decodeS body.toNat (ext.map (·.toNat))) .slli
  | .srli _ body ext => bodyIs (decodeS body.toNat (ext.map (·.toNat))) .srli
  | .srai _ body ext => bodyIs (decodeS body.toNat (ext.map (·.toNat))) .srai
  | .cmpEq _ body ext => bodyIs (decodeS body.toNat (ext.map (·.toNat))) .cmpEq
  | .cmpNe _ body ext => bodyIs (decodeS body.toNat (ext.map (·.toNat))) .cmpNe
  | .cmpLt _ body ext => bodyIs (decodeS body.toNat (ext.map (·.toNat))) .cmpLt
  | .cmpGe _ body ext => bodyIs (decodeS body.toNat (ext.map (·.toNat))) .cmpGe
  | .cmpLtu _ body ext => bodyIs (decodeS body.toNat (ext.map (·.toNat))) .cmpLtu
  | .cmpGeu _ body ext => bodyIs (decodeS body.toNat (ext.map (·.toNat))) .cmpGeu
  | .cmpeqi _ body ext => bodyIs (decodeS body.toNat (ext.map (·.toNat))) .cmpeqi
  | .cmplti _ body ext => bodyIs (decodeS body.toNat (ext.map (·.toNat))) .cmplti
  | .cmpgei _ body ext => bodyIs (decodeS body.toNat (ext.map (·.toNat))) .cmpgei
  | .cmpltui _ body ext => bodyIs (decodeS body.toNat (ext.map (·.toNat))) .cmpltui
  | .plogAnd _ body ext => bodyIs (decodeS body.toNat (ext.map (·.toNat))) .plogAnd
  | .plogOr _ body ext => bodyIs (decodeS body.toNat (ext.map (·.toNat))) .plogOr
  | .plogXor _ body ext => bodyIs (decodeS body.toNat (ext.map (·.toNat))) .plogXor
  | .plogAndn _ body ext => bodyIs (decodeS body.toNat (ext.map (·.toNat))) .plogAndn
  | .fadd _ body ext => bodyIs (decodeS body.toNat (ext.map (·.toNat))) .fadd
  | .fsub _ body ext => bodyIs (decodeS body.toNat (ext.map (·.toNat))) .fsub
  | .fmul _ body ext => bodyIs (decodeS body.toNat (ext.map (·.toNat))) .fmul
  | .fmin _ body ext => bodyIs (decodeS body.toNat (ext.map (·.toNat))) .fmin
  | .fmax _ body ext => bodyIs (decodeS body.toNat (ext.map (·.toNat))) .fmax
  | .fcvtfi _ body ext => bodyIs (decodeS body.toNat (ext.map (·.toNat))) .fcvtfi
  | .fcvtif _ body ext => bodyIs (decodeS body.toNat (ext.map (·.toNat))) .fcvtif
  | .mfs _ body ext => bodyIs (decodeS body.toNat (ext.map (·.toNat))) .mfs
  | .b _ body ext => bodyIs (decodeS body.toNat (ext.map (·.toNat))) .b
  | .bal _ body ext => bodyIs (decodeS body.toNat (ext.map (·.toNat))) .bal
  | .jr _ body ext => bodyIs (decodeS body.toNat (ext.map (·.toNat))) .jr
  | .jalr _ body ext => bodyIs (decodeS body.toNat (ext.map (·.toNat))) .jalr
  | .viadd _ body => bodyIs (decodeV body.toNat) .viadd
  | .visub _ body => bodyIs (decodeV body.toNat) .visub
  | .vand _ body => bodyIs (decodeV body.toNat) .vand
  | .vor _ body => bodyIs (decodeV body.toNat) .vor
  | .vxor _ body => bodyIs (decodeV body.toNat) .vxor
  | .vimin _ body => bodyIs (decodeV body.toNat) .vimin
  | .vimax _ body => bodyIs (decodeV body.toNat) .vimax
  | .vsll _ body => bodyIs (decodeV body.toNat) .vsll
  | .vsrl _ body => bodyIs (decodeV body.toNat) .vsrl
  | .vsra _ body => bodyIs (decodeV body.toNat) .vsra
  | .vimul _ body => bodyIs (decodeV body.toNat) .vimul
  | .vmov _ body => bodyIs (decodeV body.toNat) .vmov
  | .vsel _ body => bodyIs (decodeV body.toNat) .vsel
  | .vmovm _ body => bodyIs (decodeV body.toNat) .vmovm
  | .vicmpEq _ body => bodyIs (decodeV body.toNat) .vicmpEq
  | .vicmpNe _ body => bodyIs (decodeV body.toNat) .vicmpNe
  | .vicmpLt _ body => bodyIs (decodeV body.toNat) .vicmpLt
  | .vicmpLtu _ body => bodyIs (decodeV body.toNat) .vicmpLtu
  | .vfcmpEq _ body => bodyIs (decodeV body.toNat) .vfcmpEq
  | .vfcmpLt _ body => bodyIs (decodeV body.toNat) .vfcmpLt
  | .vfcmpLe _ body => bodyIs (decodeV body.toNat) .vfcmpLe
  | .vfcmpUn _ body => bodyIs (decodeV body.toNat) .vfcmpUn
  | .vfadd _ body => bodyIs (decodeV body.toNat) .vfadd
  | .vfsub _ body => bodyIs (decodeV body.toNat) .vfsub
  | .vfmul _ body => bodyIs (decodeV body.toNat) .vfmul
  | .vfmin _ body => bodyIs (decodeV body.toNat) .vfmin
  | .vfmax _ body => bodyIs (decodeV body.toNat) .vfmax
  | .vfma _ body => bodyIs (decodeV body.toNat) .vfma
  | .vfnma _ body => bodyIs (decodeV body.toNat) .vfnma
  | .vfabs _ body => bodyIs (decodeV body.toNat) .vfabs
  | .vfneg _ body => bodyIs (decodeV body.toNat) .vfneg
  | .vcvtfi _ body => bodyIs (decodeV body.toNat) .vcvtfi
  | .vcvtif _ body => bodyIs (decodeV body.toNat) .vcvtif
  | .vpack _ body => bodyIs (decodeV body.toNat) .vpack
  | .vunpk _ body => bodyIs (decodeV body.toNat) .vunpk
  | .vmxsc _ body => bodyIs (decodeV body.toNat) .vmxsc
  | .vperm _ body => bodyIs (decodeV body.toNat) .vperm
  | .vrot _ body => bodyIs (decodeV body.toNat) .vrot
  | .vbcl _ body => bodyIs (decodeV body.toNat) .vbcl
  | .vexp _ body => bodyIs (decodeV body.toNat) .vexp
  | .vexp2 _ body => bodyIs (decodeV body.toNat) .vexp2
  | .vlog _ body => bodyIs (decodeV body.toNat) .vlog
  | .vlog2 _ body => bodyIs (decodeV body.toNat) .vlog2
  | .vrcp _ body => bodyIs (decodeV body.toNat) .vrcp
  | .vrsqrt _ body => bodyIs (decodeV body.toNat) .vrsqrt
  | .vrsum _ body => bodyIs (decodeV body.toNat) .vrsum
  | .vrmax _ body => bodyIs (decodeV body.toNat) .vrmax
  | .vrmin _ body => bodyIs (decodeV body.toNat) .vrmin
  | .vrisum _ body => bodyIs (decodeV body.toNat) .vrisum
  | .vrmsk _ body => bodyIs (decodeV body.toNat) .vrmsk
  | .vstat _ body => bodyIs (decodeV body.toNat) .vstat
  | .vsmxp _ body => bodyIs (decodeV body.toNat) .vsmxp
  | .vlse _ body => bodyIs (decodeV body.toNat) .vlse
  | .vpmrg _ body => bodyIs (decodeV body.toNat) .vpmrg
  | .vonrm _ body => bodyIs (decodeV body.toNat) .vonrm
  | .vnrmf _ body => bodyIs (decodeV body.toNat) .vnrmf
  | .vslli _ body => bodyIs (decodeV body.toNat) .vslli
  | .vsrli _ body => bodyIs (decodeV body.toNat) .vsrli
  | .vsrai _ body => bodyIs (decodeV body.toNat) .vsrai
  | .vmovmi _ body => bodyIs (decodeV body.toNat) .vmovmi
  | .vrng _ body => bodyIs (decodeV body.toNat) .vrng
  | .vscl2 _ body => bodyIs (decodeV body.toNat) .vscl2
  | .vclampi _ body => bodyIs (decodeV body.toNat) .vclampi
  | .mma _ body => bodyIs (decodeM body.toNat) .mma
  | .drain _ body => bodyIs (decodeM body.toNat) .drain
  | .drainl _ body => bodyIs (decodeM body.toNat) .drainl
  | .mladd _ body => bodyIs (decodeM body.toNat) .mladd
  | .binit _ body => bodyIs (decodeM body.toNat) .binit
  | .ldv _ body => bodyIs (decodeL body.toNat) .ldv
  | .lds _ body => bodyIs (decodeL body.toNat) .lds
  | .ldw _ body => bodyIs (decodeL body.toNat) .ldw
  | .ldc _ body => bodyIs (decodeL body.toNat) .ldc
  | .stv _ body => bodyIs (decodeT body.toNat) .stv
  | .sts _ body => bodyIs (decodeT body.toNat) .sts
  | .stw _ body => bodyIs (decodeT body.toNat) .stw
  | .stc _ body => bodyIs (decodeT body.toNat) .stc
  | .waitpos _ body => bodyIs (decodeY body.toNat) .waitpos
  | .efs _ body => bodyIs (decodeY body.toNat) .efs
  | .twait _ body => bodyIs (decodeY body.toNat) .twait
  | .tadd _ body => bodyIs (decodeY body.toNat) .tadd
  | .ttest _ body => bodyIs (decodeY body.toNat) .ttest
  | .send _ body => bodyIs (decodeY body.toNat) .send
  | .cofferScheduledRead _ => true
  | .cellStart _ => true
  | .cellStop _ => true
  | .cellStep _ => true
  | .cellStopped _ => true
  | .tallyAddWrite _ _ => true
  | .arrivalLand _ => true
  | .vaultReady _ => true
  | .vaultScheduledRead _ _ _ _ => true
  | .vaultScheduledWrite _ _ => true
  | .refreshWindow _ _ _ _ => true
  | .vaultBandChange _ _ => true
  | .engineCmdArrive _ => true
  | .engineCmdStart _ => true
  | .engineSuspend _ => true
  | .engineCmdComplete _ => true
  | .engineResultSlot _ _ _ _ => true
  | .attn _ _ => true
  | .reduce _ _ => true
  | .gather _ _ => true
  | .scatter _ _ => true
  | .atomic _ _ => true
  | .cringWrite _ _ => true
  | .cringConsWrite _ _ => true
  | .stewardInstruction _ _ => true
  | .wfi _ => true
  | .wideWrite _ => true
  | .stewardTimer _ => true
  | .stewardInterrupt _ => true
  | .acquire _ _ => true
  | .hand _ _ => true
  | .release _ _ => true
  | .mboxDataWrite _ _ _ _ => true
  | .wdogKick _ => true
  | .wdogExpire _ => true
  | .stewardReset _ => true
  | .stewardHalt _ _ => true
  | .stewardResetRelease _ => true
  | .linkEnableWrite _ _ => true
  | .signalDetect _ _ => true
  | .equaliseDone _ _ _ _ _ => true
  | .equaliseTimeout _ => true
  | .configReceive _ _ _ => true
  | .calibrateDone _ => true
  | .linkUnitTransmit _ => true
  | .flitUnitReceive _ _ => true
  | .lstatReceive _ _ => true
  | .nakReceive _ _ => true
  | .replayStart _ => true
  | .nakTimeout _ => true
  | .carryExceeded _ => true
  | .probationEnd _ => true
  | .frtReqReceive _ _ => true
  | .calNoticeReceive _ _ => true
  | .downNoticeReceive _ _ => true
  | .laneLockLoss _ _ => true
  | .frtDone _ => true
  | .frtTimeout _ => true
  | .retrainDone _ _ => true
  | .retrainTimeout _ => true
  | .downRetry _ => true
  | .retrain _ => true
  | .down _ => true
  | .pllCal _ => true
  | .test _ => true
  | .pllCalDone _ => true
  | .pllDrift _ _ => true
  | .testStart _ => true
  | .testStop _ _ => true
  | .meshMemberStart _ _ _ _ => true
  | .unschedFlitForward _ fc _ => decide (fc.toNat < 6250)
  | .packetArrive _ => true
  | .write => true
  | .engine => true
  | .readData => true
  | .mgmtWrite => true
  | .ack => true
  | .nack => true
  | .readReq => true
  | .faultNotice => true
  | .haltNotice => true
  | .msg => true
  | .readEngineReply => true
  | .resendTimeout _ => true
  | .filterExpire _ _ => true
  | .niSend _ _ => true
  | .holdWrite _ => true
  | .wgtLoad => true
  | .verify => true
  | .wgtAbort => true
  | .wgtChunkComplete => true
  | .wgtLoadDone => true
  | .wgtTimeout => true
  | .sqTailWrite _ => true
  | .sqEntryRead _ => true
  | .promptChunkFetched _ tokens => decide (tokens.length ≤ 4096)
  | .maskLatch => true
  | .cancel _ _ => true
  | .pause _ _ => true
  | .acctRead _ => true
  | .acctWrite _ => true
  | .acctAdd _ => true
  | .endingFlush _ => true
  | .ringWriteFail _ => true
  | .digestRecordArrive _ => true
  | .detMissing => true
  | .capclr => true
  | .hostBar0Access _ offset length _ => decide (1 ≤ length) && decide (offset.toNat + length ≤ 2 ^ 25)
  | .hostBar2Read offset length _ => decide (1 ≤ length) && decide (offset.toNat + length ≤ 2 ^ 36)
  | .hostBar2Write offset data => decide (1 ≤ data.length) && decide (offset.toNat + data.length ≤ 2 ^ 36)
  | .msixSend _ _ => true
  | .rearm _ _ => true
  | .dStateChange _ _ => true
  | .wakeRequest => true
  | .wakeExit => true
  | .perstReset _ => true
  | .perstRelease _ _ _ => true
  | .flr => true
  | .hwqDrain => true
  | .doorbell _ => true
  | .post _ => true
  | .mboxAck _ => true
  | .mboxStatusRead => true
  | .ident => true
  | .keepAck => true
  | .attest request => request.wf
  | .fwStage => true
  | .fwActivate => true
  | .ethLinkUp _ _ => true
  | .ethLinkDown _ => true
  | .ethFecUe _ _ => true
  | .roceRequestReceive _ => true
  | .roceResponseReceive _ _ _ => true
  | .roceAckTimeout _ _ => true
  | .ecnReceive _ _ => true
  | .cnpReceive _ _ => true
  | .roceRateRaise _ _ => true
  | .ptpMessageReceive _ _ _ _ _ => true
  | .mgmtFrameReceive _ frame => decide (frame.length ≤ 9216)
  | .qpCtrlWrite _ _ _ => true
  | .hotplugRemove _ => true
  | .flushDomainsOff => true
  | .insertion => true
  | .pdOn domain => decide (domain.toNat < 112)
  | .pdOff domain => decide (domain.toNat < 112)
  | .pdSwitchDone => true
  | .pdFail => true
  | .inputSample _ _ => true
  | .pmbusPoll _ _ => true
  | .clkenWrite _ => true
  | .cpclkWrite _ _ => true
  | .cmuStart => true
  | .cmuDone _ => true
  | .stageK _ _ => true
  | .stageRom => true
  | .stageHead => true
  | .stageReady => true
  | .backupCheck _ => true
  | .rtcWrite _ => true
  | .intrusion _ => true
  | .confirm => true
  | .confirmTimeout => true
  | .abortStage => true
  | .stageHoldExpire => true
  | .fwCommitEnd _ => true
  | .svcIdent _ => true
  | .svcSpdm _ request => request.wf
  | .stageWrite _ _ _ => true
  | .stageQuery _ => true
  | .stageCommit _ _ => true
  | .svcFwActivate _ _ => true
  | .setPosition _ _ => true
  | .logRead _ _ _ => true
  | .getVersion => true
  | .getCapabilities => true
  | .negotiateAlgorithms => true
  | .getDigests => true
  | .getCertificate _ _ _ => true
  | .challenge _ nonce => nonce.length == 32
  | .getMeasurements _ nonce => nonce.length == 32
  | .chainOffer _ _ _ => true
  | .chainNeed _ _ => true
  | .chainDone _ _ => true
  | .chainAbort _ => true
  | .chainNeedTimeout _ => true
  | .chainDoneTimeout _ => true
  | .kepChainWrite _ => true
  | .retire kind unit => decide (unit.toNat < retireLimit kind.toNat)
  | .hsKick _ => true
  | .hsHang _ => true
  | .hsReset _ who _ => who.wf
  | .smbStuckDetect _ => true
  | .smbVtelCycleDone _ => true
  | .recover _ => true
  | .freezeNFall _ => true
  | .freezeNow _ => true
  | .freezeTakeEffect => true
  | .resume _ => true
  | .resumeCancel => true
  | .resumeAtTr => true
  | .rbDataRead _ => true
  | .capStart => true
  | .capAbort => true
  | .capDone => true
  | .extest cells => cells.Pairwise (fun a b => a.1 < b.1)
  | .idcode => true
  | .samplePreload => true
  | .ctrlAccess _ _ _ => true
  | .ctrlAccessComplete => true
  | .jtagFreezeNow _ => true
  | .bypass => true
  | .jtagLock => true
  | .hotSwapConnect => true
  | .inputLoss _ => true
  | .hrefLoss => true
  | .clkRet => true
  | .ppsEdge _ _ => true
  | .ptpLost _ => true
  | .hrefReturn => true
  | .ebNReclose => true
  | .holdupExhausted => true
  | .holdupBankCharged => true
  | .vaultReadyTimeout _ => true
  | .pcieLinkDown => true
  | .wgtVerifyDone => true
  | .pfcFrameReceive _ _ _ => true
  | .trstAssert => true

end Sys2Proof
end

