-- ==== Sys2Proof/Certificates/Slice0/Obligations.lean ====
section
/-! DEFINITION. The statements for the provers, from the numbered rules of the spec. -/
open Sys2Proof Sys2Proof.Machine

namespace Sys2Proof.Spec

/-- The command answers the next state in which the module is m and the commands that wait are as they were. -/
def Does (c : Instr) (s : State) (m : Lanorun) : Prop := exec c s = .next { s with m := m }

/-- The command answers a next state whose module satisfies P; the commands that wait are as they were. -/
def Gives (c : Instr) (s : State) (P : Lanorun → Prop) : Prop := ∃ m, Does c s m ∧ P m

end Sys2Proof.Spec

open Sys2Proof.Spec
/-! ## The queue and reset -/

/-- A step with a command at the front of the queue runs that command on the state with the queue's rest. -/
def Obligations.StepRunsFront : Prop :=
  ∀ (c : Instr) (s : State), step { s with pending := c :: s.pending } = exec c s

/-- With no command waiting the module idles: the model's choice, log entry 1. -/
def Sys2Proof.Spec.StepIdles : Prop := ∀ s : State, s.pending = [] → step s = .next s

/-- Every command answers a next state, in any state, and leaves the waiting commands alone. -/
def Sys2Proof.Spec.EveryCommandAnswers : Prop := ∀ (c : Instr) (s : State), ∃ m, Does c s m

/-- Every command answers a next state; an empty queue idles: Spec.StepIdles, Spec.EveryCommandAnswers. Where the spec leaves a
point open it takes the model's convention of log entries 1 and 30. -/
def Obligations.EveryStepAnswers : Prop := Sys2Proof.Spec.StepIdles ∧ Sys2Proof.Spec.EveryCommandAnswers

/-- The well-formedness of the commands that wait is kept by every step, and a step takes exactly one command. -/
def Obligations.QueueStaysWellFormed : Prop :=
  ∀ s s' : State, (∀ c ∈ s.pending, c.wf = true) → step s = .next s' →
    (∀ c ∈ s'.pending, c.wf = true) ∧ s'.pending = s.pending.tail

/-- At reset no command waits, so that the commands that wait are well formed. -/
def Obligations.ResetQueueWellFormed : Prop := ∀ c ∈ State.reset.pending, c.wf = true

/-- The module right after reset: the Belfry is in FREERUN with no parent and bound 0xFFFF (R40), no plan is active (R69), every
region is in aligned mode (R63) and every slot is EMPTY; the cells idle, and by the model's choice no memory of them and no
vault lists anything (log entries 17 and 79). -/
def Obligations.ResetState : Prop :=
  State.reset.m.blfState = blfFreerun ∧ State.reset.m.hall.bound = 0xFFFF ∧
  State.reset.m.get F.BLF_STATUS_PARENT_PORT = 0x1F ∧ State.reset.m.planActive = false ∧ State.reset.m.frozen = false ∧
  (∀ i, i < 4 → State.reset.m.slotState i = slotEmpty) ∧ (∀ r, (State.reset.m.rgn r).aligned = true) ∧
  (∀ c, (State.reset.m.cell c).st = 0 ∧ (State.reset.m.cell c).store = [] ∧ (State.reset.m.cell c).coffer = []) ∧
  (∀ v, State.reset.m.vault v = {}) ∧ State.reset.m.ticks = 0


/-! ## Hall time (R35 to R50) -/

namespace Sys2Proof.Spec

/-- The bound's growth in HOLDOVER since it was last brought up to date, in units of 1/1,562,500 ps: 10 HOLD_RATE ps in each
millisecond of 1,562,500 counter units (R49). -/
def holdGrowth (m : Lanorun) : Nat := m.hall.holdFrac + 10 * m.get F.BLF_CTRL_HOLD_RATE * (m.hall.lat - m.hall.holdAt)

end Sys2Proof.Spec

/-- The Belfry's moves, each in the state that its rule names: FINE with 256 good frames, a bound within BOUND_LIM and a valid parent
enters LOCKED; RESTART without an active plan returns to FREERUN and steps nothing; FREERUN is left by a ROOT for LOCKED with bound 0,
and with PTP_EN for COARSE; a LOCKED module that loses its parent and has no other candidate enters HOLDOVER with its steering;
in HOLDOVER the bound grows by 10 HOLD_RATE ps in each millisecond, and past BOUND_LIM it is a TIME_FAULT, 0x0202, to FINE (R40, R45,
R48, R49). -/
def Sys2Proof.Spec.BelfryStateMoves : Prop :=
  (∀ s : State, s.m.blfState = blfFine → 256 ≤ s.m.hall.lockFrames → s.m.hall.bound ≤ s.m.boundLim →
    s.m.validParent (s.m.get F.BLF_STATUS_PARENT_PORT) = true → Does .lockGained s (((s.m.setHall fun h => { h with lockFrames := 0, faultFrames := 0 }).put
      F.BLF_STATUS_STATE blfLocked).event F.BLF_EVENT_LOCK_GAINED)) ∧
  (∀ s : State, s.m.planActive = false → Gives .restart s fun m =>
    m.blfState = blfFreerun ∧ m.get F.BLF_STATUS_PARENT_PORT = 0x1F ∧ m.hall.bound = 0xFFFF ∧
    m.get F.BLF_STATUS_BOUND_OK = 0 ∧ m.hall.steer = 0 ∧ m.hall.lat = s.m.hall.lat ∧ m.cells = s.m.cells) ∧
  (∀ s : State, s.m.blfState = blfFreerun → s.m.flag F.BLF_CTRL_ENABLE = true → s.m.role = 0 →
    Gives .blfLeaveFreerun s fun m => m.blfState = blfLocked ∧ m.hall.bound = 0 ∧ m.get F.BLF_STATUS_BOUND_OK = 1 ∧
      m.flag F.BLF_EVENT_LOCK_GAINED = true ∧ m.hall.lat = s.m.hall.lat) ∧
  (∀ s : State, s.m.blfState = blfFreerun → s.m.flag F.BLF_CTRL_ENABLE = true → s.m.role ≠ 0 →
    s.m.flag F.BLF_CTRL_PTP_EN = true →
    Does .blfLeaveFreerun s ((s.m.setHall fun h => { h with lockFrames := 0, faultFrames := 0 }).put
      F.BLF_STATUS_STATE blfCoarse)) ∧
  (∀ s : State, s.m.get F.BLF_STATUS_PARENT_PORT ≠ 0x1F → s.m.validParent (s.m.get F.BLF_STATUS_PARENT_PORT) = false →
    s.m.blfState = blfLocked → (s.m.event F.BLF_EVENT_PARENT_LOST).bestParent = none →
    Gives .parentLost s fun m => m.blfState = blfHoldover ∧ m.get F.BLF_STATUS_PARENT_PORT = 0x1F ∧
      m.flag F.BLF_EVENT_PARENT_LOST = true ∧ m.flag F.BLF_EVENT_HOLDOVER = true ∧ m.hall.steer = s.m.hall.steer ∧
      m.hall.lat = s.m.hall.lat) ∧
  (∀ s : State, s.m.blfState = blfHoldover → let g := holdGrowth s.m; s.m.hall.bound + g / 1562500 < s.m.boundLim →
    Gives .holdoverBoundGrow s fun m => m.hall.bound = s.m.hall.bound + g / 1562500 ∧ m.hall.holdFrac = g % 1562500 ∧
      m.hall.holdAt = s.m.hall.lat ∧ m.get F.BLF_STATUS_BOUND_OK = 1 ∧ m.blfState = blfHoldover ∧
      m.hall.steer = s.m.hall.steer ∧ m.hall.lat = s.m.hall.lat) ∧
  (∀ (s : State) (ms : Nat), s.m.hall.lat = s.m.hall.holdAt + 1562500 * ms → s.m.hall.holdFrac = 0 →
    holdGrowth s.m = 1562500 * (10 * s.m.get F.BLF_CTRL_HOLD_RATE * ms)) ∧
  (∀ s : State, s.m.blfState = blfHoldover → s.m.boundLim < s.m.hall.bound + holdGrowth s.m / 1562500 →
    Gives .holdoverBoundGrow s fun m => m.blfState = blfFine ∧ m.flag F.BLF_EVENT_TIME_FAULT = true ∧
      m.get F.DBG_FAULT_LAST_CODE = 0x0202 ∧ m.hall.timeFault = true ∧ m.hall.lat = s.m.hall.lat)

/-- Writing SNAP latches, on one edge, the hall-time counter, the fc position in the frame and the counter's fraction, the steering, the
bound, and of every port the last exchange's offset and round trip and the two calibrations with the peer's LOCKED bit and VALID,
into their read registers, and changes nothing but registers (R36). A port without an exchange shows OFS 0x80000000; what does not
fit OFS or RTT is the model's choice, log entry 83, and FRAC's rounding log entry 6. -/
def Obligations.BelfrySnapLatches : Prop :=
  ∀ s : State, Gives .blfSnap s fun m =>
    m = { s.m with regs := m.regs } ∧ m.get F.BLF_SNAP_TICK_TICK = s.m.ticks % 2 ^ 64 ∧
    m.get F.BLF_SNAP_FRAC_FC_IN_FRAME = s.m.hall.lat % 6250 ∧ m.get F.BLF_SNAP_FRAC_FRAC = s.m.frac % 2 ^ 16 ∧
    m.get F.BLF_STEER_STEER = ofSigned 32 s.m.hall.steer ∧ m.get F.BLF_ERR_BOUND_BOUND = s.m.hall.bound % 2 ^ 16 ∧
    ∀ p, p < 18 →
      let x := s.m.ptime p
      (x.done = true → -2147483648 ≤ x.ofs ∧ x.ofs < 2147483648 → m.get F.BLF_PTIME_OFS 0 p = ofSigned 32 x.ofs) ∧
      (x.done = false → m.get F.BLF_PTIME_OFS 0 p = 0x80000000) ∧
      (-2147483648 ≤ x.rtt ∧ x.rtt < 2147483648 → m.get F.BLF_PTIME_RTT 0 p = ofSigned 32 x.rtt) ∧
      m.get F.BLF_PCAL_LOC_TXRX 0 p = ofSigned 16 x.locTxrx ∧ m.get F.BLF_PCAL_PEER_TXRX 0 p = ofSigned 16 x.peerTxrx ∧
      m.get F.BLF_PCAL_PEER_LOCKED 0 p = (if x.peerState = 3 then 1 else 0) ∧
      m.get F.BLF_PCAL_VALID 0 p = (if x.fresh then 1 else 0) ∧
      m.get F.BLF_PCAL_ASYM_CFG 0 p = s.m.get F.BLF_PCAL_ASYM_CFG 0 p

/-- A received TIME unit of a port that carries an arrival time completes an exchange: theta is half of (t2 - t1) - (t4 - t3)
less the asymmetry, rtt is (t2 - t1) + (t4 - t3), each in ps and exact but for its rounding; no other port's exchange changes, and on
a port that is not the parent's of a LOCKED module no register and no time. One that carries none only keeps the arrival and what the
peer reports (R41, R42). -/
def Sys2Proof.Spec.TimeExchangeCompletes : Prop :=
  (∀ (s : State) (p : PortIx) (u : TimeUnit) (t4 own : Nat), u.arrValid = true →
    Gives (.timeReceive p u t4 own) s fun m =>
      let out : Int := (u.tArr : Int) - ((4000 * own + 3999) * 65536 + 23592 : Nat)
      let back : Int := (t4 : Int) - u.tDep
      let asym : Int := ((s.m.ptime p).locTxrx - u.locTxrx) + toSigned 16 (s.m.get F.BLF_PCAL_ASYM_CFG 0 p)
      let x := m.ptime p
      x.done = true ∧ x.since = 0 ∧ x.arrive = some t4 ∧ x.peerState = u.state ∧ x.peerBound = u.bound ∧
      x.peerTxrx = u.locTxrx ∧ x.locTxrx = (s.m.ptime p).locTxrx ∧
      (65536 * x.rtt - (out + back) * 1000).natAbs < 65536 ∧
      (131072 * x.ofs - ((out - back) * 1000 - asym * 65536)).natAbs < 131072 ∧
      (∀ q, q ≠ p.val → m.ptime q = s.m.ptime q) ∧ m.cells = s.m.cells ∧
      (s.m.blfState = blfLocked → s.m.get F.BLF_STATUS_PARENT_PORT ≠ p.val → m.regs = s.m.regs ∧ m.hall.lat = s.m.hall.lat)) ∧
  (∀ (s : State) (p : PortIx) (u : TimeUnit) (t4 own : Nat), u.arrValid = false →
    Does (.timeReceive p u t4 own) s (s.m.setPtime p { s.m.ptime p with
      arrive := some t4, peerTxrx := u.locTxrx, peerState := u.state, peerBound := u.bound }))

/-- In COARSE with PTP valid and no plan active, the counter is stepped once to PTP time less EPOCH_TAI, on the fc lattice of
640 ps; its frame is irregular (R40, R37). -/
def Sys2Proof.Spec.CoarseStepToPtp : Prop :=
  ∀ s : State, s.m.blfState = blfCoarse → s.m.flag F.BLF_STATUS_PTP_VALID = true → s.m.hall.ptpStepped = false →
    s.m.planActive = false → Gives .ptpCoarseStep s fun m =>
      let ns : Int := (s.m.ptpNow.1 : Int) - (s.m.get F.BLF_EPOCH_TAI_EPOCH * 1000000000 : Nat)
      (0 ≤ ns → (16 * (m.hall.lat : Int) - ns * 25).natAbs < 16) ∧ m.hall.stepFrame = true ∧ m.hall.ptpStepped = true ∧
      m.regs = s.m.regs ∧ m.cells = s.m.cells
/-! ## Regions and counters (R13, R54 to R64, R527, R528) -/

/-- Belfry states, TIME exchanges and the coarse step to PTP time: Spec.BelfryStateMoves, Spec.TimeExchangeCompletes,
Spec.CoarseStepToPtp. Where the spec leaves a point open it takes the model's convention of log entries 4, 7 and 9. -/
def Obligations.HallTimeMoves : Prop := Sys2Proof.Spec.BelfryStateMoves ∧ Sys2Proof.Spec.TimeExchangeCompletes ∧ Sys2Proof.Spec.CoarseStepToPtp

/-- A write of PLAN_STEP to a region whose domain is on: locked while a plan is active; ignored above CLK_STEP_MAX; recorded at once, and a
change in calibrated mode asks for a retune at the next Bell (R54, R55, R69). -/
def Sys2Proof.Spec.PlanStepWritten : Prop :=
  (∀ (s : State) (r : RegionIx) (k : BitVec 7), s.m.planActive = true → Does (.planStepWrite r k) s s.m) ∧
  (∀ (s : State) (r : RegionIx) (k : BitVec 7), s.m.get F.MOD_IDENT_CLK_STEP_MAX < k.toNat → Does (.planStepWrite r k) s s.m) ∧
  (∀ (s : State) (r : RegionIx) (k : BitVec 7), s.m.planActive = false → s.m.isOn (80 + r) = true →
    k.toNat ≤ s.m.get F.MOD_IDENT_CLK_STEP_MAX →
    (s.m.rgn r).aligned = true ∨ s.m.get F.RGN_CLK_PLAN_STEP r = k.toNat →
    Does (.planStepWrite r k) s (s.m.put F.RGN_CLK_PLAN_STEP k.toNat r)) ∧
  (∀ (s : State) (r : RegionIx) (k : BitVec 7), s.m.planActive = false → s.m.isOn (80 + r) = true →
    k.toNat ≤ s.m.get F.MOD_IDENT_CLK_STEP_MAX → (s.m.rgn r).aligned = false → s.m.get F.RGN_CLK_PLAN_STEP r ≠ k.toNat →
    Does (.planStepWrite r k) s
      ((s.m.put F.RGN_CLK_PLAN_STEP k.toNat r).setRgn r { s.m.rgn r with stepReq := true }))

/-- A write of MODE with no plan active to a region whose domain is on is recorded in the field and waits for the next Bell, where the
region retunes into calibrated mode or enters aligned mode; nothing else changes now; while a plan is active it is locked (R55, R63,
R69). -/
def Sys2Proof.Spec.ModeWritten : Prop :=
  (∀ (s : State) (r : RegionIx), s.m.planActive = false → s.m.isOn (80 + r) = true → Does (.modeCalibratedWrite r) s
    ((s.m.put F.RGN_CLK_MODE 0 r).setRgn r { s.m.rgn r with modeReq := some false })) ∧
  (∀ (s : State) (r : RegionIx), s.m.planActive = false → s.m.isOn (80 + r) = true → Does (.modeAlignedWrite r) s
    ((s.m.put F.RGN_CLK_MODE 1 r).setRgn r { s.m.rgn r with modeReq := some true })) ∧
  (∀ (s : State) (r : RegionIx), s.m.planActive = true →
    Does (.modeCalibratedWrite r) s s.m ∧ Does (.modeAlignedWrite r) s s.m)

/-- Writes of PLAN_STEP and MODE: Spec.PlanStepWritten, Spec.ModeWritten. -/
def Obligations.RegionFieldsWritten : Prop := Sys2Proof.Spec.PlanStepWritten ∧ Sys2Proof.Spec.ModeWritten

/-- From the 65th Bell after a shell's power good, once: the tap is the centre of a run of passing taps that no other run of passing taps
is longer than (with an even run one of the two middle taps, log entry 4) and ALIGN_DONE is set; with no passing tap the region sets
XCAL_FAIL and faults with 0x0205; before that Bell nothing changes (R64). -/
def Obligations.AlignmentPicksCentre : Prop :=
  (∀ (s : State) (r : RegionIx) (pass : BitVec 64), pass ≠ 0#64 → s.m.isOn (80 + r) = true → 65 ≤ (s.m.rgn r).bells →
    s.m.get F.RGN_XCAL_ALIGN_DONE r = 0 → (s.m.rgn r).alignFail = false →
    Gives (.alignDone r pass) s fun m => m.get F.RGN_XCAL_ALIGN_DONE r = 1 ∧
      m.get F.RGN_XCAL_XCAL_FAIL r = s.m.get F.RGN_XCAL_XCAL_FAIL r ∧ m.cells = s.m.cells ∧
      ∃ start len, 0 < len ∧ (∀ i, start ≤ i → i < start + len → pass.getLsbD i = true) ∧
        (∀ a n, (∀ i, a ≤ i → i < a + n → pass.getLsbD i = true) → n ≤ len) ∧
        ((m.rgn r).tap = start + (len - 1) / 2 ∨ (len % 2 = 0 ∧ (m.rgn r).tap = start + len / 2))) ∧
  (∀ (s : State) (r : RegionIx), s.m.isOn (80 + r) = true → 65 ≤ (s.m.rgn r).bells → s.m.get F.RGN_XCAL_ALIGN_DONE r = 0 →
    (s.m.rgn r).alignFail = false → Gives (.alignDone r 0#64) s fun m => m.get F.RGN_XCAL_XCAL_FAIL r = 1 ∧
      m.get F.DBG_FAULT_LAST_CODE = 0x0205 ∧ m.get F.DBG_FAULT_LAST_LEVEL = 2 ∧ m.get F.DBG_FAULT_LAST_UNIT = r.val ∧
      m.flag F.DBG_EVENT_FAULT = true ∧ m.rgns = (s.m.setRgn r { s.m.rgn r with alignFail := true }).rgns) ∧
  (∀ (s : State) (r : RegionIx) (pass : BitVec 64), (s.m.rgn r).bells < 65 → Does (.alignDone r pass) s s.m)

/-- When a sentinel detects droop, the region, whose domain is on and whose plan frame does not stand in a freeze, removes its next edge
p: an edge that nothing has removed yet and before which every edge from the present position on is removed, and no other edge; the
removed edge is no rc of any of the region's cells; and the region counts it (R57). -/
def Obligations.DroopRemovesNextEdge : Prop :=
  ∀ (s : State) (r : RegionIx), s.m.isOn (80 + r) = true → s.m.frozen = false → (s.m.rgn r).droops.length ≤ 8 →
    Gives (.droopDetect r) s fun m =>
    ∃ p, (s.m.rgn r).pos ≤ p ∧ (s.m.rgn r).removed p = false ∧ (∀ q, (s.m.rgn r).pos ≤ q → q < p → (s.m.rgn r).removed q = true) ∧
      m.rgn r = { s.m.rgn r with droops := p :: (s.m.rgn r).droops, droopSeen := true } ∧
      (m.rgn r).removed p = true ∧ (∀ q, q ≠ p → (m.rgn r).removed q = (s.m.rgn r).removed q) ∧
      (∀ c, c / 85 = r.val → m.cellEdge c ≠ some ((m.cell c).base + p)) ∧
      (∀ q, q ≠ r.val → m.rgn q = s.m.rgn q) ∧
      m.get F.RGN_DROOP_CNT_COUNT r = (s.m.get F.RGN_DROOP_CNT_COUNT r + 1) % 2 ^ 48 ∧ m.cells = s.m.cells

/-- SNAP of a counter group, written where the register answers, copies every live value of the group into the group's read latches at one
instant and changes nothing else, no other group's latches among it; a region's SNAP besides starts RGN_FSTAT.MAX_SYNC_RC, the largest
since the last SNAP, again from 0. As long as the latch stands, whatever the counters do, a read of the group returns what was latched;
before the first SNAP it returns the reset value (R13). -/
def Obligations.SnapLatchesGroup : Prop :=
  (∀ (s : State) (a : BitVec 48) (r : Reg) (fs : List Fld) (u i : Nat) (g : Grp), findReg a.toNat = some (r, fs, u, i) →
    snapGrp r = some g → s.m.answers r u = true → Gives (.counterSnap a) s fun m =>
      m = { s.m with latch := m.latch, regs := m.regs } ∧
      (g = .rgn → m.regs = (s.m.put F.RGN_FSTAT_MAX_SYNC_RC 0 u).regs) ∧ (g ≠ .rgn → m.regs = s.m.regs) ∧
      (∀ e ∈ regsOf g.blk, e.1.grp = some g → ∀ j, j < e.1.count → m.regRead e.1 u j = s.m.reg e.1 u j ∧
        ∀ n : Lanorun, n.latch = m.latch → n.regRead e.1 u j &&& e.1.latched = s.m.reg e.1 u j &&& e.1.latched) ∧
      ∀ (q : Reg) (v j : Nat), (∀ e ∈ regsOf g.blk, e.1.grp = some g → ∀ k, k < e.1.count → q.addr v j ≠ e.1.addr u k) →
        m.latched q v j = s.m.latched q v j) ∧
  (∀ (m : Lanorun) (q : Reg) (u j : Nat), m.latch = State.reset.m.latch → q.reset < 2 ^ 64 →
    m.regRead q u j &&& q.latched = q.reset &&& q.latched)

/-- Writing 1 to OVF of an error counter that answers clears OVF and COUNT, live and, in a counter group, latched, and changes nothing
else; an event that is counted after the clear gives a live COUNT of 1, which a read shows at once outside a counter group and after the
next SNAP inside one (R528). -/
def Obligations.OverflowClears : Prop :=
  ∀ (s : State) (a : BitVec 48) (r : Reg) (fs : List Fld) (u i : Nat), findReg a.toNat = some (r, fs, u, i) →
    isErrCounter fs = true → s.m.answers r u = true → Gives (.ovfClear a) s fun m => m = { s.m with regs := m.regs, latch := m.latch } ∧
      bitsOf (m.reg r u i) 32 0 = 0 ∧ bitsOf (m.reg r u i) 63 33 = bitsOf (s.m.reg r u i) 63 33 ∧
      bitsOf (m.regRead r u i) 31 0 = 0 ∧ (r.grp ≠ none → bitsOf (m.latched r u i) 32 0 = 0) ∧
      (∀ (q : Reg) (v j : Nat), q.addr v j ≠ r.addr u i → m.reg q v j = s.m.reg q v j ∧ m.latched q v j = s.m.latched q v j) ∧
      bitsOf ((m.countErr r 1 u i).reg r u i) 31 0 = 1 ∧
      bitsOf ((m.countErr r 1 u i).regRead r u i) 31 0 = if r.grp = none then 1 else 0

/-- An error counter's COUNT sticks at its largest value, where OVF is set (R527); an event counter wraps into WRAP. -/
def Obligations.CountersStickAndWrap : Prop :=
  (∀ (m : Lanorun) (p : PortIx), m.get F.LNK_PARITY_CNT_COUNT p = 0xFFFFFFFF →
    (m.countErr R.LNK_PARITY_CNT 1 p).get F.LNK_PARITY_CNT_COUNT p = 0xFFFFFFFF) ∧
  (∀ (m : Lanorun) (p : PortIx), m.get F.LNK_PARITY_CNT_COUNT p = 0xFFFFFFFE →
    (m.countErr R.LNK_PARITY_CNT 1 p).get F.LNK_PARITY_CNT_COUNT p = 0xFFFFFFFF ∧
    (m.countErr R.LNK_PARITY_CNT 1 p).get F.LNK_PARITY_CNT_OVF p = 1 ∧
    (m.countErr R.LNK_PARITY_CNT 1 p).flag F.DBG_EVENT_CNT_OVF = true) ∧
  (∀ (m : Lanorun) (r : RegionIx), m.get F.RGN_DROOP_CNT_COUNT r = 2 ^ 48 - 1 → m.get F.RGN_DROOP_CNT_WRAP r < 0xFFFF →
    (m.countEvt R.RGN_DROOP_CNT 1 r).get F.RGN_DROOP_CNT_COUNT r = 0 ∧
    (m.countEvt R.RGN_DROOP_CNT 1 r).get F.RGN_DROOP_CNT_WRAP r = m.get F.RGN_DROOP_CNT_WRAP r + 1)

/-! ## Command slots, activation and the plan loader (R50 to R53, R69, R86 to R88, R270, R271) -/

namespace Sys2Proof.Spec

/-- Slot i of the Belfry is armed with a kind at a tick of the present frame that the counter has not passed, and no other slot is
armed; the module runs. -/
abbrev DueAlone (m : Lanorun) (i kind : Nat) : Prop :=
  slotArmed m i = true ∧ (∀ j, j < 8 → j ≠ i → slotArmed m j = false) ∧ m.slotKind i = kind ∧ m.frozen = false ∧
  m.slotTick i < 4000 * (m.frame + 1) ∧ m.hall.lat ≤ latOf (m.slotTick i)

/-- A tick lies at least two frames ahead of the hall-time counter, which counts 16/25 tick for each unit of lat (R35, R51). -/
abbrev Ahead (m : Lanorun) (tick : Nat) : Prop := 16 * m.hall.lat + 25 * 8000 ≤ 25 * tick

/-- Hall time has come to a tick. -/
def atTick (m : Lanorun) (tick : Nat) : Lanorun := m.setHall fun h => { h with lat := max h.lat (latOf tick) }

end Sys2Proof.Spec

/-- ARM: an unknown kind gives STAT 7; a tick less than two frames ahead of the counter gives 4 and raises CMD_LATE; a tick off the Bell, for
ACTIVATE_PLAN and SWITCH_BANK, or off the 16-tick lattice gives 6; else the slot is ARMED. An armed slot ignores ARM (R50, R51). -/
def Sys2Proof.Spec.SlotArms : Prop :=
  (∀ (s : State) (i : CmdSlotIx), slotArmed s.m i = true → Does (.slotArm i) s s.m) ∧
  (∀ (s : State) (i : CmdSlotIx), slotArmed s.m i = false → s.m.slotKind i ∉ [1, 2, 3, 4] →
    Does (.slotArm i) s (s.m.put F.BLF_CMD_CTRL_STAT 7 0 i)) ∧
  (∀ (s : State) (i : CmdSlotIx), slotArmed s.m i = false → s.m.slotKind i ∈ [1, 2, 3, 4] → ¬ Ahead s.m (s.m.slotTick i) →
    Does (.slotArm i) s ((s.m.put F.BLF_CMD_CTRL_STAT 4 0 i).put F.BLF_EVENT_CMD_LATE 1)) ∧
  (∀ (s : State) (i : CmdSlotIx), slotArmed s.m i = false → Ahead s.m (s.m.slotTick i) →
    (s.m.slotKind i ∈ [1, 2] ∧ s.m.slotTick i % 4000 ≠ 0 ∨ s.m.slotKind i ∈ [3, 4] ∧ s.m.slotTick i % 16 ≠ 0) →
    Does (.slotArm i) s (s.m.put F.BLF_CMD_CTRL_STAT 6 0 i)) ∧
  (∀ (s : State) (i : CmdSlotIx), slotArmed s.m i = false → Ahead s.m (s.m.slotTick i) →
    (s.m.slotKind i ∈ [1, 2] ∧ s.m.slotTick i % 4000 = 0 ∨ s.m.slotKind i ∈ [3, 4] ∧ s.m.slotTick i % 16 = 0) →
    Does (.slotArm i) s (s.m.put F.BLF_CMD_CTRL_STAT 1 0 i))

/-- CANCEL of an armed slot whose tick has not come gives STAT 3; where no slot is armed it changes nothing (R52). -/
def Sys2Proof.Spec.SlotCancels : Prop :=
  (∀ (s : State) (i : CmdSlotIx), slotArmed s.m i = true → (∀ j, j < 8 → slotArmed s.m j = true → s.m.ticks < s.m.slotTick j) →
    Does (.slotCancel i) s (s.m.put F.BLF_CMD_CTRL_STAT 3 0 i)) ∧
  (∀ (s : State) (i : CmdSlotIx), (∀ j, j < 8 → slotArmed s.m j = false) → Does (.slotCancel i) s s.m)

/-- At its tick an EVENT slot becomes FIRED and passes its ARG to the head stewards, and nothing else changes (R52). -/
def Sys2Proof.Spec.EventSlotFires : Prop :=
  ∀ (s : State) (i : CmdSlotIx), DueAlone s.m i 4 → Does (.event i) s
    (((atTick s.m (s.m.slotTick i)).put F.BLF_CMD_CTRL_STAT 2 0 i).setHall fun h =>
      { h with headEvents := h.headEvents ++ [BitVec.ofNat 32 (s.m.get F.BLF_CMD_CTRL_ARG 0 i)] })

/-- At its tick a FREEZE slot becomes FIRED, and the freeze takes effect at that very tick with source 2 (R530, R532). -/
def Sys2Proof.Spec.FreezeSlotFires : Prop :=
  ∀ (s : State) (i : CmdSlotIx), DueAlone s.m i 3 → s.m.frz.tz = none → Gives (.freeze i) s fun m =>
    m.flag F.DBG_STATUS_FROZEN = true ∧ m.get F.DBG_STATUS_FREEZE_SRC = 2 ∧
    m.get F.DBG_FREEZE_AT_TICK = s.m.slotTick i ∧ m.frz.tz = some (s.m.slotTick i) ∧ m.flag F.DBG_EVENT_FREEZE = true ∧
    m.get F.BLF_CMD_CTRL_STAT 0 i = 2 ∧ m.cells = s.m.cells ∧ m.vaults = s.m.vaults ∧ m.plan = s.m.plan ∧
    m.hall.lat = max s.m.hall.lat (latOf (s.m.slotTick i))

/-- At its tick a SWITCH_BANK slot becomes FIRED. Where nothing stands against the switch it becomes PENDING for the step that
its ARG names by its low 24 bits; where no plan is active its outcome is 5, with the SWITCH event (R372, R373). -/
def Sys2Proof.Spec.BankSwitchSlotFires : Prop :=
  (∀ (s : State) (i : CmdSlotIx) (a : BitVec 32), DueAlone s.m i 2 → s.m.get F.BLF_CMD_CTRL_ARG 0 i = a.toNat →
    s.m.activeImage = none → Does (.switchBank i) s
      ((((atTick s.m (s.m.slotTick i)).put F.BLF_CMD_CTRL_STAT 2 0 i).put F.MOD_WGT_TEN_SW 5 0 (a.toNat / 2 ^ 28)).put
        F.MOD_WGT_EVENT_SWITCH 1)) ∧
  (∀ (s : State) (i : CmdSlotIx) (t : TenancyIx) (b : Bool) (k : Nat) (im : Image), DueAlone s.m i 2 → 0 < k → k ≤ 2 ^ 22 →
    s.m.get F.BLF_CMD_CTRL_ARG 0 i = t.val * 2 ^ 28 + b.toNat * 2 ^ 24 + ((s.m.ten t).step + k) % 2 ^ 24 →
    s.m.activeImage = some im → t.val < im.tenancyCount → im.pairs t ≠ [] → im.single t = false →
    s.m.tenState t ≠ tenHalted → s.m.tenState t ≠ tenDone → (s.m.wgt t).pend = none →
    (s.m.wgt t).bankAt (s.m.ten t).step ≠ some b →
    Gives (.switchBank i) s fun m => m.wgt t = { s.m.wgt t with pend := some ((s.m.ten t).step + k, b) } ∧
      m.get F.MOD_WGT_TEN_SW 0 t = 1 ∧ m.get F.MOD_WGT_TEN_SW_STEP 0 t = ((s.m.ten t).step + k) % 2 ^ 24 ∧
      m.get F.BLF_CMD_CTRL_STAT 0 i = 2 ∧ m.cells = s.m.cells)

/-- EVENT, FREEZE and SWITCH_BANK slots fire at their tick: Spec.EventSlotFires, Spec.FreezeSlotFires, Spec.BankSwitchSlotFires.
Where the spec leaves a point open it takes the model's convention of log entries 1, 30 and 81. -/
def Obligations.SlotsFire : Prop := Sys2Proof.Spec.EventSlotFires ∧ Sys2Proof.Spec.FreezeSlotFires ∧ Sys2Proof.Spec.BankSwitchSlotFires

namespace Sys2Proof.Spec

/-- A failed activation is recorded with its reason and frame (R86). -/
abbrev Failed (m : Lanorun) (reason frame : Nat) : Prop :=
  m.get F.PLN_ACT_REASON = reason ∧ m.get F.PLN_ACT_RESULT = 2 ∧ m.get F.PLN_ACT_FRAME_FRAME = frame ∧
  m.flag F.PLN_EVENT_ACT_FAIL = true

/-- A handle names a READY slot, or it is 0 and a plan is active (R70, R86 condition 3). -/
abbrev Named (m : Lanorun) (h : Nat) : Prop := (h ≠ 0 ∧ m.slotOfHandle h ≠ none) ∨ (h = 0 ∧ m.plan.active ≠ none)

/-- The conditions of R86 hold for the handle h of the READY slot j. -/
abbrev Activates (m : Lanorun) (h : Nat) (j : SlotIx) : Prop :=
  h ≠ 0 ∧ m.slotOfHandle h = some j.val ∧ (∀ t, t < 16 → m.tenState t ≠ tenFaulted) ∧
  (m.plan.active = none ∨ m.plan.syncedAll = true) ∧
  ∀ p, p < 18 → m.routeChanges (m.image j) p = false ∨ m.drained p = true

/-- An image names at most 16 tenancies and cells that exist, as every image that passed its checks does, and the mover's tenancy
exists. -/
abbrev InRange (m : Lanorun) (im : Image) : Prop :=
  im.tenancyCount ≤ 16 ∧ (∀ t, ∀ c ∈ im.cellsOf t, c < 1360) ∧ m.mover.ten < 16

end Sys2Proof.Spec

/-- At its tick an ACTIVATE_PLAN slot whose Belfry is not LOCKED is MISSED and the activation fails with reason 1; one whose edge is a
FREEZE's as well is MISSED, with reason 2; else the slot is FIRED and the activation fails with the reason of R86's first condition that
fails: 3 where ARG names no READY slot, or 0 without an active plan, 4 where a tenancy is FAULTED, 5 where a cell of the outgoing image
has not synced, 6 where a port whose table changes has not drained. Each records REASON, RESULT FAILED, the frame and ACT_FAIL, and the
plan stays as it is (R52, R86). -/
def Sys2Proof.Spec.ActivationFails : Prop :=
  (∀ (s : State) (i : CmdSlotIx), DueAlone s.m i 1 → s.m.locked = false → Does (.activatePlan i) s
    (((atTick s.m (s.m.slotTick i)).missed i).actFail 1 (s.m.slotTick i / 4000))) ∧
  (∀ (s : State) (i j : CmdSlotIx), i ≠ j → slotArmed s.m i = true → slotArmed s.m j = true →
    (∀ k, k < 8 → k ≠ i → k ≠ j → slotArmed s.m k = false) → s.m.slotKind i = 1 → s.m.slotKind j = 3 →
    s.m.slotTick i = s.m.slotTick j → s.m.frozen = false → s.m.slotTick i < 4000 * (s.m.frame + 1) →
    s.m.hall.lat ≤ latOf (s.m.slotTick i) → s.m.locked = true → s.m.frz.tz = none → Gives (.activatePlan i) s fun m =>
      m.get F.BLF_CMD_CTRL_STAT 0 i = 5 ∧ m.get F.BLF_CMD_CTRL_STAT 0 j = 2 ∧ m.flag F.BLF_EVENT_CMD_MISSED = true ∧
      Failed m 2 (s.m.slotTick i / 4000) ∧ m.frozen = true ∧ m.plan = s.m.plan) ∧
  (∀ (s : State) (i : CmdSlotIx) (h : Nat), DueAlone s.m i 1 → s.m.locked = true → s.m.get F.BLF_CMD_CTRL_ARG 0 i = h →
    let fails (n : Nat) : Prop := Gives (.activatePlan i) s fun m => Failed m n (s.m.slotTick i / 4000) ∧
      m.get F.BLF_CMD_CTRL_STAT 0 i = 2 ∧ m.plan = s.m.plan ∧ m.cells = s.m.cells
    ((h ≠ 0 ∧ s.m.slotOfHandle h = none) ∨ (h = 0 ∧ s.m.plan.active = none) → fails 3) ∧
    (Named s.m h → (∃ t, t < 16 ∧ s.m.tenState t = tenFaulted) → fails 4) ∧
    (Named s.m h → (∀ t, t < 16 → s.m.tenState t ≠ tenFaulted) → s.m.plan.active ≠ none → s.m.plan.syncedAll = false → fails 5) ∧
    (∀ j, Named s.m h → (∀ t, t < 16 → s.m.tenState t ≠ tenFaulted) → (s.m.plan.active = none ∨ s.m.plan.syncedAll = true) →
      s.m.slotOfHandle h = some j → (∃ p, p < 18 ∧ s.m.routeChanges (s.m.image j) p = true ∧ s.m.drained p = false) → fails 6))

/-- A plan activates: with the Belfry LOCKED and R86's conditions met for the handle of slot j, whatever plan is active and whatever the
image holds, the image in slot j becomes the active one at the frame of its tick: PLN_ACT shows its handle, the frame and RESULT 3, the
activation is in progress, and slot j is ACTIVE; with ARG 0 the empty plan becomes active. From the empty plan to an image without
sections the slot of the Belfry is seen to be FIRED (R86, R88). -/
def Sys2Proof.Spec.ActivationSwaps : Prop :=
  (∀ (s : State) (i : CmdSlotIx) (j : SlotIx) (h : Nat), DueAlone s.m i 1 → s.m.locked = true →
    s.m.get F.BLF_CMD_CTRL_ARG 0 i = h → Activates s.m h j → InRange s.m (s.m.image j) →
    (∀ im, s.m.activeImage = some im → InRange s.m im) →
    Gives (.activatePlan i) s fun m => m.plan.active = some j.val ∧
      m.plan.act = some ⟨s.m.slotTick i / 4000, some j.val⟩ ∧ m.slotState j = slotActive ∧ m.get F.PLN_ACT_HANDLE = h ∧
      m.get F.PLN_ACT_RESULT = 3 ∧ m.get F.PLN_ACT_FRAME_FRAME = s.m.slotTick i / 4000) ∧
  (∀ (s : State) (i : CmdSlotIx), DueAlone s.m i 1 → s.m.locked = true → s.m.get F.BLF_CMD_CTRL_ARG 0 i = 0 →
    s.m.plan.active ≠ none → (∀ j, j < 4 → s.m.slotState j = slotReady → s.m.get F.PLN_SLOT_STAT_HANDLE 0 j ≠ 0) →
    (∀ t, t < 16 → s.m.tenState t ≠ tenFaulted) → s.m.plan.syncedAll = true →
    (∀ im, s.m.activeImage = some im → InRange s.m im) → Gives (.activatePlan i) s fun m =>
      m.plan.active = none ∧ m.plan.act = some ⟨s.m.slotTick i / 4000, none⟩ ∧ m.get F.PLN_ACT_HANDLE = 0 ∧
      m.planActive = false ∧ m.get F.PLN_ACT_RESULT = 3) ∧
  (∀ (s : State) (i : CmdSlotIx) (j : SlotIx), DueAlone s.m i 1 → s.m.locked = true → s.m.plan.active = none →
    Activates s.m (s.m.get F.BLF_CMD_CTRL_ARG 0 i) j → (s.m.image j).header = [] → (s.m.image j).secs = [] →
    s.m.cells = [] → s.m.served = none → s.m.mover.ten < 16 → Gives (.activatePlan i) s fun m =>
      m.plan.active = some j.val ∧ m.get F.BLF_CMD_CTRL_STAT 0 i = 2)

/-- An activation is missed, fails with its reason, or swaps the plan: Spec.ActivationFails, Spec.ActivationSwaps. Where the spec
leaves a point open it takes the model's convention of log entries 1, 46, 81 and 90. -/
def Obligations.ActivationOutcomes : Prop := Sys2Proof.Spec.ActivationFails ∧ Sys2Proof.Spec.ActivationSwaps

/-- A slot whose tick passes while the module is frozen becomes MISSED and raises CMD_MISSED; nothing else happens (R53). -/
def Sys2Proof.Spec.FrozenSlotMissed : Prop :=
  ∀ (s : State) (i : CmdSlotIx), slotArmed s.m i = true → (∀ j, j < 8 → j ≠ i → slotArmed s.m j = false) →
    s.m.frozen = true → s.m.slotTick i < 4000 * (s.m.frame + 1) → s.m.hall.lat ≤ latOf (s.m.slotTick i) →
    Does (.slotMissedFrozen i) s
      (((atTick s.m (s.m.slotTick i)).put F.BLF_CMD_CTRL_STAT 5 0 i).put F.BLF_EVENT_CMD_MISSED 1)

/-- Command slots arm, are cancelled, and are missed in a freeze: Spec.SlotArms, Spec.SlotCancels, Spec.FrozenSlotMissed. Where the
spec leaves a point open it takes the model's convention of log entries 1, 30 and 81. -/
def Obligations.SlotsArmAndLapse : Prop := Sys2Proof.Spec.SlotArms ∧ Sys2Proof.Spec.SlotCancels ∧ Sys2Proof.Spec.FrozenSlotMissed

namespace Sys2Proof.Spec

/-- The module as the loader checks the image of slot i: G is one up and the slot is LOADING (R69, R70). -/
abbrev loadStart (m : Lanorun) (i : Nat) : Lanorun := (m.setPlan fun p => { p with gen := nextGen p.gen }).slotLoads i

end Sys2Proof.Spec

/-- The loader's commands on a slot, at boot stage READY: LOAD of an EMPTY, READY or FAILED slot outside a freeze whose image passes
checks 1 to 10 puts the slot into LOADING with its image bound, its PLAN_ID shown and G one up; one that fails a check leaves the slot
FAILED with the check's code. LOAD is held during a freeze, turned away in LOADING and ACTIVE, and is FAILED with 0x080E while another
load runs, or with 0x100C while Keep records are unacknowledged. UNLOAD empties a READY or FAILED slot; ABORT marks the load; and once
its domains are ready a load whose sections pass ends READY under the handle of G and its slot with LOAD_DONE, or one that was aborted
ends EMPTY (R69, R70, R84, R270, R491, R533). Where the spec leaves a point open it takes the model's convention of log entries 44, 45
and 90. -/
def Obligations.LoaderCommands : Prop :=
  (∀ (s : State) (i : SlotIx), s.m.get F.KEP_STATUS_STAGE = 3 → s.m.frozen = true →
    Does (.planLoad i) s (s.m.setPlan fun p => { p with held := p.held ++ [i.val] })) ∧
  (∀ (s : State) (i : SlotIx), s.m.get F.KEP_STATUS_STAGE = 3 → s.m.frozen = false →
    (s.m.slotState i = slotLoading ∨ s.m.slotState i = slotActive) → Does (.planLoad i) s s.m) ∧
  (∀ (s : State) (i : SlotIx), s.m.get F.KEP_STATUS_STAGE = 3 → s.m.frozen = false → s.m.slotState i = slotEmpty →
    s.m.loadNow.isSome = true → s.m.mover.ten < 16 → Gives (.planLoad i) s fun m => m.slotState i = slotFailed ∧
      m.get F.PLN_SLOT_STAT_CODE 0 i = 0x080E ∧ m.flag F.PLN_EVENT_LOAD_FAIL = true ∧ m.plan.load = s.m.plan.load) ∧
  (∀ (s : State) (i : SlotIx), s.m.get F.KEP_STATUS_STAGE = 3 → s.m.frozen = false → s.m.slotState i = slotEmpty →
    s.m.loadNow = none → s.m.vaults = [] → s.m.flag F.KEP_STATUS_UNACKED = true →
    s.m.mover.ten < 16 → Gives (.planLoad i) s fun m => m.slotState i = slotFailed ∧ m.get F.PLN_SLOT_STAT_CODE 0 i = 0x100C ∧
      m.plan.gen = nextGen s.m.plan.gen ∧ m.plan.load = none) ∧
  (∀ (s : State) (i : SlotIx), (s.m.slotState i = slotReady ∨ s.m.slotState i = slotFailed) → s.m.mover.ten < 16 →
    Gives (.unload i) s fun m =>
    m.slotState i = slotEmpty ∧ m.get F.PLN_SLOT_STAT_HANDLE 0 i = 0 ∧ m.reg R.PLN_SLOT_ID 0 i = 0 ∧
    ∀ j : SlotIx, j ≠ i → m.slotState j = s.m.slotState j) ∧
  (∀ (s : State) (i : SlotIx), s.m.slotState i ∉ [slotReady, slotFailed] → Does (.unload i) s s.m) ∧
  (∀ (s : State) (i : SlotIx) (l : Load), s.m.loadNow = some l → l.slot = i.val → Does (.abort i) s
    (s.m.setPlan fun p => { p with load := some { l with abort := true } })) ∧
  (∀ (s : State) (l : Load), s.m.loadNow = some l → s.m.domainsReady (s.m.image l.slot) = false →
    Does .loadDomainsReady s s.m) ∧
  (∀ (s : State) (l : Load), s.m.loadNow = some l → s.m.domainsReady (s.m.image l.slot) = true → l.abort = true →
    Does .loadDomainsReady s ((s.m.setPlan fun p => { p with load := none }).slotClear l.slot)) ∧
  (∀ (s : State) (l : Load), s.m.loadNow = some l → l.slot < 4 → s.m.domainsReady (s.m.image l.slot) = true →
    l.abort = false → s.m.activeCells = (s.m.image l.slot).act →
    (∀ a, s.m.activeImage = some a → (s.m.image l.slot).overlaps a = none) →
    (Lanorun.sections (s.m.image l.slot) (s.m.image l.slot).secs.zipIdx {} s.m).1 = .ok () →
    s.m.plan.gen < 2 ^ 24 → Gives .loadDomainsReady s fun m => m.slotState l.slot = slotReady ∧
      m.get F.PLN_SLOT_STAT_HANDLE 0 l.slot = s.m.plan.gen * 256 + l.slot + 1 ∧ m.plan.load = none ∧
      m.flag F.PLN_EVENT_LOAD_DONE = true ∧ m.vaults = s.m.vaults ∧
      m.cells = (Lanorun.sections (s.m.image l.slot) (s.m.image l.slot).secs.zipIdx {} s.m).2.cells) ∧
  (∀ (s : State) (i : SlotIx), s.m.get F.KEP_STATUS_STAGE = 3 → s.m.frozen = false → s.m.slotState i ≠ slotLoading →
    s.m.slotState i ≠ slotActive → s.m.loadNow = none → s.m.mover.ten < 16 → s.m.flag F.KEP_STATUS_UNACKED = false →
    s.m.flag F.KEP_STATUS_TRIAL = false → match (loadStart s.m i).checkImage i with
      | .ok im => Gives (.planLoad i) s fun m =>
        m.loadNow = some { slot := i.val } ∧ m.slotState i = slotLoading ∧ m.image i = im ∧
        m.plan.gen = nextGen s.m.plan.gen ∧ m.get F.PLN_SLOT_ID_PLAN_ID 0 i = fieldAt (s.m.slotBytes i 0 256) 0x18 8
      | .error r => Gives (.planLoad i) s fun m =>
        m.slotState i = slotFailed ∧ m.get F.PLN_SLOT_STAT_CODE 0 i = r.code % 2 ^ 16 ∧
        m.flag F.PLN_EVENT_LOAD_FAIL = true ∧ m.plan.load = none ∧ m.plan.gen = nextGen s.m.plan.gen)

/-! ## Freeze and resume (R530 to R536) -/

/-- A freeze is armed where none is: by the pin for the second Bell after the edge's frame; by FREEZE_NOW, and by JTAG where it is not
locked, for the first multiple of 16 ticks at least 32 ticks ahead, or, on a module that forwards freezes, by driving the pin between
ticks 500 and 3,400 of a frame, for the second Bell after that frame. The first source to arm wins; a locked JTAG only loads its
instruction (R530, R540). -/
def Sys2Proof.Spec.FreezeArms : Prop :=
  (∀ (s : State) (o : Fin 4000), s.m.frz.tz = none → Does (.freezeNFall o) s
    (((s.m.put F.MOD_PINS_FREEZE_FALL 1).put F.MOD_PINS_FREEZE 1).setFrz fun f =>
      { f with tz := some (4000 * (s.m.frame + 2)), src := 1 })) ∧
  (∀ (s : State) (o : Fin 4000) (tz : Nat), s.m.frz.tz = some tz →
    Does (.freezeNFall o) s ((s.m.put F.MOD_PINS_FREEZE_FALL 1).put F.MOD_PINS_FREEZE 1) ∧ Does (.freezeNow o) s s.m) ∧
  (∀ (s : State) (o : Fin 4000), s.m.frz.tz = none → s.m.flag F.MOD_PINS_FORWARD = false → ∃ tz,
    4000 * s.m.frame + o.val + 32 ≤ tz ∧ tz < 4000 * s.m.frame + o.val + 48 ∧ tz % 16 = 0 ∧
    Does (.freezeNow o) s (s.m.setFrz fun f => { f with tz := some tz, src := 3 })) ∧
  (∀ (s : State) (o : Fin 4000), s.m.frz.tz = none → s.m.flag F.MOD_PINS_FORWARD = true → o.val ≤ 3400 →
    Does (.freezeNow o) s (((s.m.put F.MOD_PINS_FREEZE_FALL 1).put F.MOD_PINS_FREEZE 1).setFrz fun f =>
      { f with tz := some (4000 * (s.m.frame + 2)), src := 3, drives := true })) ∧
  (∀ (s : State) (o : Fin 4000), s.m.frz.tz = none → s.m.flag F.MOD_PINS_FORWARD = true → 3400 < o.val →
    Does (.freezeNow o) s (((s.m.put F.MOD_PINS_FREEZE_FALL 1).put F.MOD_PINS_FREEZE 1).setFrz fun f =>
      { f with tz := some (4000 * (s.m.frame + 3)), src := 3, drives := true })) ∧
  (∀ (s : State) (o : Fin 4000), s.m.frz.tz = none → s.m.flag F.MOD_PINS_FORWARD = false →
    s.m.flag F.DBG_CTRL_JTAG_LOCK = false → Gives (.jtagFreezeNow o) s fun m => m.frz.src = 4 ∧
      (∃ tz, m.frz.tz = some tz ∧ 4000 * s.m.frame + o.val + 32 ≤ tz ∧ tz < 4000 * s.m.frame + o.val + 48 ∧ tz % 16 = 0) ∧
      m.jtag = { s.m.jtag with ir := 0x21, drive := [] } ∧ m.regs = s.m.regs) ∧
  (∀ (s : State) (o : Fin 4000), s.m.flag F.DBG_CTRL_JTAG_LOCK = true → Gives (.jtagFreezeNow o) s fun m =>
    m = { s.m with jtag := { s.m.jtag with ir := 0x21, drive := [] } })

/-- At TZ, with no slot armed, the module is frozen: FROZEN, the source, FREEZE_AT and the FREEZE event are set, the domains that are ON
are remembered, and cells, vaults, engines and the plan stay (R532). -/
def Sys2Proof.Spec.FreezeTakesEffect : Prop :=
  (∀ (s : State) (tz : Nat), s.m.frz.tz = some tz → s.m.frozen = false → tz / 4000 = s.m.frame → tz < 2 ^ 64 →
    (∀ j, j < 8 → slotArmed s.m j = false) → Gives .freezeTakeEffect s fun m =>
      m.flag F.DBG_STATUS_FROZEN = true ∧ m.get F.DBG_STATUS_FREEZE_SRC = s.m.frz.src % 16 ∧
      m.get F.DBG_FREEZE_AT_TICK = tz ∧ m.flag F.DBG_EVENT_FREEZE = true ∧ m.frozen = true ∧
      m.frz.domains = s.m.domainMask ∧ m.hall.lat = max s.m.hall.lat (latOf tz) ∧
      m.cells = s.m.cells ∧ m.vaults = s.m.vaults ∧ m.engines = s.m.engines ∧ m.plan = s.m.plan) ∧
  (∀ s : State, s.m.frz.tz = none → Does .freezeTakeEffect s s.m)

/-- CMD = RESUME: RESULT 5 where the module is not frozen, 3 for a TR less than two frames ahead of the counter, 4 for one off the frames
after TZ; else the resume is armed with its MODE and RESULT 1. CMD = cancel takes an armed resume back, and without one changes nothing
(R534). -/
def Sys2Proof.Spec.ResumeCommands : Prop :=
  (∀ (s : State) (f : Bool), s.m.flag F.DBG_STATUS_FROZEN = false → Does (.resume f) s (s.m.put F.DBG_FREEZE_RESULT 5)) ∧
  (∀ (s : State) (f : Bool), s.m.flag F.DBG_STATUS_FROZEN = true → ¬ Ahead s.m (s.m.get F.DBG_RESUME_AT_TICK) →
    Does (.resume f) s (s.m.put F.DBG_FREEZE_RESULT 3)) ∧
  (∀ (s : State) (f : Bool) (tz : Nat), s.m.flag F.DBG_STATUS_FROZEN = true → s.m.frz.tz = some tz →
    Ahead s.m (s.m.get F.DBG_RESUME_AT_TICK) →
    (s.m.get F.DBG_RESUME_AT_TICK < tz + 8000 ∨ s.m.get F.DBG_RESUME_AT_TICK % 4000 ≠ tz % 4000) →
    Does (.resume f) s (s.m.put F.DBG_FREEZE_RESULT 4)) ∧
  (∀ (s : State) (f : Bool) (tz : Nat), s.m.flag F.DBG_STATUS_FROZEN = true → s.m.frz.tz = some tz →
    Ahead s.m (s.m.get F.DBG_RESUME_AT_TICK) → tz + 8000 ≤ s.m.get F.DBG_RESUME_AT_TICK →
    s.m.get F.DBG_RESUME_AT_TICK % 4000 = tz % 4000 → Does (.resume f) s
      (((s.m.put F.DBG_FREEZE_RESULT 1).put F.DBG_STATUS_RESUME_ARMED 1).setFrz fun x => { x with faultMode := f })) ∧
  (∀ s : State, s.m.flag F.DBG_STATUS_RESUME_ARMED = true →
    Does .resumeCancel s ((s.m.put F.DBG_STATUS_RESUME_ARMED 0).put F.DBG_FREEZE_RESULT 0)) ∧
  (∀ s : State, s.m.flag F.DBG_STATUS_RESUME_ARMED = false → Does .resumeCancel s s.m)

/-- At TR the module resumes when the Belfry is LOCKED, no trip is recorded, no flush runs and every domain that was ON at TZ is ON: FROZEN
and the source clear, RESULT is 2, the frames between TZ and TR are inserted into the tenancies and the activation, and in the plain
mode without a TIME_FAULT nothing faults; with a Belfry that is not LOCKED RESULT is 6 and RESUME_FAIL, 0x1109, is raised with the module
still frozen (R535). -/
def Sys2Proof.Spec.ResumeHappens : Prop :=
  (∀ (s : State) (tz : Nat), s.m.flag F.DBG_STATUS_RESUME_ARMED = true → s.m.frz.tz = some tz →
    s.m.get F.DBG_RESUME_AT_TICK / 4000 = s.m.frame → (∀ j, j < 8 → slotArmed s.m j = false) → s.m.locked = true →
    s.m.flag F.PWR_EVENT_TRIP = false → s.m.frz.domains &&& s.m.domainMask = s.m.frz.domains → s.m.site.flush = 0 →
    s.m.frz.faultMode = false → s.m.frz.timeFault = false → s.m.plan.held = [] → s.m.mover.held = none →
    (∀ c ∈ s.m.cells, c.2.sendq = []) → Gives .resumeAtTr s fun m =>
      m.frozen = false ∧ m.get F.DBG_STATUS_FREEZE_SRC = 0 ∧ m.get F.DBG_FREEZE_RESULT = 2 ∧
      m.flag F.DBG_STATUS_RESUME_ARMED = false ∧ m.frz = {} ∧ m.cells = s.m.cells ∧ m.vaults = s.m.vaults ∧
      (∀ t, t < 16 → m.ten t = (s.m.ten t).shift ((s.m.get F.DBG_RESUME_AT_TICK - tz) / 4000)) ∧
      m.plan.act = s.m.plan.act.map fun a => { a with f := a.f + (s.m.get F.DBG_RESUME_AT_TICK - tz) / 4000 }) ∧
  (∀ s : State, s.m.flag F.DBG_STATUS_RESUME_ARMED = true → s.m.frozen = true → s.m.flag F.DBG_STATUS_FROZEN = true →
    s.m.get F.DBG_RESUME_AT_TICK / 4000 = s.m.frame →
    (∀ j, j < 8 → slotArmed s.m j = false) → s.m.locked = false → Gives .resumeAtTr s fun m =>
      m.frozen = true ∧ m.get F.DBG_FREEZE_RESULT = 6 ∧ m.get F.DBG_FAULT_LAST_CODE = 0x1109 ∧
      m.flag F.DBG_STATUS_RESUME_ARMED = false ∧ m.cells = s.m.cells ∧ m.plan = s.m.plan)

/-- Freeze and resume are armed, cancelled, and happen at TZ and TR: Spec.FreezeArms, Spec.FreezeTakesEffect, Spec.ResumeCommands,
Spec.ResumeHappens. Where the spec leaves a point open it takes the model's convention of log entries 30, 75 and 81. -/
def Obligations.FreezeAndResume : Prop := Sys2Proof.Spec.FreezeArms ∧ Sys2Proof.Spec.FreezeTakesEffect ∧ Sys2Proof.Spec.ResumeCommands ∧ Sys2Proof.Spec.ResumeHappens

/-- No command slot and no resume is due up to the next Bell, that Bell included. -/
abbrev Sys2Proof.Spec.NoneDue (m : Lanorun) : Prop :=
  (∀ j, j < 8 → slotArmed m j = true → 4000 * (m.frame + 1) < m.slotTick j) ∧
  (m.flag F.DBG_STATUS_RESUME_ARMED = true → 4000 * (m.frame + 1) < m.get F.DBG_RESUME_AT_TICK)

/-- The Bell of a module that is not frozen, with no command slot, freeze or resume due up to it: the counter comes to the next multiple
of 4,000 ticks, the frame number rises by one, and the new frame holds no counter step. Frozen, with no slot and no resume due, the Bell
moves the counter and the frame number in the same way, and the plan, the cells, the vaults and the engines stand (R35, R37, R532). -/
def Sys2Proof.Spec.BellOpensFrame : Prop :=
  (∀ (s : State) (late : Bool), s.m.frozen = false → (∀ tz, s.m.frz.tz = some tz → 4000 * (s.m.frame + 1) < tz) → NoneDue s.m →
    Gives (.bell late) s fun m =>
      m.hall.lat = (s.m.hall.lat / 6250 + 1) * 6250 ∧ m.frame = s.m.frame + 1 ∧ m.ticks = 4000 * (s.m.frame + 1) ∧
      m.hall.stepFrame = false) ∧
  (∀ (s : State) (late : Bool), s.m.frozen = true → NoneDue s.m → Gives (.bell late) s fun m =>
      m.hall.lat = (s.m.hall.lat / 6250 + 1) * 6250 ∧ m.frame = s.m.frame + 1 ∧ m.plan = s.m.plan ∧
      m.cells = s.m.cells ∧ m.vaults = s.m.vaults ∧ m.engines = s.m.engines)

/-! ## The cells: slot operations (R102 to R117, R122 to R135, R145 to R190, R209 to R213) -/

namespace Sys2Proof.Spec

/-- The operations in flight of a cell with more added, each as offset of its landing, destination resource and write, in landing order,
then slot order, then issue order (R104, R105). -/
def inFlight (m : Lanorun) (c slot : Nat) (fl : List (Nat × Nat × Write)) : List Flight :=
  let x := m.cell c
  fl.foldl (fun l f => insFlight { due := x.rc + f.1, slot := slot, res := f.2.1, step := m.cellStep c, frame := x.cframe,
                                   pc := x.pc, w := f.2.2 } l) x.flights

/-- An operation has issued in cell c: its landings are queued and the guard's records and the scheduled coffer reads may
change; nothing else does, in this cell or elsewhere. -/
def Issued (m m' : Lanorun) (c slot : Nat) (fl : List (Nat × Nat × Write)) : Prop :=
  ∃ y : Cell, m' = m.setCell c y ∧ y = { m.cell c with
    flights := inFlight m c slot fl, ready := y.ready, free := y.free, busy := y.busy, pend := y.pend, lastMma := y.lastMma,
    reads := y.reads }

/-- A branch has issued: as Issued, and two delay positions follow, after them the target where it is taken. -/
def Branched (m m' : Lanorun) (c : Nat) (fl : List (Nat × Nat × Write)) (target : Option Nat) : Prop :=
  ∃ y : Cell, m' = m.setCell c y ∧ y = { m.cell c with
    flights := inFlight m c 0 fl, ready := y.ready, free := y.free, busy := y.busy, pend := y.pend, lastMma := y.lastMma,
    delayLeft := 2, delay := target }

/-- A command of the scalar slot. -/
abbrev SCmd := CellIx → BitVec 32 → Option (BitVec 32) → Instr

/-- A command of a slot with a 64-bit body. -/
abbrev VCmd := CellIx → BitVec 64 → Instr

/-- rd of the operations on ra and rb, with their latency (R114, R115, R131). -/
def scalarRows : List (SCmd × Nat × (BitVec 64 → BitVec 64 → BitVec 64)) :=
  [(.add, 1, fun a b => a + b), (.sub, 1, fun a b => a - b), (.and, 1, fun a b => a &&& b), (.or, 1, fun a b => a ||| b),
   (.xor, 1, fun a b => a ^^^ b), (.sll, 1, fun a b => a <<< (b.toNat % 64)), (.srl, 1, fun a b => a >>> (b.toNat % 64)),
   (.sra, 1, fun a b => a.sshiftRight (b.toNat % 64)), (.min, 1, fun a b => if a.toInt ≤ b.toInt then a else b),
   (.max, 1, fun a b => if a.toInt ≤ b.toInt then b else a), (.minu, 1, fun a b => if a.toNat ≤ b.toNat then a else b),
   (.maxu, 1, fun a b => if a.toNat ≤ b.toNat then b else a), (.mul, 3, fun a b => a * b),
   (.mulhu, 3, fun a b => BitVec.ofNat 64 (a.toNat * b.toNat / 2 ^ 64)),
   (.fadd, 4, fun a b => (fadd (a.setWidth 32) (b.setWidth 32)).setWidth 64),
   (.fsub, 4, fun a b => (fsub (a.setWidth 32) (b.setWidth 32)).setWidth 64),
   (.fmul, 4, fun a b => (fmul (a.setWidth 32) (b.setWidth 32)).setWidth 64),
   (.fmin, 4, fun a b => (fminNum (a.setWidth 32) (b.setWidth 32)).setWidth 64),
   (.fmax, 4, fun a b => (fmaxNum (a.setWidth 32) (b.setWidth 32)).setWidth 64),
   (.fcvtfi, 4, fun a _ => (fofInt a.toInt).setWidth 64),
   (.fcvtif, 4, fun a _ => BitVec.ofInt 64 (ftoInt 64 (a.setWidth 32)))]

/-- rd of the operations on ra and the immediate (R114). -/
def immediateRows : List (SCmd × (BitVec 64 → BitVec 64 → BitVec 64)) :=
  [(.addi, fun a b => a + b), (.andi, fun a b => a &&& b), (.ori, fun a b => a ||| b), (.xori, fun a b => a ^^^ b),
   (.slli, fun a b => a <<< (b.toNat % 64)), (.srli, fun a b => a >>> (b.toNat % 64)),
   (.srai, fun a b => a.sshiftRight (b.toNat % 64))]

/-- pd of the compares with rb, and with the immediate (R114). -/
def compareRows : List (SCmd × (BitVec 64 → BitVec 64 → Bool)) :=
  [(.cmpEq, fun a b => decide (a = b)), (.cmpNe, fun a b => decide (a ≠ b)), (.cmpLt, fun a b => decide (a.toInt < b.toInt)),
   (.cmpGe, fun a b => decide (b.toInt ≤ a.toInt)), (.cmpLtu, fun a b => decide (a.toNat < b.toNat)),
   (.cmpGeu, fun a b => decide (b.toNat ≤ a.toNat))]
def compareImmRows : List (SCmd × (BitVec 64 → BitVec 64 → Bool)) :=
  [(.cmpeqi, fun a b => decide (a = b)), (.cmplti, fun a b => decide (a.toInt < b.toInt)),
   (.cmpgei, fun a b => decide (b.toInt ≤ a.toInt)), (.cmpltui, fun a b => decide (a.toNat < b.toNat))]

/-- pd of the predicate operations (R114). -/
def logicRows : List (SCmd × (Bool → Bool → Bool)) :=
  [(.plogAnd, fun a b => a && b), (.plogOr, fun a b => a || b), (.plogXor, fun a b => a != b), (.plogAndn, fun a b => a && !b)]

/-- The signed 12-bit immediate of a body, or the 32-bit extension, sign-extended (R113). -/
def immediate (body : BitVec 32) (ext : Option (BitVec 32)) : BitVec 64 :=
  match ext with
  | some e => e.signExtend 64
  | none => (body.extractLsb' 0 12).signExtend 64

end Sys2Proof.Spec

/-- A scalar operation whose predicate holds queues its result for rd after its latency, one on ra and rb and one on ra and the immediate,
and changes nothing else but guard records (R104, R112, R114, R115). -/
def Sys2Proof.Spec.ScalarResults : Prop :=
  (∀ row ∈ scalarRows, ∀ (s : State) (c : CellIx) (body : BitVec 32) (ext : Option (BitVec 32)), s.m.frozen = false →
    (s.m.cell c).pred (body.extractLsb' 22 4).toNat = true → Gives (row.1 c body ext) s fun m =>
      Issued s.m m c 0 [(row.2.1, resS (body.extractLsb' 17 5).toNat, .sreg (body.extractLsb' 17 5).toNat
        (row.2.2 ((s.m.cell c).s (body.extractLsb' 12 5).toNat) ((s.m.cell c).s (body.extractLsb' 7 5).toNat)))]) ∧
  (∀ row ∈ immediateRows, ∀ (s : State) (c : CellIx) (body : BitVec 32) (ext : Option (BitVec 32)), s.m.frozen = false →
    (s.m.cell c).pred (body.extractLsb' 22 4).toNat = true → Gives (row.1 c body ext) s fun m =>
      Issued s.m m c 0 [(1, resS (body.extractLsb' 17 5).toNat, .sreg (body.extractLsb' 17 5).toNat
        (row.2 ((s.m.cell c).s (body.extractLsb' 12 5).toNat) (immediate body ext)))])

/-- A compare or a predicate operation queues its truth value for pd after one rc (R114). -/
def Sys2Proof.Spec.PredicateResults : Prop :=
  (∀ row ∈ compareRows, ∀ (s : State) (c : CellIx) (body : BitVec 32) (ext : Option (BitVec 32)), s.m.frozen = false →
    (s.m.cell c).pred (body.extractLsb' 22 4).toNat = true → Gives (row.1 c body ext) s fun m =>
      Issued s.m m c 0 [(1, resP (body.extractLsb' 17 3).toNat, .preg (body.extractLsb' 17 3).toNat
        (row.2 ((s.m.cell c).s (body.extractLsb' 12 5).toNat) ((s.m.cell c).s (body.extractLsb' 7 5).toNat)))]) ∧
  (∀ row ∈ compareImmRows, ∀ (s : State) (c : CellIx) (body : BitVec 32) (ext : Option (BitVec 32)), s.m.frozen = false →
    (s.m.cell c).pred (body.extractLsb' 22 4).toNat = true → Gives (row.1 c body ext) s fun m =>
      Issued s.m m c 0 [(1, resP (body.extractLsb' 17 3).toNat, .preg (body.extractLsb' 17 3).toNat
        (row.2 ((s.m.cell c).s (body.extractLsb' 12 5).toNat) (immediate body ext)))]) ∧
  (∀ row ∈ logicRows, ∀ (s : State) (c : CellIx) (body : BitVec 32) (ext : Option (BitVec 32)), s.m.frozen = false →
    (s.m.cell c).pred (body.extractLsb' 22 4).toNat = true → Gives (row.1 c body ext) s fun m =>
      Issued s.m m c 0 [(1, resP (body.extractLsb' 17 3).toNat, .preg (body.extractLsb' 17 3).toNat
        (row.2 ((s.m.cell c).p (body.extractLsb' 12 3).toNat) ((s.m.cell c).p (body.extractLsb' 7 3).toNat)))])

/-- MFS whose predicate holds queues for rd, after 1 rc, the special register that its immediate names: the cell's number, its number
among the active plan's cells, its number in its tenancy, the tenancy's cells, the tenancy, the step, the cell's frame in the step, its
frame position, its region's budget, its rc in the step and the 16 tallies; zero for a code that names none. A cell outside the plan
reads a free value for the codes 2 to 6 (R116; log entry 16). -/
def Sys2Proof.Spec.SpecialRegistersRead : Prop :=
  ∀ (s : State) (c : CellIx) (body : BitVec 32) (ext : Option (BitVec 32)), s.m.frozen = false →
    (s.m.cell c).pred (body.extractLsb' 22 4).toNat = true →
    ∃ v, (Gives (.mfs c body ext) s fun m =>
        Issued s.m m c 0 [(1, resS (body.extractLsb' 17 5).toNat, .sreg (body.extractLsb' 17 5).toNat v)]) ∧
      let code := (body.extractLsb' 0 12).toNat
      let x := s.m.cell c
      (code = 1 → v = BitVec.ofNat 64 c.val) ∧
      (code = 2 → c.val ∈ s.m.planCells → v = BitVec.ofNat 64 (indexOf s.m.planCells c)) ∧
      (∀ t im, s.m.tenOfCell c = some t → s.m.activeImage = some im →
        (code = 3 → v = BitVec.ofNat 64 (indexOf (im.cellsOf t) c)) ∧ (code = 4 → v = BitVec.ofNat 64 (im.cellsOf t).length) ∧
        (code = 5 → v = BitVec.ofNat 64 t) ∧ (code = 6 → v = BitVec.ofNat 64 (s.m.cellStep c))) ∧
      (code = 2 → c.val ∉ s.m.planCells → v = Config.mfsNoTenancy 2) ∧
      (3 ≤ code ∧ code ≤ 6 → s.m.tenOfCell c = none → v = Config.mfsNoTenancy code) ∧
      (code = 7 → v = BitVec.ofNat 64 x.cframe) ∧
      (code = 8 → v = BitVec.ofNat 64 x.pos) ∧ (code = 9 → v = BitVec.ofNat 64 (s.m.budget (c.val / 85))) ∧
      (code = 10 → v = BitVec.ofNat 64 x.rc) ∧
      (∀ t, t < 16 → code = 0x10 + t → v = (sget 0#16 x.tallies t).setWidth 64) ∧
      (code = 0 ∨ 10 < code ∧ code < 16 ∨ 32 ≤ code → v = 0#64)

/-- Scalar operations queue results, compares truth values, MFS special registers: Spec.ScalarResults, Spec.PredicateResults,
Spec.SpecialRegistersRead. Fields that an operation does not use are ignored (log entry 11). -/
def Obligations.ScalarAndPredicateResults : Prop := Sys2Proof.Spec.ScalarResults ∧ Sys2Proof.Spec.PredicateResults ∧ Sys2Proof.Spec.SpecialRegistersRead

/-- The branches B, BAL, JR and JALR: two delay positions follow, after them the target pc + 4 OFFSET or ra where the predicate holds,
and no target where it does not; BAL and JALR queue the address after the delay positions for rd, and no write where the predicate is
false. JR and JALR to a target that is no multiple of 4 fault with FETCH_FAULT and with no other effect of theirs; the statement of
that is for a module with no active plan (R117). The target has 20 bits (log entry 93). -/
def Obligations.BranchesTaken : Prop :=
  (∀ (s : State) (c : CellIx) (body : BitVec 32) (ext : Option (BitVec 32)), s.m.frozen = false → (s.m.cell c).pc % 4 = 0 →
    (s.m.cell c).pred (body.extractLsb' 22 4).toNat = true →
    let x := s.m.cell c
    let rd := (body.extractLsb' 17 5).toNat
    let link := BitVec.ofNat 64 (x.afterDelay ((x.pc + x.lenAtPc) % 0x100000))
    (Gives (.b c body ext) s fun m =>
      Branched s.m m c [] (some ((((x.pc : Int) + 4 * (body.extractLsb' 0 22).toInt) % 0x100000).toNat))) ∧
    (Gives (.bal c body ext) s fun m => Branched s.m m c [(1, resS rd, .sreg rd link)]
      (some ((((x.pc : Int) + 4 * (body.extractLsb' 0 17).toInt) % 0x100000).toNat))) ∧
    ((x.s (body.extractLsb' 12 5).toNat).toNat % 4 = 0 →
      (Gives (.jr c body ext) s fun m =>
        Branched s.m m c [] (some ((x.s (body.extractLsb' 12 5).toNat).toNat % 0x100000))) ∧
      (Gives (.jalr c body ext) s fun m => Branched s.m m c [(1, resS rd, .sreg rd link)]
        (some ((x.s (body.extractLsb' 12 5).toNat).toNat % 0x100000))))) ∧
  (∀ (s : State) (c : CellIx) (body : BitVec 32) (ext : Option (BitVec 32)), s.m.frozen = false →
    (s.m.cell c).pred (body.extractLsb' 22 4).toNat = false →
    (∀ cmd ∈ [Instr.b c body ext, .jr c body ext], Gives cmd s fun m => Branched s.m m c [] none) ∧
    (∀ cmd ∈ [Instr.bal c body ext, .jalr c body ext], Gives cmd s fun m =>
      Branched s.m m c [(1, resS (body.extractLsb' 17 5).toNat, .none)] none)) ∧
  (∀ (s : State) (c : CellIx) (body : BitVec 32) (ext : Option (BitVec 32)), s.m.frozen = false → s.m.activeImage = none →
    (s.m.cell c).pred (body.extractLsb' 22 4).toNat = true →
    ((s.m.cell c).s (body.extractLsb' 12 5).toNat).toNat % 4 ≠ 0 →
    ∀ cmd ∈ [Instr.jr c body ext, .jalr c body ext], Gives cmd s fun m =>
      m.get F.CEL_FAULT_CODE c = 0x0403 ∧ m.cell c = { s.m.cell c with st := 3, why := 0 } ∧
      m.flag F.CEL_EVENT_FAULT c = true ∧ m.get F.CEL_FAULT_PC c = (s.m.cell c).pc % 2 ^ 20)

namespace Sys2Proof.Spec

/-- All ones where a truth value holds, else zero. -/
def ones (b : Bool) : BitVec 32 := if b then 0xFFFFFFFF#32 else 0#32

/-- One lane of the operations on va and operand B, with their latency and whether they read B (R131, R180, R189). -/
abbrev LaneRow := VCmd × Nat × Bool × (BitVec 32 → BitVec 32 → BitVec 32)
def integerLanes : List LaneRow :=
  [(.viadd, 2, true, fun a b => a + b), (.visub, 2, true, fun a b => a - b), (.vand, 2, true, fun a b => a &&& b),
   (.vor, 2, true, fun a b => a ||| b), (.vxor, 2, true, fun a b => a ^^^ b),
   (.vimin, 2, true, fun a b => if a.toInt ≤ b.toInt then a else b),
   (.vimax, 2, true, fun a b => if a.toInt ≤ b.toInt then b else a),
   (.vsll, 2, true, fun a b => a <<< (b.toNat % 32)), (.vsrl, 2, true, fun a b => a >>> (b.toNat % 32)),
   (.vsra, 2, true, fun a b => a.sshiftRight (b.toNat % 32)), (.vimul, 2, true, fun a b => a * b),
   (.vmov, 2, true, fun _ b => b), (.vicmpEq, 2, true, fun a b => ones (decide (a = b))),
   (.vicmpNe, 2, true, fun a b => ones (decide (a ≠ b))), (.vicmpLt, 2, true, fun a b => ones (decide (a.toInt < b.toInt))),
   (.vicmpLtu, 2, true, fun a b => ones (decide (a.toNat < b.toNat)))]
def floatLanes : List LaneRow :=
  [(.vfcmpEq, 4, true, fun a b => ones (feq a b)),
   (.vfcmpLt, 4, true, fun a b => ones (flt a b)), (.vfcmpLe, 4, true, fun a b => ones (fle a b)),
   (.vfcmpUn, 4, true, fun a b => ones (funord a b)), (.vfadd, 4, true, fadd), (.vfsub, 4, true, fsub), (.vfmul, 4, true, fmul),
   (.vfmin, 4, true, fminNum), (.vfmax, 4, true, fmaxNum), (.vfabs, 4, false, fun a _ => a &&& 0x7FFFFFFF#32),
   (.vfneg, 4, false, fun a _ => a ^^^ 0x80000000#32), (.vcvtfi, 4, false, fun a _ => fofInt a.toInt),
   (.vcvtif, 4, false, fun a _ => BitVec.ofInt 32 (ftoInt 32 a))]
def functionLanes : List LaneRow :=
  [(.vexp, 8, false, fun a _ => fexp a),
   (.vexp2, 8, false, fun a _ => fexp2 a), (.vlog, 8, false, fun a _ => flog a), (.vlog2, 8, false, fun a _ => flog2 a),
   (.vrcp, 8, false, fun a _ => rcp a), (.vrsqrt, 8, false, fun a _ => rsqrt a)]

/-- 64 lanes, each from its number. -/
def lanes (f : Nat → BitVec 32) : List (BitVec 32) := (List.range 64).map f

/-- Lane l of a list of lanes. -/
def ln (xs : List (BitVec 32)) (l : Nat) : BitVec 32 := listGet 0#32 xs l

/-- A row state that an operation met is recorded in cell c: 0 EMPTY, 1 NaN, 2 INF, its event bit and its count of rows (R187, R208). -/
def marked (c : Nat) (met : Option Nat) (m : Lanorun) : Lanorun :=
  match met with
  | none => m
  | some k => (m.event (if k = 0 then F.CEL_VEC_EVENT_EMPTY else if k = 1 then F.CEL_VEC_EVENT_ROW_NAN else F.CEL_VEC_EVENT_ROW_INF) c).countEvt
      R.CEL_ROW_CNT 1 c k

/-- The latency of an operation, and 2 rc more where operand B is a coffer line (R131, R178). -/
def withLine (readsB : Bool) (body : BitVec 64) (n : Nat) : Nat :=
  n + (if readsB && decide ((body.extractLsb' 32 2).toNat = 2) then 2 else 0)

end Sys2Proof.Spec

/-- A lane operation of the vector slot whose predicate holds queues, for vd, each lane's result of va and operand B, and changes
nothing else but guard records and scheduled reads (R176, R178, R180, R189). -/
def Sys2Proof.Spec.VectorLanes : Prop :=
  ∀ row ∈ integerLanes ++ floatLanes ++ functionLanes, ∀ (s : State) (c : CellIx) (body : BitVec 64), s.m.frozen = false →
    (s.m.cell c).pred (body.extractLsb' 54 4).toNat = true → Gives (row.1 c body) s fun m =>
      Issued s.m m c 1 [(withLine row.2.2.1 body row.2.1, resV (body.extractLsb' 49 5).toNat,
        .vreg (body.extractLsb' 49 5).toNat (lanes fun l => row.2.2.2 (ln ((s.m.cell c).v (body.extractLsb' 44 5).toNat) l)
          (ln ((s.m.cell c).operandB body.toNat) l)))]

/-- Selects (VSEL, VMOVM, VMOVMI), fused multiply-adds (VFMA, VFNMA), VUNPK, VMXSC, VPERM, VROT, VBCL, the immediate shifts (VSLLI, VSRLI,
VSRAI), VRNG, VSCL2 and VCLAMPI, each with its predicate holding: the lanes that it queues for vd and their latency; nothing else changes
but guard records and scheduled coffer reads (R180, R183, R184). -/
def Sys2Proof.Spec.VectorMoves : Prop :=
  ∀ (s : State) (c : CellIx) (body : BitVec 64), s.m.frozen = false →
    (s.m.cell c).pred (body.extractLsb' 54 4).toNat = true →
    let x := s.m.cell c
    let vd := (body.extractLsb' 49 5).toNat
    let a := x.v (body.extractLsb' 44 5).toNat
    let ob := x.operandB body.toNat
    let vc := (body.extractLsb' 34 5).toNat
    let imm := (body.extractLsb' 0 32).toNat
    let fn := (body.extractLsb' 16 8).toNat
    let row := (body.extractLsb' 12 4).toNat
    let Queued (cmd : VCmd) (lat : Nat) (ls : List (BitVec 32)) : Prop :=
      Gives (cmd c body) s fun m => Issued s.m m c 1 [(lat, resV vd, .vreg vd ls)]
    Queued .vsel (withLine true body 2) (lanes fun l => if ln (x.v vc) l ≠ 0#32 then ln a l else ln ob l) ∧
    Queued .vmovm (withLine true body 2) (lanes fun l => if (x.s vc).getLsbD l then ln ob l else ln (x.v vd) l) ∧
    Queued .vmovmi 2 (lanes fun l => if imm % 64 ≤ l ∧ l < imm % 64 + imm / 64 % 128 then ln a l else ln (x.v vd) l) ∧
    Queued .vfma (withLine true body 4) (lanes fun l => ffma (ln a l) (ln ob l) (ln (x.v vc) l)) ∧
    Queued .vfnma (withLine true body 4) (lanes fun l => ffnma (ln a l) (ln ob l) (ln (x.v vc) l)) ∧
    Queued .vunpk (withLine true body 4) (vunpk (fn % 16) (row % 8) a ob) ∧
    Queued .vmxsc 6 (lanes fun l => BitVec.ofNat 32 (blockScale (fn % 16) (if l < 32 then a.take 32 else a.drop 32))) ∧
    Queued .vperm (withLine true body 3) (lanes fun l => ln a ((ln ob l).toNat % 64)) ∧
    Queued .vrot (withLine true body 3) (lanes fun l => ln a ((l + (ln ob 0).toNat) % 64)) ∧
    Queued .vbcl (withLine true body 3) (lanes fun _ => ln a ((ln ob 0).toNat % 64)) ∧
    Queued .vslli 2 (lanes fun l => ln a l <<< (imm % 32)) ∧ Queued .vsrli 2 (lanes fun l => ln a l >>> (imm % 32)) ∧
    Queued .vsrai 2 (lanes fun l => (ln a l).sshiftRight (imm % 32)) ∧
    Queued .vrng 8 (lanes fun l =>
      s.m.cellTally c (((x.s (body.extractLsb' 39 5).toNat).toNat + (ln a l).toNat) % 2 ^ 64) (imm % 16)) ∧
    Queued .vscl2 4 (lanes fun l => ((decode32 (ln a l)).scale (body.extractLsb' 0 9).toInt).round) ∧
    Queued .vclampi 4 (lanes fun l => if isNan32 (ln a l) then nan32
      else fminNum (fmaxNum (ln a l) (bf16 (imm % 65536))) (bf16 (imm / 65536)))

/-- The reductions VRSUM, VRISUM, VRMAX, VRMIN and VRMSK, each with its predicate holding: with FN bit 7 the 64-bit result is queued for a
scalar register, else its low word for every lane of vd, after 6 rc; sums are the balanced tree over the 64 lanes, and VRMSK has bit l
set exactly where lane l is not zero (R181). -/
def Sys2Proof.Spec.VectorReductions : Prop :=
  ∀ (s : State) (c : CellIx) (body : BitVec 64), s.m.frozen = false →
    (s.m.cell c).pred (body.extractLsb' 54 4).toNat = true →
    let x := s.m.cell c
    let rd := (body.extractLsb' 49 5).toNat
    let a := x.v (body.extractLsb' 44 5).toNat
    let Reduces (cmd : VCmd) (v : BitVec 64) : Prop := Gives (cmd c body) s fun m => Issued s.m m c 1
      [if body.getLsbD 23 then (6, resS rd, .sreg rd v) else (6, resV rd, .vreg rd (List.replicate 64 (v.setWidth 32)))]
    Reduces .vrsum ((tree64 fadd a).setWidth 64) ∧ Reduces .vrisum ((tree64 (· + ·) a).setWidth 64) ∧
    Reduces .vrmax (canon64 ((a.foldl fmaximum (a.headD 0#32)).setWidth 64)) ∧
    Reduces .vrmin (canon64 ((a.foldl fminimum (a.headD 0#32)).setWidth 64)) ∧
    ∃ v : BitVec 64, (∀ l, l < 64 → v.getLsbD l = decide (ln a l ≠ 0#32)) ∧ Reduces .vrmsk v

/-- With its predicate false a scalar operation on registers or on an immediate (scalarRows, immediateRows), a vector lane operation
(integerLanes, floatLanes, functionLanes), LDV, STV, BINIT and TADD write nothing: the landing that each queues is no write, and nothing
else changes but guard records and scheduled coffer reads (R112). A base that would be misaligned and a tally that would overflow do not
matter then (log entry 11). -/
def Obligations.PredicatedOffWritesNothing : Prop :=
  (∀ row ∈ scalarRows, ∀ (s : State) (c : CellIx) (body : BitVec 32) (ext : Option (BitVec 32)), s.m.frozen = false →
    (s.m.cell c).pred (body.extractLsb' 22 4).toNat = false → Gives (row.1 c body ext) s fun m =>
      Issued s.m m c 0 [(row.2.1, resS (body.extractLsb' 17 5).toNat, .none)]) ∧
  (∀ row ∈ immediateRows, ∀ (s : State) (c : CellIx) (body : BitVec 32) (ext : Option (BitVec 32)), s.m.frozen = false →
    (s.m.cell c).pred (body.extractLsb' 22 4).toNat = false → Gives (row.1 c body ext) s fun m =>
      Issued s.m m c 0 [(1, resS (body.extractLsb' 17 5).toNat, .none)]) ∧
  (∀ row ∈ integerLanes ++ floatLanes ++ functionLanes, ∀ (s : State) (c : CellIx) (body : BitVec 64), s.m.frozen = false →
    (s.m.cell c).pred (body.extractLsb' 54 4).toNat = false → Gives (row.1 c body) s fun m =>
      Issued s.m m c 1 [(withLine row.2.2.1 body row.2.1, resV (body.extractLsb' 49 5).toNat, .none)]) ∧
  (∀ (s : State) (c : CellIx) (body : BitVec 64), s.m.frozen = false →
    (s.m.cell c).pred (body.extractLsb' 54 4).toNat = false →
    (Gives (.ldv c body) s fun m => Issued s.m m c 3 [(5, resV (body.extractLsb' 49 5).toNat, .none)]) ∧
    (Gives (.stv c body) s fun m => Issued s.m m c 4 [(3, resWrite, .none)]) ∧
    (Gives (.binit c body) s fun m => Issued s.m m c 2 [(7, resBank (body.extractLsb' 53 1).toNat, .none)])) ∧
  (∀ (s : State) (c : CellIx) (body : BitVec 32), s.m.frozen = false →
    (s.m.cell c).pred (body.extractLsb' 22 4).toNat = false →
    Gives (.tadd c body) s fun m => Issued s.m m c 5 [(1, resT (body.extractLsb' 18 4).toNat, .none)])

/-- Vector lane operations, moves and reductions: Spec.VectorLanes, Spec.VectorMoves, Spec.VectorReductions. The transcendental
functions are those of log entry 23. -/
def Obligations.VectorOperations : Prop := Sys2Proof.Spec.VectorLanes ∧ Sys2Proof.Spec.VectorMoves ∧ Sys2Proof.Spec.VectorReductions

/-- The row-state operations and VPACK, each with its predicate holding: the lanes that it queues for vd and their latency, and what
else it does. VSTAT and VPMRG do nothing else. VSMXP and VONRM record the state of row ROW of operand B, VLSE those of the 16 rows of
va, and VNRMF what its row counts as: NaN before EMPTY before INF, its event bit set and one row counted; VNRMF sets NORM_ZERO where its
result has F = ZERO. VPACK counts the elements that saturated, with QSAT, and sets NAN_DROP where a NaN was dropped (R183 to R187,
R190, R208; log entries 11 and 23). -/
def Obligations.VectorRowStates : Prop :=
  ∀ (s : State) (c : CellIx) (body : BitVec 64), s.m.frozen = false →
    (s.m.cell c).pred (body.extractLsb' 54 4).toNat = true →
    let x := s.m.cell c
    let vd := (body.extractLsb' 49 5).toNat
    let a := x.v (body.extractLsb' 44 5).toNat
    let ob := x.operandB body.toNat
    let fn := (body.extractLsb' 16 8).toNat
    let row := (body.extractLsb' 12 4).toNat
    let Queued (cmd : VCmd) (lat : Nat) (ls : List (BitVec 32)) (post : Lanorun → Lanorun) : Prop :=
      Gives (cmd c body) s fun m => ∃ m', Issued s.m m' c 1 [(lat, resV vd, .vreg vd ls)] ∧ m = post m'
    Queued .vstat (withLine true body 6) (setRow a row (foldRow (body.getLsbD 16) (body.getLsbD 17) (rowOf a row) ob (fn / 4 + 1))) id ∧
    Queued .vpmrg (withLine true body 8)
      (let w := mergeSoft (rowOf a row) (rowOf ob row)
       [w.1, w.2.1, BitVec.ofNat 32 (softFlags w.1), 0#32, w.2.2.1, w.2.2.2] ++ List.replicate 58 0#32) id ∧
    Queued .vsmxp (withLine true body 8) (lanes fun l => softProb (rowOf ob row) (ln a l)) (marked c (rowOf ob row).met) ∧
    Queued .vonrm (withLine true body 8) (lanes fun l =>
      if (rowOf ob row).isNan then nan32 else if (rowOf ob row).isEmpty then 0#32 else fmul (ln a l) (rcp (rowOf ob row).b))
      (marked c (rowOf ob row).met) ∧
    Queued .vlse 8 (lanes fun l => if l < 16 then rowLse (rowOf a l) else 0#32)
      (fun m => (List.range 16).foldl (fun m r => marked c (rowOf a r).met m) m) ∧
    (let w := normRow (rowOf a row) (ln ob 0) (body.getLsbD 16)
     Queued .vnrmf (withLine true body 8) (setRow a row w.1)
       (fun m => if w.1.f = 8 then (marked c w.2 m).event F.CEL_VEC_EVENT_NORM_ZERO c else marked c w.2 m)) ∧
    (let w := vpack (fn % 16) (fn / 16 % 4) (body.getLsbD 22) (row % 8) (x.v vd) a ob (x.v (body.extractLsb' 34 5).toNat)
     Queued .vpack (withLine true body 4) w.1 fun m =>
       let m := if w.2.1 = 0 then m else (m.event F.CEL_VEC_EVENT_QSAT c).countEvt R.CEL_ROW_CNT w.2.1 c 3
       if w.2.2 then m.event F.CEL_VEC_EVENT_NAN_DROP c else m)

/-- BINIT: a body decodes as BINIT exactly when it has OPC 0x05, zero in every field but PRED, BANK, EXACT, MQ, NQ and WREG, and WREG zero
where EXACT is 0. With its predicate holding it queues for its bank, after 7 rc, a cleared bank of its mode and shape, with the window
from WREG where EXACT is 1, and changes nothing else but guard records (R166). -/
def Obligations.BankInitialised : Prop :=
  (∀ body : BitVec 64, decodeM body.toNat = some .binit ↔
    body.extractLsb' 58 6 = 5#6 ∧ body.getLsbD 52 = false ∧ body.getLsbD 50 = false ∧ body.extractLsb' 43 7 = 0#7 ∧
    body.extractLsb' 9 30 = 0#30 ∧ body.extractLsb' 0 4 = 0#4 ∧ (body.getLsbD 51 = false → body.extractLsb' 4 5 = 0#5)) ∧
  (∀ (s : State) (c : CellIx) (body : BitVec 64), s.m.frozen = false →
    (s.m.cell c).pred (body.extractLsb' 54 4).toNat = true → Gives (.binit c body) s fun m =>
      Issued s.m m c 2 [(7, resBank (body.extractLsb' 53 1).toNat, .bank (body.extractLsb' 53 1).toNat
        { ledger := body.getLsbD 51, mq := (body.extractLsb' 41 2).toNat, nq := (body.extractLsb' 39 2).toNat,
          we := if body.getLsbD 51 then
            (((s.m.cell c).s (body.extractLsb' 4 5).toNat).setWidth 10).toInt else 0 })])

/-- MMA with its predicate holding, over panels and scales within the coffer, with ACC = 0 or on a bank of its own mode and shape. It
queues a bank of its mode and shape for K and occupancy later. In FP32 mode each element is the sum, group by group of 16, of the
products of row i of panel A and column j of panel B, from the old element or from zero. In exact mode, with the two fault enables 0,
each element takes the same products in turn in the window that the bank has or the operation opens, and the products that escape LOW
and HIGH are counted. Nothing else changes but guard records and scheduled coffer reads (R145 to R160, R204; log entry 11). -/
def Obligations.MatrixMultiplies : Prop :=
  ∀ (s : State) (c : CellIx) (body : BitVec 64), s.m.frozen = false →
    (s.m.cell c).pred (body.extractLsb' 54 4).toNat = true → (mmaOf body.toNat).inRange = true →
    let x := s.m.cell c
    let o := mmaOf body.toNat
    let old := x.bankNow o.bank
    (o.acc = true → old.ledger = o.exact ∧ old.mq = o.mq ∧ old.nq = o.nq) →
    let start (e : Nat) : Elem := if o.acc then old.get e else {}
    let terms (i j : Nat) : List Fp := List.zipWith Fp.mul (listGet [] (x.panelA o) i) (listGet [] (x.panelB o) j)
    (o.exact = false → Gives (.mma c body) s fun m =>
      ∃ v : Bank, Issued s.m m c 2 [(o.occ + 6, resBank o.bank, .bank o.bank v)] ∧
        v.ledger = false ∧ v.mq = o.mq ∧ v.nq = o.nq ∧ ∀ i j, i < o.rows → j < o.cols →
          (v.get (i * o.cols + j)).f = accGroups (o.k / 16) (start (i * o.cols + j)).f (terms i j)) ∧
    (o.exact = true → s.m.flag F.CEL_MTX_CTRL_FAULT_HIGH c = false → s.m.flag F.CEL_MTX_CTRL_FAULT_OVER c = false →
      Gives (.mma c body) s fun m => ∃ (v : Bank) (m' : Lanorun),
        let we := if o.acc then old.we else x.window o
        let run (e : Nat) := exactRun we (terms (e / o.cols) (e % o.cols)) (start e) (0, 0, 0)
        let total (f : Nat → Nat) := ((List.range (o.rows * o.cols)).map f).sum
        Issued s.m m' c 2 [(o.occ + 6, resBank o.bank, .bank o.bank v)] ∧
        m = m'.escapes c { low := total fun e => (run e).2.1, high := total fun e => (run e).2.2.1 } ∧
        v.ledger = true ∧ v.mq = o.mq ∧ v.nq = o.nq ∧ v.we = we ∧ ∀ e, e < o.rows * o.cols → v.get e = (run e).1)

/-- With no active plan and its predicate holding: an MMA whose lines pass the end of the coffer, a DRAINL or MLADD whose words pass the
end of its memory, is a range fault, 0x0501; an accumulating MMA on a bank of another mode or shape, and a DRAINL or MLADD of a bank
not in LEDGER mode, is a BANK_MODE fault, 0x0502; a DRAIN within its memory whose TCFG names no configuration is the fault 0x0602. The cell
stops, and nothing else of it changes (R150, R154, R167 to R169, R201). -/
def Sys2Proof.Spec.MatrixFaults : Prop :=
  ∀ (s : State) (c : CellIx) (body : BitVec 64), s.m.frozen = false → s.m.activeImage = none →
    (s.m.cell c).pred (body.extractLsb' 54 4).toNat = true →
    let x := s.m.cell c
    let o := mmaOf body.toNat
    let v := x.bankNow (body.extractLsb' 53 1).toNat
    let addr := (body.extractLsb' 24 20).toNat
    let limit := if body.getLsbD 44 then 65536 else 0x100000
    let start := (body.extractLsb' 45 8).toNat * 256
    let Faults (cmd : VCmd) (code : Nat) : Prop := Gives (cmd c body) s fun m =>
      m.get F.CEL_FAULT_CODE c = code ∧ m.flag F.CEL_EVENT_FAULT c = true ∧ m.cell c = { x with st := 3, why := 0 }
    (o.inRange = false → Faults .mma 0x0501) ∧
    (o.inRange = true → o.acc = true →
      ¬((x.bankNow o.bank).ledger = o.exact ∧ (x.bankNow o.bank).mq = o.mq ∧ (x.bankNow o.bank).nq = o.nq) → Faults .mma 0x0502) ∧
    (limit < addr + 16 * v.count → Faults .drainl 0x0501) ∧
    (addr + 16 * v.count ≤ limit → v.ledger = false → Faults .drainl 0x0502) ∧
    (65536 < start + 16 * v.count → Faults .mladd 0x0501) ∧
    (start + 16 * v.count ≤ 65536 → v.ledger = false → Faults .mladd 0x0502) ∧
    (x.tailCfg (body.extractLsb' 45 8).toNat = none → addr + 4 * v.count ≤ limit → Faults .drain 0x0602)

/-- DRAIN, DRAINL and MLADD with their predicate holding. DRAIN through any loaded configuration, within its memories and with FAULT_OVER 0:
each element passes the stages, group g lands 12 + g rc later, the state registers of STAT follow, and the escapes, saturations and
dropped NaNs are recorded. Through an empty configuration an FP32 bank's values land as they are, in element order. DRAINL queues the
wire words of a LEDGER bank, 16 a group, into the cell store. MLADD of a LEDGER bank, with FAULT_OVER 0, queues the bank with each
word added to its element, and counts the words of another window (R160 to R169, R191 to R201; log entry 27). -/
def Sys2Proof.Spec.MatrixDrains : Prop :=
  (∀ (s : State) (c : CellIx) (body : BitVec 64), s.m.frozen = false →
    (s.m.cell c).pred (body.extractLsb' 54 4).toNat = true →
    let x := s.m.cell c
    let v := (x.bankNow (body.extractLsb' 53 1).toNat).markOver
    let addr := (body.extractLsb' 24 20).toNat
    let rows := mRows v.mq
    let cols := nCols v.nq
    let gs := ceilDiv v.count 64
    ∀ t, x.tailCfg (body.extractLsb' 45 8).toNat = some t →
    addr + t.bytes v.count rows ≤ (if body.getLsbD 44 then 65536 else 0x100000) →
    (t.on 3 = true → t.residLine * 256 + t.residSize * v.count ≤ 65536) → s.m.flag F.CEL_MTX_CTRL_FAULT_OVER c = false →
    let ys := (List.range v.count).map fun e => s.m.tailElem c t cols e (drainValue v.ledger v.we (v.get e))
    let w := s.m.tailOut c t rows cols ys
    let overs := if v.ledger then (v.els.filter fun e => e.1 < v.count && e.2.isOver).length else 0
    let states := x.tailStat t rows cols ys
    let first := if t.on 5 ∧ 16 ≤ rows then resV t.vreg else if body.getLsbD 44 then resCofferWrite else resWrite
    Gives (.drain c body) s fun m =>
      ∃ y : Cell, m = ((s.m.setCell c y).escapes c { overs := overs, nanOut := ys.any isNan32 }).convEvents c w.2.1 w.2.2 ∧
        y.store = x.store ∧ y.coffer = x.coffer ∧ y.sregs = x.sregs ∧ y.vregs = x.vregs ∧
        y.flights = inFlight s.m c 2 (w.1.map (fun g => (12 + g.1, first,
            if body.getLsbD 44 then Write.coffer (addr + g.2.1) g.2.2 else Write.store (addr + g.2.1) g.2.2)) ++
          states.map fun q => (11 + gs, resV q.1, Write.vreg q.1 q.2))) ∧
  (∀ (s : State) (c : CellIx) (body : BitVec 64), s.m.frozen = false →
    (s.m.cell c).pred (body.extractLsb' 54 4).toNat = true →
    let x := s.m.cell c
    let v := x.bankNow (body.extractLsb' 53 1).toNat
    let addr := (body.extractLsb' 24 20).toNat
    v.ledger = false → body.getLsbD 44 = false → x.tailCfg (body.extractLsb' 45 8).toNat = some {} → addr + 4 * v.count ≤ 0x100000 →
    (∀ e, e < v.count → isNan32 (v.get e).f = false) → Gives (.drain c body) s fun m =>
      ∃ y : Cell, m = s.m.setCell c y ∧ y.store = x.store ∧ y.coffer = x.coffer ∧ y.sregs = x.sregs ∧ y.vregs = x.vregs ∧
        y.flights = inFlight s.m c 2 ((List.range (v.count / 64)).map fun g => (12 + g, resWrite, Write.store (addr + 256 * g)
          (((List.range 64).flatMap fun l => leBytes 4 (v.get (64 * g + l)).f.toNat))))) ∧
  (∀ (s : State) (c : CellIx) (body : BitVec 64), s.m.frozen = false →
    (s.m.cell c).pred (body.extractLsb' 54 4).toNat = true →
    let x := s.m.cell c
    let v := (x.bankNow (body.extractLsb' 53 1).toNat).markOver
    let addr := (body.extractLsb' 24 20).toNat
    v.ledger = true → body.getLsbD 44 = false → addr + 16 * v.count ≤ 0x100000 →
    (∀ e, e < v.count → (v.get e).isOver = false ∧ -(2 ^ 112) ≤ (v.get e).t ∧ (v.get e).t < 2 ^ 112) →
    Gives (.drainl c body) s fun m =>
      ∃ y : Cell, m = s.m.setCell c y ∧ y.store = x.store ∧ y.coffer = x.coffer ∧ y.sregs = x.sregs ∧ y.vregs = x.vregs ∧
        y.flights = inFlight s.m c 2 ((List.range (ceilDiv (4 * v.count) 64)).map fun g =>
          (12 + g, resWrite, Write.store (addr + 256 * g)
            (((List.range 16).flatMap fun l => leBytes 16 (drainWord v.we (v.get (16 * g + l))).1.bits))))) ∧
  (∀ (s : State) (c : CellIx) (body : BitVec 64), s.m.frozen = false →
    (s.m.cell c).pred (body.extractLsb' 54 4).toNat = true →
    let x := s.m.cell c
    let b := (body.extractLsb' 53 1).toNat
    let v := x.bankNow b
    let line := (body.extractLsb' 45 8).toNat
    let word (i : Nat) : WireWord := wireOf (leNat (x.cofferBytes (line * 256 + 16 * i) 16))
    v.ledger = true → line * 256 + 16 * v.count ≤ 65536 → s.m.flag F.CEL_MTX_CTRL_FAULT_OVER c = false → Gives (.mladd c body) s fun m =>
      ∃ (w : Bank) (m' : Lanorun), Issued s.m m' c 2 [(ceilDiv v.count 16 + 6, resBank b, .bank b w)] ∧
        m = m'.escapes c { mismatch := ((List.range v.count).filter fun e => decide ((word e).we ≠ v.we)).length } ∧
        w.ledger = true ∧ w.we = v.we ∧ w.mq = v.mq ∧ w.nq = v.nq ∧
        ∀ e, e < v.count → w.get e = ((v.get e).addWord v.we (word e)).1)

/-- DRAIN, DRAINL, MLADD and the matrix faults: Spec.MatrixFaults, Spec.MatrixDrains. -/
def Obligations.MatrixDrainsAndFaults : Prop := Sys2Proof.Spec.MatrixFaults ∧ Sys2Proof.Spec.MatrixDrains

/-- Loads and stores with their predicate holding: the address is ra plus OFF modulo 2^20; an aligned load queues the bytes that a read in the
present rc gives for 5 rc later, LDC a line more each rc after; an aligned store queues its bytes for 3 rc later; nothing else changes
but guard records and scheduled coffer reads. With no active plan, an address off the operation's alignment is MEM_ALIGN, 0x0701, and
an LDC past coffer line 255 the range fault 0x0501, with no other effect (R150, R209 to R213; log entry 11). -/
def Obligations.LoadsAndStores : Prop :=
  (∀ (s : State) (c : CellIx) (body : BitVec 64), s.m.frozen = false →
    (s.m.cell c).pred (body.extractLsb' 54 4).toNat = true →
    let x := s.m.cell c
    let a := ((x.s (body.extractLsb' 44 5).toNat).toNat + (body.extractLsb' 0 20).toNat) % 0x100000
    let r := (body.extractLsb' 49 5).toNat
    let line := (body.extractLsb' 36 8).toNat
    let nl := (body.extractLsb' 32 4).toNat
    (a % 64 = 0 → Gives (.ldv c body) s fun m => Issued s.m m c 3 [(5, resV r, .vreg r (lanesOf (x.loadBytes a 256)))]) ∧
    (a % 8 = 0 → Gives (.lds c body) s fun m =>
      Issued s.m m c 3 [(5, resS r, .sreg r (BitVec.ofNat 64 (leNat (x.loadBytes a 8))))]) ∧
    (a % 4 = 0 → Gives (.ldw c body) s fun m =>
      Issued s.m m c 3 [(5, resS r, .sreg r (BitVec.ofNat 64 (leNat (x.loadBytes a 4))))]) ∧
    (a % 256 = 0 → line + nl ≤ 255 → Gives (.ldc c body) s fun m => Issued s.m m c 3
      ((List.range (nl + 1)).map fun d => (5 + d, resCofferWrite, .coffer (256 * (line + d))
        (((x.loadBytes a (256 * (nl + 1))).drop (256 * d)).take 256)))) ∧
    (a % 64 = 0 → Gives (.stv c body) s fun m => Issued s.m m c 4 [(3, resWrite, .store a (laneBytes (x.v r)))]) ∧
    (a % 8 = 0 → Gives (.sts c body) s fun m => Issued s.m m c 4 [(3, resWrite, .store a (leBytes 8 (x.s r).toNat))]) ∧
    (a % 4 = 0 → Gives (.stw c body) s fun m => Issued s.m m c 4 [(3, resWrite, .store a (leBytes 4 (x.s r).toNat))]) ∧
    (a % 256 = 0 → Gives (.stc c body) s fun m =>
      Issued s.m m c 4 [(3, resWrite, .store a (x.cofferBytes (256 * line) 256))]) ∧
    (s.m.activeImage = none → ∀ k ∈ ([(.ldv, 64), (.lds, 8), (.ldw, 4), (.ldc, 256), (.stv, 64), (.sts, 8), (.stw, 4), (.stc, 256)] :
        List (VCmd × Nat)), a % k.2 ≠ 0 →
      Gives (k.1 c body) s fun m => m.get F.CEL_FAULT_CODE c = 0x0701 ∧ m.flag F.CEL_EVENT_FAULT c = true ∧
        m.cell c = { x with st := 3, why := 0 }) ∧
    (s.m.activeImage = none → a % 256 = 0 → 255 < line + nl → Gives (.ldc c body) s fun m =>
      m.get F.CEL_FAULT_CODE c = 0x0501 ∧ m.flag F.CEL_EVENT_FAULT c = true ∧ m.cell c = { x with st := 3, why := 0 }))

/-- The sync slot with its predicate holding. WAITPOS issues once the frame position is POS, TWAIT once the tally holds N, and then
subtracts N; before that each spends a wait rc, counted in CEL_WAIT_CNT. TADD and TTEST queue their results. SEND takes the
descriptor into the send queue, or, with no active plan, faults with its code. EFS of a cell of no tenancy, and of a cell of a plan
while another of its tenancy's cells in its region has this frame to finish, ends the cell's frame: its statistics are written, and it
waits at sync for the Bell; where that Bell has passed it goes on in the new frame, with LAST = 1 at ENTRY in a new step, and sets
SYNC_LATE. EFS with LAST = 1 goes back to cell frame 0, and with SENDs in the queue it spends a wait rc (R123 to R129, R141, R226, R228; log entries 11 and 19). -/
def Obligations.SyncOperations : Prop :=
  (∀ (s : State) (c : CellIx) (body : BitVec 32), s.m.frozen = false →
    (s.m.cell c).pred (body.extractLsb' 22 4).toNat = true →
    let x := s.m.cell c
    let p := if body.getLsbD 16 then (x.s (body.extractLsb' 0 5).toNat).toNat % 65536 else (body.extractLsb' 0 16).toNat
    let t := (body.extractLsb' 18 4).toNat
    let n := (body.extractLsb' 0 16).toNat
    let have_ := (sget 0#16 x.tallies t).toNat
    let desc := s.m.sendDesc c (n % 64)
    (p ≤ x.pos → Gives (.waitpos c body) s fun m => Issued s.m m c 5 []) ∧
    (x.pos < p → Does (.waitpos c body) s
      ((s.m.setCell c { x with why := 5, waitRc := x.waitRc + 1, stall := 0 }).countEvt R.CEL_WAIT_CNT 1 c)) ∧
    (n ≤ have_ → Gives (.twait c body) s fun m => ∃ m', Issued s.m m' c 5 [] ∧ m = m'.setCell c { m'.cell c with
      tallies := sset 0#16 x.tallies t (BitVec.ofNat 16 (have_ - n)) }) ∧
    (have_ < n → Does (.twait c body) s
      ((s.m.setCell c { x with why := 6, waitRc := x.waitRc + 1, stall := 0 }).countEvt R.CEL_WAIT_CNT 1 c)) ∧
    (Gives (.tadd c body) s fun m => Issued s.m m c 5 [(1, resT t, .tally t n)]) ∧
    (Gives (.ttest c body) s fun m => Issued s.m m c 5 [(1, resP (t % 8), .preg (t % 8)
      (decide (n % 4096 ≤ (sget 0#16 x.tallies (n / 4096)).toNat)))]) ∧
    (s.m.sendFault c desc = none → Gives (.send c body) s fun m =>
      ∃ m', Issued s.m m' c 5 [] ∧ m = m'.setCell c { m'.cell c with sendq := x.sendq ++
        [{ desc := desc, left := fieldAt desc 8 4, step := s.m.cellStep c, frame := x.cframe,
           ready := s.m.cellFc c + s.m.get F.RGN_XCAL_LAT_ACT (c.val / 85) }] }) ∧
    (∀ code, s.m.activeImage = none → s.m.sendFault c desc = some code → Gives (.send c body) s fun m =>
      m.get F.CEL_FAULT_CODE c = code ∧ m.flag F.CEL_EVENT_FAULT c = true ∧ m.cell c = { x with st := 3, why := 0 })) ∧
  (∀ (s : State) (c : CellIx) (body : BitVec 32), s.m.frozen = false → (∀ e ∈ s.m.cells, e.2.ueAt = (s.m.cell e.1).ueAt) →
    let x := s.m.cell c
    (s.m.tenOfCell c = none ∨ ∃ t im d, s.m.tenOfCell c = some t ∧ s.m.activeImage = some im ∧
      body.getLsbD 16 = (x.cframe + 1 == im.stepFrames t) ∧ d ∈ im.cellsOf t ∧ d / 85 = c.val / 85 ∧ d ≠ c.val ∧
      (s.m.cell d).done ≤ x.done ∧ (s.m.cell d).done < ((s.m.ten t).released + 1) * im.stepFrames t ∧
      ∀ l, im.lastStep t = some l → x.done + 1 < (l + 1 - (s.m.ten t).startStep) * im.stepFrames t) →
    (body.getLsbD 16 = true → x.sendq = []) →
    Gives (.efs c body) s fun m =>
      let y := m.cell c
      y.cframe = (if body.getLsbD 16 then 0 else x.cframe + 1) ∧ y.done = x.done + 1 ∧ y.syncRc = some x.frc ∧
      y.resume = min (body.extractLsb' 0 16).toNat (s.m.budget (c.val / 85) - 1) ∧ y.guardRc = 0 ∧ y.waitRc = 0 ∧
      y.store = x.store ∧ y.coffer = x.coffer ∧ (x.late && body.getLsbD 16 = false → y.sregs = x.sregs ∧ y.pc = x.pc) ∧
      (x.late && body.getLsbD 16 = true → y.sregs = [] ∧ y.pc = s.m.get F.CEL_PC_ENTRY c) ∧
      m.get F.CEL_FRAME_STAT_SYNC_POS c = min x.pos 0xFFFF ∧ m.get F.CEL_FRAME_STAT_GUARD_RC c = min x.guardRc 0xFFFF ∧
      m.get F.CEL_FRAME_STAT_WAIT_RC c = min x.waitRc 0xFFFF ∧
      (x.late = false → y.sync = true ∧ y.pos = x.pos ∧ y.lastSync = body.getLsbD 16) ∧
      (x.late = true → y.late = false ∧ y.sync = x.sync ∧ y.pos = x.pos - x.base ∧ y.base = 0 ∧
        m.flag F.CEL_EVENT_SYNC_LATE c = true)) ∧
  (∀ (s : State) (c : CellIx) (body : BitVec 32), s.m.frozen = false → (∀ e ∈ s.m.cells, e.2.ueAt = (s.m.cell e.1).ueAt) →
    s.m.tenOfCell c = none → body.getLsbD 16 = true → (s.m.cell c).sendq ≠ [] → Does (.efs c body) s
      (s.m.setCell c { s.m.cell c with why := 7, waitRc := (s.m.cell c).waitRc + 1, stall := 0 }))

/-! ## Cells: starting, rc by rc, and stopping (R90, R91, R103, R104, R109, R127, R137, R138, R141, R205) -/

namespace Sys2Proof.Spec

/-- No plan's image is active, and the record of uncorrectable errors is kept once for each cell. -/
abbrev Planless (m : Lanorun) : Prop := m.activeImage = none ∧ ∀ e ∈ m.cells, e.2.ueAt = (m.cell e.1).ueAt

/-- Cell c runs with nothing in flight and no wait, in the frame that its region is in, at an edge that no droop and no limit removes. -/
abbrev Quiet (m : Lanorun) (c : Nat) : Prop :=
  let x := m.cell c
  let g := m.rgn (c / 85)
  m.frozen = false ∧ g.retune = none ∧ g.droops = [] ∧ g.levels = [] ∧ x.st = 1 ∧ x.stopping = false ∧ x.sync = false ∧
  x.late = false ∧ x.base = 0 ∧ x.oneStep = false ∧ x.delayLeft = 0 ∧ x.flights = [] ∧ x.reads = [] ∧ x.poison = [] ∧
  x.pos < m.budget (c / 85)

/-- The landings of operations that issue together in cell c, in landing order, then slot order (R104, R105). -/
def issuedFlights (m : Lanorun) (c : Nat) (ps : List (Nat × OpPlan)) : List Flight :=
  let x := m.cell c
  (ps.flatMap fun p => p.2.flights.map fun f => (p.1, f)).foldl (fun l q =>
    insFlight { due := x.rc + q.2.1, slot := q.1, res := q.2.2.1, step := m.cellStep c, frame := x.cframe, pc := x.pc, w := q.2.2.2 } l) []

/-- The block of cell c belongs to no tenancy of the active image. -/
abbrev Unowned (m : Lanorun) (c : Nat) : Prop := ∀ im, m.activeImage = some im → im.tenOfBlock (c / 17) = none

end Sys2Proof.Spec

/-- CMD of a cell that answers and whose block no tenancy owns: START from IDLE or STOPPED, with no plan active, enters RUN at ENTRY with
registers, predicates, banks, tallies and guard records cleared and the memories kept; STOP stops a running cell; STEP lets a stopped
cell issue one bundle. A stopping cell with nothing in flight and nothing to send enters STOPPED with its event. CMD of a cell whose
block a tenancy owns does nothing (R24, R103, R137, R138, R141). -/
def Sys2Proof.Spec.CellCommands : Prop :=
  (∀ (s : State) (c : CellIx), s.m.cellAnswers c = true → Unowned s.m c → s.m.planActive = false →
    ((s.m.cell c).st = 0 ∨ (s.m.cell c).st = 2) → Gives (.cellStart c) s fun m =>
      let x := s.m.cell c
      let y := m.cell c
      y.st = 1 ∧ y.pc = s.m.get F.CEL_PC_ENTRY c ∧ y.sregs = [] ∧ y.preds = [] ∧ y.vregs = [] ∧ y.bank0 = {} ∧ y.bank1 = {} ∧
      y.tallies = [] ∧ y.ready = [] ∧ y.free = [] ∧ y.busy = [] ∧ y.pend = [] ∧ y.rc = 0 ∧ y.cframe = 0 ∧ y.flights = [] ∧
      y.store = x.store ∧ y.coffer = x.coffer ∧ y.tail = x.tail ∧ m.regs = s.m.regs ∧ ∀ d, d ≠ c.val → m.cell d = s.m.cell d) ∧
  (∀ (s : State) (c : CellIx), s.m.cellAnswers c = true → Unowned s.m c → (s.m.cell c).st = 1 →
    Does (.cellStop c) s (s.m.setCell c { s.m.cell c with stopping := true })) ∧
  (∀ (s : State) (c : CellIx), s.m.cellAnswers c = true → Unowned s.m c → (s.m.cell c).st = 2 →
    Does (.cellStep c) s (s.m.setCell c { s.m.cell c with st := 1, stopping := false, oneStep := true })) ∧
  (∀ (s : State) (c : CellIx), (s.m.cell c).stopping = true → (s.m.cell c).st = 1 → (s.m.cell c).flights = [] →
    (s.m.cell c).sendq = [] → Does (.cellStopped c) s
      ((s.m.setCell c { s.m.cell c with st := 2, why := 0, stopping := false }).put F.CEL_EVENT_STOPPED 1 c)) ∧
  (∀ (s : State) (c : CellIx) (im : Image) (t : Nat), s.m.activeImage = some im → im.tenOfBlock (c.val / 17) = some t →
    Does (.cellStart c) s s.m ∧ Does (.cellStop c) s s.m ∧ Does (.cellStep c) s s.m)

/-- A write of CEL_TALLY_ADD to a cell that answers adds N to the tally; above 0xFFFF the tally stays there and the cell takes TALLY_OVF,
0x0405, which is stated with no active plan. The window of a cell that does not answer ignores it (R24, R127). -/
def Sys2Proof.Spec.TallyAdds : Prop :=
  (∀ (s : State) (c : CellIx) (t : Fin 16) (n : BitVec 16), s.m.cellAnswers c = true → ((sget 0#16 (s.m.cell c).tallies t).toNat + n.toNat ≤ 0xFFFF) →
    Does (.tallyAddWrite c (BitVec.ofNat 64 (t.val * 65536 + n.toNat))) s (s.m.setCell c { s.m.cell c with
      tallies := sset 0#16 (s.m.cell c).tallies t (sget 0#16 (s.m.cell c).tallies t + n) })) ∧
  (∀ (s : State) (c : CellIx) (t : Fin 16) (n : BitVec 16), 0xFFFF < (sget 0#16 (s.m.cell c).tallies t).toNat + n.toNat →
    s.m.cellAnswers c = true → s.m.activeImage = none → Gives (.tallyAddWrite c (BitVec.ofNat 64 (t.val * 65536 + n.toNat))) s fun m =>
      sget 0#16 (m.cell c).tallies t = 0xFFFF#16 ∧ (m.cell c).st = 3 ∧ m.get F.CEL_FAULT_CODE c = 0x0405 ∧
      m.flag F.CEL_EVENT_FAULT c = true) ∧
  (∀ (s : State) (c : CellIx) (v : Word), s.m.cellAnswers c = false → Does (.tallyAddWrite c v) s s.m)

/-- CMD of a cell, and additions to its tallies: Spec.CellCommands, Spec.TallyAdds. -/
def Obligations.CellCommandsAndTallies : Prop := Sys2Proof.Spec.CellCommands ∧ Sys2Proof.Spec.TallyAdds

/-- RESULT_LAND in a cell of a module with no active plan, with one operation in flight, whose rc has come. A result for a scalar
register is in its register, with s0 still reading zero; one for a predicate, a vector register or a bank is there; coffer and store bytes
stand at their addresses, the rest of the memory as it was; a tally holds the sum. Before their rc nothing in flight changes anything
(R102, R104, R127, R209). -/
def Sys2Proof.Spec.ResultsLand : Prop :=
  (∀ (s : State) (c : CellIx) (f : Flight), Planless s.m → s.m.frozen = false →
    (s.m.cell c).flights = [f] → f.due ≤ (s.m.cell c).rc → (s.m.cell c).poison = [] →
    let x := s.m.cell c
    let Lands (P : Cell → Prop) : Prop := Gives (.resultLand c []) s fun m =>
      P (m.cell c) ∧ (m.cell c).flights = [] ∧ m.regs = s.m.regs ∧ ∀ d, d ≠ c.val → m.cell d = s.m.cell d
    (∀ r v, f.w = .sreg r v → Lands fun y => y.s r = (if r = 0 then 0#64 else v) ∧ (∀ q, q ≠ r → y.s q = x.s q) ∧
      y.store = x.store ∧ y.coffer = x.coffer) ∧
    (∀ p v, f.w = .preg p v → Lands fun y => y.p p = (if p = 0 then true else v) ∧ (∀ q, q ≠ p → y.p q = x.p q) ∧
      y.sregs = x.sregs) ∧
    (∀ r vs, f.w = .vreg r vs → vs.length = 64 → Lands fun y => y.v r = vs ∧ (∀ q, q ≠ r → y.v q = x.v q) ∧ y.sregs = x.sregs) ∧
    (∀ b v, f.w = .bank b v → Lands fun y => (if b = 0 then y.bank0 = v ∧ y.bank1 = x.bank1 else y.bank1 = v ∧ y.bank0 = x.bank0) ∧
      y.sregs = x.sregs ∧ y.vregs = x.vregs) ∧
    (∀ t n, f.w = .tally t n → (sget 0#16 x.tallies t).toNat + n ≤ 0xFFFF → Lands fun y =>
      sget 0#16 y.tallies t = sget 0#16 x.tallies t + BitVec.ofNat 16 n ∧ ∀ q, q ≠ t → sget 0#16 y.tallies q = sget 0#16 x.tallies q) ∧
    (∀ a bs, f.w = .coffer a bs → Lands fun y => (∀ i b, bs[i]? = some b → sget 0#8 y.coffer (a + i) = b) ∧
      (∀ q, q < a ∨ a + bs.length ≤ q → sget 0#8 y.coffer q = sget 0#8 x.coffer q) ∧ y.store = x.store ∧ y.sregs = x.sregs) ∧
    (∀ a bs, f.w = .store a bs → a + bs.length ≤ 0x100000 → s.m.planActive = false → x.meshWr = [] → Lands fun y =>
      (∀ i b, bs[i]? = some b → sget 0#8 y.store (a + i) = b) ∧
      (∀ q, q < a ∨ a + bs.length ≤ q → sget 0#8 y.store q = sget 0#8 x.store q) ∧ y.coffer = x.coffer ∧ y.sregs = x.sregs)) ∧
  (∀ (s : State) (c : CellIx), Planless s.m → s.m.frozen = false → (∀ f ∈ (s.m.cell c).flights, (s.m.cell c).rc < f.due) →
    Does (.resultLand c []) s s.m)

/-- The scheduled coffer reads of an rc, two of them: where they meet in no bank they are made and nothing else changes; where M's and V's
ports ask one bank for different lines the cell takes COFFER_CONFLICT, 0x0601, for V's slot and line, which is stated with no active
plan (R204, R205). -/
def Sys2Proof.Spec.CofferReadsMeet : Prop :=
  (∀ (s : State) (c : CellIx) (l k p q pc qc : Nat), s.m.frozen = false → l % 16 ≠ k % 16 ∨ l = k →
    (s.m.cell c).reads = [⟨(s.m.cell c).rc, p, l, pc⟩, ⟨(s.m.cell c).rc, q, k, qc⟩] →
    Does (.cofferScheduledRead c) s (s.m.setCell c { s.m.cell c with reads := [] })) ∧
  (∀ (s : State) (c : CellIx) (l k pc qc : Nat), s.m.frozen = false → s.m.activeImage = none → l % 16 = k % 16 → l ≠ k →
    (s.m.cell c).reads = [⟨(s.m.cell c).rc, 0, l, pc⟩, ⟨(s.m.cell c).rc, 2, k, qc⟩] →
    Gives (.cofferScheduledRead c) s fun m => m.get F.CEL_FAULT_CODE c = 0x0601 ∧ (m.cell c).st = 3 ∧
      m.get F.CEL_FAULT_SLOT c = 1 ∧ m.get F.CEL_FAULT_RESOURCE c = (0x100 + k) % 4096)

/-- An idle-repeat bundle is 4 bytes long and holds nothing but COUNT; with a slot mask or LIMM that is not zero it does not decode. IDLE_REPEAT
of COUNT n in a quiet cell whose frame has n + 1 edges left passes n + 1 delivered rc in which nothing issues: STEP_RC and the position
rise by n + 1, the cell's registers, memories and landings stand, and the issue count counts its positions (R109, R119). -/
def Sys2Proof.Spec.IdleRepeatPasses : Prop :=
  (∀ (h : BitVec 32), h.extractLsb' 24 2 = 1#2 → h.extractLsb' 16 7 = 0#7 → decodeBundle (leBytes 4 h.toNat) =
    if h.extractLsb' 26 6 = 0#6 ∧ h.getLsbD 23 = false then .ok { len := 4, idle := some (h.extractLsb' 0 16).toNat } else .error 6) ∧
  (∀ (s : State) (c : CellIx) (n : BitVec 16), Quiet s.m c → (s.m.cell c).pos + n.toNat < s.m.budget (c.val / 85) →
    Gives (.idleRepeat c n) s fun m =>
      let x := s.m.cell c
      m.cell c = { x with idle := 0, why := 0, stall := 0, rc := x.rc + n.toNat + 1, frc := x.frc + n.toNat + 1,
                          pos := x.pos + n.toNat + 1 } ∧
      m.get F.CEL_ISSUE_CNT_COUNT c = (s.m.get F.CEL_ISSUE_CNT_COUNT c + n.toNat + 1) % 2 ^ 48 ∧
      ∀ d, d ≠ c.val → m.cell d = s.m.cell d)

/-- One rc of a quiet cell with nothing to send, in a module with no active plan, whose pc holds a bundle of scalar, load and store operations, no branch among
them: where the guard passes and none faults, the bundle issues as one, the pc moves past it and the rc ends; where the guard does not
pass, the rc is a stall rc of its kind, or, under STRICT, GUARD_TRAP, 0x0401. Bytes that do not decode as a bundle are
BUNDLE_FAULT, 0x0402, for the earliest slot. In a frozen module no rc passes (R104, R106, R110, R120, R133 to R135). -/
def Sys2Proof.Spec.BundleIssues : Prop :=
  (∀ (s : State) (c : CellIx) (b : Bundle), Planless s.m → Quiet s.m c → s.m.planActive = false →
    let x := s.m.cell c
    let ps := s.m.bundlePlans c b
    let foots := ps.map fun p => (p.1, p.2.foot)
    x.resume ≤ x.pos → x.idle = 0 → x.sendq = [] → x.fetched = false → b.idle = none → b.v = none → b.m = none → b.y = none →
    (∀ k w e, b.s = some (k, w, e) → k.isBranch = false) →
    decodeBundle (x.loadBytes x.pc (bundleLen (x.header x.pc))) = .ok b →
    (guardCheck foots false x x.rc = none → firstFault ps = none → Gives (.bundleIssue c []) s fun m =>
      let y := m.cell c
      y.pc = (x.pc + b.len) % 0x100000 ∧ y.rc = x.rc + 1 ∧ y.frc = x.frc + 1 ∧ y.pos = x.pos + 1 ∧ y.st = 1 ∧ y.sregs = x.sregs ∧
      y.store = x.store ∧ y.coffer = x.coffer ∧ y.flights = issuedFlights s.m c ps ∧
      m.get F.CEL_ISSUE_CNT_COUNT c = (s.m.get F.CEL_ISSUE_CNT_COUNT c + 1) % 2 ^ 48 ∧
      m.get F.CEL_FETCH_CNT_COUNT c = (s.m.get F.CEL_FETCH_CNT_COUNT c + 1) % 2 ^ 48) ∧
    (∀ k res slot, guardCheck foots false x x.rc = some (k, res, slot) →
      (s.m.flag F.CEL_CTRL_STRICT c = false → Gives (.bundleIssue c []) s fun m =>
        let y := m.cell c
        y.pc = x.pc ∧ y.rc = x.rc + 1 ∧ y.pos = x.pos + 1 ∧ y.st = 1 ∧ y.why = k.code ∧ y.stall = x.stall + 1 ∧
        y.guardRc = x.guardRc + 1 ∧ y.flights = [] ∧ y.sregs = x.sregs ∧ y.store = x.store ∧ m.flag F.CEL_EVENT_GUARD c = true) ∧
      (s.m.flag F.CEL_CTRL_STRICT c = true → Gives (.bundleIssue c []) s fun m =>
        m.get F.CEL_FAULT_CODE c = 0x0401 ∧ (m.cell c).st = 3 ∧ (m.cell c).flights = []))) ∧
  (∀ (s : State) (c : CellIx) (slot : Nat), Planless s.m → Quiet s.m c → (s.m.cell c).resume ≤ (s.m.cell c).pos →
    (s.m.cell c).idle = 0 →
    let x := s.m.cell c
    let bytes := x.loadBytes x.pc (bundleLen (x.header x.pc))
    decodeBundle bytes = .error slot → Gives (.bundleIssue c []) s fun m =>
      m.get F.CEL_FAULT_CODE c = 0x0402 ∧ (m.cell c).st = 3 ∧ m.get F.CEL_FAULT_SLOT c = x.badSlot bytes slot % 16 ∧
      (m.cell c).flights = [] ∧ (m.cell c).store = x.store) ∧
  (∀ (s : State) (c : CellIx), s.m.frozen = true → Planless s.m → Does (.bundleIssue c []) s s.m)

/-- Idle-repeats pass and bundles issue: Spec.IdleRepeatPasses, Spec.BundleIssues. -/
def Obligations.CellsIssue : Prop := Sys2Proof.Spec.IdleRepeatPasses ∧ Sys2Proof.Spec.BundleIssues

/-- The first arrival that waits for a cell lands in its store at its address, outside the program range, adds one to its tally where it
names one that is not full, and leaves the rest of the store alone (R121, R127, R209). -/
def Sys2Proof.Spec.ArrivalsLand : Prop :=
  ∀ (s : State) (c : CellIx) (a : Arrival), s.m.frozen = false → s.m.mesh.arrivals.find? (fun a => decide (a.cell = c.val)) = some a →
    (∀ i, i < a.data.length → s.m.inProgram c ((a.addr + i) % 0x100000) = false) →
    a.addr + a.data.length ≤ 0x100000 → (∀ t, a.tally = some t → (sget 0#16 (s.m.cell c).tallies t).toNat < 0xFFFF) →
    Gives (.arrivalLand c) s fun m =>
      m.mesh.arrivals = s.m.mesh.arrivals.erase a ∧ (∀ i b, a.data[i]? = some b → sget 0#8 (m.cell c).store (a.addr + i) = b) ∧
      (∀ q, q < a.addr ∨ a.addr + a.data.length ≤ q → sget 0#8 (m.cell c).store q = sget 0#8 (s.m.cell c).store q) ∧
      (∀ t, sget 0#16 (m.cell c).tallies t = sget 0#16 (s.m.cell c).tallies t + (if a.tally = some t then 1#16 else 0#16)) ∧
      (m.cell c).coffer = (s.m.cell c).coffer ∧ m.regs = s.m.regs

/-- Results and arrivals land; scheduled coffer reads meet: Spec.ResultsLand, Spec.CofferReadsMeet, Spec.ArrivalsLand. Where an
arrival is held until it lands is the model's convention of log entry 30. -/
def Obligations.ResultsReadsArrivals : Prop := Sys2Proof.Spec.ResultsLand ∧ Sys2Proof.Spec.CofferReadsMeet ∧ Sys2Proof.Spec.ArrivalsLand

/-- A running tenancy one of whose cells is not at sync when its region passes PROG_RC + SLACK_RC is beyond slack: the slip is recorded
with its lateness, its tenancy and region and BEYOND set, and the partition faults with 0x0302 in this frame; where no cell of the
tenancy in the region is late nothing changes (R91, R94). -/
def Sys2Proof.Spec.SlipBeyondSlackFaults : Prop :=
  (∀ (s : State) (t : TenancyIx) (r : RegionIx) (im : Image) (c : CellIx), s.m.activeImage = some im →
    s.m.tenState t = tenRunning → (s.m.ten t).fault = none → c.val ∈ im.cellsOf t → c.val / 85 = r.val → (s.m.cell c).st = 1 →
    (s.m.cell c).sync = false → im.progRc r + im.slackRc r < (s.m.cell c).pos → Gives (.slipBeyondSlack t r) s fun m =>
      m.get F.PLN_SLIP_LAST_BEYOND = 1 ∧ m.get F.PLN_SLIP_LAST_TENANCY = t.val ∧ m.get F.PLN_SLIP_LAST_SITE = r.val ∧
      m.get F.PLN_SLIP_LAST_LATENESS = min (im.slackRc r + 1) 0xFFFF ∧ m.get F.PLN_SLIP_LAST_FRAME_LO = s.m.frame % 65536 ∧
      (m.ten t).fault = some s.m.frame ∧ m.flag F.PLN_EVENT_PFAULT = true ∧ m.get F.DBG_FAULT_LAST_CODE = 0x0302 ∧
      m.cells = s.m.cells) ∧
  (∀ (s : State) (t : TenancyIx) (r : RegionIx) (im : Image), s.m.activeImage = some im →
    (∀ c ∈ im.cellsOf t, c / 85 = r.val → (s.m.cell c).st = 1 → (s.m.cell c).sync = false →
      (s.m.cell c).pos ≤ im.progRc r + im.slackRc r) → Does (.slipBeyondSlack t r) s s.m)

/-- The Bell opens a frame; a slip beyond slack faults its partition: Spec.BellOpensFrame, Spec.SlipBeyondSlackFaults. Where the
spec leaves a point open it takes the model's convention of log entries 1, 14, 31, 85 and 91. -/
def Obligations.FramesOpenAndSlip : Prop := Sys2Proof.Spec.BellOpensFrame ∧ Sys2Proof.Spec.SlipBeyondSlackFaults

/-! ## Vaults, engines, control rings and the mesh (R217 to R247, R316 to R325) -/

/-- VAULT_READY: a vault in training becomes READY with its memory zero, another stays as it is. VAULT_BAND_CHANGE records the temperature
and its band, and raises VAULT_HOT on entry to band 2. REFRESH_WINDOW opens or closes the window; where it scrubs nothing (it closes, or is
W2, or the band is not 0, or SCRUB_EN is 0, or no error is met) it does nothing else (R217, R223, R224). -/
def Sys2Proof.Spec.VaultStates : Prop :=
  (∀ (s : State) (v : VaultIx), (s.m.vault v).training = true → Gives (.vaultReady v) s fun m =>
    m.vaultReady v = true ∧ (m.vault v).dram = [] ∧ (m.vault v).poison = [] ∧ (m.vault v).training = false ∧
    m.flag F.VLT_EVENT_READY v = true ∧ (∀ u, u ≠ v.val → m.vault u = s.m.vault u) ∧ m.cells = s.m.cells) ∧
  (∀ (s : State) (v : VaultIx), (s.m.vault v).training = false → Does (.vaultReady v) s s.m) ∧
  (∀ (s : State) (v : VaultIx) (t : Int), Gives (.vaultBandChange v t) s fun m =>
    (t < 1360 → m.get F.VLT_STATUS_BAND v = 0) ∧ (1360 ≤ t ∧ t < 1520 → m.get F.VLT_STATUS_BAND v = 1) ∧
    (1520 ≤ t → m.get F.VLT_STATUS_BAND v = 2) ∧
    (1520 ≤ t ∧ s.m.get F.VLT_STATUS_BAND v ≠ 2 → m.flag F.VLT_EVENT_VAULT_HOT v = true) ∧
    m.get F.VLT_STATUS_TEMP v = ofSigned 16 t ∧ m.vaults = s.m.vaults) ∧
  (∀ (s : State) (v : VaultIx) (opens second : Bool) (errs : List VaultErr),
    (opens = false ∨ second = true ∨ s.m.get F.VLT_STATUS_BAND v ≠ 0 ∨ s.m.flag F.VLT_CTRL_SCRUB_EN v = false ∨ errs = []) →
    Does (.refreshWindow v opens second errs) s (s.m.setVault v { s.m.vault v with window := opens }))

/-- A scheduled read of a vault-source entry of a running tenancy without weight pairs takes the bytes of its member's range, plain or
interleaved, piece by piece, where every vault of it is READY, outside its refresh windows and without poison. Where a vault of it is
not READY, or in a window, no data is read and nothing changes (R217, R218, R222, R223). -/
def Sys2Proof.Spec.VaultScheduledReads : Prop :=
  ∀ (s : State) (t : TenancyIx) (e k : BitVec 16) (im : Image) (x : MeshEntry), s.m.activeImage = some im →
    im.mesh t e.toNat = some x → x.skind = 1 →
    let ps := readPieces (im.vaultMask t) (x.vaddr.testBit 63) (x.bytes / 8192 + 2) (x.vaddr % 2 ^ 39 + k.toNat * x.bytes) x.bytes
    (s.m.frozen = false → s.m.tenState t = tenRunning → im.pairs t = [] → (∀ v, (s.m.vault v).poison = []) →
      (∀ p ∈ ps, s.m.vaultReady (vaultOf p.1) = true ∧ (s.m.vault (vaultOf p.1)).window = false ∧ p.1 % 2 ^ 36 + p.2 ≤ 2 ^ 36) →
      Does (.vaultScheduledRead t e k []) s (s.m.setMesh fun w => { w with vreads := w.vreads ++
        [⟨t, e.toNat, k.toNat, ps.flatMap fun p => sgets 0#8 (s.m.vault (p.1 / 2 ^ 36)).dram (p.1 % 2 ^ 36) p.2⟩] })) ∧
    ((∃ p ∈ ps, s.m.vaultReady (vaultOf p.1) = false ∨ (s.m.vault (vaultOf p.1)).window = true) →
      Does (.vaultScheduledRead t e k []) s s.m)

/-- The first scheduled write on its way to a vault, outside its refresh windows. One that is not slot-checked, or whose slot's mask bit is
set, of one piece and of a tenancy without weight pairs, stores its bytes and no others in a READY vault. One whose Teller slot's mask bit is
clear stores none and counts one suppression. In a refresh window the write waits (R222, R223, R229). -/
def Sys2Proof.Spec.VaultScheduledWrites : Prop :=
  ∀ (s : State) (v : VaultIx) (w : VaultWrite) (a : Nat) (bs : List (BitVec 8)) (q : List (Nat × List (BitVec 8)))
    (rest : List VaultWrite), s.m.frozen = false → s.m.mesh.vwrites = w :: rest → w.pieces = (a, bs) :: q → a / 2 ^ 36 = v.val →
    ((s.m.vault v).window = false → q = [] → a % 2 ^ 36 + bs.length ≤ 2 ^ 36 → (∀ i, w.tslot = some i → s.m.slotBit i = true) →
      (∀ im, s.m.activeImage = some im → im.pairs w.ten = []) → s.m.vaultReady v = true → Gives (.vaultScheduledWrite v []) s fun m =>
      m.mesh.vwrites = rest ∧ (∀ i b, bs[i]? = some b → sget 0#8 (m.vault v).dram (a % 2 ^ 36 + i) = b) ∧
      (∀ q, q < a % 2 ^ 36 ∨ a % 2 ^ 36 + bs.length ≤ q → sget 0#8 (m.vault v).dram q = sget 0#8 (s.m.vault v).dram q) ∧
      (∀ u, u ≠ v.val → m.vault u = s.m.vault u) ∧ m.regs = s.m.regs) ∧
    (∀ i, (s.m.vault v).window = false → w.tslot = some i → s.m.slotBit i = false → Gives (.vaultScheduledWrite v []) s fun m =>
      m.mesh.vwrites = rest ∧ m.vaults = s.m.vaults ∧
      m.get F.VLT_SUPPRESS_CNT_COUNT v = (s.m.get F.VLT_SUPPRESS_CNT_COUNT v + 1) % 2 ^ 48) ∧
    ((s.m.vault v).window = true → Does (.vaultScheduledWrite v []) s s.m)

/-- Vault states, scheduled vault reads and writes: Spec.VaultStates, Spec.VaultScheduledReads, Spec.VaultScheduledWrites. That an access
is made as a whole is the model's convention of log entries 17 and 90. -/
def Obligations.VaultsAndScheduledAccesses : Prop := Sys2Proof.Spec.VaultStates ∧ Sys2Proof.Spec.VaultScheduledReads ∧ Sys2Proof.Spec.VaultScheduledWrites

/-- An engine's queues. ENGINE_CMD_ARRIVE: in a READY vault a scheduled record enters SQ, or at 16 waiting is discarded as ENGINE_QFULL,
0x0706, which is stated for a record of no tenancy; with none on its way an unscheduled one enters UQ where that has space, and is
applied. ENGINE_CMD_START: a free engine starts the oldest scheduled command, at its due ec, else the suspended one, else the oldest
unscheduled one; a malformed scheduled one occupies it for D = 24 with ENGINE_CMD, 0x0707, which is stated for one of no tenancy.
ENGINE_SUSPEND: an unscheduled command suspends for a scheduled one. ENGINE_CMD_COMPLETE: a command that has computed leaves, its
result enters the result buffer with its time, and D is added to the active count (R217, R230 to R233). -/
def Sys2Proof.Spec.EngineQueues : Prop :=
  (∀ (s : State) (g : EngineIx) (c : EngCmd) (rest : List (Nat × EngCmd)), s.m.frozen = false → s.m.mesh.ecmds = (g.val, c) :: rest →
    s.m.vaultReady (g.val / 32) = true →
    ((s.m.engine g).sq.length < 16 → Does (.engineCmdArrive g) s ((s.m.setMesh fun e => { e with ecmds := rest }).setEngine g
      { s.m.engine g with sq := (s.m.engine g).sq ++ [c] })) ∧
    (16 ≤ (s.m.engine g).sq.length → c.ten = none → Gives (.engineCmdArrive g) s fun m => m.mesh.ecmds = rest ∧
      m.engines = s.m.engines ∧ m.flag F.VLT_EVENT_ENGINE_QFULL (g.val / 32) = true ∧ m.get F.DBG_FAULT_LAST_CODE = 0x0706)) ∧
  (∀ (s : State) (g : EngineIx) (c : EngCmd) (k : Packet) (rest : List (Nat × EngCmd × Packet)), s.m.frozen = false →
    (∀ e ∈ s.m.mesh.ecmds, e.1 ≠ g.val) → s.m.ni.ucmds = (g.val, c, k) :: rest → s.m.vaultReady (g.val / 32) = true →
    (s.m.engine g).uq.length < 64 → s.m.ni.filter.length < 8192 → (k.src, k.tag) ∉ s.m.ni.filter → Gives (.engineCmdArrive g) s fun m =>
      m.ni.ucmds = rest ∧ m.engine g = { s.m.engine g with uq := (s.m.engine g).uq ++ [c] } ∧
      m.ni.filter = (k.src, k.tag) :: s.m.ni.filter ∧ m.cells = s.m.cells ∧ m.vaults = s.m.vaults) ∧
  (∀ (s : State) (g : EngineIx) (c : EngCmd) (q : List EngCmd), s.m.frozen = false → (s.m.engine g).run = none →
    (s.m.engine g).sq = c :: q →
    (s.m.cmdBad true c.bytes = false → Does (.engineCmdStart g) s (s.m.setEngine g { s.m.engine g with
      sq := q, lastOp := Rec.op ⟨c.bytes⟩, run := some { cmd := c, sched := true, d := Rec.duration ⟨c.bytes⟩,
                                                         start := some (schedStart c.at_ (s.m.engine g).doneAt) } })) ∧
    (s.m.cmdBad true c.bytes = true → c.ten = none → Gives (.engineCmdStart g) s fun m =>
      let x : EngRun := { cmd := c, sched := true, d := 24, computed := true, start := some (schedStart c.at_ (s.m.engine g).doneAt) }
      m.engine g = { s.m.engine g with sq := q, lastOp := Rec.op ⟨c.bytes⟩, run := some x } ∧
      m.flag F.VLT_EVENT_ENGINE_CMD (g.val / 32) = true ∧ m.get F.DBG_FAULT_LAST_CODE = 0x0707)) ∧
  (∀ (s : State) (g : EngineIx) (x : EngRun), s.m.frozen = false → (s.m.engine g).run = none → (s.m.engine g).sq = [] →
    (s.m.engine g).susp = some x → Does (.engineCmdStart g) s
      (s.m.setEngine g { s.m.engine g with susp := none, run := some x })) ∧
  (∀ (s : State) (g : EngineIx) (c : EngCmd) (q : List EngCmd), s.m.frozen = false → (s.m.engine g).run = none →
    (s.m.engine g).sq = [] → (s.m.engine g).susp = none → (s.m.engine g).uq = c :: q → Does (.engineCmdStart g) s
      (s.m.setEngine g { s.m.engine g with uq := q, lastOp := Rec.op ⟨c.bytes⟩,
                                           run := some { cmd := c, sched := false, d := Rec.duration ⟨c.bytes⟩ } })) ∧
  (∀ (s : State) (g : EngineIx) (x : EngRun), s.m.frozen = false → (s.m.engine g).run = some x → x.sched = false →
    (s.m.engine g).sq ≠ [] → Does (.engineSuspend g) s (s.m.setEngine g { s.m.engine g with run := none, susp := some x })) ∧
  (∀ (s : State) (g : EngineIx) (x : EngRun), s.m.frozen = false → (s.m.engine g).run = some x → x.computed = true →
    Gives (.engineCmdComplete g) s fun m =>
      let at_ := match x.start with
        | some k => completeEc k x.d
        | none => (s.m.engine g).doneAt
      m.engine g = { s.m.engine g with run := none, doneAt := at_,
                                         results := (s.m.engine g).results ++ x.result.toList.map fun r => { r with at_ := at_ } } ∧
      m.get F.VLT_ENG_ACT_COUNT (g.val / 32) (g.val % 32) =
        (s.m.get F.VLT_ENG_ACT_COUNT (g.val / 32) (g.val % 32) + x.d) % 2 ^ 48 ∧ m.vaults = s.m.vaults)

namespace Sys2Proof.Spec

/-- A running command of a steward, made once: engine g's accesses take no view. -/
def plainCtx (g : Nat) (c : EngCmd) : EngCtx := { g := g, owner := c.ten, ten := none, step := c.step, frame := 0 }

/-- Engine g, of a READY vault outside its refresh windows, runs an unscheduled, well-formed command of an op that has not computed, in
a module without poisoned DRAM. -/
abbrev Computes (m : Lanorun) (g op : Nat) (x : EngRun) : Prop :=
  m.frozen = false ∧ (m.engine g).run = some x ∧ x.sched = false ∧ x.computed = false ∧ x.result = none ∧
  Rec.op ⟨x.cmd.bytes⟩ = op ∧ Rec.opBad ⟨x.cmd.bytes⟩ = false ∧ (m.vault (g / 32)).window = false ∧
  m.vaultReady (g / 32) = true ∧ ∀ v, (m.vault v).poison = []

/-- n bytes of engine g's channel from local address l: byte i stands at the vault offset of l + i (R220). -/
def localBytes (m : Lanorun) (g l n : Nat) : List (BitVec 8) :=
  (List.range n).map fun i => sget 0#8 (m.vault (g / 32)).dram (localOffset (g % 32) (l + i))

end Sys2Proof.Spec

/-- ATTN and GATHER change nothing but the command's result: ATTN the partial triples of its heads, GATHER row by row the bytes of the
table, or zeros for a row outside it, which is counted (R236 to R238, R241). -/
def Sys2Proof.Spec.EngineReads : Prop :=
  (∀ (s : State) (g : EngineIx) (x : EngRun), Computes s.m g 3 x → Gives (.gather g []) s fun m =>
      let r : Rec := ⟨x.cmd.bytes⟩
      let inTable (i : Nat) : Bool := decide (0 ≤ r.index 0x40 4 i ∧ r.index 0x40 4 i < (r.rows : Int))
      m.engine g = { s.m.engine g with run := some { x with computed := true, result := some {
        ten := x.cmd.ten, mslot := r.mslot, dcell := r.dcell, tally := r.tally, addr := r.gdst,
        data := (List.range r.nr).flatMap fun i =>
          if inTable i then localBytes s.m g (r.tbase + (r.index 0x40 4 i).toNat * r.s) r.s else List.replicate r.s 0#8 } } } ∧
      m.get F.VLT_OOB_CNT_COUNT (g.val / 32) =
        (s.m.get F.VLT_OOB_CNT_COUNT (g.val / 32) + ((List.range r.nr).filter fun i => !inTable i).length) % 2 ^ 48 ∧
      m.vaults = s.m.vaults ∧ m.cells = s.m.cells) ∧
  (∀ (s : State) (g : EngineIx) (x : EngRun), Computes s.m g 1 x → Gives (.attn g []) s fun m =>
      let r : Rec := ⟨x.cmd.bytes⟩
      m = s.m.setEngine g { s.m.engine g with run := some { x with computed := true, result := some {
        ten := x.cmd.ten, mslot := r.mslot, dcell := r.dcell, tally := r.tally, addr := r.attnDst,
        data := (s.m.attn (plainCtx g x.cmd) r).1 } } })

/-- REDUCE and ATOMIC in FP32 or INT32, and SCATTER. REDUCE writes, per 4-byte element, the destination with the C sources added in order.
SCATTER writes, in ascending order, each row whose index lies in the table; ATOMIC adds each value to its element likewise. Where
SLOTCHK names a slot whose mask bit is clear, SCATTER and ATOMIC write nothing and count one suppression. Rows outside the table are
counted (R229, R240 to R242). -/
def Sys2Proof.Spec.EngineWrites : Prop :=
  (∀ (s : State) (g : EngineIx) (x : EngRun), Computes s.m g 2 x → (Rec.redMode ⟨x.cmd.bytes⟩ = 0 ∨ Rec.redMode ⟨x.cmd.bytes⟩ = 2) →
    Gives (.reduce g []) s fun m =>
      let r : Rec := ⟨x.cmd.bytes⟩
      let word (l i : Nat) : Nat := leNat (((localBytes s.m g l r.redBytes).drop (i * 4)).take 4)
      m.vaults = (s.m.engWrite (plainCtx g x.cmd) r.dstl ((List.range (r.redBytes / 4)).flatMap fun i =>
        leBytes 4 ((List.range r.c).foldl (fun a j => addElem r.redMode a (word (r.srcl + j * r.sstride) i)) (word r.dstl i)))).vaults ∧
      m.engine g = { s.m.engine g with run := some { x with computed := true } } ∧ m.cells = s.m.cells) ∧
  (∀ (s : State) (g : EngineIx) (x : EngRun), Computes s.m g 4 x ∨ Computes s.m g 5 x ∧
      (Rec.atMode ⟨x.cmd.bytes⟩ = 0 ∨ Rec.atMode ⟨x.cmd.bytes⟩ = 2) →
    let r : Rec := ⟨x.cmd.bytes⟩
    let k := plainCtx g x.cmd
    let stride := if r.op = 4 then 4 else 8
    let inTable (i : Nat) : Bool := decide (0 ≤ r.index 0x40 stride i ∧ r.index 0x40 stride i < (r.rows : Int))
    let rows := (List.range r.nr).filter inTable
    let at_ (i : Nat) : Nat := (r.index 0x40 stride i).toNat
    let cmd := if r.op = 4 then Instr.scatter g [] else .atomic g []
    let Ends (P : Lanorun → Prop) : Prop := Gives cmd s fun m => P m ∧
      m.engine g = { s.m.engine g with run := some { x with computed := true } } ∧ m.cells = s.m.cells ∧
      m.get F.VLT_OOB_CNT_COUNT (g.val / 32) = (s.m.get F.VLT_OOB_CNT_COUNT (g.val / 32) + (r.nr - rows.length)) % 2 ^ 48
    (r.slotchk = false ∨ s.m.slotBit r.tslot = true →
      (r.op = 4 → Ends fun m => m.vaults = (rows.foldl (fun m i => m.engWrite k (r.tbase + at_ i * r.s)
        ((r.bytes.drop (0x40 + roundUp (4 * r.nr) 32 + i * r.s)).take r.s)) s.m).vaults) ∧
      (r.op = 5 → Ends fun m => m.vaults = (rows.foldl (fun m i => m.engWrite k (r.tbase + at_ i * 4)
        (leBytes 4 (addElem r.atMode (leNat (localBytes m g (r.tbase + at_ i * 4) 4)) (fieldAt r.bytes (0x44 + 8 * i) 4)))) s.m).vaults)) ∧
    (r.slotchk = true → s.m.slotBit r.tslot = false → Ends fun m => m.vaults = s.m.vaults ∧
      m.get F.VLT_SUPPRESS_CNT_COUNT (g.val / 32) = (s.m.get F.VLT_SUPPRESS_CNT_COUNT (g.val / 32) + 1) % 2 ^ 48))

/-- Vault engines: their queues, and what their operations compute and write: Spec.EngineQueues, Spec.EngineReads,
Spec.EngineWrites. That a command computes at one point of its run is the model's convention of log entry 64. -/
def Obligations.EngineCommands : Prop := Sys2Proof.Spec.EngineQueues ∧ Sys2Proof.Spec.EngineReads ∧ Sys2Proof.Spec.EngineWrites

/-- The control rings while vault 0 is READY: a packet is written at PROD into its 64 bytes of vault 0 and PROD rises by one; at a full CR0
it is dropped and counted, at a full CR1 nothing happens. While vault 0 is not READY the access is discarded. CONS, counted modulo 2^24,
takes a value up to PROD and ignores one beyond it (R217, R245; log entry 56). -/
def Obligations.ControlRings : Prop :=
  (∀ (s : State) (r : Fin 2) (k : BitVec 512), s.m.cringFull r = false → s.m.vaultReady 0 = true → Gives (.cringWrite r k) s fun m =>
    m.get F.VLT_CRING_PROD 0 r = (s.m.get F.VLT_CRING_PROD 0 r + 1) % 2 ^ 24 ∧
    (∀ i, i < 64 → sget 0#8 (m.vault 0).dram (cringAt r (s.m.get F.VLT_CRING_PROD 0 r) + i) = k.extractLsb' (8 * i) 8) ∧
    m.get F.VLT_CRING_CONS 0 r = s.m.get F.VLT_CRING_CONS 0 r ∧ m.cells = s.m.cells) ∧
  (∀ (s : State) (k : BitVec 512), s.m.cringFull 0 = true → s.m.vaultReady 0 = true → s.m.get F.VLT_CRING_DROP_COUNT < 0xFFFFFFFE →
    Gives (.cringWrite 0 k) s fun m => m.get F.VLT_CRING_DROP_COUNT = s.m.get F.VLT_CRING_DROP_COUNT + 1 ∧
      m.flag F.VLT_EVENT_CRING_DROP = true ∧ m.vaults = s.m.vaults) ∧
  (∀ (s : State) (k : BitVec 512), s.m.cringFull 1 = true → Does (.cringWrite 1 k) s s.m) ∧
  (∀ (s : State) (r : Fin 2) (k : BitVec 512), s.m.vaultReady 0 = false → Does (.cringWrite r k) s s.m) ∧
  (∀ (s : State) (r : Fin 2) (v : BitVec 32), v.toNat < 2 ^ 24 →
    let ahead (n : Nat) : Nat := (n + 2 ^ 24 - s.m.get F.VLT_CRING_CONS 0 r) % 2 ^ 24
    (ahead v.toNat ≤ ahead (s.m.get F.VLT_CRING_PROD 0 r) → Does (.cringConsWrite r v) s (s.m.put F.VLT_CRING_CONS v.toNat 0 r)) ∧
    (ahead (s.m.get F.VLT_CRING_PROD 0 r) < ahead v.toNat → Does (.cringConsWrite r v) s s.m))

namespace Sys2Proof.Spec

/-- Tenancy t of image im runs its frame, alone in the mesh's slots of this frame, and entry e of its mesh schedule is x. -/
abbrev SlotOpen (m : Lanorun) (t : TenancyIx) (e : BitVec 16) (im : Image) (x : MeshEntry) : Prop :=
  m.frozen = false ∧ m.activeImage = some im ∧ im.mesh t e.toNat = some x ∧ m.tenState t = tenRunning ∧
  (m.ten t).running = true ∧ (m.ten t).fault = none ∧ x.frame = (m.ten t).frameIn ∧ m.mesh.moves = [] ∧
  ∀ c ∈ m.cells, c.2.ueAt = (m.cell c.1).ueAt

end Sys2Proof.Spec

/-- Mesh slots of a tenancy that runs alone in them, each over a whole member. MESH_MEMBER_START of a vault-sourced member puts what was
read for it on its way to its cell, with its address and tally; of a cell-sourced one the bytes of the queued SEND that names its
entry, ready by then, on their way to the cell that it names. ENGINE_RESULT_SLOT puts an engine's result on its way to its cell where
its command completed 16 fc before. A vault-sourced member without its read, and an engine's slot with no result that early, is a slip
beyond slack with cause 6, recorded in MOD_MESH_LAST, and a partition fault (R93, R222, R232, R323, R325; log entry 96). -/
def Obligations.MeshSlots : Prop :=
  (∀ (s : State) (t : TenancyIx) (e : BitVec 16) (im : Image) (x : MeshEntry) (r : VaultRead), SlotOpen s.m t e im x → x.skind = 1 →
    x.sid ≠ 0xFFFF → x.dkind = 0 → s.m.mesh.vreads = [r] → r.ten = t.val → r.entry = e.toNat → r.member = 0 →
    Gives (.meshMemberStart t e 0#16 []) s fun m => m.mesh.vreads = [] ∧ m.regs = s.m.regs ∧ m.cells = s.m.cells ∧
      m.mesh.arrivals = s.m.mesh.arrivals ++ [Arrival.mk (listGet 0 (im.cellsOf t) x.did) x.caddr r.data (some (x.tally % 16))
        (s.m.ten t).step (s.m.ten t).frameIn s.m.mesh.nextMove 0]) ∧
  (∀ (s : State) (t : TenancyIx) (e : BitVec 16) (im : Image) (x : MeshEntry) (q : SendEntry) (p : Nat), SlotOpen s.m t e im x →
    x.skind = 0 → x.sid ≠ 0xFFFF →
    let c := listGet 0 (im.cellsOf t) x.sid
    let y := s.m.cell c
    let d := descOf q.desc
    y.sendq = [q] → d.mslot = e.toNat → q.start = none → d.kind = 2 → s.m.logicalCell (bitsOf d.dst 47 32) = some p → y.poison = [] →
    0 < d.bytes → q.missed (6250 * s.m.frame + x.start) 256 d.bytes = 0 →
    Gives (.meshMemberStart t e 0#16 []) s fun m => m.regs = s.m.regs ∧
      m.cell c = { y with sendq := [{ q with start := some (6250 * s.m.frame + x.start), rate := 256 }] } ∧
      (∀ b, b ≠ c → m.cell b = s.m.cell b) ∧
      m.mesh.arrivals = s.m.mesh.arrivals ++ [Arrival.mk p (bitsOf d.dst 19 0) (y.storeBytes d.src d.bytes) (some d.tally)
        (s.m.ten t).step (s.m.ten t).frameIn s.m.mesh.nextMove 0]) ∧
  (∀ (s : State) (t : TenancyIx) (e : BitVec 16) (im : Image) (x : MeshEntry), SlotOpen s.m t e im x → x.skind = 1 →
    x.sid ≠ 0xFFFF → s.m.mesh.vreads = [] → Gives (.meshMemberStart t e 0#16 []) s fun m =>
      m.get F.PLN_SLIP_LAST_BEYOND = 1 ∧ m.get F.PLN_SLIP_LAST_CAUSE = 6 ∧ (m.ten t).fault = some s.m.frame ∧
      m.get F.MOD_MESH_LAST_MSLOT = e.toNat ∧ m.mesh = s.m.mesh) ∧
  (∀ (s : State) (g : EngineIx) (t : TenancyIx) (e : BitVec 16) (im : Image) (x : MeshEntry),
    SlotOpen s.m t e im x → x.skind = 2 → x.sid ≠ 0xFFFF → 32 * bitsOf x.sid 10 8 + bitsOf x.sid 4 0 = g.val →
    (∀ (r : EngResult) (c : Nat), (s.m.engine g).results = [r] → r.mslot = e.toNat → r.ten = some t.val →
      s.m.logicalCell r.dcell = some c → 5 * r.at_ + 64 ≤ 4 * (6250 * s.m.frame + x.start) →
      Gives (.engineResultSlot g t e []) s fun m => (m.engine g).results = [] ∧ m.regs = s.m.regs ∧ m.cells = s.m.cells ∧
        m.mesh.arrivals = s.m.mesh.arrivals ++ [Arrival.mk c (r.addr % 0x100000) r.data (some r.tally)
          (s.m.ten t).step (s.m.ten t).frameIn s.m.mesh.nextMove 0]) ∧
    ((∀ r ∈ (s.m.engine g).results, 4 * (6250 * s.m.frame + x.start) < 5 * r.at_ + 64) → Gives (.engineResultSlot g t e []) s fun m =>
      m.get F.PLN_SLIP_LAST_BEYOND = 1 ∧ m.get F.PLN_SLIP_LAST_CAUSE = 6 ∧ (m.ten t).fault = some s.m.frame ∧
      m.get F.MOD_MESH_LAST_MSLOT = e.toNat ∧ m.mesh = s.m.mesh))

/-! ## Stewards, their mailboxes and watchdogs (R249 to R258, R523) -/

/-- The mailbox of a block whose domain is ON: ACQUIRE takes a FREE one, HAND by the owner passes it to the other side and raises SEQ,
RELEASE by the owner frees it, and data is written by the owner alone; who does not own it changes nothing. Its bit of MOD_MBOX_PEND
is 1 exactly while HEAD owns it after an odd number of HANDs (R256). -/
def Sys2Proof.Spec.MailboxHandshake : Prop :=
  ∀ (s : State) (n : BlockIx) (head : Bool),
    let owner := s.m.get F.BLK_MBOX_CTRL_OWNER n
    let me := if head then 1 else 2
    let pend (m : Lanorun) : Bool := (m.reg R.MOD_MBOX_PEND 0 (n.val / 64)).testBit (n.val % 64)
    let Keeps (m : Lanorun) : Prop := m.cells = s.m.cells ∧ ∀ k, m.reg R.BLK_MBOX_DATA n k = s.m.reg R.BLK_MBOX_DATA n k
    (s.m.isOn n = true → owner = 0 → Gives (.acquire n head) s fun m =>
      m.get F.BLK_MBOX_CTRL_OWNER n = me ∧ m.get F.BLK_MBOX_CTRL_SEQ n = s.m.get F.BLK_MBOX_CTRL_SEQ n ∧
      m.steward n = { s.m.steward n with handed := false } ∧ pend m = false ∧ Keeps m) ∧
    (owner ≠ 0 → Does (.acquire n head) s s.m) ∧
    (s.m.isOn n = true → owner = me → Gives (.hand n head) s fun m =>
      m.get F.BLK_MBOX_CTRL_OWNER n = 3 - me ∧ m.get F.BLK_MBOX_CTRL_SEQ n = (s.m.get F.BLK_MBOX_CTRL_SEQ n + 1) % 2 ^ 16 ∧
      m.steward n = { s.m.steward n with handed := !(s.m.steward n).handed } ∧
      pend m = (!head && !(s.m.steward n).handed) ∧ Keeps m) ∧
    (s.m.isOn n = true → owner = me → Gives (.release n head) s fun m =>
      m.get F.BLK_MBOX_CTRL_OWNER n = 0 ∧ m.get F.BLK_MBOX_CTRL_SEQ n = s.m.get F.BLK_MBOX_CTRL_SEQ n ∧ pend m = false ∧ Keeps m) ∧
    (∀ (k : Fin 8) (v : BitVec 64), s.m.isOn n = true → owner = me →
      Does (.mboxDataWrite n head k v) s (s.m.setReg R.BLK_MBOX_DATA v.toNat n k)) ∧
    (s.m.isOn n = false ∨ owner ≠ me →
      Does (.hand n head) s s.m ∧ Does (.release n head) s s.m ∧ ∀ (k : Fin 8) (v : BitVec 64), Does (.mboxDataWrite n head k v) s s.m)

/-- WDOG_KICK and HS_KICK restart a watchdog's count and clear EXPIRED. WDOG_EXPIRE, once the limit can have been reached, sets EXPIRED of a
block steward, and faults a running tenancy of its block. HS_HANG likewise sets EXPIRED of a head steward and raises HS_HANG, 0x1105;
once all four have expired all four are in reset. A limit of 0, and one not reached, does nothing (R257, R523; log entry 41). -/
def Sys2Proof.Spec.WatchdogsExpire : Prop :=
  (∀ (s : State) (n : BlockIx), s.m.isOn n = true → Gives (.wdogKick n) s fun m =>
    m.flag F.BLK_STW_WDOG_EXPIRED n = false ∧ m.steward n = { s.m.steward n with wdog := s.m.frame } ∧ m.cells = s.m.cells) ∧
  (∀ (s : State) (n : BlockIx),
    let lim := s.m.get F.BLK_STW_WDOG_LIMIT n
    let us := 4 * (s.m.frame + 1 - (s.m.steward n).wdog)
    (s.m.isOn n = true → s.m.flag F.BLK_STW_WDOG_EXPIRED n = false → lim ≠ 0 → lim ≤ us →
      ((∀ im, s.m.activeImage = some im → im.tenOfBlock n = none) → Does (.wdogExpire n) s (s.m.put F.BLK_STW_WDOG_EXPIRED 1 n)) ∧
      (∀ im t, s.m.activeImage = some im → im.tenOfBlock n = some t → s.m.tenState t = tenRunning → (s.m.ten t).fault = none →
        Gives (.wdogExpire n) s fun m => m.flag F.BLK_STW_WDOG_EXPIRED n = true ∧ (m.ten t).fault = some s.m.frame ∧
          m.flag F.PLN_EVENT_PFAULT = true)) ∧
    (lim = 0 ∨ us < lim → Does (.wdogExpire n) s s.m)) ∧
  (∀ (s : State) (k : HeadIx), Gives (.hsKick k) s fun m => m.flag F.DBG_HS_EXPIRED 0 k = false ∧
    m.steward (80 + k.val) = { s.m.steward (80 + k.val) with wdog := s.m.frame } ∧ m.cells = s.m.cells) ∧
  (∀ (s : State) (k : HeadIx),
    let lim := s.m.get F.DBG_HS_LIMIT 0 k
    let us := 4 * (s.m.frame + 1 - (s.m.steward (80 + k.val)).wdog)
    (s.m.flag F.DBG_HS_EXPIRED 0 k = false → lim ≠ 0 → lim ≤ us →
      (∀ j : HeadIx, k ≠ j → s.m.flag F.DBG_HS_EXPIRED 0 j = false → Gives (.hsHang k) s fun m =>
        m.flag F.DBG_HS_EXPIRED 0 k = true ∧ m.flag F.DBG_EVENT_HS_HANG = true ∧
        m.get F.DBG_FAULT_LAST_CODE = 0x1105 ∧ m.stewards = s.m.stewards) ∧
      ((∀ j : HeadIx, k ≠ j → s.m.flag F.DBG_HS_EXPIRED 0 j = true) → Gives (.hsHang k) s fun m =>
        m.flag F.DBG_EVENT_HS_HANG = true ∧ ∀ j : HeadIx, (m.steward (80 + j.val)).reset = true ∧ m.flag F.DBG_HS_EXPIRED 0 j = false)) ∧
    (lim = 0 ∨ us < lim → Does (.hsHang k) s s.m))

/-- STEWARD_RESET and HS_RESET clear a steward's registers and CSRs and hold it, its SRAMs kept; a mailbox that the block steward owned
becomes FREE with LOST. STEWARD_HALT with 1 does the same and holds it, and with 0 lets it start. STEWARD_RESET_RELEASE starts a steward
that no HALT holds, a head steward from its stage of boot on. No head steward resets itself, and no block steward a head steward; HS_RESET
is stated where the reset ends no LOAD (R258, R490, R523). -/
def Sys2Proof.Spec.StewardResets : Prop :=
  (∀ (s : State) (n : BlockIx), s.m.isOn n = true → Gives (.stewardReset n) s fun m =>
    (m.steward n).reset = true ∧ (m.steward n).x = [] ∧ (m.steward n).csrs = [] ∧ (m.steward n).pc = 0x1000000000000 ∧
    (m.steward n).isram = (s.m.steward n).isram ∧ (m.steward n).dsram = (s.m.steward n).dsram ∧
    m.get F.BLK_STW_CTRL_STATE n = 2 ∧
    (s.m.get F.BLK_MBOX_CTRL_OWNER n = 2 → m.get F.BLK_MBOX_CTRL_OWNER n = 0 ∧ m.get F.BLK_MBOX_CTRL_LOST n = 1) ∧
    (s.m.get F.BLK_MBOX_CTRL_OWNER n ≠ 2 → m.get F.BLK_MBOX_CTRL_OWNER n = s.m.get F.BLK_MBOX_CTRL_OWNER n)) ∧
  (∀ (s : State) (n : BlockIx), s.m.isOn n = true → s.m.flag F.BLK_STW_CTRL_HALT n = false →
    Gives (.stewardHalt n true) s fun m => m.flag F.BLK_STW_CTRL_HALT n = true ∧ (m.steward n).reset = true ∧
      (m.steward n).x = [] ∧ (m.steward n).csrs = [] ∧ (m.steward n).isram = (s.m.steward n).isram ∧
      (m.steward n).dsram = (s.m.steward n).dsram) ∧
  (∀ (s : State) (n : BlockIx), s.m.isOn n = true → s.m.flag F.BLK_STW_CTRL_HALT n = true →
    Gives (.stewardHalt n false) s fun m => m.flag F.BLK_STW_CTRL_HALT n = false ∧
      m.steward n = { s.m.steward n with reset := false } ∧ m.get F.BLK_STW_CTRL_STATE n = 0) ∧
  (∀ (s : State) (i : StewardIx), i.val < 80 → s.m.isOn i = true → (s.m.steward i).reset = true →
    (s.m.flag F.BLK_STW_CTRL_HALT i = false → Does (.stewardResetRelease i) s
      ((s.m.setSteward i { s.m.steward i with reset := false }).put F.BLK_STW_CTRL_STATE 0 i)) ∧
    (s.m.flag F.BLK_STW_CTRL_HALT i = true → Does (.stewardResetRelease i) s s.m)) ∧
  (∀ (s : State) (i : StewardIx), 80 ≤ i.val → (s.m.steward i).reset = true →
    (2 ≤ s.m.get F.KEP_STATUS_STAGE ∨ i.val = 80 ∧ 1 ≤ s.m.get F.KEP_STATUS_STAGE) →
    Does (.stewardResetRelease i) s (s.m.setSteward i { s.m.steward i with reset := false })) ∧
  (∀ (s : State) (k : HeadIx) (who : Requester) (loads : Bool), who ≠ .head k → (∀ n, who ≠ .block n) →
    (loads = false ∨ s.m.loadNow = none) → Gives (.hsReset k who loads) s fun m =>
    (m.steward (80 + k.val)).reset = true ∧ (m.steward (80 + k.val)).x = [] ∧ (m.steward (80 + k.val)).csrs = [] ∧
    (m.steward (80 + k.val)).isram = (s.m.steward (80 + k.val)).isram ∧
    (m.steward (80 + k.val)).dsram = (s.m.steward (80 + k.val)).dsram ∧ m.flag F.DBG_HS_EXPIRED 0 k = false) ∧
  (∀ (s : State) (k : HeadIx) (n : Nat) (loads : Bool), Does (.hsReset k (.head k) loads) s s.m ∧ Does (.hsReset k (.block n) loads) s s.m)

/-- Mailboxes, steward watchdogs and resets: Spec.MailboxHandshake, Spec.WatchdogsExpire, Spec.StewardResets. -/
def Obligations.MailboxesWatchdogsResets : Prop := Sys2Proof.Spec.MailboxHandshake ∧ Sys2Proof.Spec.WatchdogsExpire ∧ Sys2Proof.Spec.StewardResets

namespace Sys2Proof.Spec

/-- Steward i issues the 32-bit instruction w that stands at its pc. -/
abbrev AtWord (m : Lanorun) (i w : Nat) : Prop :=
  m.stwRuns i = true ∧ (m.steward i).wfi = false ∧ (m.steward i).stale = [] ∧ (m.steward i).fetchInstr 0 = .inr (w, 4) ∧
  (m.steward i).pc + 4 < 2 ^ 64

end Sys2Proof.Spec

/-- STEWARD_INSTRUCTION of a running steward: ADDI and ADD write rd modulo 2^64, x0 aside, and the pc moves on by 4; a word of the custom
opcode 0x7B traps with mcause 2 and ECALL with 11, mepc at the instruction, the pc at mtvec, MIE in MPIE and clear. A steward that does
not run executes nothing (R249). -/
def Sys2Proof.Spec.StewardInstructions : Prop :=
  (∀ (s : State) (i : StewardIx) (w : Nat), AtWord s.m i w → w % 128 = 0x13 → rvF3 w = 0 → Gives (.stewardInstruction i []) s fun m =>
    (m.steward i).rx (rvRd w) = (if rvRd w = 0 then 0 else ((s.m.steward i).rx (rvRs1 w) + immI w) % 2 ^ 64) ∧
    (∀ r, r ≠ rvRd w → (m.steward i).rx r = (s.m.steward i).rx r) ∧ (m.steward i).pc = (s.m.steward i).pc + 4 ∧
    (m.steward i).dsram = (s.m.steward i).dsram ∧ (m.steward i).isram = (s.m.steward i).isram ∧ m.cells = s.m.cells ∧
    m.vaults = s.m.vaults) ∧
  (∀ (s : State) (i : StewardIx) (w : Nat), AtWord s.m i w → w % 128 = 0x33 → rvF3 w = 0 → rvF7 w = 0 →
    Gives (.stewardInstruction i []) s fun m =>
      (m.steward i).rx (rvRd w) = (if rvRd w = 0 then 0 else
        ((s.m.steward i).rx (rvRs1 w) + (s.m.steward i).rx (rvRs2 w)) % 2 ^ 64) ∧
      (∀ r, r ≠ rvRd w → (m.steward i).rx r = (s.m.steward i).rx r) ∧ (m.steward i).pc = (s.m.steward i).pc + 4 ∧
      (m.steward i).dsram = (s.m.steward i).dsram ∧ m.cells = s.m.cells) ∧
  (∀ (s : State) (i : StewardIx) (w c : Nat), AtWord s.m i w → (w = 0x73 ∧ c = 11 ∨ w % 128 = 0x7B ∧ c = 2) →
    Gives (.stewardInstruction i []) s fun m => (m.steward i).csr 0x342 = c ∧ (m.steward i).csr 0x341 = (s.m.steward i).pc ∧
      (m.steward i).pc = (s.m.steward i).csr 0x305 / 4 * 4 ∧ (m.steward i).x = (s.m.steward i).x ∧
      ((m.steward i).csr 0x300).testBit 3 = false ∧
      ((m.steward i).csr 0x300).testBit 7 = ((s.m.steward i).csr 0x300).testBit 3 ∧ m.cells = s.m.cells) ∧
  (∀ (s : State) (i : StewardIx), s.m.stwRuns i = false → Does (.stewardInstruction i []) s s.m)

/-- WFI stops a steward's issue while no enabled interrupt is pending. WIDE_WRITE, the CSRRW of vwidego with an aligned cell-store address
that the steward reaches, stores the 32 bytes of the wide registers. STEWARD_TIMER brings hall time to vtimecmp within its frame.
STEWARD_INTERRUPT traps for a pending enabled interrupt while MIE is 1, the external before the timer, at mtvec, vectored in mode 1; else
it does nothing (R249, R253 to R255). -/
def Sys2Proof.Spec.StewardWaitsAndInterrupts : Prop :=
  (∀ (s : State) (i : StewardIx), AtWord s.m i 0x10500073 → s.m.stwPending i = 0 → Gives (.wfi i) s fun m =>
    (m.steward i).wfi = true ∧ (m.steward i).pc = (s.m.steward i).pc + 4 ∧ (m.steward i).x = (s.m.steward i).x ∧
    (i.val < 80 → m.get F.BLK_STW_CTRL_STATE i = 1) ∧ m.cells = s.m.cells) ∧
  (∀ (s : State) (i : StewardIx) (w p o : Nat), AtWord s.m i w → w % 128 = 0x73 → bitsOf w 31 20 = 0x7C8 → rvF3 w = 1 →
    (s.m.steward i).rx (rvRs1 w) % 32 = 0 → spaceFor i ((s.m.steward i).rx (rvRs1 w)) = .store p o →
    s.m.stwReaches i (.store p o) = true → Gives (.wideWrite i) s fun m =>
      m.cell p = (s.m.cell p).meshWrite o (s.m.steward i).wide ∧ (∀ c, c ≠ p → m.cell c = s.m.cell c) ∧
      (m.steward i).pc = (s.m.steward i).pc + 4 ∧ m.vaults = s.m.vaults) ∧
  (∀ (s : State) (i : StewardIx),
    ((s.m.steward i).csr 0x7C0 / 4000 = s.m.frame → Does (.stewardTimer i) s
      (s.m.setHall fun h => { h with lat := max h.lat (latOf ((s.m.steward i).csr 0x7C0)) })) ∧
    ((s.m.steward i).csr 0x7C0 / 4000 ≠ s.m.frame → Does (.stewardTimer i) s s.m)) ∧
  (∀ (s : State) (i : StewardIx), s.m.stwRuns i = true → ((s.m.steward i).csr 0x300).testBit 3 = true →
    s.m.stwPending i ≠ 0 → (s.m.steward i).pc < 2 ^ 64 →
    Gives (.stewardInterrupt i) s fun m =>
      let x := s.m.steward i
      let y := m.steward i
      let cause := if (s.m.stwPending i).testBit 11 then 11 else 7
      y.csr 0x342 = 2 ^ 63 + cause ∧ y.csr 0x341 = x.pc ∧
      y.pc = (x.csr 0x305 / 4 * 4 + (if x.csr 0x305 % 4 = 1 then 4 * cause else 0)) % 2 ^ 64 ∧
      (y.csr 0x300).testBit 3 = false ∧ (y.csr 0x300).testBit 7 = true ∧ y.x = x.x ∧ y.wfi = false) ∧
  (∀ (s : State) (i : StewardIx), (s.m.stwRuns i = false ∨ ((s.m.steward i).csr 0x300).testBit 3 = false ∨ s.m.stwPending i = 0) →
    Does (.stewardInterrupt i) s s.m)

/-- Steward instructions, waits, traps and interrupts: Spec.StewardInstructions, Spec.StewardWaitsAndInterrupts. The machine-mode
registers are those of log entries 52 to 55. -/
def Obligations.StewardsRun : Prop := Sys2Proof.Spec.StewardInstructions ∧ Sys2Proof.Spec.StewardWaitsAndInterrupts


/-! ## Link ports (R276 to R310) -/

namespace Sys2Proof.Spec

/-- Every port but p is as it was, and so are the cells, the vaults and hall time. -/
def OnPort (p : Nat) (m n : Lanorun) : Prop :=
  (∀ q, q ≠ p → n.port q = m.port q) ∧ n.cells = m.cells ∧ n.vaults = m.vaults ∧ n.hall = m.hall

/-- Port p is DOWN: LINK_DOWN is recorded, its buffers and credits are written off, and its probation and discard mode are over; with a
plan active it is RETIRED and every RUNNING tenancy with a range on it has faulted, and without one no other port changes. -/
def WentDown (p : Nat) (m n : Lanorun) : Prop :=
  n.linkState p = 7 ∧ n.get F.LNK_STATUS_LAST_CODE p = 0x0905 ∧ n.flag F.LNK_EVENT_DOWN p = true ∧
  n.get F.LNK_STATUS_PROBATION p = 0 ∧ n.get F.LNK_SEQ_DISCARD p = 0 ∧
  n.port p = { ut := (m.port p).ut, scramblers := (n.port p).scramblers, wire := (n.port p).wire } ∧
  (∀ t, t < 4 → n.reg R.LNK_CREDIT_TX p t = 0 ∧ n.reg R.LNK_CREDIT_RX p t = 0) ∧
  (m.planActive = true → m.plan.active ≠ none → n.flag F.LNK_STATUS_RETIRED p = true ∧
    ∀ t ∈ m.portTens p, t < 16 → m.tenState t = tenRunning → (n.ten t).fault ≠ none) ∧
  (m.planActive = false → ∀ q, q ≠ p → n.port q = m.port q) ∧
  n.cells = m.cells ∧ n.vaults = m.vaults ∧ n.hall = m.hall

/-- Port p is in DETECT with its transmit PLL in calibration, nothing in its buffers, and its path to be measured anew. -/
def Detects (p : Nat) (m n : Lanorun) : Prop :=
  n.linkState p = 1 ∧ n.get F.LNK_STATUS_PLL p = 2 ∧ n.port p = { ut := (m.port p).ut } ∧
  n.ptime p = { m.ptime p with done := false, run := 0, rtt := 0, ofs := 0, arrive := none, since := 5 } ∧
  (∀ q, q ≠ p → n.port q = m.port q ∧ n.ptime q = m.ptime q) ∧ n.cells = m.cells ∧ n.vaults = m.vaults

/-- Port p is ACTIVE again after a retrain: it replays all that its peer has not had, from the number k; after a retrain for the replay
limit it is on probation for 256 frames. -/
def Resumes (p k : Nat) (m n : Lanorun) : Prop :=
  n.linkState p = 5 ∧ n.get F.LNK_STATUS_PLL p = 0 ∧ n.flag F.LNK_EVENT_ACTIVE p = true ∧
  (n.port p).replay = (if k = m.get F.LNK_SEQ_TX_NEXT p then none else some k) ∧
  (k ≠ m.get F.LNK_SEQ_TX_NEXT p → n.get F.LNK_SEQ_REPLAY_FROM p = k % 2 ^ 14 ∧ n.flag F.LNK_EVENT_REPLAY p = true) ∧
  (n.port p).replayEnd = m.get F.LNK_SEQ_TX_NEXT p ∧ (n.port p).buffer = (m.port p).buffer ∧
  ((m.port p).limit = true → n.flag F.LNK_STATUS_PROBATION p = true ∧ (n.port p).probEnd = m.frame + 256) ∧ OnPort p m n

/-- What the lanes of port p carry for a unit, and the scramblers' next states. -/
def onLanes (m : Lanorun) (p kind seq : Nat) (bs : List (BitVec 8)) : List (Nat × List (BitVec 2)) × List (BitVec 31) :=
  wireUnit (m.port p).scramblers
    (laneWords (if m.get F.LNK_STATUS_TX_WIDTH p = 1 then some (m.get F.LNK_STATUS_TX_HALF p) else none) kind seq (pad64 bs))

/-- The unit times that one unit takes. -/
def unitTimes (m : Lanorun) (p : Nat) : Nat := if m.get F.LNK_STATUS_TX_WIDTH p = 1 then 2 else 1

/-- Port p is ACTIVE in a frame's unit times, its PLL is not in calibration, no VC0 unit becomes due now, and no NAK and no lag episode is
open. -/
abbrev Transmits (p : Nat) (m : Lanorun) : Prop :=
  m.linkState p = 5 ∧ m.frozen = false ∧ (m.port p).ut < 12500 ∧ m.calibrating p = false ∧
  (∀ k, k < 2 → m.dueAt p ((m.port p).ut + k) = []) ∧ (m.port p).nak = none ∧ (m.port p).cause = none

/-- No fixed position and no control unit comes before the flits of port p. -/
abbrev NothingWaits (p : Nat) (m : Lanorun) : Prop :=
  fixedAt (m.port p).ut (unitTimes m p) = none ∧ (m.port p).nakOut = none ∧ (m.port p).cal = 0 ∧ (m.port p).ctl = []

end Sys2Proof.Spec

/-- Training, from DISABLED to the reach check. ENABLE = 1 in DISABLED enters DETECT, and clearing it in DOWN or TEST disables the port;
signal on every lane of a half leads to EQUALISE with the PLL locked, and less changes nothing; EQUALISE with a usable width in both
directions leads to CONFIG with new scrambler seeds, and in RETRAIN to CONFIG units, and its time limit takes the port DOWN; a CONFIG unit
whose sender has seen ours agrees the highest common version and leads to CALIBRATE, and a foreign peer takes the port DOWN; after two
frames of exchanges CALIBRATE waits for the Bell, or fails its reach check. -/
def Sys2Proof.Spec.LinkTrains : Prop :=
  (∀ (s : State) (p : PortIx), s.m.linkState p = 0 → Gives (.linkEnableWrite p true) s fun m =>
    m.flag F.LNK_CTRL_ENABLE p = true ∧ Detects p s.m m) ∧
  (∀ (s : State) (p : PortIx), (s.m.linkState p = 7 ∨ s.m.linkState p = 8) → Gives (.linkEnableWrite p false) s fun m =>
    m.flag F.LNK_CTRL_ENABLE p = false ∧ m.linkState p = 0 ∧ m.get F.LNK_STATUS_TX_WIDTH p = 0 ∧
    m.get F.LNK_STATUS_RX_WIDTH p = 0 ∧ m.get F.LNK_STATUS_PLL p = 3 ∧ m.ports = s.m.ports ∧ OnPort p s.m m) ∧
  (∀ (s : State) (p : PortIx) (lanes : BitVec 16), s.m.linkState p = 1 →
    (lanes.toNat % 256 = 255 ∨ lanes.toNat / 256 = 255) → Gives (.signalDetect p lanes) s fun m =>
      m.linkState p = 2 ∧ m.get F.LNK_STATUS_PLL p = 0 ∧ m.get F.LNK_PLL_TEMP_CAL p = s.m.get F.LNK_PLL_TEMP p ∧
      m.ports = s.m.ports ∧ OnPort p s.m m) ∧
  (∀ (s : State) (p : PortIx) (lanes : BitVec 16), lanes.toNat % 256 ≠ 255 → lanes.toNat / 256 ≠ 255 →
    Does (.signalDetect p lanes) s s.m) ∧
  (∀ (s : State) (p : PortIx) (rx tx pol : BitVec 16) (rev : Bool) (wr wt : Nat × Nat), s.m.linkState p = 2 →
    wr = widthOf rx.toNat (s.m.flag F.LNK_CTRL_HALF_EN p && decide (2 ≤ s.m.versions p)) →
    wt = widthOf tx.toNat (s.m.flag F.LNK_CTRL_HALF_EN p && decide (2 ≤ s.m.versions p)) → wr.1 ≠ 0 → wt.1 ≠ 0 →
    Gives (.equaliseDone p rx tx pol rev) s fun m => m.linkState p = 3 ∧
      m.get F.LNK_STATUS_RX_WIDTH p = wr.1 ∧ m.get F.LNK_STATUS_RX_HALF p = wr.2 ∧
      m.get F.LNK_STATUS_TX_WIDTH p = wt.1 ∧ m.get F.LNK_STATUS_TX_HALF p = wt.2 ∧
      m.get F.LNK_LANES_RX_GOOD p = rx.toNat ∧ m.get F.LNK_LANES_TX_GOOD p = tx.toNat ∧
      m.get F.LNK_LANES_POLARITY p = pol.toNat ∧ m.flag F.LNK_LANES_REVERSED p = rev ∧
      (m.port p).scramblers = (List.range 16).map (Config.scramblerSeed s.m.freeCtr) ∧ OnPort p s.m m) ∧
  (∀ (s : State) (p : PortIx) (rx tx pol : BitVec 16) (rev : Bool), s.m.linkState p = 9 → rx = 0xFFFF → tx = 0xFFFF →
    Gives (.equaliseDone p rx tx pol rev) s fun m => m.linkState p = 9 ∧ m.port p = { s.m.port p with
      reConf := true, peerSeen := false, scramblers := (List.range 16).map (Config.scramblerSeed s.m.freeCtr) } ∧ OnPort p s.m m) ∧
  (∀ (s : State) (p : PortIx), s.m.linkState p = 2 → Gives (.equaliseTimeout p) s fun m =>
    m.flag F.LNK_EVENT_TRAIN_FAIL p = true ∧ WentDown p s.m m) ∧
  (∀ (s : State) (p : PortIx) (f : BitVec 512) (t : Int) (both v : Nat), ctlOk (flitBytes f) = true → fieldAt (flitBytes f) 0 1 = 4 →
    s.m.linkState p = 3 → (s.m.flag F.LNK_PEER_EXP_EN p = true → fieldAt (flitBytes f) 4 2 % 2 ^ 14 = s.m.get F.LNK_PEER_EXP_ID p) →
    fieldAt (flitBytes f) 3 1 / 2 % 2 = 1 → both = s.m.versions p &&& fieldAt (flitBytes f) 1 1 →
    v = (if both.testBit 2 then 3 else if both.testBit 1 then 2 else both % 2) → v ≠ 0 →
    (v = 1 → s.m.get F.LNK_STATUS_RX_WIDTH p ≠ 1 ∧ s.m.get F.LNK_STATUS_TX_WIDTH p ≠ 1) →
    Gives (.configReceive p f t) s fun m =>
      m.linkState p = 4 ∧ m.get F.LNK_STATUS_VERSION p = v ∧
      m.get F.LNK_STATUS_PEER_ID p = fieldAt (flitBytes f) 4 2 % 2 ^ 14 ∧
      m.get F.LNK_STATUS_PEER_PORT p = fieldAt (flitBytes f) 2 1 % 32 ∧ (m.port p).peerSeen = true ∧
      (m.ptime p).locTxrx = t ∧ m.cells = s.m.cells ∧ m.vaults = s.m.vaults ∧ ∀ q, q ≠ p.val → m.port q = s.m.port q) ∧
  (∀ (s : State) (p : PortIx) (f : BitVec 512) (t : Int), ctlOk (flitBytes f) = true → fieldAt (flitBytes f) 0 1 = 4 →
    s.m.linkState p = 3 → s.m.flag F.LNK_PEER_EXP_EN p = true → fieldAt (flitBytes f) 4 2 % 2 ^ 14 ≠ s.m.get F.LNK_PEER_EXP_ID p →
    Gives (.configReceive p f t) s fun m => WentDown p s.m m) ∧
  (∀ (s : State) (p : PortIx) (f : BitVec 512) (t : Int), ctlOk (flitBytes f) = false →
    Gives (.configReceive p f t) s fun m => m.linkState p = s.m.linkState p ∧ m.flag F.LNK_EVENT_CTL_BAD p = true ∧
      m.get F.LNK_STATUS_LAST_CODE p = 0x090A ∧ m.ports = s.m.ports) ∧
  (∀ (s : State) (p : PortIx), s.m.linkState p = 4 → 2 ≤ (s.m.ptime p).run →
    s.m.rttUnits p + 128 ≤ s.m.outMax p + 1 →
    Does (.calibrateDone p) s (s.m.setPort p { s.m.port p with toActive := true })) ∧
  (∀ (s : State) (p : PortIx), s.m.linkState p = 4 → 2 ≤ (s.m.ptime p).run →
    s.m.outMax p + 1 < s.m.rttUnits p + 128 → Gives (.calibrateDone p) s fun m =>
      m.flag F.LNK_EVENT_TRAIN_FAIL p = true ∧ WentDown p s.m m)

/-- The moves between DOWN, DETECT, FRT, RETRAIN and ACTIVE: the retry of a DOWN port with AUTO_TRAIN, CMD = RETRAIN and DOWN, the time limits of
FRT and of the long retrain, the end of each, a peer's DOWN_NOTICE, the loss of lanes with its FRT or its DOWN, and an FRT_REQ that
starts an FRT or narrows the transmit direction. -/
def Sys2Proof.Spec.LinkStateMoves : Prop :=
  (∀ (s : State) (p : PortIx), s.m.linkState p = 7 → s.m.flag F.LNK_CTRL_AUTO_TRAIN p = true →
    Gives (.downRetry p) s fun m => Detects p s.m m) ∧
  (∀ (s : State) (p : PortIx), s.m.linkState p = 7 → s.m.flag F.LNK_CTRL_AUTO_TRAIN p = false → Does (.downRetry p) s s.m) ∧
  (∀ (s : State) (p : PortIx), (s.m.linkState p = 7 ∨ s.m.linkState p = 8) → Gives (.retrain p) s fun m => Detects p s.m m) ∧
  (∀ (s : State) (p : PortIx), s.m.linkState p = 5 → Gives (.retrain p) s fun m =>
    m.linkState p = 1 ∧ m.get F.LNK_STATUS_PLL p = 2 ∧ m.flag F.LNK_EVENT_DOWN p = true ∧ m.port p = { ut := (s.m.port p).ut } ∧
    m.cells = s.m.cells ∧ m.vaults = s.m.vaults) ∧
  (∀ (s : State) (p : PortIx), s.m.linkState p = 5 → Gives (.down p) s fun m => WentDown p s.m m ∧
    ((m.port p).wire, (m.port p).scramblers) = onLanes s.m p 0 (s.m.get F.LNK_SEQ_TX_NEXT p) ([7#8, 0#8] ++ leBytes 2 0x0905)) ∧
  (∀ (s : State) (p : PortIx), s.m.linkState p = 6 → Gives (.frtTimeout p) s fun m => WentDown p s.m m) ∧
  (∀ (s : State) (p : PortIx), s.m.linkState p = 9 → Gives (.retrainTimeout p) s fun m => WentDown p s.m m) ∧
  (∀ (s : State) (p : PortIx) (k : Nat), s.m.linkState p = 6 → (s.m.port p).peerExpect = some k →
    Gives (.frtDone p) s fun m => Resumes p k s.m m) ∧
  (∀ (s : State) (p : PortIx) (e : BitVec 14), s.m.linkState p = 9 → (s.m.port p).reConf = true → (s.m.port p).peerSeen = true →
    Does (.retrainDone p e) s (s.m.setPort p { s.m.port p with toActive := true, peerExpect := some e.toNat })) ∧
  (∀ (s : State) (p : PortIx) (f : BitVec 512), ctlOk (flitBytes f) = true → fieldAt (flitBytes f) 0 1 = 7 →
    (3 ≤ s.m.linkState p ∧ s.m.linkState p ≤ 6 ∨ s.m.linkState p = 9) →
    Gives (.downNoticeReceive p f) s fun m => WentDown p s.m m) ∧
  (∀ (s : State) (p : PortIx) (good : BitVec 16), (s.m.linkState p = 5 ∨ s.m.linkState p = 6) → (s.m.port p).peerCal ≠ some s.m.frame →
    stillGood (s.m.get F.LNK_STATUS_RX_WIDTH p) (s.m.get F.LNK_STATUS_RX_HALF p) good.toNat = true →
    Does (.laneLockLoss p good) s (s.m.put F.LNK_LANES_RX_GOOD good.toNat p)) ∧
  (∀ (s : State) (p : PortIx) (good : BitVec 16), (s.m.linkState p = 5 ∨ s.m.linkState p = 6) → (s.m.port p).peerCal ≠ some s.m.frame →
    stillGood (s.m.get F.LNK_STATUS_RX_WIDTH p) (s.m.get F.LNK_STATUS_RX_HALF p) good.toNat = false →
    (s.m.get F.LNK_STATUS_RX_WIDTH p ≠ 2 ∨ (widthOf good.toNat (s.m.halfAllowed p)).1 = 0) →
    Gives (.laneLockLoss p good) s fun m => WentDown p s.m m) ∧
  (∀ (s : State) (p : PortIx) (good : BitVec 16) (h : Nat), (s.m.linkState p = 5 ∨ s.m.linkState p = 6) →
    (s.m.port p).peerCal ≠ some s.m.frame → s.m.get F.LNK_STATUS_RX_WIDTH p = 2 →
    widthOf good.toNat (s.m.halfAllowed p) = (1, h) → Gives (.laneLockLoss p good) s fun m =>
      m.linkState p = 6 ∧ m.get F.LNK_STATUS_PLL p = 2 ∧ m.get F.LNK_STATUS_RX_WIDTH p = 1 ∧ m.get F.LNK_STATUS_RX_HALF p = h ∧
      m.flag F.LNK_EVENT_LANE_LOSS p = true ∧ (m.port p).ctl = (s.m.port p).ctl ++ [[5#8, 0#8] ++ leBytes 2 good.toNat ++
        leBytes 2 (s.m.get F.LNK_SEQ_RX_EXPECT p)] ∧ (m.port p).buffer = (s.m.port p).buffer ∧ OnPort p s.m m) ∧
  (∀ (s : State) (p : PortIx) (f : BitVec 512), ctlOk (flitBytes f) = true → fieldAt (flitBytes f) 0 1 = 5 → s.m.linkState p = 5 →
    (fieldAt (flitBytes f) 1 1 ≠ 0 ∨ stillGood (s.m.get F.LNK_STATUS_TX_WIDTH p) (s.m.get F.LNK_STATUS_TX_HALF p)
      (fieldAt (flitBytes f) 2 2) = true) →
    Gives (.frtReqReceive p f) s fun m =>
      m.linkState p = 6 ∧ m.get F.LNK_STATUS_PLL p = 2 ∧ m.get F.LNK_LANES_TX_GOOD p = fieldAt (flitBytes f) 2 2 ∧
      (m.port p).peerExpect = some (fieldAt (flitBytes f) 4 2 % 2 ^ 14) ∧ (m.port p).buffer = (s.m.port p).buffer ∧
      OnPort p s.m m) ∧
  (∀ (s : State) (p : PortIx) (f : BitVec 512) (h : Nat), ctlOk (flitBytes f) = true → fieldAt (flitBytes f) 0 1 = 5 →
    (s.m.linkState p = 5 ∨ s.m.linkState p = 6) → fieldAt (flitBytes f) 1 1 = 0 → s.m.get F.LNK_STATUS_TX_WIDTH p = 2 →
    widthOf (fieldAt (flitBytes f) 2 2) (s.m.halfAllowed p) = (1, h) → Gives (.frtReqReceive p f) s fun m =>
      m.linkState p = 6 ∧ m.get F.LNK_STATUS_TX_WIDTH p = 1 ∧ m.get F.LNK_STATUS_TX_HALF p = h ∧
      (m.port p).peerExpect = some (fieldAt (flitBytes f) 4 2 % 2 ^ 14) ∧ OnPort p s.m m)

/-- Links train, and move between their states: Spec.LinkTrains, Spec.LinkStateMoves. Where the spec leaves a point open it takes
the model's convention of log entries 65 and 66. -/
def Obligations.LinksTrainAndMove : Prop := Sys2Proof.Spec.LinkTrains ∧ Sys2Proof.Spec.LinkStateMoves

/-- Sequence and replay. A flit unit with odd parity on every lane whose SEQ is RX_EXPECT is accepted and RX_EXPECT moves on by 1, and a control
packet that it carries enters the receive buffer; a parity error in a port that receives, or another SEQ in ACTIVE, outside discard mode
enters discard mode with a NAK, which is repeated after rtt + 256 unit times; LSTAT frees what it acknowledges and sets each credit limit
that lies within the peer's capacity; a NAK names where the replay begins, which starts later, or reaches the replay limit, or is ignored
where its unit is not held; a port's probation ends at its frame. -/
def Sys2Proof.Spec.SequenceAndReplay : Prop :=
  (∀ (s : State) (p : PortIx) (w : BitVec 544), s.m.linkState p = 5 → s.m.frozen = false → unitParity w = true →
    unitControl w / 2 ^ 14 ≠ 0 → unitControl w % 2 ^ 14 = s.m.get F.LNK_SEQ_RX_EXPECT p →
    Gives (.flitUnitReceive p w) s fun m =>
      m.get F.LNK_SEQ_RX_EXPECT p = (s.m.get F.LNK_SEQ_RX_EXPECT p + 1) % 2 ^ 14 ∧ m.get F.LNK_SEQ_DISCARD p = 0 ∧
      (m.port p).accepted = true ∧ m.linkState p = 5 ∧ OnPort p s.m m) ∧
  (∀ (s : State) (p : PortIx) (w : BitVec 544) (k : Packet), s.m.linkState p = 5 → s.m.frozen = false → unitParity w = true →
    k = { hdr := unitFlit w } → k.fmt = 1 → k.known = true → unitControl w / 2 ^ 14 = vcOf k.tc →
    unitControl w % 2 ^ 14 = s.m.get F.LNK_SEQ_RX_EXPECT p → (∀ q ∈ (s.m.port p).parts, q.1 ≠ vcOf k.tc) →
    Gives (.flitUnitReceive p w) s fun m =>
      (m.port p).arrived = (s.m.port p).arrived ++ [{ k with port := some p.val }]) ∧
  (∀ (s : State) (p : PortIx) (w : BitVec 544), s.m.flag F.LNK_SEQ_DISCARD p = false →
    (s.m.receives p = true ∧ unitParity w = false ∨ s.m.linkState p = 5 ∧ s.m.frozen = false ∧ unitControl w / 2 ^ 14 ≠ 0 ∧
      unitControl w % 2 ^ 14 ≠ s.m.get F.LNK_SEQ_RX_EXPECT p) →
    Gives (.flitUnitReceive p w) s fun m => m.get F.LNK_SEQ_DISCARD p = 1 ∧ m.get F.LNK_STATUS_LAST_CODE p = 0x0901 ∧
      m.flag F.LNK_EVENT_PARITY p = true ∧ m.get F.LNK_SEQ_RX_EXPECT p = s.m.get F.LNK_SEQ_RX_EXPECT p ∧
      (m.port p).nakOut = some ([2#8, 0#8] ++ leBytes 2 (s.m.get F.LNK_SEQ_RX_EXPECT p)) ∧ OnPort p s.m m) ∧
  (∀ (s : State) (p : PortIx), s.m.linkState p = 5 → s.m.flag F.LNK_SEQ_DISCARD p = true → (s.m.port p).nakOut = none →
    (s.m.port p).nakAt + s.m.rttUnits p + 256 ≤ s.m.unitNow p →
    Does (.nakTimeout p) s (s.m.setPort p { s.m.port p with nakOut := some ([2#8, 1#8] ++ leBytes 2 (s.m.get F.LNK_SEQ_RX_EXPECT p)) })) ∧
  (∀ (s : State) (p : PortIx) (f : BitVec 512) (a : List TxUnit) (u : TxUnit) (b : List TxUnit),
    ctlOk (flitBytes f) = true → fieldAt (flitBytes f) 0 1 = 1 → fieldAt (flitBytes f) 1 1 % 2 = 1 →
    (s.m.port p).buffer = a ++ u :: b → u.seq = fieldAt (flitBytes f) 2 2 % 2 ^ 14 → (∀ v ∈ a, v.seq ≠ u.seq) →
    Gives (.lstatReceive p f) s fun m => (m.port p).buffer = b ∧ m.get F.LNK_SEQ_TX_ACKED p = u.seq ∧
      m.get F.LNK_SEQ_TX_NEXT p = s.m.get F.LNK_SEQ_TX_NEXT p ∧ OnPort p s.m m) ∧
  (∀ (s : State) (p : PortIx) (f : BitVec 512), ctlOk (flitBytes f) = true → fieldAt (flitBytes f) 0 1 = 1 →
    Gives (.lstatReceive p f) s fun m => ∀ t, t < 4 →
      m.get F.LNK_CREDIT_TX_HDR_LIM p t =
        (if (fieldAt (flitBytes f) (4 + 4 * t) 2 + 2 ^ 16 - s.m.get F.LNK_CREDIT_TX_HDR_CONS p t) % 2 ^ 16 ≤
            sget 0 (s.m.port p).peerCaps (2 * t) then fieldAt (flitBytes f) (4 + 4 * t) 2
         else s.m.get F.LNK_CREDIT_TX_HDR_LIM p t) ∧
      m.get F.LNK_CREDIT_TX_DATA_LIM p t =
        (if (fieldAt (flitBytes f) (6 + 4 * t) 2 + 2 ^ 16 - s.m.get F.LNK_CREDIT_TX_DATA_CONS p t) % 2 ^ 16 ≤
            sget 0 (s.m.port p).peerCaps (2 * t + 1) then fieldAt (flitBytes f) (6 + 4 * t) 2
         else s.m.get F.LNK_CREDIT_TX_DATA_LIM p t)) ∧
  (∀ (s : State) (p : PortIx) (f : BitVec 512) (u : TxUnit), ctlOk (flitBytes f) = true → fieldAt (flitBytes f) 0 1 = 2 →
    s.m.linkState p = 5 → (s.m.port p).buffer.find? (·.seq = fieldAt (flitBytes f) 2 2 % 2 ^ 14) = some u →
    u.count ≠ s.m.replayMax p → (s.m.port p).due = [] → (∀ v ∈ (s.m.port p).buffer, v.due = none) →
    Does (.nakReceive p f) s (s.m.setPort p { s.m.port p with nak := some u.seq, replay := none })) ∧
  (∀ (s : State) (p : PortIx) (f : BitVec 512) (u : TxUnit), ctlOk (flitBytes f) = true → fieldAt (flitBytes f) 0 1 = 2 →
    s.m.linkState p = 5 → (s.m.port p).buffer.find? (·.seq = fieldAt (flitBytes f) 2 2 % 2 ^ 14) = some u →
    u.count = s.m.replayMax p → s.m.flag F.LNK_STATUS_PROBATION p = false → Gives (.nakReceive p f) s fun m =>
      m.linkState p = (if 2 ≤ s.m.get F.LNK_STATUS_VERSION p then 6 else 9) ∧ m.flag F.LNK_EVENT_RETRAIN p = true ∧
      m.get F.LNK_STATUS_LAST_CODE p = 0x0903 ∧ (m.port p).limit = true ∧
      (m.port p).buffer = (s.m.port p).buffer.map (fun u => { u with count := 0 }) ∧ OnPort p s.m m) ∧
  (∀ (s : State) (p : PortIx) (f : BitVec 512), ctlOk (flitBytes f) = true → fieldAt (flitBytes f) 0 1 = 2 →
    s.m.receives p = true → (∀ u ∈ (s.m.port p).buffer, u.seq ≠ fieldAt (flitBytes f) 2 2 % 2 ^ 14) →
    Gives (.nakReceive p f) s fun m => m.flag F.LNK_EVENT_CTL_BAD p = true ∧ m.ports = s.m.ports ∧
      m.linkState p = s.m.linkState p) ∧
  (∀ (s : State) (p : PortIx) (k : Nat), (s.m.port p).nak = some k → Gives (.replayStart p) s fun m =>
    (m.port p).nak = none ∧ (m.port p).replay = some k ∧ (m.port p).replayEnd = s.m.get F.LNK_SEQ_TX_NEXT p ∧
    m.get F.LNK_SEQ_REPLAY_FROM p = k % 2 ^ 14 ∧ m.get F.LNK_STATUS_LAST_CODE p = 0x0902 ∧ m.flag F.LNK_EVENT_REPLAY p = true ∧
    (m.port p).buffer.map (·.seq) = (s.m.port p).buffer.map (·.seq) ∧ OnPort p s.m m) ∧
  (∀ (s : State) (p : PortIx), (s.m.port p).probEnd ≤ s.m.frame →
    Does (.probationEnd p) s (s.m.put F.LNK_STATUS_PROBATION 0 p)) ∧
  (∀ (s : State) (p : PortIx), s.m.frame < (s.m.port p).probEnd → Does (.probationEnd p) s s.m)

/-- What a port does in one unit time, two at half width: an ACTIVE port with nothing late sends TIME and LSTAT at their positions, there and
elsewhere IDLE where nothing else waits, a waiting NAK, a replayed unit with its own SEQ, or the due unit whose flit is ready, which it
keeps until it is acknowledged; in its calibration it is silent. A held VC0 unit whose lateness passes CARRY_UT faults its tenancy and
leaves the due queue. CMD = PLL_CAL announces a calibration, a CAL_NOTICE is noted, a calibration's end locks the PLL, and more than 10 °C
from the last calibration is drift; CMD = TEST, START and STOP run the test mode, and are refused outside it. -/
def Sys2Proof.Spec.LinkUnitTimes : Prop :=
  (∀ (s : State) (p : PortIx), Transmits p s.m → (s.m.port p).due = [] → (s.m.port p).replay = none →
    fixedAt (s.m.port p).ut (unitTimes s.m p) = some true → Gives (.linkUnitTransmit p) s fun m =>
      ((m.port p).wire, (m.port p).scramblers) = onLanes s.m p 0 (s.m.get F.LNK_SEQ_TX_NEXT p) (s.m.timeUnit p) ∧
      (m.port p).ut = (s.m.port p).ut + unitTimes s.m p ∧ (m.port p).buffer = (s.m.port p).buffer ∧ OnPort p s.m m) ∧
  (∀ (s : State) (p : PortIx), Transmits p s.m → (s.m.port p).due = [] → (s.m.port p).replay = none → (s.m.port p).leaves = [] →
    fixedAt (s.m.port p).ut (unitTimes s.m p) = some false → Gives (.linkUnitTransmit p) s fun m =>
      ((m.port p).wire, (m.port p).scramblers) = onLanes s.m p 0 (s.m.get F.LNK_SEQ_TX_NEXT p) (s.m.lstat p) ∧
      (m.port p).ut = (s.m.port p).ut + unitTimes s.m p ∧ (m.port p).buffer = (s.m.port p).buffer ∧ OnPort p s.m m) ∧
  (∀ (s : State) (p : PortIx) (b : List (BitVec 8)), Transmits p s.m → (s.m.port p).due = [] → (s.m.port p).replay = none →
    fixedAt (s.m.port p).ut (unitTimes s.m p) = none → (s.m.port p).nakOut = some b → Gives (.linkUnitTransmit p) s fun m =>
      ((m.port p).wire, (m.port p).scramblers) = onLanes s.m p 0 (s.m.get F.LNK_SEQ_TX_NEXT p) b ∧
      (m.port p).nakOut = none ∧ (m.port p).nakAt = s.m.unitNow p ∧ (m.port p).ut = (s.m.port p).ut + unitTimes s.m p ∧
      OnPort p s.m m) ∧
  (∀ (s : State) (p : PortIx) (k : Nat) (u : TxUnit), Transmits p s.m → NothingWaits p s.m → (s.m.port p).due = [] →
    (∀ v ∈ (s.m.port p).buffer, v.due = none) → (s.m.port p).replay = some k →
    (s.m.port p).buffer.find? (·.seq = k) = some u → Gives (.linkUnitTransmit p) s fun m =>
      ((m.port p).wire, (m.port p).scramblers) = onLanes s.m p u.kind u.seq u.bytes ∧
      (m.port p).replay = (if (u.seq + 1) % 2 ^ 14 = (s.m.port p).replayEnd then none else some ((u.seq + 1) % 2 ^ 14)) ∧
      (m.port p).buffer = (s.m.port p).buffer ∧ m.get F.LNK_SEQ_TX_NEXT p = s.m.get F.LNK_SEQ_TX_NEXT p ∧ OnPort p s.m m) ∧
  (∀ (s : State) (p : PortIx) (d : DueUnit) (f : VcFlit), Transmits p s.m → NothingWaits p s.m → (s.m.port p).replay = none →
    (s.m.port p).due = [d] → d.sched = s.m.unitNow p → s.m.headFlit p = some (d, f) → f.nflit = none →
    (s.m.port p).buffer.length < s.m.outMax p → Gives (.linkUnitTransmit p) s fun m =>
      ((m.port p).wire, (m.port p).scramblers) = onLanes s.m p 1 (s.m.get F.LNK_SEQ_TX_NEXT p) f.bytes ∧ (m.port p).due = [] ∧
      (m.port p).flits = (s.m.port p).flits.erase f ∧ (m.port p).buffer = (s.m.port p).buffer ++
        [{ kind := 1, seq := s.m.get F.LNK_SEQ_TX_NEXT p, bytes := pad64 f.bytes, due := some d }] ∧
      m.get F.LNK_SEQ_TX_NEXT p = (s.m.get F.LNK_SEQ_TX_NEXT p + 1) % 2 ^ 14 ∧ OnPort p s.m m) ∧
  (∀ (s : State) (p : PortIx), Transmits p s.m → NothingWaits p s.m → (s.m.port p).replay = none → (s.m.port p).due = [] →
    (s.m.port p).leaves = [] → (s.m.port p).rest = [] → (s.m.port p).vc1 = [] → (s.m.port p).vc2 = [] →
    Gives (.linkUnitTransmit p) s fun m =>
      m.port p = { s.m.port p with ut := (s.m.port p).ut + unitTimes s.m p,
                                   wire := (onLanes s.m p 0 (s.m.get F.LNK_SEQ_TX_NEXT p) [0#8]).1,
                                   scramblers := (onLanes s.m p 0 (s.m.get F.LNK_SEQ_TX_NEXT p) [0#8]).2 } ∧
      m.regs = s.m.regs ∧ OnPort p s.m m) ∧
  (∀ (s : State) (p : PortIx), s.m.linkState p = 5 → s.m.frozen = false → s.m.calibrating p = true → (s.m.port p).due = [] →
    (∀ k, k < 2 → s.m.dueAt p ((s.m.port p).ut + k) = []) → (s.m.port p).nak = none → (s.m.port p).replay = none →
    (s.m.port p).cause = none → Gives (.linkUnitTransmit p) s fun m => (m.port p).wire = [] ∧
      (m.port p).scramblers = (s.m.port p).scramblers ∧ (m.port p).ut = (s.m.port p).ut + unitTimes s.m p ∧ OnPort p s.m m) ∧
  (∀ (s : State) (p : PortIx) (d : DueUnit), (s.m.port p).due = [d] → (s.m.port p).nak = none → (s.m.port p).replay = none →
    s.m.get F.LNK_SCHED_CARRY_UT p < s.m.unitNow p - d.sched → d.ten < 16 → s.m.tenState d.ten = tenRunning →
    (s.m.ten d.ten).fault = none → Gives (.carryExceeded p) s fun m =>
      (m.port p).due = [] ∧ (m.ten d.ten).fault = some s.m.frame ∧ m.flag F.PLN_EVENT_PFAULT = true ∧
      m.flag F.PLN_SLIP_LAST_BEYOND = true ∧ m.cells = s.m.cells ∧ m.hall = s.m.hall) ∧
  (∀ (s : State) (p : PortIx), s.m.linkState p = 5 → Gives (.pllCal p) s fun m =>
    m.port p = { s.m.port p with cal := 4, calFrame := some (s.m.frame + if (s.m.port p).ut + 256 ≤ 12500 then 1 else 2) } ∧
    m.regs = s.m.regs ∧ OnPort p s.m m) ∧
  (∀ (s : State) (p : PortIx) (f : BitVec 512), ctlOk (flitBytes f) = true → fieldAt (flitBytes f) 0 1 = 6 →
    Does (.calNoticeReceive p f) s (s.m.setPort p { s.m.port p with peerCal := some (fieldAt (flitBytes f) 8 8) })) ∧
  (∀ (s : State) (p : PortIx), Gives (.pllCalDone p) s fun m => m.get F.LNK_PLL_TEMP_CAL p = s.m.get F.LNK_PLL_TEMP p ∧
    m.get F.LNK_PLL_DRIFT p = 0 ∧ m.get F.LNK_STATUS_PLL p = 0 ∧
    m.port p = { s.m.port p with calFrame := none, cal := 0 } ∧ OnPort p s.m m) ∧
  (∀ (s : State) (p : PortIx) (t : Int), 160 < (t - toSigned 16 (s.m.get F.LNK_PLL_TEMP_CAL p)).natAbs →
    Gives (.pllDrift p t) s fun m => m.get F.LNK_PLL_TEMP p = ofSigned 16 t ∧ m.get F.LNK_PLL_DRIFT p = 1 ∧
      m.flag F.LNK_EVENT_PLL_DRIFT p = true ∧ m.get F.LNK_STATUS_LAST_CODE p = 0x0909 ∧ OnPort p s.m m) ∧
  (∀ (s : State) (p : PortIx) (t : Int), (t - toSigned 16 (s.m.get F.LNK_PLL_TEMP_CAL p)).natAbs ≤ 160 →
    Gives (.pllDrift p t) s fun m => m.get F.LNK_PLL_TEMP p = ofSigned 16 t ∧ m.get F.LNK_PLL_DRIFT p = 0 ∧ OnPort p s.m m) ∧
  (∀ (s : State) (p : PortIx), (s.m.linkState p = 7 ∨ s.m.linkState p = 0 ∧ s.m.flag F.LNK_CTRL_ENABLE p = true) →
    Gives (.test p) s fun m => m.linkState p = 8 ∧ m.get F.LNK_STATUS_PLL p = 2 ∧ m.ports = s.m.ports ∧ OnPort p s.m m) ∧
  (∀ (s : State) (p : PortIx), s.m.linkState p = 8 → s.m.get F.LNK_STATUS_PLL p = 0 → s.m.get F.LNK_TEST_PATTERN p ≤ 4 →
    Gives (.testStart p) s fun m => m.get F.LNK_TEST_STATUS p = 1 ∧
      (m.port p).scramblers = (List.range 16).map (Config.scramblerSeed s.m.freeCtr) ∧ OnPort p s.m m) ∧
  (∀ (s : State) (p : PortIx) (e : BitVec 32), s.m.linkState p ≠ 8 → Does (.testStart p) s (s.m.put F.LNK_TEST_STATUS 4 p) ∧
    Does (.testStop p e) s (s.m.put F.LNK_TEST_STATUS 4 p)) ∧
  (∀ (s : State) (p : PortIx) (e : BitVec 32), s.m.linkState p = 8 → s.m.get F.LNK_STATUS_PLL p = 0 →
    s.m.get F.LNK_TEST_STATUS p = 1 → Gives (.testStop p e) s fun m => m.get F.LNK_TEST_STATUS p = 2 ∧ m.ports = s.m.ports ∧
      (s.m.reg R.LNK_TEST_ERR p % 2 ^ 32 + e.toNat < 0xFFFFFFFF →
        m.reg R.LNK_TEST_ERR p % 2 ^ 32 = s.m.reg R.LNK_TEST_ERR p % 2 ^ 32 + e.toNat))

/-- Sequence numbers, replay and the times of link units: Spec.SequenceAndReplay, Spec.LinkUnitTimes. Where the spec leaves a point
open it takes the model's convention of log entry 65. -/
def Obligations.LinkUnitsAndReplay : Prop := Sys2Proof.Spec.SequenceAndReplay ∧ Sys2Proof.Spec.LinkUnitTimes

/-! ## The network interface and unscheduled traffic (R320, R330 to R348) -/

namespace Sys2Proof.Spec

/-- k is the next packet that the interface delivers; its operation is op, it passes its check, and its reply finds room. -/
abbrev Front (m : Lanorun) (op : Nat) (k : Packet) (rest : List Packet) : Prop :=
  m.ni.inbox = k :: rest ∧ k.op = op ∧ k.crcOk = true ∧ m.ni.notices.length < 64

/-- The ACK and the NACK that answer k from module m: a TC3 control packet with k's key, source and tag. -/
def ackTo (m : Lanorun) (k : Packet) : Packet :=
  Packet.withCrc { hdr := mkHdr 1 3 k.pkey k.src m.ownId m.ni.nextTag 0x10 0 0 (leBytes 4 k.tag) }
def nackTo (m : Lanorun) (k : Packet) (reason : Nat) : Packet :=
  Packet.withCrc { hdr := mkHdr 1 3 k.pkey k.src m.ownId m.ni.nextTag 0x11 0 0 (leBytes 4 k.tag ++ [BitVec.ofNat 8 reason]) }

/-- k was taken and answered with the packet a; the cells and hall time are as they were. -/
def Answered (m n : Lanorun) (rest : List Packet) (a : Packet) : Prop :=
  n.ni.inbox = rest ∧ n.ni.notices = m.ni.notices ++ [a] ∧ n.cells = m.cells ∧ n.hall = m.hall

/-- The delivered operations and their commands. -/
def deliveries : List (Instr × Nat) :=
  [(.write, 1), (.engine, 2), (.readData, 3), (.mgmtWrite, 4), (.ack, 0x10), (.nack, 0x11), (.readReq, 0x12),
   (.faultNotice, 0x13), (.haltNotice, 0x14), (.msg, 0x15)]

/-- How often a packet is sent in all (R343). -/
def attempts (m : Lanorun) : Nat := if m.get F.MOD_NI_CTRL_RESEND_MAX = 0 then 8 else m.get F.MOD_NI_CTRL_RESEND_MAX

/-- The packet of record x is to be sent again. -/
def sentAgain (m : Lanorun) (x : Resend) : Lanorun :=
  { m with ni := { m.ni with records := m.ni.records.map (fun r => if r.tag = x.tag then { x with attempt := x.attempt + 1 } else r)
                             again := m.ni.again.filter (· ≠ x.tag) ++ [x.tag] } }

/-- No packet waits at the interface and no cell has a send queued. -/
abbrev NothingToSend (m : Lanorun) : Prop :=
  m.ni.notices = [] ∧ m.ni.again = [] ∧ m.ni.waiting = [] ∧ ∀ c, (m.cell c).sendq = []

end Sys2Proof.Spec

/-- The packet at the front that passes its end-to-end check waits for the command of its own operation, and with none in front nothing happens;
one that fails the check is dropped by whichever delivery comes, with E2E_CRC and a NACK CRC, or without an answer where it is itself an
ACK or a NACK. -/
def Sys2Proof.Spec.DeliveryChecks : Prop :=
  ∀ d ∈ Spec.deliveries,
    (∀ (s : State) (k : Packet) (rest : List Packet), s.m.ni.inbox = k :: rest → k.crcOk = true → k.op ≠ d.2 → Does d.1 s s.m) ∧
    (∀ s : State, s.m.ni.inbox = [] → Does d.1 s s.m) ∧
    (∀ (s : State) (k : Packet) (rest : List Packet), s.m.ni.inbox = k :: rest → k.crcOk = false →
      s.m.ni.notices.length < 64 → Gives d.1 s fun m =>
        m.flag F.MOD_NI_EVENT_E2E_CRC = true ∧ m.ni.inbox = rest ∧ m.vaults = s.m.vaults ∧ m.cells = s.m.cells ∧
        m.ni.notices = s.m.ni.notices ++ (if k.op = 0x10 ∨ k.op = 0x11 then [] else [nackTo s.m k 1]))

/-- What each unscheduled packet does at delivery. WRITE and READ_DATA to a plain vault range of their key's tenancy that is READY and neither
protected nor beyond the mover's tracking store their payload there and nowhere else, or nothing where a Teller slot's mask bit is clear,
and are acknowledged; a packet of an unknown key is refused with reason 3; an ENGINE packet sends its record on to its engine; MGMT_WRITE
writes the firmware work area, or is refused beyond it; READ_REQ is queued for the read engine; MSG enters CR0 or CR1; ENGINE, READ_REQ
and MSG already applied are acknowledged again with no other effect. Where the spec leaves a point open it takes the model's
convention of log entries 68 and 69. -/
def Obligations.PacketsDelivered : Prop :=
  (∀ c ∈ [(Instr.write, 1), (.readData, 3)], ∀ (s : State) (k : Packet) (rest : List Packet) (im : Image) (t : Nat),
    Front s.m c.2 k rest → s.m.keyTen k.pkey = some (im, t) → bitsOf k.target 63 62 = 1 → k.target.testBit 61 = false →
    rangeOk (im.vaultMask t) false (k.target % 2 ^ 39) k.bytes = true → k.payload ≠ [] →
    s.m.protectReason im t (k.target % 2 ^ 39) k.payload.length = none →
    s.m.vaultReady (vaultOf (k.target % 2 ^ 39)) = true → s.m.moverFull [(k.target % 2 ^ 39, k.payload.length)] = false →
    (k.slotchk = false ∨ s.m.slotBit k.tslot = true) →
    Gives c.1 s fun m => Answered s.m m rest (ackTo s.m k) ∧
      (∀ i, i < k.payload.length → sget 0#8 (m.vault (vaultOf (k.target % 2 ^ 39))).dram
        (vaultOffset (k.target % 2 ^ 39) + i) = k.payload.getD i 0#8) ∧
      (∀ o, o < vaultOffset (k.target % 2 ^ 39) ∨ vaultOffset (k.target % 2 ^ 39) + k.payload.length ≤ o →
        sget 0#8 (m.vault (vaultOf (k.target % 2 ^ 39))).dram o =
          sget 0#8 (s.m.vault (vaultOf (k.target % 2 ^ 39))).dram o) ∧
      ∀ v, v ≠ vaultOf (k.target % 2 ^ 39) → m.vault v = s.m.vault v) ∧
  (∀ c ∈ [(Instr.write, 1), (.readData, 3)], ∀ (s : State) (k : Packet) (rest : List Packet) (im : Image) (t : Nat),
    Front s.m c.2 k rest → s.m.keyTen k.pkey = some (im, t) → bitsOf k.target 63 62 = 1 → k.target.testBit 61 = false →
    rangeOk (im.vaultMask t) false (k.target % 2 ^ 39) k.bytes = true → k.payload ≠ [] →
    s.m.protectReason im t (k.target % 2 ^ 39) k.payload.length = none →
    s.m.vaultReady (vaultOf (k.target % 2 ^ 39)) = true → s.m.moverFull [(k.target % 2 ^ 39, k.payload.length)] = false →
    k.slotchk = true → s.m.slotBit k.tslot = false →
    Gives c.1 s fun m => Answered s.m m rest (ackTo s.m k) ∧ m.vaults = s.m.vaults) ∧
  (∀ c ∈ [(Instr.write, 1), (.engine, 2), (.readData, 3)], ∀ (s : State) (k : Packet) (rest : List Packet),
    Front s.m c.2 k rest → s.m.keyTen k.pkey = none → Gives c.1 s fun m =>
      Answered s.m m rest (nackTo s.m k 3) ∧ m.vaults = s.m.vaults ∧ m.engines = s.m.engines) ∧
  (∀ (s : State) (k : Packet) (rest : List Packet) (im : Image) (t v e : Nat), Front s.m 2 k rest →
    s.m.keyTen k.pkey = some (im, t) → bitsOf k.target 63 62 = 2 → bitsOf (bitsOf k.target 59 44) 10 8 = v →
    bitsOf (bitsOf k.target 59 44) 4 0 = e → (im.vaultMask t).testBit v = true → (k.src, k.tag) ∉ s.m.ni.filter →
    s.m.ni.filter.length < 8192 → s.m.cmdBad false k.payload = false → s.m.cmdProtect im t (32 * v + e) k.payload = none →
    Gives .engine s fun m =>
      m.ni.ucmds = s.m.ni.ucmds ++ [(32 * v + e, { bytes := k.payload, ten := some t }, k)] ∧ m.ni.inbox = rest ∧
      m.engines = s.m.engines ∧ m.vaults = s.m.vaults ∧ m.cells = s.m.cells) ∧
  (∀ (s : State) (k : Packet) (rest : List Packet), Front s.m 4 k rest → 2 ^ 30 < k.target % 2 ^ 39 + k.bytes →
    Gives .mgmtWrite s fun m => Answered s.m m rest (nackTo s.m k 2) ∧ m.vaults = s.m.vaults) ∧
  (∀ (s : State) (k : Packet) (rest : List Packet), Front s.m 4 k rest → k.target % 2 ^ 39 + k.bytes ≤ 2 ^ 30 →
    s.m.vaultReady 0 = true → s.m.stageOwner ≠ 3 → Gives .mgmtWrite s fun m =>
      Answered s.m m rest (ackTo s.m k) ∧ ∀ i, i < k.payload.length →
        sget 0#8 (m.vault 0).dram (0xFA0000000 + k.target % 2 ^ 39 + i) = k.payload.getD i 0#8) ∧
  (∀ (s : State) (k : Packet) (rest : List Packet), Front s.m 0x12 k rest → (k.src, k.tag) ∉ s.m.ni.filter →
    s.m.ni.filter.length < 8192 → s.m.ni.reads.length < 256 → k.f 0x18 8 ≤ 2 ^ 20 → k.f 0x18 8 % 32 = 0 →
    Gives .readReq s fun m => Answered s.m m rest (ackTo s.m k) ∧ m.ni.filter = (k.src, k.tag) :: s.m.ni.filter ∧
      m.ni.reads = s.m.ni.reads ++ [{ dst := k.src, pkey := k.pkey, src := k.f 0x10 8, bytes := k.f 0x18 8,
                                      target := k.f 0x20 8, rtally := k.f 0x28 1 % 16 }] ∧ m.vaults = s.m.vaults) ∧
  (∀ c ∈ [(Instr.engine, 2), (.readReq, 0x12), (.msg, 0x15)], ∀ (s : State) (k : Packet) (rest : List Packet),
    Front s.m c.2 k rest → (k.src, k.tag) ∈ s.m.ni.filter → (c.2 = 2 → ∃ im t, s.m.keyTen k.pkey = some (im, t) ∧
      bitsOf k.target 63 62 = 2 ∧ (im.vaultMask t).testBit (bitsOf (bitsOf k.target 59 44) 10 8) = true) →
    Gives c.1 s fun m => Answered s.m m rest (ackTo s.m k) ∧ m.vaults = s.m.vaults ∧ m.ni.reads = s.m.ni.reads ∧
      m.ni.ucmds = s.m.ni.ucmds) ∧
  (∀ (s : State) (k : Packet) (rest : List Packet) (ring : Nat), Front s.m 0x15 k rest → (k.src, k.tag) ∉ s.m.ni.filter →
    s.m.ni.filter.length < 8192 → ring = (if k.tc = 2 then 1 else 0) → s.m.vaultReady 0 = true → s.m.cringFull ring = false →
    Gives .msg s fun m => Answered s.m m rest (ackTo s.m k) ∧ m.ni.filter = (k.src, k.tag) :: s.m.ni.filter ∧
      m.get F.VLT_CRING_PROD 0 ring = (s.m.get F.VLT_CRING_PROD 0 ring + 1) % 2 ^ 24 ∧
      ∀ i, i < 64 → sget 0#8 (m.vault 0).dram (cringAt ring (s.m.get F.VLT_CRING_PROD 0 ring) + i) = k.hdr.getD i 0#8)

/-- ACK frees its record, and with a steward's the send is counted in MOD_NI_DONE; NACK BUSY leaves the record to its timer; NACK CRC and the
timer send it again while attempts are left, but the timer of a class that HOLD keeps waits; any other NACK and the last attempt give it
up. The filter forgets a pair; HOLD holds TC1 and TC2 back and TC3 not. A fault notice of the present step in time stops its running
tenancy at the next Bell, an earlier one moves the restart of a faulted tenancy, and one of another step or too late halts; a halt notice
halts its tenancy unless it is halted. -/
def Sys2Proof.Spec.ResendRules : Prop :=
  (∀ (s : State) (k : Packet) (rest : List Packet) (x : Resend), Front s.m 0x10 k rest →
    s.m.ni.records.find? (·.tag = k.f 0x10 4) = some x → Gives .ack s fun m =>
      m.ni.records = s.m.ni.records.filter (·.tag ≠ k.f 0x10 4) ∧ m.ni.inbox = rest ∧ m.ni.notices = s.m.ni.notices ∧
      m.ni.waiting = s.m.ni.waiting ∧
      (x.from_ = .steward → m.reg R.MOD_NI_DONE % 2 ^ 48 = (s.m.reg R.MOD_NI_DONE + 1) % 2 ^ 48 ∧ m.cells = s.m.cells)) ∧
  (∀ (s : State) (k : Packet) (rest : List Packet), Front s.m 0x10 k rest →
    s.m.ni.records.find? (·.tag = k.f 0x10 4) = none → Does .ack s { s.m with ni := { s.m.ni with inbox := rest } }) ∧
  (∀ (s : State) (k : Packet) (rest : List Packet), Front s.m 0x11 k rest →
    (k.f 0x14 1 = 4 ∨ s.m.ni.records.find? (·.tag = k.f 0x10 4) = none) →
    Does .nack s { s.m with ni := { s.m.ni with inbox := rest } }) ∧
  (∀ (s : State) (k : Packet) (rest : List Packet) (x : Resend), Front s.m 0x11 k rest →
    s.m.ni.records.find? (·.tag = k.f 0x10 4) = some x → k.f 0x14 1 = 1 → x.attempt < attempts s.m →
    Does .nack s { s.m with ni := { (sentAgain s.m x).ni with inbox := rest } }) ∧
  (∀ (s : State) (k : Packet) (rest : List Packet) (x : Resend), Front s.m 0x11 k rest →
    s.m.ni.records.find? (·.tag = k.f 0x10 4) = some x → k.f 0x14 1 ≠ 1 → k.f 0x14 1 ≠ 4 → (x.from_ = .notice ∨ x.from_ = .steward) →
    Gives .nack s fun m =>
      m.ni.records = s.m.ni.records.filter (·.tag ≠ x.tag) ∧ m.flag F.MOD_NI_EVENT_E2E_REFUSED = true ∧
      m.flag F.MOD_NI_EVENT_E2E_GIVEUP = true ∧ m.get F.DBG_FAULT_LAST_CODE = 0x0A0B) ∧
  (∀ (s : State) (x : Resend) (tag : BitVec 32), s.m.frozen = false → s.m.ni.records.find? (·.tag = tag.toNat) = some x →
    s.m.held (fieldAt x.hdr 1 1 % 4) = false → x.attempt < attempts s.m → Does (.resendTimeout tag) s (sentAgain s.m x)) ∧
  (∀ (s : State) (x : Resend) (tag : BitVec 32), s.m.frozen = false → s.m.ni.records.find? (·.tag = tag.toNat) = some x →
    s.m.held (fieldAt x.hdr 1 1 % 4) = false → attempts s.m ≤ x.attempt → (x.from_ = .notice ∨ x.from_ = .steward) →
    Gives (.resendTimeout tag) s fun m => m.ni.records = s.m.ni.records.filter (·.tag ≠ x.tag) ∧
      m.flag F.MOD_NI_EVENT_E2E_GIVEUP = true ∧ m.get F.DBG_FAULT_LAST_CODE = 0x0A0B) ∧
  (∀ (s : State) (x : Resend) (tag : BitVec 32), s.m.ni.records.find? (·.tag = tag.toNat) = some x →
    s.m.held (fieldAt x.hdr 1 1 % 4) = true → Does (.resendTimeout tag) s s.m) ∧
  (∀ (s : State) (src : BitVec 14) (tag : BitVec 32), Gives (.filterExpire src tag) s fun m =>
    (src.toNat, tag.toNat) ∉ m.ni.filter ∧ m = { s.m with ni := { s.m.ni with filter := m.ni.filter } } ∧
    ∀ q, q ≠ (src.toNat, tag.toNat) → (q ∈ m.ni.filter ↔ q ∈ s.m.ni.filter)) ∧
  (∀ (s : State) (on : Bool), Gives (.holdWrite on) s fun m => m.flag F.MOD_NI_CTRL_HOLD = on ∧
    m = { s.m with regs := m.regs } ∧ m.held 1 = on ∧ m.held 2 = on ∧ m.held 3 = false) ∧
  (∀ (s : State) (k : Packet) (rest : List Packet) (im : Image) (t : Nat), Front s.m 0x13 k rest → s.m.activeImage = some im →
    (List.range im.tenancyCount).find? (fun t => im.pkey t == k.pkey) = some t → s.m.tenState t = tenRunning →
    k.f 0x10 8 = (s.m.ten t).step → s.m.frame + 3 ≤ k.f 0x18 8 + im.retryFrames → Gives .faultNotice s fun m =>
      Answered s.m m rest (ackTo s.m k) ∧
      m.ten t = { s.m.ten t with notice := some (min (k.f 0x18 8) ((s.m.ten t).notice.getD (k.f 0x18 8))) }) ∧
  (∀ (s : State) (k : Packet) (rest : List Packet) (im : Image) (t : Nat), Front s.m 0x13 k rest → s.m.activeImage = some im →
    (List.range im.tenancyCount).find? (fun t => im.pkey t == k.pkey) = some t → s.m.tenState t = tenRunning →
    (k.f 0x10 8 ≠ (s.m.ten t).step ∨ k.f 0x18 8 + im.retryFrames < s.m.frame + 3) → Gives .faultNotice s fun m =>
      Answered s.m m rest (ackTo s.m k) ∧ m.ten t = { s.m.ten t with halt := some 0x0303 }) ∧
  (∀ (s : State) (k : Packet) (rest : List Packet) (im : Image) (t : Nat), Front s.m 0x13 k rest → s.m.activeImage = some im →
    (List.range im.tenancyCount).find? (fun t => im.pkey t == k.pkey) = some t → s.m.tenState t = tenFaulted →
    k.f 0x10 8 = (s.m.ten t).step → k.f 0x18 8 < (s.m.ten t).ff → s.m.frame + 3 ≤ k.f 0x18 8 + im.retryFrames →
    Gives .faultNotice s fun m => Answered s.m m rest (ackTo s.m k) ∧
      m.ten t = { s.m.ten t with ff := k.f 0x18 8, fr := k.f 0x18 8 + im.retryFrames } ∧
      m.get F.PLN_TEN_STAT_RESTART_FRAME 0 t = (k.f 0x18 8 + im.retryFrames) % 2 ^ 32) ∧
  (∀ (s : State) (k : Packet) (rest : List Packet) (im : Image) (t : Nat), Front s.m 0x14 k rest → s.m.activeImage = some im →
    (List.range im.tenancyCount).find? (fun t => im.pkey t == k.pkey) = some t → s.m.tenState t ≠ tenHalted →
    (s.m.ten t).halt = none → Gives .haltNotice s fun m => Answered s.m m rest (ackTo s.m k) ∧
      m.ten t = { s.m.ten t with halt := some (k.f 0x18 2), haltQuiet := true })

/-- Routing. The first packet of a port's receive buffer that nothing holds up: of a key that the port does not hold, it is dropped and counted
with its credits freed; unscheduled for this module, it enters the mesh towards the interface; for another module, it enters the mesh
towards its ACTIVE output port with HOPS one less, or is dropped with HOP_LIMIT or NO_ROUTE; scheduled of a running tenancy, it waits for
its mesh entries, and of another tenancy it is discarded. A router with nothing that may go sends nothing; the one flit that may go moves
to the next router, and the last flit at the end of its path delivers its packet to the interface, with MESH_UE and 0xFF bytes where a
group crossed uncorrectably. The read engine makes READ_DATA packets of 2,048 bytes for its oldest request, and a steward's send makes the
packet that its descriptor names for its rank; anything but a remote descriptor sends nothing. -/
def Sys2Proof.Spec.PacketsRouted : Prop :=
  (∀ (s : State) (p : PortIx) (k : Packet), s.m.frozen = false → s.m.firstReady (s.m.port p).arrived = some k →
    s.m.keyOk p false k.tc k.pkey = false → k.tc ≠ 0 → Gives (.packetArrive p) s fun m =>
      (m.port p).arrived = (s.m.port p).arrived.erase k ∧ m.flag F.MOD_NI_EVENT_PKEY_DROP = true ∧ m.ni = s.m.ni ∧
      m.get F.LNK_STATUS_LAST_CODE p = 0x0A07 ∧
      m.get F.LNK_CREDIT_RX_HDR_FREED p k.tc = (s.m.get F.LNK_CREDIT_RX_HDR_FREED p k.tc + 1) % 2 ^ 16 ∧
      m.get F.LNK_CREDIT_RX_DATA_FREED p k.tc = (s.m.get F.LNK_CREDIT_RX_DATA_FREED p k.tc + k.nflit) % 2 ^ 16 ∧
      OnPort p s.m m) ∧
  (∀ (s : State) (p : PortIx) (k : Packet), s.m.frozen = false → s.m.firstReady (s.m.port p).arrived = some k →
    s.m.keyOk p false k.tc k.pkey = true → k.tc ≠ 0 → k.dst = s.m.ownId →
    Gives (.packetArrive p) s fun m => (m.port p).arrived = (s.m.port p).arrived.erase k ∧ OnPort p s.m m ∧
      ∃ x : MeshPkt, m.routerQ (portRouter p) (inPort p) = s.m.routerQ (portRouter p) (inPort p) ++ [x] ∧
        x.pkt = k ∧ x.dest = 18 ∧ x.path = [] ∧ x.total = k.nflit + 1 ∧ x.here = k.nflit + 1 ∧ x.left = k.nflit + 1) ∧
  (∀ (s : State) (p : PortIx) (k : Packet) (q : Nat), s.m.frozen = false → s.m.firstReady (s.m.port p).arrived = some k →
    s.m.keyOk p false k.tc k.pkey = true → k.tc ≠ 0 → k.dst ≠ s.m.ownId → s.m.outPort p k.dst = some q → q < 18 →
    s.m.linkState q = 5 → k.hops ≠ 0 →
    Gives (.packetArrive p) s fun m => (m.port p).arrived = (s.m.port p).arrived.erase k ∧ OnPort p s.m m ∧
      ∃ x : MeshPkt, m.routerQ (portRouter p) (inPort p) = s.m.routerQ (portRouter p) (inPort p) ++ [x] ∧
        x.pkt = { k with hdr := setBytes k.hdr 13 [BitVec.ofNat 8 (k.hops - 1)] } ∧ x.dest = q ∧
        x.path = route (portRouter p) (portRouter q) x.bridge ∧ x.left = k.nflit + 1) ∧
  (∀ (s : State) (p : PortIx) (k : Packet), s.m.frozen = false → s.m.firstReady (s.m.port p).arrived = some k →
    s.m.keyOk p false k.tc k.pkey = true → k.tc ≠ 0 → k.dst ≠ s.m.ownId → s.m.outPort p k.dst ≠ some 0x1E → k.hops = 0 →
    Gives (.packetArrive p) s fun m => (m.port p).arrived = (s.m.port p).arrived.erase k ∧
      m.flag F.MOD_NI_EVENT_HOP_LIMIT = true ∧ m.ni = s.m.ni) ∧
  (∀ (s : State) (p : PortIx) (k : Packet), s.m.frozen = false → s.m.firstReady (s.m.port p).arrived = some k →
    s.m.keyOk p false k.tc k.pkey = true → k.tc ≠ 0 → k.dst ≠ s.m.ownId → s.m.outPort p k.dst = none → k.hops ≠ 0 →
    Gives (.packetArrive p) s fun m => (m.port p).arrived = (s.m.port p).arrived.erase k ∧
      m.flag F.MOD_NI_EVENT_NO_ROUTE = true ∧ m.ni = s.m.ni) ∧
  (∀ (s : State) (p : PortIx) (k : Packet), s.m.frozen = false → s.m.firstReady (s.m.port p).arrived = some k →
    s.m.keyOk p false k.tc k.pkey = true → k.tc = 0 → k.dst = s.m.ownId → s.m.keyRuns k.pkey = true →
    Gives (.packetArrive p) s fun m => m.port p = { s.m.port p with arrived := (s.m.port p).arrived.erase k,
                                                                    rx0 := (s.m.port p).rx0 ++ [k] } ∧
      m.regs = s.m.regs ∧ m.ni = s.m.ni ∧ OnPort p s.m m) ∧
  (∀ (s : State) (p : PortIx) (k : Packet), s.m.frozen = false → s.m.firstReady (s.m.port p).arrived = some k →
    s.m.keyOk p false k.tc k.pkey = true → k.tc = 0 → s.m.keyRuns k.pkey = false →
    Gives (.packetArrive p) s fun m => m.port p = { s.m.port p with arrived := (s.m.port p).arrived.erase k } ∧ m.ni = s.m.ni ∧
      m.get F.LNK_CREDIT_RX_HDR_FREED p 0 = (s.m.get F.LNK_CREDIT_RX_HDR_FREED p 0 + 1) % 2 ^ 16 ∧ OnPort p s.m m) ∧
  (∀ (s : State) (r : BlockIx) (fc : BitVec 13) (ue : List Nat), NothingToSend s.m → s.m.flitsToSend r fc.toNat = [] →
    Does (.unschedFlitForward r fc ue) s s.m) ∧
  (∀ (s : State) (r : BlockIx) (fc : BitVec 13) (i q j : Nat) (x : MeshPkt) (rest : List Nat), s.m.frozen = false →
    s.m.domainOn r = true → NothingToSend s.m → s.m.flitsToSend r fc.toNat = [(i, x)] → s.m.routerQ r i = [x] →
    x.path = q :: rest → x.next r = (q, j) → q ≠ r → s.m.domainOn q = true → x.total = x.left →
    Gives (.unschedFlitForward r fc []) s fun m =>
      m.routerQ r i = (if x.left ≤ 1 then [] else [{ x with here := x.here - 1, left := x.left - 1 }]) ∧
      m.routerQ q j = s.m.routerQ q j ++ [{ x with here := 1, left := x.total, path := rest }] ∧
      m.ni.inbox = s.m.ni.inbox ∧ m.cells = s.m.cells ∧ m.vaults = s.m.vaults) ∧
  (∀ (s : State) (r : BlockIx) (fc : BitVec 13) (i : Nat) (x : MeshPkt) (ue : List Nat), s.m.frozen = false →
    s.m.domainOn r = true → NothingToSend s.m → s.m.flitsToSend r fc.toNat = [(i, x)] → s.m.routerQ r i = [x] →
    x.path = [] → x.dest = 18 → x.total = 1 → x.left = 1 → s.m.routerQ niNode 0 = [] → (ue = [] ∨ ue = [1]) →
    Gives (.unschedFlitForward r fc ue) s fun m =>
      m.ni.inbox = s.m.ni.inbox ++ [if ue = [] then x.pkt else { x.pkt with hdr := damage x.pkt.hdr [1] }] ∧
      m.routerQ r i = [] ∧ (ue = [1] → m.flag F.MOD_NI_EVENT_MESH = true) ∧ m.cells = s.m.cells ∧ m.vaults = s.m.vaults) ∧
  (∀ (s : State) (r : ReadReq) (rest : List ReadReq), s.m.frozen = false → s.m.ni.reads = r :: rest →
    (∀ v, v < 8 → s.m.vaultReady v = true) → (∀ v, (s.m.vault v).poison = []) →
    Gives .readEngineReply s fun m => m.ni.reads = rest ∧ m.regs = s.m.regs ∧ m.vaults = s.m.vaults ∧
      m.ni.waiting.length = s.m.ni.waiting.length + ceilDiv r.bytes 2048) ∧
  (∀ (s : State) (r : ReadReq) (rest : List ReadReq) (h : List (BitVec 8)), s.m.frozen = false → s.m.ni.reads = r :: rest →
    0 < r.bytes → r.bytes ≤ 2048 → r.src.testBit 63 = false → s.m.vaultReady (vaultOf (r.src % 2 ^ 39)) = true →
    (s.m.vault (vaultOf (r.src % 2 ^ 39))).poison = [] →
    h = mkHdr 2 1 r.pkey r.dst s.m.ownId s.m.ni.nextTag 3 (ceilDiv r.bytes 64) 0 (dataBody (targetAt r.target 0) 0 r.rtally true r.bytes) →
    Gives .readEngineReply s fun m => m.ni.reads = rest ∧ m.regs = s.m.regs ∧ m.vaults = s.m.vaults ∧
      m.ni.waiting = s.m.ni.waiting ++ [{ tag := fieldAt h 8 4, hdr := h, src := r.src % 2 ^ 39, bytes := r.bytes, from_ := .reader }]) ∧
  (∀ (s : State) (key : BitVec 16) (addr : BitVec 39), (descOf (s.m.dram (addr.toNat / 32 * 32) 32)).kind ≠ 4 →
    Does (.niSend key addr) s s.m) ∧
  (∀ (s : State) (key : BitVec 16) (addr : BitVec 39) (d : Desc) (im : Image) (t dst : Nat),
    descOf (s.m.dram (addr.toNat / 32 * 32) 32) = d → d.kind = 4 → d.remoteBad = false → d.tc = 1 → (d.tkind = 1 ∨ d.tkind = 2) →
    0 < d.bytes → d.bytes ≤ 2048 → key ≠ 0 → s.m.activeImage = some im →
    (List.range im.tenancyCount).find? (fun t => im.pkey t == key.toNat) = some t → s.m.rankOf t d.rank = some dst →
    Gives (.niSend key addr) s fun m => m.regs = s.m.regs ∧ m.vaults = s.m.vaults ∧ m.ni.records = s.m.ni.records ∧
      ∃ x : Resend, m.ni.waiting = s.m.ni.waiting ++ [x] ∧ x.from_ = .steward ∧ x.src = d.src ∧ x.bytes = d.bytes ∧
        x.hdr = mkHdr 2 1 key.toNat dst s.m.ownId s.m.ni.nextTag (if d.tkind = 2 then 2 else 1) (ceilDiv d.bytes 64)
          (if d.flags % 2 = 1 then 2 else 0)
          (dataBody (if d.tkind = 2 then d.dst else targetAt d.dst 0) d.tslot 0 true d.bytes)) ∧
  (∀ (s : State) (addr : BitVec 39) (d : Desc), descOf (s.m.dram (addr.toNat / 32 * 32) 32) = d → d.kind = 4 →
    d.remoteBad = false → (d.tc = 2 ∨ d.tc = 3) → d.tkind = 3 → (s.m.entry16 R.MOD_RANK 0 (d.rank % 16384)).testBit 15 = true →
    Gives (.niSend 0 addr) s fun m => m.regs = s.m.regs ∧ m.vaults = s.m.vaults ∧
      m.ni.nextTag = (s.m.ni.nextTag + 1) % 2 ^ 32 ∧ m.ni.records = s.m.ni.records ∧ m.ni.inbox = s.m.ni.inbox ∧
      ∃ x : Resend, m.ni.waiting = s.m.ni.waiting ++ [x] ∧ x.from_ = .steward ∧ x.hdr = mkHdr 1 d.tc 0
        (s.m.entry16 R.MOD_RANK 0 (d.rank % 16384) % 2 ^ 14) s.m.ownId s.m.ni.nextTag 0x15 0 0 (s.m.dram d.src 32))

/-- The checks at delivery, the re-send rules and the notices, and routing and sending: Spec.DeliveryChecks, Spec.ResendRules,
Spec.PacketsRouted. Where the spec leaves a point open it takes the model's convention of log entries 66, 67 and 68. -/
def Obligations.DeliveryResendRouting : Prop := Sys2Proof.Spec.DeliveryChecks ∧ Sys2Proof.Spec.ResendRules ∧ Sys2Proof.Spec.PacketsRouted

/-! ## The weight mover (R363 to R371) -/

namespace Sys2Proof.Spec

/-- The operation that MOD_WGT_CTRL now names would be refused. -/
def MoverRefuses (m : Lanorun) : Bool :=
  m.moverRefuses (m.flag F.MOD_WGT_CTRL_IMG) (m.get F.MOD_WGT_CTRL_SLOT) (m.get F.MOD_WGT_CTRL_TENANCY) (m.flag F.MOD_WGT_CTRL_BANK)

/-- The mover at the start of the operation that MOD_WGT_CTRL names. -/
def newOp (m : Lanorun) (ovr : Bool) : Mover :=
  { op := m.mover.op + 1, slot := if m.flag F.MOD_WGT_CTRL_IMG then some (m.get F.MOD_WGT_CTRL_SLOT) else none,
    ten := m.get F.MOD_WGT_CTRL_TENANCY, bank := m.flag F.MOD_WGT_CTRL_BANK, srcOvr := ovr }

/-- The SHARD records of the tenancy that MOD_WGT_CTRL names. -/
def opShards (m : Lanorun) : List (Nat × List (BitVec 8)) :=
  (if m.flag F.MOD_WGT_CTRL_IMG then m.image (m.get F.MOD_WGT_CTRL_SLOT) else m.activeImage.getD {}).weights
    (m.get F.MOD_WGT_CTRL_TENANCY) 2

/-- VALID of a bank. -/
def validFld (b : Bool) : Fld := if b then F.MOD_WGT_TEN_VALID_B else F.MOD_WGT_TEN_VALID_A

/-- Chunk c is the first tracked chunk whose granules are all marked. -/
abbrev FullChunk (m : Lanorun) (c : Chunk) : Prop :=
  m.mover.open_.find? (fun c => c.marks.length * 2048 == chunkBytes (m.moverShard c.shard) c.chunk) = some c

/-- Chunk c is done and folded into its shard's CRC. -/
def completed (m : Lanorun) (c : Chunk) : Lanorun :=
  { m with mover := { m.mover with
      open_ := m.mover.open_.erase c
      done := (c.shard, c.chunk) :: m.mover.done
      fetching := m.mover.fetching.erase (c.shard, c.chunk)
      crcs := ((c.shard, c.chunk), crc32c (m.chunkRead c.shard c.chunk)) :: m.mover.crcs } }

end Sys2Proof.Spec

/-- The weight mover's commands. LOAD and VERIFY are refused as R363 and R364 say, ignored while an operation runs, and a LOAD written while
frozen is held; VERIFY starts; a LOAD that does not follow a failed one starts with the bank not VALID, asks the neighbours for the first
8 chunks where every shard comes from them, and asks for nothing where none is fetched. A chunk whose granules are all marked is done,
queued for its children, and with the last chunk its shard passes or fails its check. A LOAD is DONE once every shard passed and every
forward was acknowledged, a VERIFY once every shard holds its CRC; ABORT, a time limit and a failed check end an operation with the bank
not VALID. Where the spec leaves a point open it takes the model's convention of log entries 59 and 100. -/
def Obligations.WeightMover : Prop :=
  (∀ c ∈ [Instr.wgtLoad, .verify], ∀ s : State, (c = .verify ∨ s.m.frozen = false) → s.m.get F.MOD_WGT_STATUS_STATE ≠ 1 →
    s.m.get F.MOD_WGT_STATUS_STATE ≠ 2 → MoverRefuses s.m = true → Does c s (s.m.put F.MOD_WGT_STATUS_STATE 6)) ∧
  (∀ c ∈ [Instr.wgtLoad, .verify], ∀ s : State, (s.m.get F.MOD_WGT_STATUS_STATE = 1 ∨ s.m.get F.MOD_WGT_STATUS_STATE = 2) →
    Does c s s.m) ∧
  (∀ s : State, s.m.frozen = true → s.m.get F.MOD_WGT_STATUS_STATE ≠ 1 → s.m.get F.MOD_WGT_STATUS_STATE ≠ 2 →
    Does .wgtLoad s { s.m with mover := { s.m.mover with held := some (s.m.reg R.MOD_WGT_CTRL) } }) ∧
  (∀ s : State, s.m.get F.MOD_WGT_STATUS_STATE ≠ 1 → s.m.get F.MOD_WGT_STATUS_STATE ≠ 2 → MoverRefuses s.m = false →
    Gives .verify s fun m => m.get F.MOD_WGT_STATUS_STATE = 2 ∧ m.get F.MOD_WGT_STATUS_CODE = 0 ∧
      m.get F.MOD_WGT_STATUS_SHARD = 0xFFFF ∧ m = { s.m with regs := m.regs, mover := newOp s.m false }) ∧
  (∀ s : State, s.m.frozen = false → s.m.get F.MOD_WGT_STATUS_STATE ≠ 1 → s.m.get F.MOD_WGT_STATUS_STATE ≠ 2 →
    MoverRefuses s.m = false → s.m.mover.failed = false → s.m.flag F.MOD_WGT_CTRL_SRC_OVR = false →
    (∀ x ∈ opShards s.m, shardSource x.2 = 1 ∧ 0 < shardBytes x.2) → Gives .wgtLoad s fun m =>
      m.get F.MOD_WGT_STATUS_STATE = 1 ∧ m.get F.MOD_WGT_STATUS_CODE = 0 ∧ m.get F.MOD_WGT_STATUS_SHARD = 0xFFFF ∧
      m.flag (validFld (s.m.flag F.MOD_WGT_CTRL_BANK)) 0 (s.m.get F.MOD_WGT_CTRL_TENANCY) = false ∧
      m = { s.m with regs := m.regs, mover := newOp s.m false }) ∧
  (∀ (s : State) (ovr : Bool), s.m.frozen = false → s.m.get F.MOD_WGT_STATUS_STATE ≠ 1 → s.m.get F.MOD_WGT_STATUS_STATE ≠ 2 →
    MoverRefuses s.m = false → s.m.mover.failed = false → s.m.flag F.MOD_WGT_CTRL_SRC_OVR = ovr →
    (∀ x ∈ opShards s.m, (ovr = true ∨ shardSource x.2 = 2) ∧ 0 < shardBytes x.2) → Gives .wgtLoad s fun m =>
      m.get F.MOD_WGT_STATUS_STATE = 1 ∧ m.mover.done = [] ∧
      m.flag (validFld (s.m.flag F.MOD_WGT_CTRL_BANK)) 0 (s.m.get F.MOD_WGT_CTRL_TENANCY) = false ∧
      m.mover.fetching = ((opShards s.m).flatMap fun x => (List.range (shardChunks x.2)).map fun c => (x.1, c)).take 8 ∧
      m.ni.waiting.length = s.m.ni.waiting.length + m.mover.fetching.length ∧ m.vaults = s.m.vaults ∧ m.cells = s.m.cells) ∧
  (∀ s : State, (s.m.get F.MOD_WGT_STATUS_STATE = 1 ∨ s.m.get F.MOD_WGT_STATUS_STATE = 2) → s.m.mover.ten < 16 →
    Gives .wgtAbort s fun m => m.get F.MOD_WGT_STATUS_STATE = 5 ∧ m.get F.MOD_WGT_STATUS_CODE = 0 ∧ m.vaults = s.m.vaults ∧
      m.mover = { s.m.mover with held := none, failed := false } ∧ m.flag (validFld s.m.mover.bank) 0 s.m.mover.ten = false) ∧
  (∀ s : State, s.m.get F.MOD_WGT_STATUS_STATE ≠ 1 → s.m.get F.MOD_WGT_STATUS_STATE ≠ 2 →
    Does .wgtAbort s { s.m with mover := { s.m.mover with held := none } }) ∧
  (∀ s : State, s.m.frozen = false → s.m.loading = true → s.m.get F.MOD_WGT_CTRL_LIMIT ≠ 0 → s.m.mover.ten < 16 →
    Gives .wgtTimeout s fun m => m.get F.MOD_WGT_STATUS_STATE = 4 ∧ m.get F.MOD_WGT_STATUS_CODE = 0x0B03 ∧
      m.flag F.MOD_WGT_EVENT_FAILED = true ∧ m.get F.DBG_FAULT_LAST_CODE = 0x0B03 ∧ m.vaults = s.m.vaults ∧
      m.flag (validFld s.m.mover.bank) 0 s.m.mover.ten = false) ∧
  (∀ s : State, (s.m.loading = false ∨ s.m.get F.MOD_WGT_CTRL_LIMIT = 0) → Does .wgtTimeout s s.m) ∧
  (∀ s : State, s.m.frozen = false → s.m.loading = true → (∀ x ∈ s.m.moverShards, x.1 ∈ s.m.mover.passed) →
    s.m.mover.forward = [] → s.m.mover.unacked = 0 → s.m.mover.ten < 16 → Gives .wgtLoadDone s fun m =>
      m.get F.MOD_WGT_STATUS_STATE = 3 ∧ m.get F.MOD_WGT_STATUS_CODE = 0 ∧
      m.flag F.MOD_WGT_EVENT_DONE = true ∧ m.vaults = s.m.vaults ∧ m.flag (validFld s.m.mover.bank) 0 s.m.mover.ten = true) ∧
  (∀ s : State, (s.m.loading = false ∨ s.m.mover.forward ≠ [] ∨ s.m.mover.unacked ≠ 0) → Does .wgtLoadDone s s.m) ∧
  (∀ s : State, s.m.frozen = false → s.m.get F.MOD_WGT_STATUS_STATE = 2 → (∀ x ∈ s.m.moverShards, s.m.shardOk x.1 = true) →
    s.m.mover.ten < 16 → Gives .wgtVerifyDone s fun m => m.get F.MOD_WGT_STATUS_STATE = 3 ∧ m.vaults = s.m.vaults ∧
      m.flag (validFld s.m.mover.bank) 0 s.m.mover.ten = true) ∧
  (∀ (s : State) (x : Nat × List (BitVec 8)), s.m.frozen = false → s.m.get F.MOD_WGT_STATUS_STATE = 2 →
    s.m.moverShards.find? (fun x => !s.m.shardOk x.1) = some x → s.m.mover.ten < 16 → Gives .wgtVerifyDone s fun m =>
      m.get F.MOD_WGT_STATUS_STATE = 4 ∧ m.get F.MOD_WGT_STATUS_CODE = 0x0B01 ∧ m.get F.MOD_WGT_STATUS_SHARD = x.1 % 2 ^ 16 ∧
      m.flag F.MOD_WGT_EVENT_FAILED = true ∧ m.flag (validFld s.m.mover.bank) 0 s.m.mover.ten = false) ∧
  (∀ (s : State) (c : Chunk), s.m.frozen = false → s.m.loading = true → FullChunk s.m c → s.m.mover.forward = [] →
    s.m.shardChildren (s.m.moverShard c.shard) = [] → (completed s.m c).toFetch = [] →
    (∀ x ∈ s.m.moverShards, x.1 ∉ s.m.mover.passed → ∃ i, i < shardChunks x.2 ∧ (x.1, i) ∉ (completed s.m c).mover.done) →
    Does .wgtChunkComplete s (completed s.m c)) ∧
  (∀ (s : State) (c : Chunk) (r : List (BitVec 8)), s.m.frozen = false → s.m.loading = true → FullChunk s.m c →
    s.m.mover.forward = [] → s.m.shardChildren (s.m.moverShard c.shard) = [] → (completed s.m c).toFetch = [] →
    s.m.moverShards.find? (fun x => !s.m.mover.passed.contains x.1 &&
      (List.range (shardChunks x.2)).all fun i => (completed s.m c).mover.done.contains (x.1, i)) = some (c.shard, r) →
    s.m.mover.ten < 16 →
    ((completed s.m c).foldedCrc c.shard = fieldAt r 0x2C 4 → Does .wgtChunkComplete s { completed s.m c with
      mover := { (completed s.m c).mover with passed := c.shard :: s.m.mover.passed } }) ∧
    ((completed s.m c).foldedCrc c.shard ≠ fieldAt r 0x2C 4 → Gives .wgtChunkComplete s fun m =>
      m.get F.MOD_WGT_STATUS_STATE = 4 ∧ m.get F.MOD_WGT_STATUS_CODE = 0x0B01 ∧
      m.get F.MOD_WGT_STATUS_SHARD = c.shard % 2 ^ 16 ∧ m.flag F.MOD_WGT_EVENT_FAILED = true)) ∧
  (∀ (s : State) (c : Chunk), s.m.frozen = false → s.m.loading = true → FullChunk s.m c → s.m.forwarding = true →
    Gives .wgtChunkComplete s fun m => m.mover.done = (c.shard, c.chunk) :: s.m.mover.done ∧
      m.mover.forward = s.m.mover.forward ++
        (List.range (s.m.shardChildren (s.m.moverShard c.shard)).length).map fun ch => (c.shard, c.chunk, ch)) ∧
  (∀ s : State, (s.m.loading = false ∨ s.m.mover.open_ = []) → Does .wgtChunkComplete s s.m)

/-! ## The Teller, the Ledger and the digest unit (R382 to R431) -/

namespace Sys2Proof.Spec

/-- The lead of SERVING tenancy t of image im reads an entry into its first free slot i: nothing holds the queue, and the host-write queue
has room. -/
abbrev TakesEntry (m : Lanorun) (im : Image) (t i : Nat) : Prop :=
  m.served = some (im, t) ∧ m.isLead = true ∧ m.frozen = false ∧ m.hostHeld = false ∧ m.flag F.TLR_CTRL_ENABLE = true ∧
  m.tenState t = tenRunning ∧ m.cqFull = false ∧ m.host.hwq.length < 4096 ∧
  (List.range (im.slots t)).find? (fun i => m.req i == none) = some i ∧
  m.get F.TLR_SQ_PTR_HEAD % queueSize (m.get F.TLR_SQ_PTR_SIZE) ≠ m.get F.TLR_SQ_PTR_TAIL % queueSize (m.get F.TLR_SQ_PTR_SIZE)

/-- Request r in slot i, with its ring in host memory, is in no batch and has no end; the completion and host-write queues have room. -/
abbrev LooseRequest (m : Lanorun) (i : Nat) (r : TlrReq) : Prop :=
  m.req i = some r ∧ m.teller.batches = [] ∧ m.teller.prev = none ∧ r.result = none ∧ r.budget = none ∧ r.remote = false ∧
  m.cqFull = false ∧ m.host.hwq.length < 4096 ∧ m.hostHeld = false

/-- A balance that 64 signed bits hold. -/
abbrev Fits (b : Int) : Prop := -2 ^ 63 ≤ b ∧ b < 2 ^ 63

end Sys2Proof.Spec

/-- The submission queue and a request's life. A TAIL write on the lead sets the tail; TAIL, CANCEL and PAUSE on another module only raise
NOT_LEAD. An entry with its ring in host memory is accepted into the first free slot with its fields and the ring's first entry, or
refused with a CQ entry. A prompt chunk that arrives is kept. CANCEL and PAUSE of a slot without the request answer STALE; CANCEL of a
request in no batch ends it, as PAUSE does, and frees its slot; in an uncommitted batch CANCEL marks it CANCELLED and PAUSE marks it
paused. A decided end waits at a full CQ with CQ_FULL and otherwise is written and frees the slot; a failed ring ends the request, or
leaves a decided end to the CQ alone. The mask read at MASK_LATCH is what MASK_IN holds. -/
def Sys2Proof.Spec.TellerRequests : Prop :=
  (∀ (s : State) (v : BitVec 16), s.m.isLead = true →
    Does (.sqTailWrite v) s (s.m.put F.TLR_SQ_PTR_TAIL (v.toNat % queueSize (s.m.get F.TLR_SQ_PTR_SIZE)))) ∧
  (∀ (s : State) (v : BitVec 16) (i : BitVec 13) (g : BitVec 32), s.m.isLead = false →
    Does (.sqTailWrite v) s (s.m.event F.TLR_EVENT_NOT_LEAD) ∧ Does (.cancel i g) s (s.m.event F.TLR_EVENT_NOT_LEAD) ∧
    Does (.pause i g) s (s.m.event F.TLR_EVENT_NOT_LEAD)) ∧
  (∀ (s : State) (e : BitVec 512) (im : Image) (t i : Nat), TakesEntry s.m im t i → s.m.refusal im t (flitBytes e) = 0 →
    fieldAt (flitBytes e) 1 1 % 2 = 0 → Gives (.sqEntryRead e) s fun m => m.teller.accepted = s.m.teller.accepted + 1 ∧
      m.get F.TLR_SQ_PTR_HEAD = (s.m.get F.TLR_SQ_PTR_HEAD + 1) % queueSize (s.m.get F.TLR_SQ_PTR_SIZE) ∧
      (∀ j, j ≠ i → m.req j = s.m.req j) ∧ m.cells = s.m.cells ∧
      m.req i = some { account := fieldAt (flitBytes e) 2 2, reqId := fieldAt (flitBytes e) 8 8,
                       promptAddr := fieldAt (flitBytes e) 0x10 8, promptLen := fieldAt (flitBytes e) 0x18 4,
                       maxNew := fieldAt (flitBytes e) 0x1C 4, ringAddr := fieldAt (flitBytes e) 0x20 8,
                       qp := fieldAt (flitBytes e) 0x2C 2, noSpec := (fieldAt (flitBytes e) 1 1).testBit 1,
                       stops := stopTokens (flitBytes e), order := s.m.teller.accepted, seq := 1 }) ∧
  (∀ (s : State) (e : BitVec 512) (im : Image) (t i : Nat), TakesEntry s.m im t i → s.m.refusal im t (flitBytes e) ≠ 0 →
    Gives (.sqEntryRead e) s fun m => m.teller = s.m.teller ∧ m.flag F.TLR_EVENT_CQ_WRITTEN = true ∧
      m.get F.TLR_SQ_PTR_HEAD = (s.m.get F.TLR_SQ_PTR_HEAD + 1) % queueSize (s.m.get F.TLR_SQ_PTR_SIZE) ∧
      m.get F.TLR_CQ_PTR_TAIL = (s.m.get F.TLR_CQ_PTR_TAIL + 1) % queueSize (s.m.get F.TLR_CQ_PTR_SIZE)) ∧
  (∀ (s : State) (i : BitVec 13) (ts : List (BitVec 32)) (r : TlrReq), s.m.req i.toNat = some r → s.m.hostHeld = false →
    s.m.frozen = false → r.decode = false → s.m.promptNext i.toNat r < r.promptLen →
    min 4096 (r.promptLen - s.m.promptNext i.toNat r) ≤ ts.length → Does (.promptChunkFetched i ts) s (s.m.setReq i.toNat
      (some { r with chunkAt := s.m.promptNext i.toNat r
                     chunk := ts.take (min 4096 (r.promptLen - s.m.promptNext i.toNat r)) }))) ∧
  (∀ c ∈ [false, true], ∀ (s : State) (i : BitVec 13) (g : BitVec 32), s.m.isLead = true →
    (∀ r, s.m.req i.toNat = some r → r.reqId % 2 ^ 32 ≠ g.toNat) →
    Gives (if c then .pause i g else .cancel i g) s fun m => m.get F.TLR_REQ_CMD_STATUS = 2 ∧
      m.get F.TLR_REQ_CMD_SLOT = i.toNat ∧ m.get F.TLR_REQ_CMD_TAG = g.toNat ∧ m.teller = s.m.teller) ∧
  (∀ c ∈ [false, true], ∀ (s : State) (i : BitVec 13) (g : BitVec 32) (r : TlrReq), s.m.isLead = true →
    LooseRequest s.m i.toNat r → r.reqId % 2 ^ 32 = g.toNat → r.ended = none → r.cancelled = none →
    Gives (if c then .pause i g else .cancel i g) s fun m => m.get F.TLR_REQ_CMD_STATUS = 1 ∧ m.req i.toNat = none ∧
      m.flag F.TLR_EVENT_CQ_WRITTEN = true ∧ (∀ j, j ≠ i.toNat → m.req j = s.m.req j) ∧ m.cells = s.m.cells) ∧
  (∀ (s : State) (i : BitVec 13) (g : BitVec 32) (r : TlrReq), s.m.isLead = true → s.m.req i.toNat = some r →
    s.m.placedNow i.toNat = true → r.reqId % 2 ^ 32 = g.toNat → r.ended = none → r.cancelled = none →
    (Gives (.cancel i g) s fun m => m.get F.TLR_REQ_CMD_STATUS = 1 ∧
      m.req i.toNat = some { r with result := none, budget := none, cancelled := some 3 }) ∧
    (r.state ≠ 4 → Gives (.pause i g) s fun m => m.get F.TLR_REQ_CMD_STATUS = 1 ∧
      m.req i.toNat = some { r with paused := true } ∧ m.teller.batches = s.m.teller.batches)) ∧
  (∀ (s : State) (i : BitVec 13) (r : TlrReq), s.m.req i.toNat = some r → r.ended ≠ none → s.m.cqFull = true →
    Does (.endingFlush i) s (s.m.event F.TLR_EVENT_CQ_FULL)) ∧
  (∀ (s : State) (i : BitVec 13) (r : TlrReq) (e : Nat × Nat × Bool), LooseRequest s.m i.toNat r → r.ended = some e →
    Gives (.endingFlush i) s fun m => m.req i.toNat = none ∧ m.flag F.TLR_EVENT_CQ_WRITTEN = true ∧
      m.get F.TLR_CQ_PTR_TAIL = (s.m.get F.TLR_CQ_PTR_TAIL + 1) % queueSize (s.m.get F.TLR_CQ_PTR_SIZE)) ∧
  (∀ (s : State) (i : BitVec 13) (r : TlrReq), LooseRequest s.m i.toNat r → r.ended = none → r.cancelled = none →
    Gives (.ringWriteFail i) s fun m => m.req i.toNat = none ∧ m.flag F.TLR_EVENT_RING_FAIL = true ∧
      m.flag F.TLR_EVENT_CQ_WRITTEN = true) ∧
  (∀ (s : State) (i : BitVec 13) (r : TlrReq), s.m.req i.toNat = some r → r.ended ≠ none →
    Gives (.ringWriteFail i) s fun m => m.flag F.TLR_EVENT_RING_FAIL = true ∧
      m.req i.toNat = some { r with ended := some (6, 0, false) }) ∧
  (∀ s : State, s.m.served = none → Does .maskLatch s s.m) ∧
  (∀ (s : State) (im : Image) (t : Nat), s.m.served = some (im, t) → s.m.frozen = false → (∀ v, (s.m.vault v).poison = []) →
    Does .maskLatch s { s.m with teller := { s.m.teller with
      latched := some (s.m.tlrRead im t (fieldAt (im.serve t) 0x20 8) 0 1024).1 } })

/-- READ, WRITE and ADD, where this module keeps a Ledger and the balances fit 64 signed bits, refill the account first and then copy it out,
replace its writable fields, or add to its balance; other accounts stay. A sum that does not fit is a free value, and a module that runs
a SERVING tenancy without being its lead keeps no Ledger (log entries 49 and 101). -/
def Sys2Proof.Spec.LedgerCommands : Prop :=
  (∀ (s : State) (a : BitVec 16), s.m.keepsLedger = true → Fits ((s.m.account a.toNat).refill s.m.ticks).bal →
    (Gives (.acctRead a) s fun m => m.account a.toNat = (s.m.account a.toNat).refill s.m.ticks ∧
      m.get F.TLR_ACCT_CMD_ACCOUNT = a.toNat ∧
      m.reg R.TLR_ACCT_DATA 0 0 = ofSigned 64 ((s.m.account a.toNat).refill s.m.ticks).bal ∧
      m.reg R.TLR_ACCT_DATA 0 1 = (s.m.account a.toNat).cap % 2 ^ 64 ∧
      m.reg R.TLR_ACCT_DATA 0 2 = ofSigned 64 (s.m.account a.toNat).resv ∧
      m.reg R.TLR_ACCT_DATA 0 3 = ((s.m.account a.toNat).rate + (s.m.account a.toNat).wp * 2 ^ 32) % 2 ^ 64 ∧
      m.reg R.TLR_ACCT_DATA 0 4 = ((s.m.account a.toNat).wg + if (s.m.account a.toNat).enabled then 2 ^ 32 else 0) % 2 ^ 64 ∧
      m.reg R.TLR_ACCT_DATA 0 5 = s.m.ticks % 2 ^ 64 ∧
      m.reg R.TLR_ACCT_DATA 0 6 = ((s.m.account a.toNat).refill s.m.ticks).rem % 2 ^ 64 ∧
      ∀ b, b ≠ a.toNat → m.account b = s.m.account b) ∧
    (Gives (.acctWrite a) s fun m => m.account a.toNat =
        { bal := toSigned 64 (s.m.reg R.TLR_ACCT_DATA 0 0), cap := s.m.reg R.TLR_ACCT_DATA 0 1,
          resv := (s.m.account a.toNat).resv, rate := s.m.reg R.TLR_ACCT_DATA 0 3 % 2 ^ 32,
          wp := s.m.reg R.TLR_ACCT_DATA 0 3 / 2 ^ 32, wg := s.m.reg R.TLR_ACCT_DATA 0 4 % 2 ^ 32,
          enabled := (s.m.reg R.TLR_ACCT_DATA 0 4).testBit 32, last := s.m.ticks, rem := 0 } ∧
      ∀ b, b ≠ a.toNat → m.account b = s.m.account b) ∧
    (Fits (((s.m.account a.toNat).refill s.m.ticks).bal + toSigned 64 (s.m.reg R.TLR_ACCT_DATA 0 0)) →
      Gives (.acctAdd a) s fun m => m.account a.toNat = { (s.m.account a.toNat).refill s.m.ticks with
          bal := ((s.m.account a.toNat).refill s.m.ticks).bal + toSigned 64 (s.m.reg R.TLR_ACCT_DATA 0 0) } ∧
        ∀ b, b ≠ a.toNat → m.account b = s.m.account b) ∧
    (¬ Fits (((s.m.account a.toNat).refill s.m.ticks).bal + toSigned 64 (s.m.reg R.TLR_ACCT_DATA 0 0)) →
      Gives (.acctAdd a) s fun m => m.account a.toNat = { (s.m.account a.toNat).refill s.m.ticks with
          bal := toSigned 64 (Config.ledger s.m.freeCtr).toNat } ∧
        ∀ b, b ≠ a.toNat → m.account b = s.m.account b)) ∧
  (∀ (s : State) (a : BitVec 16), s.m.keepsLedger = false → ∀ c ∈ [Instr.acctRead a, .acctWrite a, .acctAdd a],
    Does c s (s.m.put F.TLR_ACCT_CMD_ACCOUNT a.toNat))

/-- A refill adds RATE times the ticks since LAST in parts of 10^9 to a balance below CAP, never past CAP, and LAST is the tick of the
refill (R402). -/
def Sys2Proof.Spec.LedgerRefills : Prop :=
  ∀ (x : Account) (t : Nat), x.last ≤ t →
    (x.refill t).last = t ∧ (x.refill t).resv = x.resv ∧ (x.refill t).cap = x.cap ∧
    (x.bal < x.cap → (x.refill t).bal = min (x.cap : Int) (x.bal + ((x.rate * (t - x.last) + x.rem) / 1000000000 : Nat)) ∧
      x.bal ≤ (x.refill t).bal) ∧
    ((x.cap : Int) < x.bal → (x.refill t).bal = x.bal ∧ (x.refill t).rem = 0) ∧ (x.refill t).rem < 1000000000

/-- The Teller's requests and its Ledger: Spec.TellerRequests, Spec.LedgerCommands, Spec.LedgerRefills. Where the spec leaves a
point open it takes the model's convention of log entries 49, 50, 51 and 101. -/
def Obligations.TellerAndLedger : Prop := Sys2Proof.Spec.TellerRequests ∧ Sys2Proof.Spec.LedgerCommands ∧ Sys2Proof.Spec.LedgerRefills

namespace Sys2Proof.Spec

/-- a and b are the own and the partner's record i, both VALID and of one frame. -/
abbrev ComparedRecords (m : Lanorun) (i : Nat) (a b : List (BitVec 8)) : Prop :=
  m.dram (detLog i) 32 = a ∧ m.dram (detInbox i) 32 = b ∧ fieldAt a 11 1 % 2 = 1 ∧ fieldAt b 11 1 % 2 = 1 ∧
  fieldAt a 0 10 = fieldAt b 0 10

/-- The digests that SEL names are equal in both records. -/
abbrev SameDigests (m : Lanorun) (a b : List (BitVec 8)) : Prop :=
  (m.detSel % 2 = 0 ∨ fieldAt a 0x18 8 = fieldAt b 0x18 8) ∧ (m.detSel < 2 ∨ fieldAt a 0x10 8 = fieldAt b 0x10 8)

end Sys2Proof.Spec

/-- A partner's record is compared where both are VALID and of one frame, over the digests that SEL names: equal ones count a match, others a
divergence that is captured once, and on which ON_DIV = 1 faults the partition and ON_DIV = 2 halts it; other records are not compared.
An own record that has waited WAIT frames is missing; CAPCLR releases the capture. Where the spec leaves a point open it takes the
model's convention of log entry 63. -/
def Obligations.DigestsCompared : Prop :=
  (∀ (s : State) (i : BitVec 15) (a b : List (BitVec 8)), ComparedRecords s.m i.toNat a b → SameDigests s.m a b →
    Gives (.digestRecordArrive i) s fun m =>
      m.flag F.MOD_DET_EVENT_MATCH = true ∧ m.get F.MOD_DET_STATUS_LAST_STEP = fieldAt a 0 8 % 2 ^ 40 ∧
      m.get F.MOD_DET_STATUS_LAST_CFRAME = fieldAt a 8 2 ∧ m.get F.MOD_DET_STATUS_CAPTURED = s.m.get F.MOD_DET_STATUS_CAPTURED ∧
      m.flag F.MOD_DET_EVENT_DIVERGE = s.m.flag F.MOD_DET_EVENT_DIVERGE ∧ m.vaults = s.m.vaults) ∧
  (∀ (s : State) (i : BitVec 15) (a b : List (BitVec 8)), ComparedRecords s.m i.toNat a b → ¬ SameDigests s.m a b →
    Gives (.digestRecordArrive i) s fun m => m.flag F.MOD_DET_EVENT_DIVERGE = true ∧ m.vaults = s.m.vaults ∧
      m.flag F.MOD_DET_STATUS_CAPTURED = true ∧
      (s.m.flag F.MOD_DET_STATUS_CAPTURED = false → m.get F.MOD_DET_CAP_AT_STEP = fieldAt a 0 8 % 2 ^ 40 ∧
        m.reg R.MOD_DET_CAP_OWN = detSum s.m.detSel a ∧ m.reg R.MOD_DET_CAP_PEER = detSum s.m.detSel b) ∧
      (s.m.flag F.MOD_DET_STATUS_CAPTURED = true → m.reg R.MOD_DET_CAP_OWN = s.m.reg R.MOD_DET_CAP_OWN) ∧
      (s.m.get F.MOD_DET_CTRL_ON_DIV = 0 → m.plan = s.m.plan) ∧
      (s.m.det.tenancy < 16 → s.m.tenState s.m.det.tenancy = tenRunning →
        (s.m.get F.MOD_DET_CTRL_ON_DIV = 1 → (s.m.ten s.m.det.tenancy).fault = none →
          (m.ten s.m.det.tenancy).fault = some s.m.frame) ∧
        (s.m.get F.MOD_DET_CTRL_ON_DIV = 2 → (m.ten s.m.det.tenancy).halt = some 0x0D01))) ∧
  (∀ (s : State) (i : BitVec 15), ¬ ComparedRecords s.m i.toNat (s.m.dram (detLog i.toNat) 32) (s.m.dram (detInbox i.toNat) 32) →
    Does (.digestRecordArrive i) s s.m) ∧
  (∀ (s : State) (x : DetWait), s.m.frozen = false →
    s.m.det.waits.find? (fun x => decide (x.closed +
      (if s.m.get F.MOD_DET_CTRL_WAIT = 0 then 64 else s.m.get F.MOD_DET_CTRL_WAIT) ≤ s.m.frame)) = some x →
    Gives .detMissing s fun m => m.det = { s.m.det with waits := s.m.det.waits.erase x } ∧
      m.flag F.MOD_DET_EVENT_MISSING = true ∧ m.vaults = s.m.vaults ∧ m.cells = s.m.cells) ∧
  (∀ s : State, s.m.det.waits = [] → Does .detMissing s s.m) ∧
  (∀ s : State, Gives .capclr s fun m => m.flag F.MOD_DET_STATUS_CAPTURED = false ∧
    m.flag F.MOD_DET_STATUS_PART_OK = false ∧ m = { s.m with regs := m.regs } ∧
    m.get F.MOD_DET_STATUS_LAST_STEP = s.m.get F.MOD_DET_STATUS_LAST_STEP)

/-! ## Ethernet and the host interface (R434 to R457) -/

namespace Sys2Proof.Spec

/-- Every operation reads a chunk for the weight mover. -/
abbrev OnlyChunks (l : List RoceOp) : Prop := ∀ o ∈ l, ∃ op n c, o.owner = .chunk op n c

/-- Queue pair i of port e is in ERROR with ROCE_QP_ERR, and nothing is pending. -/
def QpInError (e : EthIx) (i : BitVec 8) (m : Lanorun) : Prop :=
  m.qpState e i.toNat = 2 ∧ (m.qp e i.toNat).ops = [] ∧ m.flag F.ETH_EVENT_QP_ERR e = true ∧ m.get F.DBG_FAULT_LAST_CODE = 0x0E07

/-- Port e takes PTP messages of domain d. -/
abbrev HearsPtp (e : EthIx) (d : Byte) (m : Lanorun) : Prop :=
  m.ethUp e = true ∧ m.flag F.ETH_CTRL_PTP_EN e = true ∧ d.toNat = m.get F.ETH_PTP_DOMAIN e

/-- How many of a port's newest measurements lie within 2 s and within 50 ns of each other. -/
def validMeas (m : Lanorun) (e : EthIx) : Nat := match (m.eth e).meas with
  | (_, o) :: _ => validRun m.nowPs (m.eth e).meas o o
  | [] => 0

end Sys2Proof.Spec

/-- Ethernet ports. The link comes up on an enabled port and goes down; a FEC error is flagged and the corrected codewords counted; a pause for
the enabled priority is kept; a frame for the firmware is queued; an incoming request is answered with a NAK. A congestion mark sends a
notification where none was sent within 50 µs, a notification halves the rate to 1 Gb/s at least, and a quiet 55 µs raises it by
100 Gb/s to 800 Gb/s at most. A timeout sends a queue pair's operations again, or after the last retry takes it to ERROR; an ACK
completes the WRITEs up to its PSN, READ data of a LOAD's chunk lands in its bank, and a fatal NAK leads to ERROR. A write of an entry's
control moves it to RTS from RESET alone and to RESET from any state. A Sync and its Follow_Up from the master are kept, a first master
is taken, a Delay_Resp makes a measurement, and PTP_VALID follows the measurements. -/
def Sys2Proof.Spec.EthernetPorts : Prop :=
  (∀ (s : State) (e : EthIx) (pmd : BitVec 4), s.m.isOn (108 + e) = true → s.m.flag F.ETH_CTRL_ENABLE e = true →
    s.m.flag F.ETH_STATUS_LINK_UP e = false → Gives (.ethLinkUp e pmd) s fun m => m.flag F.ETH_STATUS_LINK_UP e = true ∧
      m.flag F.ETH_EVENT_LINK_UP e = true ∧ m.get F.ETH_STATUS_PMD e = pmd.toNat ∧ m.eths = s.m.eths) ∧
  (∀ (s : State) (e : EthIx), s.m.flag F.ETH_STATUS_LINK_UP e = true → Gives (.ethLinkDown e) s fun m =>
    m.flag F.ETH_STATUS_LINK_UP e = false ∧ m.flag F.ETH_EVENT_LINK_DOWN e = true ∧ m.eths = s.m.eths) ∧
  (∀ (s : State) (e : EthIx) (n : BitVec 32), s.m.ethUp e = true → Gives (.ethFecUe e n) s fun m =>
    m.flag F.ETH_EVENT_FEC_UE e = true ∧ m.eths = s.m.eths ∧
    m.reg R.ETH_FEC_CE_CNT e % 2 ^ 48 = (s.m.reg R.ETH_FEC_CE_CNT e + n.toNat) % 2 ^ 48) ∧
  (∀ (s : State) (e : EthIx) (en : BitVec 8) (q : BitVec 16), s.m.ethUp e = true → s.m.flag F.ETH_CTRL_PFC_EN e = true →
    en.toNat.testBit (s.m.get F.ETH_CTRL_PFC_PRIO e) = true →
    Does (.pfcFrameReceive e en q) s (s.m.setEth e { s.m.eth e with pause := q.toNat })) ∧
  (∀ (s : State) (e : EthIx) (f : List Byte), s.m.ethUp e = true → f.length ≤ 9216 → Gives (.mgmtFrameReceive e f) s fun m =>
    m.flag F.ETH_EVENT_RX_MGMT e = true ∧ m.eth e = { s.m.eth e with mgmt := (s.m.eth e).mgmt ++ [f] }) ∧
  (∀ (s : State) (e : EthIx), s.m.ethUp e = true →
    Does (.roceRequestReceive e) s (s.m.setEth e { s.m.eth e with naks := (s.m.eth e).naks + 1 })) ∧
  (∀ (s : State) (e : EthIx) (i : BitVec 8), s.m.ethUp e = true →
    (∀ t, (s.m.qp e i.toNat).cnpAt = some t → t + 78125 ≤ s.m.hall.lat) →
    Gives (.ecnReceive e i) s fun m => (m.eth e).cnps = (s.m.eth e).cnps + 1 ∧
      m.qp e i.toNat = { s.m.qp e i.toNat with cnpAt := some s.m.hall.lat } ∧ m.regs = s.m.regs) ∧
  (∀ (s : State) (e : EthIx) (i : BitVec 8) (t : Nat), (s.m.qp e i.toNat).cnpAt = some t → s.m.hall.lat < t + 78125 →
    Does (.ecnReceive e i) s s.m) ∧
  (∀ (s : State) (e : EthIx) (i : BitVec 8), s.m.ethUp e = true → Does (.cnpReceive e i) s
    (s.m.setQp e i.toNat { s.m.qp e i.toNat with rate := max 1000000000 ((s.m.qp e i.toNat).rate / 2) })) ∧
  (∀ (s : State) (e : EthIx) (i : BitVec 8), s.m.frozen = false → Does (.roceRateRaise e i) s
    (s.m.setQp e i.toNat { s.m.qp e i.toNat with rate := min 800000000000 ((s.m.qp e i.toNat).rate + 100000000000) })) ∧
  (∀ (s : State) (e : EthIx) (i : BitVec 8), s.m.frozen = false → s.m.qpState e i.toNat = 1 → (s.m.qp e i.toNat).ops ≠ [] →
    (s.m.qp e i.toNat).tries < s.m.get F.ETH_CTRL_RETRY e → Gives (.roceAckTimeout e i) s fun m =>
      m.qp e i.toNat = { s.m.qp e i.toNat with tries := (s.m.qp e i.toNat).tries + 1 } ∧
      m.qpState e i.toNat = 1 ∧ m.mover = s.m.mover ∧ m.teller = s.m.teller ∧
      m.reg R.ETH_RETX_CNT e % 2 ^ 48 = (s.m.reg R.ETH_RETX_CNT e + (s.m.qp e i.toNat).ops.length) % 2 ^ 48) ∧
  (∀ (s : State) (e : EthIx) (i : BitVec 8), s.m.frozen = false → s.m.qpState e i.toNat = 1 → (s.m.qp e i.toNat).ops ≠ [] →
    OnlyChunks (s.m.qp e i.toNat).ops → s.m.loading = false → s.m.get F.ETH_CTRL_RETRY e ≤ (s.m.qp e i.toNat).tries →
    Gives (.roceAckTimeout e i) s fun m => QpInError e i m ∧ m.mover = s.m.mover) ∧
  (∀ (s : State) (e : EthIx) (i : BitVec 8) (n : Nat), s.m.frozen = false → s.m.ethUp e = true → s.m.qpState e i.toNat = 1 →
    OnlyChunks (s.m.qp e i.toNat).ops → s.m.loading = false →
    Gives (.roceResponseReceive e i (.nak n true)) s fun m => QpInError e i m ∧ m.mover = s.m.mover) ∧
  (∀ (s : State) (e : EthIx) (i : BitVec 8) (psn : Nat) (gone : List RoceOp), s.m.frozen = false →
    s.m.ethUp e = true → s.m.qpState e i.toNat = 1 →
    gone = (s.m.qp e i.toNat).ops.takeWhile (fun o => !o.read && psnLe (o.psn + o.n - 1) psn) → gone ≠ [] →
    psnLe (s.m.get F.ETH_QP_CTRL_PSN_TX e i.toNat) psn = false →
    Gives (.roceResponseReceive e i (.ack psn)) s fun m =>
      m.qp e i.toNat = { s.m.qp e i.toNat with ops := (s.m.qp e i.toNat).ops.drop gone.length, tries := 0 } ∧
      m.get F.ETH_QP_KEY_PSN_RX e i.toNat = (psn + 1) % 2 ^ 24 ∧ m.mover = s.m.mover ∧ m.host = s.m.host) ∧
  (∀ (s : State) (e : EthIx) (i : BitVec 8) (psn op n c mtu off : Nat) (bs : List Byte) (x : RoceOp) (rest : List RoceOp),
    s.m.frozen = false → s.m.ethUp e = true → s.m.qpState e i.toNat = 1 → (s.m.qp e i.toNat).ops = x :: rest → x.read = true →
    psn % 2 ^ 24 = (x.psn + x.got) % 2 ^ 24 → psn % 2 ^ 24 = s.m.get F.ETH_QP_KEY_PSN_RX e i.toNat → x.owner = .chunk op n c →
    s.m.loading = true → s.m.mover.op = op → (n, c) ∈ s.m.mover.fetching →
    mtu = pmtuBytes (s.m.get F.ETH_QP_CTRL_PMTU e i.toNat) → off = x.got * mtu →
    Gives (.roceResponseReceive e i (.readData psn bs)) s fun m =>
      m.qp e i.toNat = { s.m.qp e i.toNat with tries := 0, ops :=
        if x.got + 1 = x.n then rest else { x with got := x.got + 1 } :: rest } ∧
      m.get F.ETH_QP_KEY_PSN_RX e i.toNat = (psn + 1) % 2 ^ 24 ∧
      m.vaults = (s.m.dramWrite (s.m.shardByte n (c * 2 ^ 20 + off)) (bs.take (min mtu (x.len - off)))).vaults) ∧
  (∀ (s : State) (e : EthIx) (i : BitVec 8) (v : Word), s.m.isOn (108 + e) = true → s.m.qpState e i.toNat = 0 →
    bitsOf v.toNat 63 62 = 1 → Gives (.qpCtrlWrite e i v) s fun m => m.qpState e i.toNat = 1 ∧ m.qp e i.toNat = {} ∧
      bitsOf (m.reg R.ETH_QP_CTRL e i.toNat) 47 0 = bitsOf v.toNat 47 0 ∧
      bitsOf (m.reg R.ETH_QP_CTRL e i.toNat) 61 53 = bitsOf v.toNat 61 53) ∧
  (∀ (s : State) (e : EthIx) (i : BitVec 8) (v : Word), s.m.qpState e i.toNat ≠ 0 →
    (bitsOf v.toNat 63 62 = 1 ∨ bitsOf v.toNat 63 62 = 2) → Does (.qpCtrlWrite e i v) s s.m) ∧
  (∀ (s : State) (e : EthIx) (i : BitVec 8) (v : Word), s.m.isOn (108 + e) = true → OnlyChunks (s.m.qp e i.toNat).ops →
    s.m.loading = false → s.m.qpState e i.toNat ≠ 0 → (bitsOf v.toNat 63 62 = 0 ∨ bitsOf v.toNat 63 62 = 3) →
    Gives (.qpCtrlWrite e i v) s fun m => m.qpState e i.toNat = 0 ∧ (m.qp e i.toNat).ops = [] ∧
      bitsOf (m.reg R.ETH_QP_CTRL e i.toNat) 61 0 = bitsOf (s.m.reg R.ETH_QP_CTRL e i.toNat) 61 0) ∧
  (∀ (s : State) (e : EthIx) (i : BitVec 8) (v : Word), s.m.isOn (108 + e) = false → Does (.qpCtrlWrite e i v) s s.m) ∧
  (∀ (s : State) (e : EthIx) (d : Byte) (a : Int), HearsPtp e d s.m →
    (∀ (q : Nat) (t : Option Int), Does (.ptpMessageReceive e d true (.sync q t) a) s
      (s.m.setEth e { s.m.eth e with sync := some (q, t, a) })) ∧
    (∀ (q : Nat) (t b : Int), (s.m.eth e).sync = some (q, none, b) → Does (.ptpMessageReceive e d true (.followUp q t) a) s
      (s.m.setEth e { s.m.eth e with sync := some (q, some t, b) })) ∧
    (∀ (f : Bool) (x : List Nat), (s.m.eth e).master = none → Does (.ptpMessageReceive e d f (.announce x) a) s
      (s.m.setEth e { s.m.eth e with master := some x, sync := none, meas := [] })) ∧
    (∀ (q : Nat) (t b l r : Int), (s.m.eth e).sync = some (q, some t, b) →
      Gives (.ptpMessageReceive e d true (.delayResp l r) a) s fun m => m.hall = s.m.hall ∧ ∃ x : Int,
        (m.eth e).meas = ((s.m.nowPs, x) :: (s.m.eth e).meas).take 16 ∧
        (2 * x - ((t - b) + (r - l))).natAbs ≤ 1)) ∧
  (∀ (s : State) (e : EthIx) (d : Byte) (f : Bool) (p : PtpMessage) (a : Int), ¬ HearsPtp e d s.m →
    Does (.ptpMessageReceive e d f p a) s s.m) ∧
  (∀ (s : State) (e : EthIx), Gives (.ptpLost e) s fun m =>
    m.flag F.ETH_STATUS_PTP_VALID e = (decide (16 ≤ validMeas s.m e) && s.m.flag F.ETH_CTRL_PTP_EN e) ∧
    m.get F.ETH_PTP_COUNT e = min (validMeas s.m e) 16 ∧ m.eths = s.m.eths ∧ m.hall = s.m.hall ∧
    (s.m.flag F.BLF_STATUS_PTP_VALID = true → m.flag F.BLF_STATUS_PTP_VALID = false → m.flag F.BLF_EVENT_PTP_LOST = true))

/-- Source k signals: its vector's message is sent, or held in the PBA where the vector is masked. -/
def Sys2Proof.Spec.Signals (k : Fin 16) (mask : Bool) (m n : Lanorun) : Prop :=
  n.regs = m.regs ∧ k.val ∈ n.host.signalled ∧
  (mask = false → n.host.msgs = m.host.msgs ++ [m.get F.HST_IRQ_MAP_VECTOR 0 k] ∧ m.get F.HST_IRQ_MAP_VECTOR 0 k ∉ n.host.pba) ∧
  (mask = true → n.host.msgs = m.host.msgs ∧ m.get F.HST_IRQ_MAP_VECTOR 0 k ∈ n.host.pba)

/-- The endpoint. Its host-write queue drains in order into host memory unless it is held. A source that became pending, or that REARM names,
sends its vector's message or leaves it in the PBA behind the mask, and a message held there leaves once it is unmasked. An enabled
reason in D3 requests a wake, once, by PME or WAKE_N; the exit from low power ends it. Configuration writes move between D0 and D3 once
stage HEAD has begun. PERST_N, a hot reset and FLR reset the endpoint's registers; the release of PERST_N trains the link, as it does
after a link loss; a lost link is down. Where the spec leaves a point open it takes the model's convention of log entries 62
and 72. -/
def Obligations.EndpointStates : Prop :=
  (∀ s : State, s.m.hostHeld = true → Does .hwqDrain s s.m) ∧
  (∀ s : State, s.m.hostHeld = false → Gives .hwqDrain s fun m => m.get F.HST_HWQ_DEPTH = 0 ∧
    m.host = { s.m.host with hwq := [], mem := s.m.host.hwq.foldl (fun m w => ssets 0#8 m w.addr w.data) s.m.host.mem }) ∧
  (∀ (s : State) (k : Fin 16) (mask : Bool), s.m.hostHeld = false → s.m.sourcePending k = true → k.val ∉ s.m.host.signalled →
    Gives (.msixSend k mask) s fun m => Signals k mask s.m m) ∧
  (∀ (s : State) (k : Fin 16), s.m.hostHeld = false → (s.m.sourcePending k = false ∨ k.val ∈ s.m.host.signalled) →
    s.m.get F.HST_IRQ_MAP_VECTOR 0 k ∈ s.m.host.pba → Gives (.msixSend k false) s fun m =>
      m.host.msgs = s.m.host.msgs ++ [s.m.get F.HST_IRQ_MAP_VECTOR 0 k] ∧ s.m.get F.HST_IRQ_MAP_VECTOR 0 k ∉ m.host.pba ∧
      m.regs = s.m.regs) ∧
  (∀ (s : State) (k : Fin 16) (mask : Bool), s.m.sourcePending k = false → s.m.get F.HST_IRQ_MAP_VECTOR 0 k ∉ s.m.host.pba →
    Gives (.msixSend k mask) s fun m => m.host.msgs = s.m.host.msgs ∧ m.host.pba = s.m.host.pba ∧ m.regs = s.m.regs) ∧
  (∀ (s : State) (k : Fin 16) (mask : Bool), s.m.hostHeld = false →
    (k.val = 15 ∧ s.m.flag F.HST_IRQ_MAP_EN 0 15 = true ∨ s.m.sourcePending k = true) →
    Gives (.rearm k mask) s fun m => Signals k mask s.m m) ∧
  (∀ (s : State) (b : Fin 8), s.m.get F.HST_STATUS_DSTATE = 3 → (s.m.get F.HST_WAKE_REASON).testBit b = true →
    (s.m.get F.HST_WAKE_EN).testBit b = true → b.val ∉ s.m.host.served → s.m.flag F.HST_WAKE_ASSERTING = false →
    Gives .wakeRequest s fun m => m.flag F.HST_WAKE_ASSERTING = true ∧
      (s.m.host.inReset = true → m.get F.MOD_PINS_WAKE = 1 ∧ m.host = { s.m.host with pme := true }) ∧
      (s.m.host.inReset = false → m.get F.HST_STATUS_LSTATE = 0 ∧
        m.host = { s.m.host with pme := true, pmeSent := s.m.host.pmeSent + 1 })) ∧
  (∀ s : State, (s.m.get F.HST_STATUS_DSTATE ≠ 3 ∨ s.m.get F.HST_WAKE_REASON = 0 ∨ s.m.flag F.HST_WAKE_ASSERTING = true) →
    Does .wakeRequest s s.m) ∧
  (∀ s : State, s.m.flag F.HST_WAKE_ASSERTING = true → Gives .wakeExit s fun m => m.flag F.HST_WAKE_ASSERTING = false ∧
    m.get F.MOD_PINS_WAKE = 0 ∧ m.flag F.HST_EVENT_WAKE_SAT = true ∧
    ∀ b, b ∈ m.host.served ↔ b < 8 ∧ (s.m.get F.HST_WAKE_REASON).testBit b = true) ∧
  (∀ (s : State) (bme : Bool), s.m.host.inReset = false → s.m.configReady = true →
    Gives (.dStateChange false bme) s fun m => m.get F.HST_STATUS_DSTATE = 3 ∧
      m.get F.HST_STATUS_LSTATE = (if s.m.get F.HST_STATUS_LSTATE ≤ 2 then 2 else s.m.get F.HST_STATUS_LSTATE) ∧
      m.flag F.HST_STATUS_BME = bme ∧ m.host = s.m.host) ∧
  (∀ (s : State) (bme : Bool), s.m.host.inReset = false → s.m.configReady = true →
    Gives (.dStateChange true bme) s fun m => m.get F.HST_STATUS_DSTATE = 0 ∧
      m.get F.HST_STATUS_LSTATE = (if s.m.get F.HST_STATUS_LSTATE ≤ 2 then 0 else s.m.get F.HST_STATUS_LSTATE) ∧
      m.flag F.HST_STATUS_BME = bme ∧
      (s.m.get F.HST_STATUS_DSTATE = 3 → m.flag F.HST_WAKE_ASSERTING = false) ∧
      (s.m.get F.HST_STATUS_DSTATE ≠ 3 → m.host = s.m.host)) ∧
  (∀ (s : State) (d0 bme : Bool), (s.m.host.inReset = true ∨ s.m.configReady = false) → Does (.dStateChange d0 bme) s s.m) ∧
  (∀ (s : State) (pin : Bool), Gives (.perstReset pin) s fun m => m.get F.HST_STATUS_BME = 0 ∧ m.get F.HST_STATUS_RATE = 0 ∧
    m.get F.HST_STATUS_WIDTH = 0 ∧ m.get F.HST_STATUS_LSTATE = (if pin then 3 else 4) ∧
    m.get F.HST_STATUS_DSTATE = (if pin then 3 else 0) ∧ (∀ k, k < 16 → m.reg R.HST_IRQ_MAP 0 k = 0) ∧
    m.reg R.HST_MWIN = 0 ∧ m.reg R.HST_CWIN = R.HST_CWIN.reset ∧ m.host.pba = [] ∧ m.host.hwq = s.m.host.hwq ∧
    (pin = true → m.host.inReset = true)) ∧
  (∀ (s : State) (rate : BitVec 3) (width : BitVec 5) (fl : Bool), s.m.isOn 110 = true →
    (s.m.host.inReset = true ∨ s.m.get F.HST_STATUS_LSTATE = 4) →
    Gives (.perstRelease rate width fl) s fun m => m.host.inReset = false ∧ m.get F.HST_STATUS_RATE = rate.toNat ∧
      m.get F.HST_STATUS_WIDTH = width.toNat ∧ m.get F.HST_STATUS_LSTATE = (if rate = 0 then 4 else 0) ∧
      (s.m.host.inReset = true → m.get F.HST_STATUS_DSTATE = 0) ∧ m.flag F.MOD_PINS_PERST = false) ∧
  (∀ s : State, s.m.get F.HST_STATUS_LSTATE ≤ 2 → Gives .pcieLinkDown s fun m => m.get F.HST_STATUS_LSTATE = 4 ∧
    m.get F.HST_STATUS_RATE = 0 ∧ m.get F.HST_STATUS_WIDTH = 0 ∧ m.flag F.HST_EVENT_LINK_DOWN = true ∧ m.host = s.m.host) ∧
  (∀ s : State, 2 < s.m.get F.HST_STATUS_LSTATE → Does .pcieLinkDown s s.m) ∧
  (∀ s : State, (∀ w ∈ s.m.host.hwq, w.owner = none) → Gives .flr s fun m => m.flag F.HST_EVENT_FLR = true ∧ m.host.hwq = [] ∧
    m.get F.HST_HWQ_DEPTH = 0 ∧ m.get F.HST_STATUS_BME = 0 ∧ m.get F.HST_STATUS_DSTATE = 0 ∧
    (∀ k, k < 16 → m.reg R.HST_IRQ_MAP 0 k = 0) ∧ m.teller = s.m.teller)

/-- The host mailbox: DOORBELL is accepted from IDLE alone and POST from BUSY alone; ACK of the result's SEQ consumes it, another changes
nothing; a status read of a waiting result marks it; IDENT answers the identity, the interface versions and the unit's ID, and an opcode
outside the table the code 0xFF. -/
def Sys2Proof.Spec.HostMailbox : Prop :=
  (∀ (s : State) (op : Byte), s.m.flag F.HST_MBOX_STATUS_BUSY = false → s.m.flag F.HST_MBOX_STATUS_READY = false →
    Gives (.doorbell op) s fun m => m.flag F.HST_MBOX_STATUS_BUSY = true ∧ m.get F.HST_MBOX_STATUS_OPCODE = op.toNat ∧
      m.get F.HST_MBOX_STATUS_SEQ = (s.m.get F.HST_MBOX_STATUS_SEQ + 1) % 2 ^ 16 ∧
      m.flag F.HST_EVENT_MBOX_DOOR = true ∧ m = { s.m with regs := m.regs }) ∧
  (∀ (s : State) (op : Byte), (s.m.flag F.HST_MBOX_STATUS_BUSY = true ∨ s.m.flag F.HST_MBOX_STATUS_READY = true) →
    Does (.doorbell op) s (s.m.event F.HST_EVENT_MBOX_REFUSED)) ∧
  (∀ (s : State) (code : BitVec 16), s.m.flag F.HST_MBOX_STATUS_BUSY = true → Gives (.post code) s fun m =>
    m.flag F.HST_MBOX_STATUS_BUSY = false ∧ m.flag F.HST_MBOX_STATUS_READY = true ∧
    m.get F.HST_MBOX_STATUS_CODE = code.toNat % 2 ^ 8 ∧ m.get F.HST_MBOX_STATUS_ALREADY_READ = 0 ∧
    m.get F.HST_MBOX_STATUS_SEQ = s.m.get F.HST_MBOX_STATUS_SEQ) ∧
  (∀ (s : State) (code : BitVec 16), s.m.flag F.HST_MBOX_STATUS_BUSY = false → Does (.post code) s s.m) ∧
  (∀ (s : State) (q : BitVec 16), s.m.flag F.HST_MBOX_STATUS_READY = true → s.m.get F.HST_MBOX_STATUS_SEQ = q.toNat →
    Gives (.mboxAck q) s fun m => m.flag F.HST_MBOX_STATUS_READY = false ∧ m.get F.HST_MBOX_STATUS_CODE = 0 ∧
      m.host.mem = s.m.host.mem ∧ m.host.hwq = s.m.host.hwq) ∧
  (∀ (s : State) (q : BitVec 16), (s.m.flag F.HST_MBOX_STATUS_READY = false ∨ s.m.get F.HST_MBOX_STATUS_SEQ ≠ q.toNat) →
    Does (.mboxAck q) s s.m) ∧
  (∀ s : State, s.m.flag F.HST_MBOX_STATUS_READY = true →
    Does .mboxStatusRead s (s.m.put F.HST_MBOX_STATUS_ALREADY_READ 1)) ∧
  (∀ s : State, s.m.flag F.HST_MBOX_STATUS_READY = false → Does .mboxStatusRead s s.m) ∧
  (∀ s : State, s.m.flag F.HST_MBOX_STATUS_BUSY = true → s.m.get F.HST_MBOX_STATUS_OPCODE = 1 → Gives .ident s fun m =>
    m.reg R.HST_MBOX_RES 0 0 = s.m.reg R.MOD_IDENT ∧ m.reg R.HST_MBOX_RES 0 1 = s.m.reg R.HST_IFVER ∧
    m.reg R.HST_MBOX_RES 0 2 = s.m.get F.KEP_UNIT_ID ∧ m.reg R.HST_MBOX_RES 0 3 = s.m.get F.KEP_UNIT_ID 0 1 ∧
    m.flag F.HST_MBOX_STATUS_READY = true ∧ m.flag F.HST_MBOX_STATUS_BUSY = false ∧ m.get F.HST_MBOX_STATUS_CODE = 0) ∧
  (∀ s : State, s.m.flag F.HST_MBOX_STATUS_BUSY = true →
    (s.m.get F.HST_MBOX_STATUS_OPCODE = 0 ∨ 5 < s.m.get F.HST_MBOX_STATUS_OPCODE) → Gives .ident s fun m =>
      m.flag F.HST_MBOX_STATUS_READY = true ∧ m.get F.HST_MBOX_STATUS_CODE = 0xFF)

/-- Ethernet ports and the host mailbox: Spec.EthernetPorts, Spec.HostMailbox. Where the spec leaves a point open it takes the
model's convention of log entries 73 and 74. -/
def Obligations.EthernetAndHostMailbox : Prop := Sys2Proof.Spec.EthernetPorts ∧ Sys2Proof.Spec.HostMailbox

/-! ## Power, clocks and retirement (R466 to R480, R519, R520) -/

namespace Sys2Proof.Spec

/-- The sequencer is free for a software request: nothing runs or waits in it, the module is not frozen and has not tripped. -/
abbrev SequencerFree (m : Lanorun) : Prop :=
  m.frozen = false ∧ m.flag F.PWR_EVENT_TRIP = false ∧ m.power.job = none ∧ m.power.wait = []

/-- The blocks of a shell's domain that are on, as switches to OFF. -/
def blocksOff (m : Lanorun) (d : Nat) : List (Nat × Bool) :=
  (((List.range 5).map ((d - 80) * 5 + ·)).filter m.isOn).map fun b => (b, false)

end Sys2Proof.Spec

/-- A free sequencer takes an ON of a domain that is off: STATUS says that a switch runs, and the domain is off until it ends; a block
whose shell is off has the shell switched on before it. It takes an OFF of a domain that is on and that no image locks: the domain is
off at once and loses what it holds, a vault its contents, a block its cells (a retired cell stays RETIRED), a quadrant whose ports are
down its ports; a shell's blocks go first. A domain already as requested is DONE at once. A request with a refusal of R467 only has its
domain and status recorded. A switch that completes brings a domain on and begins the next, or ends the job, DONE and for software with
its event; with no job nothing completes and nothing fails. A domain that fails ends the job FAILED with PD_FAIL: for a vault, a link
quadrant or an Ethernet port 0x0F05 and a replacement cause, and a load that waited for it LOAD_POWER; for a block or a region its
cells are retired (R19, R466 to R469, R519). -/
def Obligations.PowerDomains : Prop :=
  (∀ (s : State) (d : BitVec 7), SequencerFree s.m → d.toNat < 110 → s.m.isOn d.toNat = false →
    (80 ≤ d.toNat ∨ s.m.isOn (80 + d.toNat / 5) = true) →
    Gives (.pdOn d) s fun m => m.get F.PWR_PD_CTRL_STATUS = 1 ∧ m.get F.PWR_PD_CTRL_DOMAIN = d.toNat ∧
      m = { s.m with regs := m.regs, power := { s.m.power with job := some ⟨0, [(d.toNat, true)]⟩ } } ∧ m.isOn d.toNat = false) ∧
  (∀ (s : State) (d : BitVec 7), SequencerFree s.m → d.toNat < 80 → s.m.isOn d.toNat = false →
    s.m.isOn (80 + d.toNat / 5) = false →
    Gives (.pdOn d) s fun m => m.get F.PWR_PD_CTRL_STATUS = 1 ∧ m.get F.PWR_PD_CTRL_DOMAIN = 80 + d.toNat / 5 ∧
      m = { s.m with regs := m.regs, power := { s.m.power with job := some ⟨0, [(80 + d.toNat / 5, true), (d.toNat, true)]⟩ } } ∧
      m.isOn d.toNat = false) ∧
  (∀ (s : State) (d : BitVec 7), SequencerFree s.m → d.toNat < 110 → s.m.isOn d.toNat = true →
    Gives (.pdOn d) s fun m => m.get F.PWR_PD_CTRL_STATUS = 2 ∧
      m.flag F.PWR_EVENT_PD_DONE = true ∧ m = { s.m with regs := m.regs }) ∧
  (∀ (s : State) (d : BitVec 7), SequencerFree s.m → 96 ≤ d.toNat → d.toNat < 104 → s.m.isOn d.toNat = true →
    s.m.lockedOn d.toNat = false → Gives (.pdOff d) s fun m => m.get F.PWR_PD_CTRL_STATUS = 1 ∧
      m.isOn d.toNat = false ∧ m.vault (d.toNat - 96) = {} ∧ (∀ v, v ≠ d.toNat - 96 → m.vault v = s.m.vault v) ∧
      m.power = { s.m.power with job := some ⟨0, [(d.toNat, false)]⟩ } ∧ m.cells = s.m.cells) ∧
  (∀ (s : State) (d : BitVec 7), SequencerFree s.m → d.toNat < 80 → s.m.isOn d.toNat = true →
    s.m.lockedOn d.toNat = false → Gives (.pdOff d) s fun m => m.get F.PWR_PD_CTRL_STATUS = 1 ∧
      m.isOn d.toNat = false ∧ (∀ c, c / 17 ≠ d.toNat → m.cell c = s.m.cell c) ∧
      (∀ c, c / 17 = d.toNat → s.m.cellRetired c = false → m.cell c = {}) ∧
      (∀ c, c / 17 = d.toNat → s.m.cellRetired c = true → (m.cell c).st = 4) ∧
      m.power = { s.m.power with job := some ⟨0, [(d.toNat, false)]⟩ } ∧ m.vaults = s.m.vaults) ∧
  (∀ (s : State) (d : BitVec 7), SequencerFree s.m → 104 ≤ d.toNat → d.toNat < 110 → s.m.isOn d.toNat = true →
    s.m.lockedOn d.toNat = false → (∀ p ∈ quadrantPorts d.toNat, s.m.linkState p = 0 ∨ s.m.linkState p = 7) →
    Gives (.pdOff d) s fun m => m.get F.PWR_PD_CTRL_STATUS = 1 ∧ m.isOn d.toNat = false ∧
      (∀ p ∈ quadrantPorts d.toNat, m.port p = {}) ∧ (∀ p, p ∉ quadrantPorts d.toNat → m.port p = s.m.port p) ∧
      m.power = { s.m.power with job := some ⟨0, [(d.toNat, false)]⟩ } ∧ m.vaults = s.m.vaults ∧ m.cells = s.m.cells) ∧
  (∀ (s : State) (d : BitVec 7), SequencerFree s.m → 80 ≤ d.toNat → d.toNat < 96 → s.m.isOn d.toNat = true →
    s.m.lockedOn d.toNat = false → Gives (.pdOff d) s fun m => m.get F.PWR_PD_CTRL_STATUS = 1 ∧
      m.power = { s.m.power with job := some ⟨0, blocksOff s.m d.toNat ++ [(d.toNat, false)]⟩ } ∧
      (∀ x, (blocksOff s.m d.toNat ++ [(d.toNat, false)]).head? = some x →
        m.get F.PWR_PD_CTRL_DOMAIN = x.1 ∧ m.isOn x.1 = false) ∧ m.vaults = s.m.vaults) ∧
  (∀ (s : State) (d : BitVec 7), SequencerFree s.m → d.toNat < 110 → s.m.isOn d.toNat = false → s.m.lockedOn d.toNat = false →
    (∀ x ∈ blocksOff s.m d.toNat, d.toNat < 80 ∨ 96 ≤ d.toNat) →
    Gives (.pdOff d) s fun m => m.get F.PWR_PD_CTRL_STATUS = 2 ∧
      m.flag F.PWR_EVENT_PD_DONE = true ∧ m = { s.m with regs := m.regs }) ∧
  (∀ (s : State) (d : BitVec 7), 110 ≤ d.toNat →
    Does (.pdOn d) s ((s.m.put F.PWR_PD_CTRL_DOMAIN d.toNat).put F.PWR_PD_CTRL_STATUS 4) ∧
    Does (.pdOff d) s ((s.m.put F.PWR_PD_CTRL_DOMAIN d.toNat).put F.PWR_PD_CTRL_STATUS 4)) ∧
  (∀ (s : State) (d : BitVec 7), d.toNat < 110 → s.m.frozen = true →
    Does (.pdOn d) s ((s.m.put F.PWR_PD_CTRL_DOMAIN d.toNat).put F.PWR_PD_CTRL_STATUS 5) ∧
    Does (.pdOff d) s ((s.m.put F.PWR_PD_CTRL_DOMAIN d.toNat).put F.PWR_PD_CTRL_STATUS 5)) ∧
  (∀ (s : State) (d : BitVec 7), d.toNat < 110 → s.m.frozen = false → s.m.flag F.PWR_EVENT_TRIP = true →
    Does (.pdOn d) s ((s.m.put F.PWR_PD_CTRL_DOMAIN d.toNat).put F.PWR_PD_CTRL_STATUS 6)) ∧
  (∀ (s : State) (d : BitVec 7), d.toNat < 110 → s.m.frozen = false → (s.m.power.job ≠ none ∨ s.m.power.wait ≠ []) →
    (s.m.flag F.PWR_EVENT_TRIP = false → Does (.pdOn d) s ((s.m.put F.PWR_PD_CTRL_DOMAIN d.toNat).put F.PWR_PD_CTRL_STATUS 7)) ∧
    Does (.pdOff d) s ((s.m.put F.PWR_PD_CTRL_DOMAIN d.toNat).put F.PWR_PD_CTRL_STATUS 7)) ∧
  (∀ (s : State) (d : BitVec 7), SequencerFree s.m → d.toNat < 110 → s.m.lockedOn d.toNat = true →
    Does (.pdOff d) s ((s.m.put F.PWR_PD_CTRL_DOMAIN d.toNat).put F.PWR_PD_CTRL_STATUS 8)) ∧
  (∀ (s : State) (src d : Nat), s.m.power.job = some ⟨src, [(d, true)]⟩ → s.m.power.wait = [] → d < 110 →
    Gives .pdSwitchDone s fun m => m.isOn d = true ∧ m.get F.PWR_PD_CTRL_STATUS = 2 ∧
      (src = 0 → m.flag F.PWR_EVENT_PD_DONE = true) ∧ m.power = { s.m.power with job := none } ∧
      (96 ≤ d → d < 104 → (m.vault (d - 96)).training = true) ∧ m.cells = s.m.cells) ∧
  (∀ (s : State) (d : Nat), s.m.power.job = some ⟨0, [(d, false)]⟩ → s.m.power.wait = [] →
    Gives .pdSwitchDone s fun m => m.get F.PWR_PD_CTRL_STATUS = 2 ∧ m.flag F.PWR_EVENT_PD_DONE = true ∧
      m = { s.m with regs := m.regs, power := { s.m.power with job := none } }) ∧
  (∀ (s : State) (d : Nat), d < 80 → s.m.isOn d = false → s.m.power.job = some ⟨0, [(80 + d / 5, true), (d, true)]⟩ →
    Gives .pdSwitchDone s fun m => m.isOn (80 + d / 5) = true ∧ m.isOn d = false ∧ m.get F.PWR_PD_CTRL_STATUS = 1 ∧
      m.get F.PWR_PD_CTRL_DOMAIN = d ∧ m.power = { s.m.power with job := some ⟨0, [(d, true)]⟩ } ∧ m.cells = s.m.cells) ∧
  (∀ s : State, s.m.power.job = none → Does .pdSwitchDone s s.m ∧ Does .pdFail s s.m) ∧
  (∀ (s : State) (d : Nat), s.m.power.job = some ⟨0, [(d, true)]⟩ → s.m.power.wait = [] → 96 ≤ d → d < 110 →
    Gives .pdFail s fun m => m.get F.PWR_PD_CTRL_STATUS = 3 ∧ m.get F.PWR_PD_CTRL_DOMAIN = d ∧
      m.flag F.PWR_EVENT_PD_FAIL = true ∧ m.get F.DBG_FAULT_LAST_CODE = 0x0F05 ∧
      (m.get F.DBG_STATUS_REPLACE_CAUSE).testBit (if d < 104 then 2 else 4) = true ∧ m.isOn d = s.m.isOn d ∧
      m.power = { s.m.power with job := none } ∧ m.cells = s.m.cells) ∧
  (∀ (s : State) (d : Nat) (l : Load), s.m.power.job = some ⟨1, [(d, true)]⟩ → s.m.power.wait = [] → 96 ≤ d → d < 110 →
    s.m.plan.load = some l → l.slot < 4 →
    Gives .pdFail s fun m => m.get F.PWR_PD_CTRL_STATUS = 3 ∧ m.flag F.PWR_EVENT_PD_FAIL = true ∧
      m.slotState l.slot = slotFailed ∧ m.get F.PLN_SLOT_STAT_CODE 0 l.slot = 0x0807 ∧ m.plan.load = none) ∧
  (∀ (s : State) (d : Nat), s.m.power.job = some ⟨0, [(d, true)]⟩ → s.m.power.wait = [] → d < 96 →
    Gives .pdFail s fun m => m.get F.PWR_PD_CTRL_STATUS = 3 ∧ m.get F.PWR_PD_CTRL_DOMAIN = d ∧
      m.flag F.PWR_EVENT_PD_FAIL = true ∧ m.power = { s.m.power with job := none } ∧
      (∀ c, c < 1360 → (if d < 80 then c / 17 = d else c / 85 = d - 80) → m.cellRetired c = true ∨ m.cellFused c = true))

/-- The monitor: a sample is kept among the last 40 and its power summed for the frame, and above 3,600 W every region that is on goes to
level 16, with cause 4. An evaluation takes the oldest ten samples and shows the sensors' temperatures; average power above 3,000 W
raises every region that is on by one level, and without a cause no level changes; a trip temperature sets TRIP and takes the domains
PD0 to PD107 off. While polling runs a rail's answer fills its readings, a missed poll is PMB_ERR and the third in a row STALE; with
polling off, its clock gated or the SMBus in use nothing is polled. Writes of the clock enables and dividers take place, and gating the
measuring unit abandons its measurement. START of a measurement with a source and a gate that it has begins it; with another it ends
at once as BADSEL, and with the unit gated nothing happens; the gate's end writes the count (R471 to R474, R477 to R480). -/
def Sys2Proof.Spec.MonitorAndClocks : Prop :=
  (∀ (s : State) (mv ma : BitVec 32), Gives (.inputSample mv ma) s fun m =>
    m.power.samples.getLast? = some (mv.toNat, ma.toNat) ∧ m.power.samples.length ≤ 40 ∧
    m.power.frameUw = s.m.power.frameUw + mv.toNat * ma.toNat ∧ m.power.frameN = s.m.power.frameN + 1 ∧
    m.cells = s.m.cells ∧ (mv.toNat * ma.toNat ≤ 3600000000 → m.regs = s.m.regs) ∧
    (3600000000 < mv.toNat * ma.toNat → ∀ r, r < 16 → s.m.isOn (80 + r) = true → s.m.get F.RGN_CLK_PROT_LEVEL r ≤ 16 →
      m.get F.RGN_CLK_PROT_LEVEL r = 16 ∧ m.get F.PWR_PROT_CAUSE = 4)) ∧
  (∀ (s : State) (ms : List Byte) (ts vs : List Int), (∀ t ∈ ts, t < 1680) → (∀ t ∈ vs, t < 1600) →
    Gives (.monitorEvaluate ms ts vs) s fun m =>
      m.power.samples = s.m.power.samples.drop 10 ∧ m.cells = s.m.cells ∧ m.vaults = s.m.vaults ∧
      (∀ r, r < 16 → m.get F.PWR_THERM_TEMP 0 r = ofSigned 16 (hottest ((ts.drop (4 * r)).take 4))) ∧
      (∀ v, v < 8 → m.get F.PWR_THERM_TEMP 0 (16 + v) = ofSigned 16 (listGet 0 vs v))) ∧
  (∀ (s : State) (ms : List Byte) (ts vs : List Int),
    3000000000 * (s.m.power.samples.take 10).length < ((s.m.power.samples.take 10).map fun x => x.1 * x.2).sum →
    (∀ t ∈ ts, t < 1680) → (∀ t ∈ vs, t < 1600) → Gives (.monitorEvaluate ms ts vs) s fun m =>
      ∀ r, r < 16 → s.m.isOn (80 + r) = true → s.m.get F.RGN_CLK_PROT_LEVEL r < 16 →
        m.get F.RGN_CLK_PROT_LEVEL r = s.m.get F.RGN_CLK_PROT_LEVEL r + 1) ∧
  (∀ (s : State) (ms : List Byte) (ts vs : List Int), let l := s.m.power.samples.take 10;
    (l.map fun x => x.1 * x.2).sum ≤ 3000000000 * l.length → (l.map (·.2)).sum ≤ 80000 * l.length →
    40000 * l.length ≤ (l.map (·.1)).sum → (∀ t ∈ ts, t < 1600) → (∀ t ∈ vs, t < 1600) → (∀ x ∈ ms, 8 ≤ x.toNat) →
    (∀ v, v < 8 → s.m.isOn (96 + v) = true → s.m.get F.VLT_STATUS_BAND v ≠ 2) → Gives (.monitorEvaluate ms ts vs) s fun m =>
      ∀ r, r < 16 → m.get F.RGN_CLK_PROT_LEVEL r = s.m.get F.RGN_CLK_PROT_LEVEL r) ∧
  (∀ (s : State) (ms : List Byte) (ts vs : List Int), s.m.flag F.PWR_EVENT_TRIP = false →
    ((∃ t ∈ ts.take 64, 1680 ≤ t) ∨ (∃ t ∈ vs.take 8, 1600 ≤ t)) → Gives (.monitorEvaluate ms ts vs) s fun m =>
      m.flag F.PWR_EVENT_TRIP = true ∧ m.power.job = none ∧ m.power.wait = [] ∧ ∀ d, d < 108 → m.isOn d = false) ∧
  (∀ (s : State) (k : Fin 12) (v i t st : BitVec 16), s.m.flag F.PWR_PMB_CTRL_POLL_EN = true →
    (s.m.get F.PWR_CLKEN_EN).testBit 0 = true → s.m.get F.DBG_SMB_STATE = 0 → Gives (.pmbusPoll k (some (v, i, t, st))) s fun m =>
      m.get F.PWR_RAIL_VOUT 0 k = v.toNat ∧ m.get F.PWR_RAIL_IOUT 0 k = i.toNat ∧ m.get F.PWR_RAIL_TEMP 0 k = t.toNat ∧
      (m.flag F.PWR_RAIL_FAULT 0 k = true ↔ st ≠ 0) ∧ m.flag F.PWR_RAIL_STALE 0 k = false ∧ sget 0 m.power.missed k = 0) ∧
  (∀ (s : State) (k : Fin 12), s.m.flag F.PWR_PMB_CTRL_POLL_EN = true → (s.m.get F.PWR_CLKEN_EN).testBit 0 = true →
    s.m.get F.DBG_SMB_STATE = 0 → Gives (.pmbusPoll k none) s fun m =>
      sget 0 m.power.missed k = sget 0 s.m.power.missed k + 1 ∧ m.flag F.PWR_EVENT_PMB_ERR = true ∧
      (m.flag F.PWR_RAIL_STALE 0 k = true ↔ 2 ≤ sget 0 s.m.power.missed k ∨ s.m.flag F.PWR_RAIL_STALE 0 k = true) ∧
      m.get F.PWR_RAIL_VOUT 0 k = s.m.get F.PWR_RAIL_VOUT 0 k) ∧
  (∀ (s : State) (k : Fin 12) (a : Option (BitVec 16 × BitVec 16 × BitVec 16 × BitVec 16)),
    (s.m.flag F.PWR_PMB_CTRL_POLL_EN = false ∨ (s.m.get F.PWR_CLKEN_EN).testBit 0 = false ∨ s.m.get F.DBG_SMB_STATE ≠ 0) →
    Does (.pmbusPoll k a) s s.m) ∧
  (∀ (s : State) (v : Word), Gives (.clkenWrite v) s fun m => m.get F.PWR_CLKEN_EN = v.toNat % 16 ∧
    m.power.measuring = (s.m.power.measuring && v.toNat.testBit 1) ∧ m.cells = s.m.cells) ∧
  (∀ (s : State) (p : BitVec 8) (w : BitVec 4), Gives (.cpclkWrite p w) s fun m => m.get F.PWR_CPCLK_PER_DIV = p.toNat ∧
    m.get F.PWR_CPCLK_STW_DIV = w.toNat ∧
    m.power.ruleKept = (s.m.power.ruleKept && decide (w ≠ 0 ∧ p.toNat % w.toNat = 0 ∧ 2 * w.toNat ≤ p.toNat))) ∧
  (∀ s : State, (s.m.get F.PWR_CLKEN_EN).testBit 1 = true → cmuSource (s.m.get F.PWR_CMU_CTRL_SRC) = true →
    8 ≤ s.m.get F.PWR_CMU_CTRL_GATE → s.m.get F.PWR_CMU_CTRL_GATE ≤ 24 → Gives .cmuStart s fun m =>
      m.reg R.PWR_CMU_RES = 0 ∧ m.power.measuring = true) ∧
  (∀ s : State, (s.m.get F.PWR_CLKEN_EN).testBit 1 = true → (cmuSource (s.m.get F.PWR_CMU_CTRL_SRC) = false ∨
    s.m.get F.PWR_CMU_CTRL_GATE < 8 ∨ 24 < s.m.get F.PWR_CMU_CTRL_GATE) →
    Gives .cmuStart s fun m => m.flag F.PWR_CMU_RES_BADSEL = true ∧ m.flag F.PWR_CMU_RES_DONE = true ∧
      m.flag F.PWR_EVENT_CMU_DONE = true ∧ m.power.measuring = false) ∧
  (∀ s : State, (s.m.get F.PWR_CLKEN_EN).testBit 1 = false → Does .cmuStart s s.m) ∧
  (∀ (s : State) (n : BitVec 32), s.m.power.measuring = true → Gives (.cmuDone n) s fun m =>
    m.get F.PWR_CMU_RES_COUNT = n.toNat ∧ m.flag F.PWR_CMU_RES_DONE = true ∧ m.flag F.PWR_CMU_RES_BADSEL = false ∧
    m.flag F.PWR_EVENT_CMU_DONE = true ∧ m.power.measuring = false) ∧
  (∀ (s : State) (n : BitVec 32), s.m.power.measuring = false → Does (.cmuDone n) s s.m)

/-- RETIRE of a cell that is neither retired nor fused out marks it RETIRED and out of the active cells, with the fault 0x1103; the lowest spare
of its block takes an active cell's place; slots that are READY fail, and a tenancy bound to the active cell halts at the next Bell
with 0x1103. RETIRE of a block or a region retires what of it is left. What is retired or fused out already, and what names no unit,
changes nothing (R519 to R521). -/
def Sys2Proof.Spec.CellsRetire : Prop :=
  (∀ (s : State) (c : BitVec 11), c.toNat < 1360 → s.m.cellRetired c.toNat = false → s.m.cellFused c.toNat = false →
    Gives (.retire 0 c) s fun m =>
      m.cellRetired c.toNat = true ∧ (m.cell c.toNat).st = 4 ∧ m.flag F.DBG_EVENT_RETIRED = true ∧
      m.get F.DBG_FAULT_LAST_CODE = 0x1103 ∧ (∀ d, d ≠ c.toNat → m.cell d = s.m.cell d) ∧
      (∀ d, d < 1360 → d ≠ c.toNat → m.cellRetired d = s.m.cellRetired d) ∧
      (m.get F.DBG_BLOCK_ACTIVE 0 (c.toNat / 17)).testBit (c.toNat % 17) = false ∧
      m.get F.DBG_STATUS_P = m.activeCells.length ∧
      (∀ i, i < 4 → m.slotState i = if s.m.slotState i = slotReady then slotFailed else s.m.slotState i)) ∧
  (∀ (s : State) (c : BitVec 11) (i : Fin 17), c.toNat < 1360 → s.m.cellRetired c.toNat = false → s.m.cellFused c.toNat = false →
    (s.m.get F.DBG_BLOCK_ACTIVE 0 (c.toNat / 17)).testBit (c.toNat % 17) = true →
    (∀ j, j ≤ i.val → ((s.m.get F.DBG_BLOCK_ACTIVE 0 (c.toNat / 17)).testBit j = false ∧
      s.m.cellRetired (c.toNat / 17 * 17 + j) = false ∧ s.m.cellFused (c.toNat / 17 * 17 + j) = false ↔ j = i.val)) →
    Gives (.retire 0 c) s fun m => (m.get F.DBG_BLOCK_ACTIVE 0 (c.toNat / 17)).testBit i = true) ∧
  (∀ (s : State) (c : BitVec 11) (im : Image) (t : Nat), c.toNat < 1360 → s.m.cellRetired c.toNat = false →
    s.m.cellFused c.toNat = false → s.m.cellActive c.toNat = true → s.m.activeImage = some im → t < im.tenancyCount → t < 16 →
    s.m.tenState t ≠ tenHalted → c.toNat ∈ im.cellsOf t → Gives (.retire 0 c) s fun m => (m.ten t).halt = some 0x1103) ∧
  (∀ (s : State) (c : BitVec 11), (s.m.cellRetired c.toNat = true ∨ s.m.cellFused c.toNat = true) →
    Does (.retire 0 c) s s.m) ∧
  (∀ (s : State) (u : BitVec 11), u.toNat < 80 →
    (∃ c, c < 1360 ∧ c / 17 = u.toNat ∧ s.m.cellRetired c = false ∧ s.m.cellFused c = false) → Gives (.retire 1 u) s fun m =>
      m.flag F.DBG_EVENT_RETIRED = true ∧ m.get F.DBG_FAULT_LAST_CODE = 0x1103 ∧
      ∀ c, c < 1360 → c / 17 = u.toNat → m.cellFused c = s.m.cellFused c ∧ (m.cellRetired c = true ∨ m.cellFused c = true)) ∧
  (∀ (s : State) (u : BitVec 11), u.toNat < 16 →
    (∃ c, c < 1360 ∧ c / 85 = u.toNat ∧ s.m.cellRetired c = false ∧ s.m.cellFused c = false) → Gives (.retire 2 u) s fun m =>
      m.flag F.DBG_EVENT_RETIRED = true ∧ m.get F.DBG_FAULT_LAST_CODE = 0x1103 ∧
      ∀ c, c < 1360 → c / 85 = u.toNat → m.cellFused c = s.m.cellFused c ∧ (m.cellRetired c = true ∨ m.cellFused c = true)) ∧
  (∀ (s : State) (k : BitVec 2) (u : BitVec 11), (k = 3 ∨ k = 0 ∧ 1360 ≤ u.toNat ∨ k = 1 ∧ 80 ≤ u.toNat ∨ k = 2 ∧ 16 ≤ u.toNat) →
    Does (.retire k u) s s.m)

/-- Monitors, clocks, and cells that retire: Spec.MonitorAndClocks, Spec.CellsRetire. Where the spec leaves a point open it takes
the model's convention of log entries 70 and 71. -/
def Obligations.MonitorClocksRetire : Prop := Sys2Proof.Spec.MonitorAndClocks ∧ Sys2Proof.Spec.CellsRetire

/-! ## The Keep, boot, firmware update and attestation (R485 to R511) -/

namespace Sys2Proof.Spec

/-- The Keep's log has room for two records. -/
abbrev LogRoom (m : Lanorun) : Prop := m.keep.log.length < 1022
/-- One record of a kind has entered the log, with the next SEQ. -/
def Logged (m n : Lanorun) (kind : Nat) (needs : Bool) (data : List (BitVec 8)) : Prop :=
  n.get F.KEP_LOG_CTRL_HEAD = (m.get F.KEP_LOG_CTRL_HEAD + 1) % 2 ^ 32 ∧ ∃ r : LogRec, n.keep.log = m.keep.log ++ [r] ∧
    r.kind = kind ∧ r.needs = needs ∧ r.data = data ∧ r.acked = false ∧ r.seq = n.get F.KEP_LOG_CTRL_HEAD

/-- The firmware has answered a service-port request. -/
def SvcAnswered (m n : Lanorun) (op seq status off : Nat) (data : List (BitVec 8)) : Prop :=
  n.keep.svc = m.keep.svc ++ [{ op := op, seq := seq, status := status, off := off, data := data }]

/-- The idle slot is STAGED, the active one is not in TRIAL, and the log has room. -/
abbrev CanActivate (m : Lanorun) : Prop :=
  m.dir.1.state (1 - m.dir.1.active) = 1 ∧ m.dir.1.state m.dir.1.active ≠ 2 ∧ LogRoom m

/-- The record of an activation has entered the log. -/
def ActivateLogged (m n : Lanorun) : Prop :=
  Logged m n 7 false (leBytes 8 (1 - m.dir.1.active) ++ leBytes 8 (m.dir.1.version (1 - m.dir.1.active)))

/-- The module has been reset: nothing runs and no plan is active, while the flash, the fuses and the log stay. -/
def ModuleReset (m n : Lanorun) : Prop :=
  n.get F.KEP_STATUS_STAGE = 0 ∧ n.cells = [] ∧ n.vaults = [] ∧ n.planActive = false ∧ n.keep.commit = none ∧
  n.reg R.KEP_FUSE = m.reg R.KEP_FUSE

/-- The answer to the mailbox, in CODE and RES(0), or on the service port. -/
def CommitAnswered (m n : Lanorun) (c : Commit) (status code : Nat) : Prop :=
  (c.src = 1 → m.flag F.HST_MBOX_STATUS_BUSY = true → n.flag F.HST_MBOX_STATUS_READY = true ∧
    n.get F.HST_MBOX_STATUS_CODE = status ∧ n.reg R.HST_MBOX_RES 0 0 = code) ∧
  (c.src = 2 → SvcAnswered m n 5 c.seq status 0 [])

/-- Switches to ON for those of PD96 to PD99 that are off. -/
def vaultsOn (m : Lanorun) : List (Nat × Bool) := ([96, 97, 98, 99].filter fun d => !m.isOn d).map fun d => (d, true)

/-- An OFFER finds the buffer free, or the chain's with the same MDIGEST. -/
abbrev OfferFits (m : Lanorun) (g : BitVec 128) : Prop :=
  m.flag F.KEP_CHAIN_ACCEPT = true ∧ (m.stageOwner = 0 ∨ m.stageOwner = 3 ∧ m.keep.mdigest = leBytes 16 g.toNat)

/-- The buffer holds what module src offers, and no commit runs. -/
abbrev Receives (m : Lanorun) (src : BitVec 14) : Prop :=
  m.stageOwner = 3 ∧ m.keep.offerer = src.toNat ∧ m.keep.commit = none

/-- The next hops that KEP_CHAIN names anew, VALID and with an ACTIVE port. -/
def newHops (m : Lanorun) (old new : Nat) : List Nat :=
  (List.range 4).filter fun h => let b := new / 2 ^ (8 * h) % 2 ^ 8
    decide (b ≠ old / 2 ^ (8 * h) % 2 ^ 8) && b.testBit 7 && decide (m.linkState (b % 32) = 5)

/-- Module src is next hop h of a chain. -/
abbrev HopIs (m : Lanorun) (src : BitVec 14) (h : Nat) : Prop := m.hopOf src.toNat = some h ∧ h < 4

end Sys2Proof.Spec

/-- The boot. Stage K, of a module that has its input power, logs POWER_ON (after RTC_LOST where retention failed), measures the cell and
starts the boot ROM in HS0. The ROM boots the active slot where it is GOOD, or in TRIAL and not yet tried, and passes its checks; an
active slot in TRIAL that has been tried is abandoned with a record, and with nothing to boot it enters RECOVERY and switches PD96 on.
HEAD switches on what is off of PD96 to PD99, or queues that behind a running job; READY follows the vaults. In another stage each
command changes nothing (R490 to R492). Where the spec leaves a point open it takes the model's convention of log entries 34 and 36. -/
def Obligations.BootStages : Prop :=
  (∀ (s : State) (mv : BitVec 16) (k : Bool), s.m.get F.KEP_STATUS_STAGE = 0 → s.m.site.powered = true →
    Gives (.stageK mv k) s fun m => m.get F.KEP_STATUS_STAGE = 1 ∧ (m.flag F.KEP_STATUS_BACKUP_LOW = true ↔ mv.toNat < 2600) ∧
      (m.steward 80).reset = false ∧ (m.steward 80).pc = 0x1000000000000 ∧ m.keep.src = 0 ∧ m.cells = s.m.cells ∧
      m.keep.flash = s.m.keep.flash) ∧
  (∀ (s : State) (mv : BitVec 16), s.m.get F.KEP_STATUS_STAGE = 0 → s.m.site.powered = true → LogRoom s.m →
    2600 ≤ mv.toNat → Gives (.stageK mv true) s fun m => Logged s.m m 1 false [BitVec.ofNat 8 s.m.keep.lastStage]) ∧
  (∀ (s : State) (mv : BitVec 16), s.m.get F.KEP_STATUS_STAGE = 0 → s.m.site.powered = true → 2600 ≤ mv.toNat →
    Gives (.stageK mv false) s fun m => m.flag F.KEP_STATUS_RTC_VALID = false ∧ m.flag F.KEP_EVENT_RTC_LOST = true ∧
      ∃ a b : LogRec, m.keep.log = [a, b] ∧ a.kind = 5 ∧ a.needs = true ∧ a.seq = 1 ∧ b.kind = 1 ∧ b.seq = 2) ∧
  (∀ (s : State) (mv : BitVec 16) (k : Bool), (s.m.get F.KEP_STATUS_STAGE ≠ 0 ∨ s.m.site.powered = false) →
    Does (.stageK mv k) s s.m) ∧
  (∀ (s : State) (i : Nat), s.m.get F.KEP_STATUS_STAGE = 1 → s.m.dir.1.active = i → i < 2 →
    (s.m.dir.1.state i = 3 ∨ s.m.dir.1.state i = 2 ∧ s.m.dir.1.attempts = 0) →
    Gives .stageRom s fun m => s.m.fwCheck (s.m.slotReader i) 0x1F00000 = 0 → m.get F.KEP_STATUS_STAGE = 2 ∧
      m.get F.KEP_STATUS_SLOT = i ∧ (m.flag F.KEP_STATUS_TRIAL = true ↔ s.m.dir.1.state i = 2) ∧
      (∀ k, k < 4 → (m.steward (80 + k)).reset = false) ∧ m.keep.log = s.m.keep.log ∧
      (s.m.dir.1.state i = 3 → m.keep = s.m.keep) ∧ m.cells = s.m.cells) ∧
  (∀ (s : State) (i : Nat), s.m.get F.KEP_STATUS_STAGE = 1 → s.m.dir.1.active = i → i < 2 → s.m.dir.1.state i = 2 →
    1 ≤ s.m.dir.1.attempts → s.m.dir.1.state (1 - i) ≠ 2 → s.m.dir.1.state (1 - i) ≠ 3 → LogRoom s.m → Gives .stageRom s fun m =>
      m.get F.KEP_STATUS_STAGE = 4 ∧ m.flag F.KEP_EVENT_FW_FALLBACK = true ∧
      Logged s.m m 9 false (leBytes 2 i ++ leBytes 2 0)) ∧
  (∀ s : State, s.m.get F.KEP_STATUS_STAGE = 1 → s.m.dir.1.state 0 = 0 → s.m.dir.1.state 1 = 0 →
    s.m.isOn 96 = false → s.m.power.job = none → s.m.power.wait = [] → Gives .stageRom s fun m =>
      m.get F.KEP_STATUS_STAGE = 4 ∧ m.power.job = some ⟨0, [(96, true)]⟩ ∧ m.keep = s.m.keep) ∧
  (∀ s : State, s.m.get F.KEP_STATUS_STAGE ≠ 1 → Does .stageRom s s.m) ∧
  (∀ s : State, s.m.get F.KEP_STATUS_STAGE = 2 → vaultsOn s.m ≠ [] → s.m.power.job = none → s.m.power.wait = [] →
    Gives .stageHead s fun m => m.power.job = some ⟨0, vaultsOn s.m⟩ ∧ m.get F.PWR_PD_CTRL_STATUS = 1 ∧
      m.get F.KEP_STATUS_STAGE = 2) ∧
  (∀ s : State, s.m.get F.KEP_STATUS_STAGE = 2 → vaultsOn s.m ≠ [] → s.m.power.job ≠ none →
    Does .stageHead s { s.m with power := { s.m.power with wait := s.m.power.wait ++ [⟨0, vaultsOn s.m⟩] } }) ∧
  (∀ s : State, (s.m.get F.KEP_STATUS_STAGE ≠ 2 ∨ vaultsOn s.m = []) → Does .stageHead s s.m) ∧
  (∀ s : State, s.m.get F.KEP_STATUS_STAGE = 2 → (∀ v, v < 4 → s.m.vaultReady v = true) →
    Does .stageReady s (s.m.put F.KEP_STATUS_STAGE 3)) ∧
  (∀ s : State, (s.m.get F.KEP_STATUS_STAGE ≠ 2 ∨ ∃ v, v < 4 ∧ s.m.vaultReady v = false) → Does .stageReady s s.m)

/-- The Keep. On input power the backup cell is measured, and below 2,600 mV that is shown, raised and recorded; on another supply nothing
is measured. A write of KEP_RTC sets the count and makes it valid. A change of the intrusion loop is shown and recorded, to be
acknowledged, and raised at once, or on the backup cell later; without a change nothing happens. A full log gives up its oldest record
that needs no acknowledgement, or its oldest of all, which is counted lost. KEEP_ACK acknowledges the records up to its SEQ and answers
with the count that is left (R485 to R489). Where the spec leaves a point open it takes the model's convention of log entry 36. -/
def Obligations.KeepRecords : Prop :=
  (∀ (s : State) (mv : BitVec 16), s.m.keep.src = 0 → mv.toNat < 2600 → LogRoom s.m → Gives (.backupCheck mv) s fun m =>
    m.flag F.KEP_STATUS_BACKUP_LOW = true ∧ m.flag F.KEP_EVENT_BACKUP_LOW = true ∧ Logged s.m m 6 false (leBytes 2 mv.toNat)) ∧
  (∀ (s : State) (mv : BitVec 16), s.m.keep.src = 0 → 2600 ≤ mv.toNat →
    Does (.backupCheck mv) s (s.m.put F.KEP_STATUS_BACKUP_LOW 0)) ∧
  (∀ (s : State) (mv : BitVec 16), s.m.keep.src ≠ 0 → Does (.backupCheck mv) s s.m) ∧
  (∀ (s : State) (v : Word), Gives (.rtcWrite v) s fun m => m.reg R.KEP_RTC = v.toNat ∧ m.flag F.KEP_STATUS_RTC_VALID = true ∧
    m = { s.m with regs := m.regs }) ∧
  (∀ (s : State) (o : Bool), s.m.flag F.KEP_STATUS_LOOP_OPEN = !o → LogRoom s.m →
    Gives (.intrusion o) s fun m => m.flag F.KEP_STATUS_LOOP_OPEN = o ∧
      (s.m.keep.src ≠ 2 → m.flag F.KEP_EVENT_INTRUSION = true ∧ m.keep.late = s.m.keep.late) ∧
      (s.m.keep.src = 2 → m.keep.late = true) ∧ Logged s.m m 4 true (leBytes 1 (if o then 1 else 0)) ∧
      m.get F.KEP_STATUS_UNACKED_CNT = ((s.m.keep.log.filter fun r => r.needs && !r.acked).length + 1) % 2 ^ 16) ∧
  (∀ (s : State) (o : Bool), s.m.flag F.KEP_STATUS_LOOP_OPEN = o → Does (.intrusion o) s s.m) ∧
  (∀ (s : State) (o : Bool) (r : LogRec), s.m.flag F.KEP_STATUS_LOOP_OPEN = !o → s.m.keep.log.length = 1024 →
    (s.m.keep.log.find? fun r => !(r.needs && !r.acked)) = some r →
    Gives (.intrusion o) s fun m => ∃ x : LogRec, m.keep.log = s.m.keep.log.erase r ++ [x] ∧ x.kind = 4) ∧
  (∀ (s : State) (o : Bool), s.m.flag F.KEP_STATUS_LOOP_OPEN = !o → s.m.keep.log.length = 1024 →
    (s.m.keep.log.find? fun r => !(r.needs && !r.acked)) = none → s.m.reg R.KEP_LOG_LOST < 0xFFFFFFFE →
    Gives (.intrusion o) s fun m => m.reg R.KEP_LOG_LOST = s.m.reg R.KEP_LOG_LOST + 1 ∧
      ∃ x : LogRec, m.keep.log = s.m.keep.log.drop 1 ++ [x] ∧ x.kind = 4) ∧
  (∀ s : State, s.m.mboxHas 2 = true → Gives .keepAck s fun m => m.flag F.HST_MBOX_STATUS_READY = true ∧
    m.get F.HST_MBOX_STATUS_CODE = 0 ∧
    m.keep.log = (s.m.keep.log.map fun r => if r.needs ∧ r.seq ≤ s.m.reg R.HST_MBOX_REQ 0 0 % 2 ^ 32
      then { r with acked := true } else r) ∧ m.reg R.HST_MBOX_RES 0 0 = m.get F.KEP_STATUS_UNACKED_CNT) ∧
  (∀ s : State, s.m.mboxHas 2 = false → Does .keepAck s s.m)

/-- Firmware update. FW_STAGE begins a commit, or is BUSY while the active slot is in TRIAL or a commit runs. FW_ACTIVATE of a STAGED slot
is recorded and waits for the next reset, or with REBOOT and in RECOVERY resets the module; it is refused BUSY, NO_STAGED or
PLAN_ACTIVE. CONFIRM of a running TRIAL image raises its rollback counter and revokes its keys; a confirmation that does not come
resets the module, which keeps the flash, the log and the fuses. ABORT_STAGE and the hold's end free the buffer while no commit runs.
A commit whose image fails a check ends with the code, one that passes goes on to store, and a store ends with the image in the flash, or with
FW_STORE where a block does not match; who asked is answered (R498 to R503). Where the spec leaves a point open it takes the model's
convention of log entries 35, 40 and 102. -/
def Obligations.FirmwareUpdate : Prop :=
  (∀ s : State, s.m.mboxHas 4 = true → s.m.dir.1.state s.m.dir.1.active ≠ 2 → s.m.keep.commit = none → Gives .fwStage s fun m =>
    m.keep = { s.m.keep with commit := some ⟨1, s.m.reg R.HST_MBOX_REQ 0 0, 0⟩ } ∧ m.get F.KEP_STAGE_STATE = 2) ∧
  (∀ s : State, s.m.mboxHas 4 = true → (s.m.dir.1.state s.m.dir.1.active = 2 ∨ s.m.keep.commit ≠ none) →
    Gives .fwStage s fun m => m.keep = s.m.keep ∧
      m.flag F.HST_MBOX_STATUS_READY = true ∧ m.get F.HST_MBOX_STATUS_CODE = 1) ∧
  (∀ s : State, s.m.mboxHas 4 = false → Does .fwStage s s.m) ∧
  (∀ s : State, s.m.mboxHas 5 = true → CanActivate s.m → s.m.reg R.HST_MBOX_REQ 0 0 % 2 = 0 → s.m.get F.KEP_STATUS_STAGE ≠ 4 →
    Gives .fwActivate s fun m => m.flag F.KEP_STATUS_PENDING_TRIAL = true ∧ m.flag F.HST_MBOX_STATUS_READY = true ∧
      m.get F.HST_MBOX_STATUS_CODE = 0 ∧ ActivateLogged s.m m) ∧
  (∀ s : State, s.m.mboxHas 5 = true → CanActivate s.m → s.m.reg R.HST_MBOX_REQ 0 0 % 2 = 1 → s.m.planActive = false →
    Gives .fwActivate s fun m => ModuleReset s.m m ∧ ActivateLogged s.m m) ∧
  (∀ s : State, s.m.mboxHas 5 = true → CanActivate s.m → s.m.reg R.HST_MBOX_REQ 0 0 % 2 = 1 → s.m.planActive = true →
    Gives .fwActivate s fun m => m.keep = s.m.keep ∧ m.flag F.HST_MBOX_STATUS_READY = true ∧ m.get F.HST_MBOX_STATUS_CODE = 3) ∧
  (∀ s : State, s.m.mboxHas 5 = true → s.m.dir.1.state s.m.dir.1.active = 2 → Gives .fwActivate s fun m =>
    m.keep = s.m.keep ∧ m.flag F.HST_MBOX_STATUS_READY = true ∧ m.get F.HST_MBOX_STATUS_CODE = 1) ∧
  (∀ s : State, s.m.mboxHas 5 = true → s.m.dir.1.state s.m.dir.1.active ≠ 2 → s.m.dir.1.state (1 - s.m.dir.1.active) ≠ 1 →
    Gives .fwActivate s fun m =>
      m.keep = s.m.keep ∧ m.flag F.HST_MBOX_STATUS_READY = true ∧ m.get F.HST_MBOX_STATUS_CODE = 4) ∧
  (∀ s : State, s.m.mboxHas 5 = false → Does .fwActivate s s.m) ∧
  (∀ (s : State) (c svn : Nat), s.m.flag F.KEP_STATUS_TRIAL = true → LogRoom s.m →
    fieldAt (s.m.slotReader (s.m.get F.KEP_STATUS_SLOT) 0xC 1) 0 1 = c → c ≤ 3 →
    fieldAt (s.m.slotReader (s.m.get F.KEP_STATUS_SLOT) 0xD 1) 0 1 = svn → Gives .confirm s fun m =>
      m.flag F.KEP_STATUS_TRIAL = false ∧ m.rollback c = max svn (s.m.rollback c) ∧
      (∀ d, d ≤ 3 → d ≠ c → m.rollback d = s.m.rollback d) ∧
      m.get F.KEP_FUSE_REVOKE = s.m.get F.KEP_FUSE_REVOKE |||
        fieldAt (s.m.slotReader (s.m.get F.KEP_STATUS_SLOT) 0xF 1) 0 1 % 16 ∧
      m.keep.log.length = s.m.keep.log.length + 2) ∧
  (∀ s : State, s.m.flag F.KEP_STATUS_TRIAL = false → Does .confirm s s.m ∧ Does .confirmTimeout s s.m) ∧
  (∀ s : State, s.m.flag F.KEP_STATUS_TRIAL = true → Gives .confirmTimeout s fun m => ModuleReset s.m m ∧
    m.keep.flash = s.m.keep.flash ∧ m.keep.log = s.m.keep.log) ∧
  (∀ c ∈ [Instr.abortStage, .stageHoldExpire], ∀ s : State, s.m.stageOwner ≠ 0 → s.m.keep.commit = none →
    Gives c s fun m => m.stageOwner = 0 ∧ m.get F.KEP_STAGE_STATE = 0 ∧ m.keep.got = [] ∧ m.vaults = s.m.vaults) ∧
  (∀ c ∈ [Instr.abortStage, .stageHoldExpire], ∀ s : State, (s.m.stageOwner = 0 ∨ s.m.keep.commit ≠ none) → Does c s s.m) ∧
  (∀ (s : State) (bad : Bool), s.m.keep.commit = none → Does (.fwCommitEnd bad) s s.m) ∧
  (∀ (s : State) (bad : Bool) (c : Commit) (n : Nat), s.m.keep.commit = some c → s.m.get F.KEP_STAGE_STATE = 2 →
    s.m.fwCheck s.m.stageReader c.len = n → n ≠ 0 → Gives (.fwCommitEnd bad) s fun m => m.keep.commit = none ∧
      m.stageOwner = 0 ∧ m.get F.KEP_STAGE_STATE = 5 ∧ m.get F.KEP_STAGE_CODE = n ∧ m.flag F.KEP_EVENT_STAGE_DONE = true ∧
      CommitAnswered s.m m c 2 n ∧ m.keep.flash = s.m.keep.flash ∧
      (c.src = 3 → m.ni.waiting.length = s.m.ni.waiting.length + 1)) ∧
  (∀ (s : State) (bad : Bool) (c : Commit), s.m.keep.commit = some c → s.m.get F.KEP_STAGE_STATE = 2 →
    Gives (.fwCommitEnd bad) s fun m => s.m.fwCheck s.m.stageReader c.len = 0 → m.keep.commit = some c ∧
      m.get F.KEP_STAGE_STATE = 3 ∧ m.stageOwner = s.m.stageOwner ∧ m.vaults = s.m.vaults) ∧
  (∀ (s : State) (c : Commit), s.m.keep.commit = some c → s.m.get F.KEP_STAGE_STATE ≠ 2 →
    (∀ k, k < fwBlocks s.m.stageReader → fwBlockOk s.m.stageReader (k + 1) = true) → Gives (.fwCommitEnd false) s fun m =>
      m.keep.commit = none ∧ m.stageOwner = 0 ∧ m.get F.KEP_STAGE_STATE = 4 ∧ m.get F.KEP_STAGE_CODE = 0 ∧
      m.flag F.KEP_EVENT_STAGE_DONE = true ∧ CommitAnswered s.m m c 0 0 ∧
      ∀ o, o < 65536 * (fwBlocks s.m.stageReader + 1) →
        sget 0xFF#8 m.keep.flash (slotBase (1 - s.m.dir.1.active) + o) =
          (s.m.stageReader 0 (65536 * (fwBlocks s.m.stageReader + 1))).getD o 0#8) ∧
  (∀ (s : State) (bad : Bool) (c : Commit), s.m.keep.commit = some c → s.m.get F.KEP_STAGE_STATE ≠ 2 →
    (bad = true ∨ ∃ k, k < fwBlocks s.m.stageReader ∧ fwBlockOk s.m.stageReader (k + 1) = false) →
    Gives (.fwCommitEnd bad) s fun m => m.keep.commit = none ∧ m.stageOwner = 0 ∧ m.get F.KEP_STAGE_STATE = 5 ∧
      m.get F.KEP_STAGE_CODE = 0x1006 ∧ m.get F.DBG_FAULT_LAST_CODE = 0x1006 ∧ CommitAnswered s.m m c 2 0x1006 ∧
      m.keep.flash = s.m.keep.flash)

/-- The service port: an operation that the firmware serves is answered with its SEQ. IDENT answers the identity, the versions and both
slots; SPDM the response; STAGE_WRITE writes a buffer that is free or the port's, and is BUSY while another has it and refused past the
buffer's end, over 1,024 bytes or while vault 0 is not READY; STAGE_QUERY the lowest incomplete block; STAGE_COMMIT begins a commit or
is BUSY; FW_ACTIVATE acts as for the mailbox; SET_POSITION writes the ID unless a plan is active; LOG_READ up to 32 records. In
RECOVERY SET_POSITION and LOG_READ are unknown; what is not served before stage HEAD, or with the link down, nobody answers (R492,
R498, R504). Where the spec leaves a point open it takes the model's convention of log entry 37. -/
def Obligations.ServicePort : Prop :=
  (∀ (s : State) (q : BitVec 16), s.m.svcServes 1 = true → Gives (.svcIdent q) s fun m => m = { s.m with keep := m.keep } ∧
    SvcAnswered s.m m 1 q.toNat 0 0 (leBytes 8 (s.m.reg R.MOD_IDENT) ++ leBytes 8 (s.m.reg R.HST_IFVER) ++
      leBytes 8 (s.m.get F.KEP_UNIT_ID) ++ leBytes 8 (s.m.get F.KEP_UNIT_ID 0 1) ++ leBytes 1 s.m.dir.1.stateA ++
      leBytes 1 s.m.dir.1.stateB ++ leBytes 8 s.m.dir.1.verA ++ leBytes 8 s.m.dir.1.verB)) ∧
  (∀ (s : State) (q : BitVec 16) (i : BitVec 14) (w z : BitVec 32) (d : List Byte) (r : SpdmRequest) (b : Bool),
    ∀ x ∈ [(1, Instr.svcIdent q), (2, .svcSpdm q r), (3, .stageWrite q w d), (4, .stageQuery q), (5, .stageCommit q w),
           (6, .svcFwActivate q b), (7, .setPosition q i), (8, .logRead q w z)],
      s.m.svcServes x.1 = false → (s.m.flag F.MOD_SVC_LINK_UP = false ∨ s.m.get F.KEP_STATUS_STAGE ≠ 4) → Does x.2 s s.m) ∧
  (∀ (s : State) (q : BitVec 16) (i : BitVec 14) (w z : BitVec 32), s.m.flag F.MOD_SVC_LINK_UP = true →
    s.m.get F.KEP_STATUS_STAGE = 4 → ∀ x ∈ [(7, Instr.setPosition q i), (8, .logRead q w z)], Gives x.2 s fun m =>
      m = { s.m with keep := m.keep } ∧ SvcAnswered s.m m x.1 q.toNat 0xFF 0 []) ∧
  (∀ (s : State) (q : BitVec 16) (r : SpdmRequest), s.m.svcServes 2 = true → Gives (.svcSpdm q r) s fun m =>
    m = { s.m with keep := m.keep } ∧ SvcAnswered s.m m 2 q.toNat 0 0 (s.m.spdmReply r)) ∧
  (∀ (s : State) (q : BitVec 16) (o : BitVec 32) (d : List Byte), s.m.svcServes 3 = true →
    (s.m.stageOwner = 0 ∨ s.m.stageOwner = 2) → s.m.vaultReady 0 = true → o.toNat + d.length ≤ 0x2000000 → d.length ≤ 1024 →
    Gives (.stageWrite q o d) s fun m =>
      SvcAnswered s.m m 3 q.toNat 0 0 [] ∧ m.stageOwner = 2 ∧ (∀ i, i < d.length →
        sget 0#8 (m.vault 0).dram (0xFA0000000 + o.toNat + i) = d.getD i 0#8) ∧ m.cells = s.m.cells) ∧
  (∀ (s : State) (q : BitVec 16) (o : BitVec 32) (d : List Byte), s.m.svcServes 3 = true → s.m.stageOwner ≠ 0 →
    s.m.stageOwner ≠ 2 →
    Gives (.stageWrite q o d) s fun m => SvcAnswered s.m m 3 q.toNat 1 0 [] ∧ m = { s.m with keep := m.keep }) ∧
  (∀ (s : State) (q : BitVec 16) (o : BitVec 32) (d : List Byte), s.m.svcServes 3 = true →
    (s.m.stageOwner = 0 ∨ s.m.stageOwner = 2) → (0x2000000 < o.toNat + d.length ∨ 1024 < d.length ∨ s.m.vaultReady 0 = false) →
    Gives (.stageWrite q o d) s fun m => SvcAnswered s.m m 3 q.toNat 2 0 [] ∧ m = { s.m with keep := m.keep }) ∧
  (∀ (s : State) (q : BitVec 16), s.m.svcServes 4 = true → Gives (.stageQuery q) s fun m =>
    m = { s.m with keep := m.keep } ∧ SvcAnswered s.m m 4 q.toNat 0 s.m.lowestBlock []) ∧
  (∀ (s : State) (q : BitVec 16) (n : BitVec 32), s.m.svcServes 5 = true → s.m.dir.1.state s.m.dir.1.active ≠ 2 →
    s.m.keep.commit = none → Gives (.stageCommit q n) s fun m => m.get F.KEP_STAGE_STATE = 2 ∧
      m.keep = { s.m.keep with commit := some ⟨2, n.toNat, q.toNat⟩ }) ∧
  (∀ (s : State) (q : BitVec 16) (n : BitVec 32), s.m.svcServes 5 = true →
    (s.m.dir.1.state s.m.dir.1.active = 2 ∨ s.m.keep.commit ≠ none) → Gives (.stageCommit q n) s fun m =>
      SvcAnswered s.m m 5 q.toNat 1 0 [] ∧ m = { s.m with keep := m.keep }) ∧
  (∀ (s : State) (q : BitVec 16), s.m.svcServes 6 = true → CanActivate s.m → s.m.get F.KEP_STATUS_STAGE ≠ 4 →
    Gives (.svcFwActivate q false) s fun m => m.flag F.KEP_STATUS_PENDING_TRIAL = true ∧
      SvcAnswered s.m m 6 q.toNat 0 0 [] ∧ ActivateLogged s.m m) ∧
  (∀ (s : State) (q : BitVec 16) (b : Bool), s.m.svcServes 6 = true → CanActivate s.m →
    (b = true ∧ s.m.planActive = false ∨ b = false ∧ s.m.get F.KEP_STATUS_STAGE = 4) →
    Gives (.svcFwActivate q b) s fun m => ModuleReset s.m m ∧ SvcAnswered s.m m 6 q.toNat 0 0 [] ∧ ActivateLogged s.m m) ∧
  (∀ (s : State) (q : BitVec 16), s.m.svcServes 6 = true → CanActivate s.m → s.m.planActive = true →
    Gives (.svcFwActivate q true) s fun m => SvcAnswered s.m m 6 q.toNat 3 0 [] ∧ m = { s.m with keep := m.keep }) ∧
  (∀ (s : State) (q : BitVec 16) (b : Bool), s.m.svcServes 6 = true →
    (s.m.dir.1.state s.m.dir.1.active = 2 ∨ s.m.dir.1.state (1 - s.m.dir.1.active) ≠ 1) →
    Gives (.svcFwActivate q b) s fun m => m = { s.m with keep := m.keep } ∧
      SvcAnswered s.m m 6 q.toNat (if s.m.dir.1.state s.m.dir.1.active = 2 then 1 else 4) 0 []) ∧
  (∀ (s : State) (q : BitVec 16) (i : BitVec 14), s.m.svcServes 7 = true → s.m.planActive = false →
    Gives (.setPosition q i) s fun m => m.get F.MOD_POSID_ID = i.toNat ∧ m.flag F.MOD_POSID_VALID = true ∧
      SvcAnswered s.m m 7 q.toNat 0 0 []) ∧
  (∀ (s : State) (q : BitVec 16) (i : BitVec 14), s.m.svcServes 7 = true → s.m.planActive = true →
    Gives (.setPosition q i) s fun m => m = { s.m with keep := m.keep } ∧ SvcAnswered s.m m 7 q.toNat 0 0 []) ∧
  (∀ (s : State) (q : BitVec 16) (a n : BitVec 32), s.m.svcServes 8 = true → Gives (.logRead q a n) s fun m =>
    m = { s.m with keep := m.keep } ∧ SvcAnswered s.m m 8 q.toNat 0 a.toNat
      (((s.m.keep.log.filter fun r => decide (a.toNat ≤ r.seq)).take (min n.toNat 32)).flatMap LogRec.bytes))

/-- Attestation and chains. An SPDM request leaves its response; ATTEST writes it to the host and posts its length, or code 2 where the request
or the response is over 4,096 bytes. An OFFER takes the buffer, or finds it the chain's with the same MDIGEST, and one message answers
it; otherwise only the answer is sent. NEED sends the blocks from its block on, 32 packets each; DONE ends a hop as stored or failed;
ABORT frees the buffer at the receiver and fails the hop at the sender; the two time limits fail a hop that waits. A module that is no
next hop of a running chain changes nothing. A write of KEP_CHAIN sets the hops, and after a store offers the image to the new ones
(R506 to R511). Where the spec leaves a point open it takes the model's convention of log entries 38, 39 and 102. -/
def Obligations.AttestAndChain : Prop :=
  (∀ (s : State) (sl : BitVec 4) (o n : BitVec 16) (x : List Byte) (i : Byte),
    ∀ c ∈ [(Instr.getVersion, SpdmRequest.getVersion), (.getCapabilities, .getCapabilities),
           (.negotiateAlgorithms, .negotiateAlgorithms), (.getDigests, .getDigests),
           (.getCertificate sl o n, .getCertificate sl.toNat o.toNat n.toNat), (.challenge sl x, .challenge sl.toNat x),
           (.getMeasurements i x, .getMeasurements i.toNat x)],
      Does c.1 s { s.m with keep := { s.m.keep with spdm := s.m.spdmReply c.2 } }) ∧
  (∀ (s : State) (r : SpdmRequest), s.m.mboxHas 3 = true → Gives (.attest r) s fun m =>
    m.keep = { s.m.keep with spdm := s.m.spdmReply r } ∧ m.flag F.HST_MBOX_STATUS_READY = true ∧
    (s.m.reg R.HST_MBOX_REQ 0 1 ≤ 4096 ∧ (s.m.spdmReply r).length ≤ 4096 → m.get F.HST_MBOX_STATUS_CODE = 0 ∧
      m.reg R.HST_MBOX_RES 0 0 = (s.m.spdmReply r).length) ∧
    (4096 < s.m.reg R.HST_MBOX_REQ 0 1 ∨ 4096 < (s.m.spdmReply r).length → m.get F.HST_MBOX_STATUS_CODE = 2)) ∧
  (∀ (s : State) (r : SpdmRequest), s.m.mboxHas 3 = false → Does (.attest r) s s.m) ∧
  (∀ (s : State) (src : BitVec 14) (v : Word) (g : BitVec 128), OfferFits s.m g →
    Gives (.chainOffer src v g) s fun m => m.stageOwner = 3 ∧ m.keep.offerer = src.toNat ∧
      m.keep.got = (if s.m.stageOwner = 3 then s.m.keep.got else []) ∧
      m.keep.mdigest = leBytes 16 g.toNat ∧ m.ni.waiting.length = s.m.ni.waiting.length + 1 ∧ m.vaults = s.m.vaults) ∧
  (∀ (s : State) (src : BitVec 14) (v : Word) (g : BitVec 128), ¬ OfferFits s.m g →
    Gives (.chainOffer src v g) s fun m => m.keep = s.m.keep ∧ m.regs = s.m.regs ∧
      m.ni.waiting.length = s.m.ni.waiting.length + 1) ∧
  (∀ (s : State) (src : BitVec 14) (b : BitVec 9) (h : Nat), HopIs s.m src h →
    Gives (.chainNeed src b) s fun m => sget 0 m.keep.hops h = 2 ∧ m.regs = s.m.regs ∧
      m.ni.waiting.length = s.m.ni.waiting.length + 32 * (fwBlocks s.m.stageReader + 1 - b.toNat)) ∧
  (∀ (s : State) (src : BitVec 14) (b : BitVec 9) (code : BitVec 16), s.m.hopOf src.toNat = none →
    Does (.chainNeed src b) s s.m ∧ Does (.chainDone src code) s s.m) ∧
  (∀ (s : State) (src : BitVec 14) (h : Nat), HopIs s.m src h → Gives (.chainDone src 0) s fun m =>
    m.flag F.KEP_EVENT_CHAIN_DONE = true ∧ (m.get F.KEP_CHAIN_HOP_DONE).testBit h = true ∧ sget 0 m.keep.hops h = 0) ∧
  (∀ (s : State) (src : BitVec 14) (code : BitVec 16) (h : Nat), HopIs s.m src h → code ≠ 0 → Gives (.chainDone src code) s fun m =>
    m.flag F.KEP_EVENT_CHAIN_DONE = true ∧ m.flag F.KEP_EVENT_CHAIN_FAIL = true ∧
    (m.get F.KEP_CHAIN_HOP_FAIL).testBit h = true ∧ sget 0 m.keep.hops h = 0) ∧
  (∀ (s : State) (src : BitVec 14) (h : Nat), HopIs s.m src h → ¬ Receives s.m src → Gives (.chainAbort src) s fun m =>
    m.flag F.KEP_EVENT_CHAIN_FAIL = true ∧ (m.get F.KEP_CHAIN_HOP_FAIL).testBit h = true ∧ sget 0 m.keep.hops h = 0 ∧
    m.stageOwner = s.m.stageOwner) ∧
  (∀ (s : State) (src : BitVec 14), s.m.hopOf src.toNat = none → Receives s.m src → Gives (.chainAbort src) s fun m =>
    m.stageOwner = 0 ∧ m.keep.got = [] ∧ m.get F.KEP_STAGE_STATE = 0 ∧ m.keep.hops = s.m.keep.hops) ∧
  (∀ (s : State) (src : BitVec 14), s.m.hopOf src.toNat = none → ¬ Receives s.m src → Does (.chainAbort src) s s.m) ∧
  (∀ (s : State) (h : Fin 4), sget 0 s.m.keep.hops h = 1 → Gives (.chainNeedTimeout h) s fun m =>
    m.flag F.KEP_EVENT_CHAIN_FAIL = true ∧ (m.get F.KEP_CHAIN_HOP_FAIL).testBit h = true ∧ sget 0 m.keep.hops h = 0) ∧
  (∀ (s : State) (h : Fin 4), sget 0 s.m.keep.hops h = 2 → Gives (.chainDoneTimeout h) s fun m =>
    m.flag F.KEP_EVENT_CHAIN_FAIL = true ∧ (m.get F.KEP_CHAIN_HOP_FAIL).testBit h = true ∧ sget 0 m.keep.hops h = 0) ∧
  (∀ (s : State) (h : Fin 4), (sget 0 s.m.keep.hops h ≠ 1 → Does (.chainNeedTimeout h) s s.m) ∧
    (sget 0 s.m.keep.hops h ≠ 2 → Does (.chainDoneTimeout h) s s.m)) ∧
  (∀ (s : State) (v : Word), s.m.get F.KEP_STAGE_STATE ≠ 4 →
    Does (.kepChainWrite v) s (s.m.setReg R.KEP_CHAIN (v.toNat % 2 ^ 33))) ∧
  (∀ (s : State) (v : Word), s.m.get F.KEP_STAGE_STATE = 4 → Gives (.kepChainWrite v) s fun m =>
    m.reg R.KEP_CHAIN = v.toNat % 2 ^ 33 ∧
    (∀ h ∈ newHops s.m (s.m.reg R.KEP_CHAIN) v.toNat, sget 0 m.keep.hops h = 1) ∧
    m.ni.waiting.length = s.m.ni.waiting.length + (newHops s.m (s.m.reg R.KEP_CHAIN) v.toNat).length)

/-! ## The module in its slot, reference inputs, the SMBus and JTAG (R459 to R461, R525, R526, R540 to R559) -/

/-- The module boots again as after insertion: nothing runs, and the Keep keeps its log and the flash. -/
def Sys2Proof.Spec.BootsAgain (m n : Lanorun) : Prop :=
  n.get F.KEP_STATUS_STAGE = 0 ∧ n.cells = [] ∧ n.vaults = [] ∧ n.site = {} ∧ n.keep.log = m.keep.log ∧
  n.keep.flash = m.keep.flash

/-- Opening EB_N, and an input loss with EB_N grounded, begin a flush where none runs: the removal is raised, the host-write queue is gone,
a commit ends, the Keep runs from the hold-up bank, and with no tenancy RUNNING and no link up the fault's code stands and the cause is
recorded while cells and vaults stay. In a flush an opening is only shown, an input loss changes nothing. At 4 ms PD0 to PD110 are off,
and a module whose input or slot came back boots again; a return later boots it at once. The exhausted bank leaves the Keep on the backup
cell; insertion powers the module up. The connection turns the input on, and in a flush is a return; a charged bank switches PD110 on; a
vault that trains too long sets its replacement cause. Out of its state each command changes nothing more (R459 to R461, R522, R546,
R557, R559). Where the spec leaves a point open it takes the model's convention of log entry 42. -/
def Obligations.RemovalAndInsertion : Prop :=
  (∀ c ∈ [false, true], ∀ (s : State) (mask : Bool), s.m.site.flush = 0 → (c = true → s.m.flag F.MOD_PINS_EB = true) →
    Gives (if c then .inputLoss mask else .hotplugRemove mask) s fun m =>
      m.site.flush = (if c then 2 else 1) ∧ m.site.off = false ∧ m.site.again = false ∧ m.site.input = (s.m.site.input && !c) ∧
      m.flag F.HST_EVENT_REMOVAL = true ∧ m.host.hwq = [] ∧ m.keep.src = 1 ∧ m.keep.commit = none) ∧
  (∀ c ∈ [false, true], ∀ (s : State) (mask : Bool), s.m.site.flush = 0 → (c = true → s.m.flag F.MOD_PINS_EB = true) →
    (∀ t, s.m.tenState t ≠ tenRunning) → (∀ p, s.m.linkState p = 0 ∨ s.m.linkState p = 7) → LogRoom s.m →
    Gives (if c then .inputLoss mask else .hotplugRemove mask) s fun m =>
      m.get F.DBG_FAULT_LAST_CODE = (if c then 0x1201 else 0x0E08) ∧ m.cells = s.m.cells ∧
      m.flag F.MOD_PINS_EB = c ∧ m.flag (if c then F.MOD_PINS_INPUT_LOSS else F.MOD_PINS_EB_OPEN) = true ∧
      Logged s.m m (if c then 2 else 3) false [] ∧ m.vaults = s.m.vaults) ∧
  (∀ (s : State) (mask : Bool), s.m.site.flush ≠ 0 →
    Does (.hotplugRemove mask) s ((s.m.put F.MOD_PINS_EB 0).event F.MOD_PINS_EB_OPEN)) ∧
  (∀ (s : State) (mask : Bool), (s.m.site.flush ≠ 0 ∨ s.m.flag F.MOD_PINS_EB = false) → Does (.inputLoss mask) s s.m) ∧
  (∀ s : State, s.m.site.flush ≠ 0 → s.m.site.off = false → s.m.site.again = false →
    (∀ p, s.m.linkState p = 0 ∨ s.m.linkState p = 7) →
    Gives .flushDomainsOff s fun m => m.site = { s.m.site with off := true } ∧
      (∀ d, d < 111 → m.isOn d = false) ∧ m.keep = s.m.keep) ∧
  (∀ s : State, s.m.site.flush ≠ 0 → s.m.site.off = false → s.m.site.again = true →
    (∀ p, s.m.linkState p = 0 ∨ s.m.linkState p = 7) → Gives .flushDomainsOff s fun m => BootsAgain s.m m) ∧
  (∀ s : State, (s.m.site.flush = 0 ∨ s.m.site.off = true) → Does .flushDomainsOff s s.m) ∧
  (∀ s : State, s.m.site.flush ≠ 0 → s.m.site.off = false → Gives .ebNReclose s fun m => m.flag F.MOD_PINS_EB = true ∧
    m.site = { s.m.site with again := true } ∧ m.keep = s.m.keep) ∧
  (∀ s : State, s.m.site.flush ≠ 0 → s.m.site.off = true → Gives .ebNReclose s fun m => BootsAgain s.m m) ∧
  (∀ s : State, s.m.site.flush = 0 → Does .ebNReclose s (s.m.put F.MOD_PINS_EB 1)) ∧
  (∀ s : State, s.m.site.flush ≠ 0 → s.m.site.off = true → Gives .holdupExhausted s fun m => m.site.powered = false ∧
    m.site.input = false ∧ m.keep.src = 2 ∧ m.keep.lastStage = s.m.get F.KEP_STATUS_STAGE ∧ m.keep.log = s.m.keep.log ∧
    m.keep.flash = s.m.keep.flash ∧ m.cells = [] ∧ m.vaults = []) ∧
  (∀ s : State, (s.m.site.flush = 0 ∨ s.m.site.off = false) → Does .holdupExhausted s s.m) ∧
  (∀ s : State, s.m.site.powered = false → Gives .insertion s fun m => BootsAgain s.m m ∧ m.keep.src = 0) ∧
  (∀ s : State, s.m.site.powered = true → Does .insertion s s.m) ∧
  (∀ s : State, s.m.flag F.MOD_PINS_PRES = true → s.m.flag F.MOD_PINS_EB = true → s.m.site.flush = 0 →
    Does .hotSwapConnect s (s.m.setSite fun x => { x with input := true })) ∧
  (∀ s : State, s.m.flag F.MOD_PINS_PRES = true → s.m.flag F.MOD_PINS_EB = true → s.m.site.flush ≠ 0 → s.m.site.off = false →
    Does .hotSwapConnect s (s.m.setSite fun x => { x with input := true, again := true })) ∧
  (∀ s : State, s.m.flag F.MOD_PINS_PRES = true → s.m.flag F.MOD_PINS_EB = true → s.m.site.flush ≠ 0 → s.m.site.off = true →
    Gives .hotSwapConnect s fun m => BootsAgain s.m m) ∧
  (∀ s : State, (s.m.flag F.MOD_PINS_PRES = false ∨ s.m.flag F.MOD_PINS_EB = false) → Does .hotSwapConnect s s.m) ∧
  (∀ s : State, s.m.site.input = true → s.m.site.powered = true → s.m.site.flush = 0 → s.m.isOn 110 = false →
    Gives .holdupBankCharged s fun m => m.isOn 110 = true ∧ m.cells = s.m.cells ∧ m.vaults = s.m.vaults) ∧
  (∀ s : State, (s.m.site.input = false ∨ s.m.site.powered = false ∨ s.m.site.flush ≠ 0 ∨ s.m.isOn 110 = true) →
    Does .holdupBankCharged s s.m) ∧
  (∀ (s : State) (v : VaultIx), (s.m.vault v).training = true → s.m.vaultReady v = false → Gives (.vaultReadyTimeout v) s fun m =>
    (m.get F.DBG_STATUS_REPLACE_CAUSE).testBit 2 = true ∧ m = { s.m with regs := m.regs }) ∧
  (∀ (s : State) (v : VaultIx), ((s.m.vault v).training = false ∨ s.m.vaultReady v = true) → Does (.vaultReadyTimeout v) s s.m)

/-- The reference inputs: losing HREF moves the master clock to the internal oscillator, its return is shown, and CLK_RET returns to it with
no plan active; an edge of PPS latches the counter and its fraction; none of them moves hall time. The SMBus: a stuck bus that the clock
pulses free is OK again with every rail's reading stale, else VTEL is cycled, after which it is OK, or FAILED with 0x1107 and a
replacement cause; RECOVER runs the pulses from OK and from FAILED. In another state, or with the controller's clock off, each changes
nothing (R525, R526, R551, R552). -/
def Sys2Proof.Spec.ReferencesAndSmbus : Prop :=
  (∀ s : State, Gives .hrefLoss s fun m => m.flag F.MOD_PINS_HREF_LOST = true ∧ m.flag F.MOD_PINS_HREF_OK = false ∧
    m.get F.MOD_PINS_CLK_SRC = 1 ∧ m.hall = s.m.hall) ∧
  (∀ s : State, s.m.flag F.MOD_PINS_HREF_OK = false → Gives .hrefReturn s fun m => m.flag F.MOD_PINS_HREF_OK = true ∧
    m.flag F.MOD_PINS_HREF_BACK = true ∧ m.get F.MOD_PINS_CLK_SRC = s.m.get F.MOD_PINS_CLK_SRC) ∧
  (∀ s : State, s.m.flag F.MOD_PINS_HREF_OK = true → Does .hrefReturn s s.m) ∧
  (∀ s : State, s.m.flag F.MOD_PINS_HREF_OK = true → s.m.planActive = false →
    Does .clkRet s (s.m.put F.MOD_PINS_CLK_SRC 0)) ∧
  (∀ s : State, (s.m.flag F.MOD_PINS_HREF_OK = false ∨ s.m.planActive = true) → Does .clkRet s s.m) ∧
  (∀ (s : State) (o : Fin 4000) (f : Fin 125), Gives (.ppsEdge o f) s fun m =>
    m.reg R.MOD_PPS_TICK = (4000 * s.m.frame + o.val) % 2 ^ 64 ∧ m.get F.MOD_PPS_FRAC_FRAC = f.val * 65536 / 125 ∧
    m.flag F.MOD_PPS_FRAC_VALID = true ∧ m.flag F.MOD_PINS_PPS_RISE = true ∧ m.hall = s.m.hall) ∧
  (∀ s : State, s.m.smbOn = true → s.m.get F.DBG_SMB_STATE = 0 → Gives (.smbStuckDetect true) s fun m =>
    m.get F.DBG_SMB_STATE = 0 ∧ m.get F.DBG_SMB_SDA = 1 ∧ (∀ k, k < 12 → m.flag F.PWR_RAIL_STALE 0 k = true)) ∧
  (∀ s : State, s.m.smbOn = true → s.m.get F.DBG_SMB_STATE = 0 → Gives (.smbStuckDetect false) s fun m =>
    m.get F.DBG_SMB_STATE = 2 ∧ m.get F.DBG_SMB_SDA = 0 ∧ m.flag F.DBG_EVENT_SMB = true) ∧
  (∀ (s : State) (b : Bool), s.m.get F.DBG_SMB_STATE ≠ 0 → Does (.smbStuckDetect b) s s.m) ∧
  (∀ s : State, s.m.get F.DBG_SMB_STATE = 2 → Gives (.smbVtelCycleDone true) s fun m => m.get F.DBG_SMB_STATE = 0 ∧
    m.get F.DBG_SMB_SDA = 1) ∧
  (∀ s : State, s.m.get F.DBG_SMB_STATE = 2 → Gives (.smbVtelCycleDone false) s fun m => m.get F.DBG_SMB_STATE = 3 ∧
    m.get F.DBG_FAULT_LAST_CODE = 0x1107 ∧ (m.get F.DBG_STATUS_REPLACE_CAUSE).testBit 4 = true) ∧
  (∀ (s : State) (b : Bool), s.m.get F.DBG_SMB_STATE ≠ 2 → Does (.smbVtelCycleDone b) s s.m) ∧
  (∀ s : State, s.m.smbOn = true → (s.m.get F.DBG_SMB_STATE = 0 ∨ s.m.get F.DBG_SMB_STATE = 3) → Gives (.recover true) s fun m =>
    m.get F.DBG_SMB_STATE = 0 ∧ m.get F.DBG_SMB_SDA = 1 ∧ (∀ k, k < 12 → m.flag F.PWR_RAIL_STALE 0 k = true)) ∧
  (∀ s : State, s.m.smbOn = true → (s.m.get F.DBG_SMB_STATE = 0 ∨ s.m.get F.DBG_SMB_STATE = 3) → Gives (.recover false) s fun m =>
    m.get F.DBG_SMB_STATE = 2 ∧ m.get F.DBG_SMB_SDA = 0 ∧ m.flag F.DBG_EVENT_SMB = true) ∧
  (∀ (s : State) (b : Bool), s.m.get F.DBG_SMB_STATE ≠ 0 → s.m.get F.DBG_SMB_STATE ≠ 3 → Does (.recover b) s s.m) ∧
  (∀ (s : State) (b : Bool), s.m.smbOn = false → Does (.recover b) s s.m ∧ Does (.smbStuckDetect b) s s.m)

/-- The TAP: EXTEST drives the cells and captures the contacts, SAMPLE captures them, IDCODE shows the part, BYPASS and the reset show 0;
JTAG_LOCK locks. A control access starts where JTAG is not locked and none runs; locked it is refused, and while one runs only the
instruction is taken. The access that runs completes: a read of BLF_LIMITS with its value, a write of PWR_ENV with its effect, a
misaligned or unmapped address as a bus error; with none nothing happens (R540, R541, R548). -/
def Sys2Proof.Spec.JtagCommands : Prop :=
  (∀ (s : State) (cells : List (Nat × Bool)), Does (.extest cells) s
    (s.m.setJtag fun j => { j with ir := 0, drive := cells, captured := s.m.pinLevels })) ∧
  (∀ s : State, Does .samplePreload s (s.m.setJtag fun j => { j with ir := 2, drive := [], captured := s.m.pinLevels })) ∧
  (∀ s : State, Gives .idcode s fun m => m = { s.m with jtag := m.jtag } ∧ m.jtag.ir = 1 ∧ m.jtag.drive = [] ∧
    m.jtag.dr % 2 = 1 ∧ m.jtag.dr < 2 ^ 32 ∧ bitsOf m.jtag.dr 27 12 = s.m.get F.MOD_IDENT_PART_CODE ∧
    bitsOf m.jtag.dr 31 28 = s.m.get F.MOD_IDENT_STEPPING % 16) ∧
  (∀ s : State, Does .bypass s (s.m.setJtag fun j => { j with ir := 0xFF, drive := [], dr := 0 })) ∧
  (∀ s : State, Does .trstAssert s (s.m.setJtag fun j => { j with ir := 1, drive := [], dr := 0 })) ∧
  (∀ s : State, Does .jtagLock s (s.m.put F.DBG_CTRL_JTAG_LOCK 1)) ∧
  (∀ (s : State) (w : Bool) (a : BitVec 48) (v : Word), s.m.flag F.DBG_CTRL_JTAG_LOCK = true → Gives (.ctrlAccess w a v) s fun m =>
    m.jtag = { s.m.jtag with ir := 0x20, drive := [], status := 3 } ∧ m.regs = s.m.regs) ∧
  (∀ (s : State) (w : Bool) (a : BitVec 48) (v : Word), s.m.flag F.DBG_CTRL_JTAG_LOCK = false → s.m.jtag.run = none →
    Gives (.ctrlAccess w a v) s fun m => m.jtag = { s.m.jtag with
      ir := 0x20, drive := [], run := some (w, a.toNat, v.toNat), status := 1 } ∧ m.regs = s.m.regs) ∧
  (∀ (s : State) (w : Bool) (a : BitVec 48) (v : Word), s.m.flag F.DBG_CTRL_JTAG_LOCK = false → s.m.jtag.run ≠ none →
    Does (.ctrlAccess w a v) s (s.m.setJtag fun j => { j with ir := 0x20, drive := [] })) ∧
  (∀ (s : State) (v : Nat), s.m.jtag.run = some (false, R.BLF_LIMITS.addr 0 0, v) → Does .ctrlAccessComplete s
    (s.m.setJtag fun j => { j with run := none, data := s.m.reg R.BLF_LIMITS % 2 ^ 48, status := 0 })) ∧
  (∀ (s : State) (v : Nat), s.m.jtag.run = some (true, R.PWR_ENV.addr 0 0, v) → Gives .ctrlAccessComplete s fun m =>
    m.get F.PWR_ENV_SW_W = v % 2 ^ 16 ∧ m.jtag = { s.m.jtag with run := none, status := 0 }) ∧
  (∀ (s : State) (w : Bool) (a v : Nat), s.m.jtag.run = some (w, a, v) → (a % 8 ≠ 0 ∨ findBlock a = none) → Does .ctrlAccessComplete s
    (s.m.setJtag fun j => { j with run := none, status := 2 })) ∧
  (∀ s : State, s.m.jtag.run = none → Does .ctrlAccessComplete s s.m)

/-- Reference clocks, SMBus and JTAG: Spec.ReferencesAndSmbus, Spec.JtagCommands. Where the spec leaves a point open it takes the
model's convention of log entries 43 and 60. -/
def Obligations.ReferencesSmbusJtag : Prop := Sys2Proof.Spec.ReferencesAndSmbus ∧ Sys2Proof.Spec.JtagCommands

/-! ## The control space, the host windows, readback and capture (R9 to R12, R437 to R439, R537 to R539) -/

/-- A write by its field's access code: RWL takes the written bits unless a plan is active, RW takes them, RO keeps its value, W1S sets, and
W1C clears where a 1 is written, unless hardware sets the bit in the same cycle, which keeps it set. A block steward writes its own
block's registers, and neither another block's nor the module's; an unmapped or a misaligned address is a bus error without effect,
which the host's is shown (R9, R10, R12, R23, R251, R438). -/
def Sys2Proof.Spec.AccessCodes : Prop :=
  (∀ f ∈ [F.BLF_LIMITS_BOUND_LIM, F.BLF_LIMITS_FAULT_LIM, F.BLF_PARENT_CAND0, F.BLF_PARENT_CAND3, F.BLF_EPOCH_TAI_EPOCH],
    ∀ (s : State) (who : Requester) (v e : Word), s.m.power.ruleKept = true → mayWrite who (f.reg.addr 0 0) = true →
      Gives (.regWrite who (BitVec.ofNat 48 (f.reg.addr 0 0)) ⟨v, e⟩) s fun m => m = { s.m with regs := m.regs, hall := m.hall } ∧
        m.get f = (if s.m.planActive then s.m.get f else bitsOf v.toNat f.hi f.lo)) ∧
  (∀ f ∈ [F.BLF_EVENT_LOCK_GAINED, F.BLF_EVENT_HOLDOVER, F.BLF_EVENT_TIME_FAULT, F.KEP_EVENT_INTRUSION, F.PLN_EVENT_PFAULT],
    ∀ (s : State) (who : Requester) (v e : Word), s.m.power.ruleKept = true → mayWrite who (f.reg.addr 0 0) = true →
      Gives (.regWrite who (BitVec.ofNat 48 (f.reg.addr 0 0)) ⟨v, e⟩) s fun m => m = { s.m with regs := m.regs } ∧
        m.flag f = (s.m.flag f && (!v.toNat.testBit f.lo || e.toNat.testBit f.lo))) ∧
  (∀ (s : State) (who : Requester) (v e : Word), s.m.power.ruleKept = true → mayWrite who (R.PWR_ENV.addr 0 0) = true →
    Gives (.regWrite who (BitVec.ofNat 48 (R.PWR_ENV.addr 0 0)) ⟨v, e⟩) s fun m => m.get F.PWR_ENV_SW_W = v.toNat % 2 ^ 16) ∧
  (∀ f ∈ [F.BLF_STATUS_STATE, F.BLF_STATUS_PARENT_PORT, F.PLN_ACT_HANDLE], ∀ (s : State) (who : Requester) (v e : Word),
    s.m.power.ruleKept = true → Gives (.regWrite who (BitVec.ofNat 48 (f.reg.addr 0 0)) ⟨v, e⟩) s fun m => m.get f = s.m.get f) ∧
  (∀ (s : State) (v e : Word), Gives (.regWrite .jtag (BitVec.ofNat 48 (R.DBG_CTRL.addr 0 0)) ⟨v, e⟩) s fun m =>
    m.flag F.DBG_CTRL_JTAG_LOCK = (s.m.flag F.DBG_CTRL_JTAG_LOCK || v.toNat.testBit 2)) ∧
  (∀ (s : State) (n : BlockIx) (v e : Word), s.m.power.ruleKept = true → s.m.isOn n = true →
    Gives (.regWrite (.block n) (BitVec.ofNat 48 (R.BLK_STW_WDOG.addr n 0)) ⟨v, e⟩) s fun m =>
      m.get F.BLK_STW_WDOG_LIMIT n = bitsOf v.toNat 31 1) ∧
  (∀ (s : State) (n k : BlockIx) (v e : Word), k ≠ n →
    Does (.regWrite (.block n) (BitVec.ofNat 48 (R.BLK_STW_WDOG.addr k 0)) ⟨v, e⟩) s s.m) ∧
  (∀ (s : State) (n : BlockIx) (a : BitVec 48) (v e : Word), a.toNat < 0x1000000 →
    Does (.regWrite (.block n) a ⟨v, e⟩) s s.m) ∧
  (∀ (s : State) (who : Requester) (a : BitVec 48) (v e : Word), (a.toNat % 8 ≠ 0 ∨ findBlock a.toNat = none) → who ≠ .host →
    Does (.regWrite who a ⟨v, e⟩) s s.m) ∧
  (∀ (s : State) (a : BitVec 48) (v e : Word), (a.toNat % 8 ≠ 0 ∨ findBlock a.toNat = none) →
    Gives (.regWrite .host a ⟨v, e⟩) s fun m =>
      m.flag F.HST_EVENT_BUS_ERR = true ∧ m.get F.HST_BUSERR_SPACE = 0 ∧ m.get F.HST_BUSERR_ADDR = a.toNat ∧
      m = { s.m with regs := m.regs })

/-- The address of a BAR2 access lies in the selected vault. -/
abbrev Sys2Proof.Spec.InVault (m : Lanorun) (o n : Nat) : Prop := o + n ≤ 2 ^ 36 ∧ m.get F.HST_MWIN_VAULT < 8

/-- A bus error of the host is shown with its space and address. -/
def Sys2Proof.Spec.BusError (m : Lanorun) (space a : Nat) : Prop :=
  m.flag F.HST_EVENT_BUS_ERR = true ∧ m.get F.HST_BUSERR_SPACE = space ∧ m.get F.HST_BUSERR_ADDR = a

/-- The host windows. A BAR0 doubleword read that reaches BLF_LIMITS answers its value and a write there writes it; an access of another
size, misaligned or unmapped is a bus error, a read with Completer Abort. A BAR2 read answers the selected vault's bytes, poisoned where
one is; a vault that is not READY is a bus error with Completer Abort. A BAR2 write writes the bytes and nothing else, and one into a
staging buffer that is free or the host's takes the buffer; into the control ring, into another's staging buffer, to a vault that is not
READY or into a protected bank it is a bus error that writes nothing. An endpoint that takes no request changes nothing (R437 to R439,
R502). Where the spec leaves a point open it takes the model's convention of log entries 61, 62 and 72. -/
def Obligations.HostWindows : Prop :=
  (∀ (s : State) (o : BitVec 25) (v : Word), s.m.hostReaches = true → s.m.bar0 o.toNat = R.BLF_LIMITS.addr 0 0 →
    Does (.hostBar0Access false o 8 v) s
      (s.m.setHost fun h => { h with answer := some (leBytes 8 (s.m.reg R.BLF_LIMITS % 2 ^ 48)), poisoned := false })) ∧
  (∀ (s : State) (o : BitVec 25) (v : Word), s.m.hostReaches = true → s.m.bar0 o.toNat = R.BLF_LIMITS.addr 0 0 →
    s.m.planActive = false → Gives (.hostBar0Access true o 8 v) s fun m =>
      m.get F.BLF_LIMITS_BOUND_LIM = v.toNat % 2 ^ 16 ∧ m.host = s.m.host) ∧
  (∀ (s : State) (w : Bool) (o : BitVec 25) (n : Nat) (v : Word), s.m.hostReaches = true →
    (n ≠ 8 ∨ s.m.bar0 o.toNat % 8 ≠ 0 ∨ findBlock (s.m.bar0 o.toNat) = none) →
    Gives (.hostBar0Access w o n v) s fun m => BusError m 0 (s.m.bar0 o.toNat) ∧ (w = false → m.host.answer = none) ∧
      m = { s.m with regs := m.regs, host := m.host }) ∧
  (∀ (s : State) (w : Bool) (o : BitVec 25) (n : Nat) (v : Word), s.m.hostReaches = false → Does (.hostBar0Access w o n v) s s.m) ∧
  (∀ (s : State) (o : BitVec 36) (n : Nat) (es : List VaultErr) (d : List Byte), s.m.hostReaches = false →
    Does (.hostBar2Read o n es) s s.m ∧ Does (.hostBar2Write o d) s s.m) ∧
  (∀ (s : State) (o : BitVec 36) (n : Nat), s.m.hostReaches = true →
    s.m.vaultReady (s.m.get F.HST_MWIN_VAULT) = true → (s.m.vault (s.m.get F.HST_MWIN_VAULT)).poison = [] →
    Gives (.hostBar2Read o n []) s fun m => m.host.poisoned = false ∧ m.regs = s.m.regs ∧ m.vaults = s.m.vaults ∧
      m.host.answer = some (sgets 0#8 (s.m.vault (s.m.get F.HST_MWIN_VAULT)).dram o.toNat n)) ∧
  (∀ (s : State) (o : BitVec 36) (n : Nat), s.m.hostReaches = true → s.m.vaultReady (s.m.get F.HST_MWIN_VAULT) = true →
    Gives (.hostBar2Read o n []) s fun m => m.host.answer = some (s.m.dram (s.m.bar2 o.toNat) n) ∧
      m.host.poisoned = !(s.m.poisoned (s.m.bar2 o.toNat) n).isEmpty) ∧
  (∀ (s : State) (o : BitVec 36) (n : Nat) (es : List VaultErr), s.m.hostReaches = true →
    s.m.vaultReady (s.m.get F.HST_MWIN_VAULT) = false → Gives (.hostBar2Read o n es) s fun m =>
      m.host.answer = none ∧ BusError m 1 (s.m.bar2 o.toNat) ∧ m.vaults = s.m.vaults) ∧
  (∀ (s : State) (o : BitVec 36) (d : List Byte), s.m.hostReaches = true → s.m.protects (s.m.bar2 o.toNat) d.length = false →
    s.m.vaultReady (s.m.get F.HST_MWIN_VAULT) = true → inCring (s.m.bar2 o.toNat) d.length = false →
    inStage (s.m.bar2 o.toNat) d.length = false → InVault s.m o.toNat d.length →
    Gives (.hostBar2Write o d) s fun m => m.regs = s.m.regs ∧ (∀ i, i < d.length →
        sget 0#8 (m.vault (s.m.get F.HST_MWIN_VAULT)).dram (o.toNat + i) = d.getD i 0#8) ∧
      (∀ a, a < o.toNat ∨ o.toNat + d.length ≤ a → sget 0#8 (m.vault (s.m.get F.HST_MWIN_VAULT)).dram a =
        sget 0#8 (s.m.vault (s.m.get F.HST_MWIN_VAULT)).dram a) ∧
      ∀ v, v ≠ s.m.get F.HST_MWIN_VAULT → m.vault v = s.m.vault v) ∧
  (∀ (s : State) (o : BitVec 36) (d : List Byte), s.m.hostReaches = true → s.m.protects (s.m.bar2 o.toNat) d.length = false →
    s.m.vaultReady 0 = true → s.m.get F.HST_MWIN_VAULT = 0 → inCring o.toNat d.length = false →
    inStage o.toNat d.length = true → (s.m.stageOwner = 0 ∨ s.m.stageOwner = 1) → o.toNat + d.length ≤ 2 ^ 36 →
    Gives (.hostBar2Write o d) s fun m => m.stageOwner = 1 ∧
      ∀ i, i < d.length → sget 0#8 (m.vault 0).dram (o.toNat + i) = d.getD i 0#8) ∧
  (∀ (s : State) (o : BitVec 36) (d : List Byte), s.m.hostReaches = true →
    (s.m.vaultReady (s.m.get F.HST_MWIN_VAULT) = false ∨ inCring (s.m.bar2 o.toNat) d.length = true ∨
      inStage (s.m.bar2 o.toNat) d.length = true ∧ s.m.stageOwner ≠ 0 ∧ s.m.stageOwner ≠ 1 ∨
      s.m.protects (s.m.bar2 o.toNat) d.length = true) →
    Gives (.hostBar2Write o d) s fun m => BusError m 1 (s.m.bar2 o.toNat) ∧ m = { s.m with regs := m.regs })

/-- The readback window returns the store of a cell that does not run, the data SRAM of a block steward held in reset, and either
of a frozen module, with status 0; of a running one NOT_STOPPED, and of a class or a unit that does not exist NO_UNIT, each with 0. A
capture starts in a frozen module only, and once; ABORT ends a running one; it is done with its end record, or full, and waits while the
host's queue is held and it writes there. With no capture running ABORT and the end change nothing (R537 to R539). -/
def Sys2Proof.Spec.ReadbackAndCapture : Prop :=
  (∀ (s : State) (k : Fin 32) (u q : Nat), s.m.get F.DBG_RB_ADDR_CLASS = 2 → s.m.get F.DBG_RB_ADDR_UNIT = u → u < 1360 →
    s.m.get F.DBG_RB_ADDR_OFFSET = 8 * q → 8 * q + 8 * k.val + 8 ≤ 0x100000 → s.m.isOn (u / 17) = true →
    s.m.cellFused u = false → (s.m.cell u).st ∈ [0, 2, 3, 4] ∨ s.m.flag F.DBG_STATUS_FROZEN = true →
    Gives (.rbDataRead k) s fun m => m.get F.DBG_RB_STAT_STATUS = 0 ∧
      m.reg R.DBG_RB_DATA 0 k = leNat ((List.range 8).map fun i =>
        ((s.m.cell u).storeBytes (8 * q + 8 * k.val + i) 1).headD 0#8) ∧ m.cells = s.m.cells) ∧
  (∀ (s : State) (k : Fin 32) (u q : Nat), s.m.get F.DBG_RB_ADDR_CLASS = 2 → s.m.get F.DBG_RB_ADDR_UNIT = u → u < 1360 →
    s.m.get F.DBG_RB_ADDR_OFFSET = 8 * q → 8 * q + 8 * k.val + 8 ≤ 0x100000 → s.m.isOn (u / 17) = true →
    s.m.cellFused u = false → (s.m.cell u).st = 1 → s.m.flag F.DBG_STATUS_FROZEN = false → Gives (.rbDataRead k) s fun m =>
      m.get F.DBG_RB_STAT_STATUS = 1 ∧ m.reg R.DBG_RB_DATA 0 k = 0) ∧
  (∀ (s : State) (k : Fin 32) (u q : Nat), s.m.get F.DBG_RB_ADDR_CLASS = 6 → s.m.get F.DBG_RB_ADDR_UNIT = u → u < 80 →
    s.m.get F.DBG_RB_ADDR_OFFSET = 8 * q → 0x20000 ≤ 8 * q → 8 * q + 8 * k.val + 8 ≤ 0x30000 → s.m.isOn u = true →
    ((s.m.steward u).reset = true ∨ s.m.flag F.DBG_STATUS_FROZEN = true) → Gives (.rbDataRead k) s fun m =>
      m.get F.DBG_RB_STAT_STATUS = 0 ∧ m.reg R.DBG_RB_DATA 0 k = leNat ((List.range 8).map fun i =>
        sget 0#8 (s.m.steward u).dsram (8 * q + 8 * k.val + i - 0x20000))) ∧
  (∀ (s : State) (k : Fin 32) (u q : Nat), s.m.get F.DBG_RB_ADDR_CLASS = 6 → s.m.get F.DBG_RB_ADDR_UNIT = u → u < 80 →
    s.m.get F.DBG_RB_ADDR_OFFSET = 8 * q → 8 * q + 8 * k.val + 8 ≤ 0x30000 → s.m.isOn u = true →
    (s.m.steward u).reset = false → s.m.flag F.DBG_STATUS_FROZEN = false → Gives (.rbDataRead k) s fun m =>
      m.get F.DBG_RB_STAT_STATUS = 1 ∧ m.reg R.DBG_RB_DATA 0 k = 0) ∧
  (∀ (s : State) (k : Fin 32), (s.m.get F.DBG_RB_ADDR_CLASS = 0 ∨ s.m.get F.DBG_RB_ADDR_CLASS = 2 ∧
    (1360 ≤ s.m.get F.DBG_RB_ADDR_UNIT ∨ s.m.cellFused (s.m.get F.DBG_RB_ADDR_UNIT) = true)) → Gives (.rbDataRead k) s fun m =>
    m.get F.DBG_RB_STAT_STATUS = 2 ∧ m.reg R.DBG_RB_DATA 0 k = 0) ∧
  (∀ s : State, s.m.flag F.DBG_STATUS_FROZEN = false → Does .capStart s (s.m.put F.DBG_CAP_STAT_STATE 5)) ∧
  (∀ s : State, s.m.flag F.DBG_STATUS_FROZEN = true → s.m.get F.DBG_CAP_STAT_STATE ≠ 1 → Gives .capStart s fun m =>
    m.get F.DBG_CAP_STAT_STATE = 1 ∧ m.get F.DBG_CAP_STAT_BYTES = 0 ∧ m = { s.m with regs := m.regs }) ∧
  (∀ s : State, s.m.flag F.DBG_STATUS_FROZEN = true → s.m.get F.DBG_CAP_STAT_STATE = 1 → Does .capStart s s.m) ∧
  (∀ s : State, s.m.get F.DBG_CAP_STAT_STATE = 1 → Gives .capAbort s fun m => m.get F.DBG_CAP_STAT_STATE = 3 ∧
    m.flag F.DBG_EVENT_CAP_DONE = true ∧ m = { s.m with regs := m.regs }) ∧
  (∀ s : State, s.m.get F.DBG_CAP_STAT_STATE ≠ 1 → Does .capAbort s s.m ∧ Does .capDone s s.m) ∧
  (∀ s : State, s.m.get F.DBG_CAP_STAT_STATE = 1 → s.m.flag F.DBG_CAP_CTRL_DEST = true → s.m.hostHeld = true →
    Does .capDone s s.m) ∧
  (∀ s : State, s.m.get F.DBG_CAP_STAT_STATE = 1 → s.m.flag F.DBG_CAP_CTRL_DEST = false → Gives .capDone s fun m =>
    (m.get F.DBG_CAP_STAT_STATE = 2 ∨ m.get F.DBG_CAP_STAT_STATE = 4) ∧ m.flag F.DBG_EVENT_CAP_DONE = true ∧
    m.cells = s.m.cells) ∧
  (∀ s : State, s.m.get F.DBG_CAP_STAT_STATE = 1 → s.m.flag F.DBG_CAP_CTRL_DEST = false →
    s.m.get F.DBG_CAP_CTRL_CLASSES = 0 → s.m.vaultReady 0 = true → Gives .capDone s fun m =>
      m.get F.DBG_CAP_STAT_STATE = 2 ∧ m.get F.DBG_CAP_STAT_BYTES = 32 ∧ m.flag F.DBG_EVENT_CAP_DONE = true ∧
      sgets 0#8 (m.vault 0).dram 0xFE0000000 32 = capEnd 0)

/-- Access codes, readback and capture: Spec.AccessCodes, Spec.ReadbackAndCapture. Where the spec leaves a point open it takes the
model's convention of log entries 57, 58, 59 and 103. -/
def Obligations.AccessAndCapture : Prop := Sys2Proof.Spec.AccessCodes ∧ Sys2Proof.Spec.ReadbackAndCapture

/-! ## Bundles and their encodings (R107 to R110) -/

/-- Decoding the encoding of a well-formed bundle gives the bundle back, with every slot, body and extension at every value that the
encoding admits (R107 to R110). -/
def Obligations.BundleDecodeEncode : Prop := ∀ b : Bundle, b.wf = true → decodeBundle b.encode = .ok b

/-- Whatever decodes is a well-formed bundle of 4 to 48 bytes whose encoding is the very bytes that it was decoded from, so that no
two encodings share a bundle (R107 to R110). -/
def Obligations.BundleEncodeDecode : Prop :=
  ∀ (bytes : List (BitVec 8)) (b : Bundle), decodeBundle bytes = .ok b → b.len ≤ bytes.length →
    b.wf = true ∧ b.encode = bytes.take b.len ∧ 4 ≤ b.len ∧ b.len ≤ 48 ∧ b.len = bundleLen (fieldAt bytes 0 4)
end

