-- ==== Sys2Proof/Laws/Exec.lean ====
section
/-! SUPPORT. What each command does, once: its effect on the module, by rfl. Proofs cite these and do not unfold exec. -/
namespace Sys2Proof.Machine

theorem exec_slipBeyondSlack (tenancy : TenancyIx) (region : RegionIx) (s : State) :
    exec (.slipBeyondSlack tenancy region) s = .next (s.on fun s => s.slipBeyond tenancy.val region.val) := rfl
theorem exec_bundleIssue (cell : CellIx) (errs : List MemErr) (s : State) :
    exec (.bundleIssue cell errs) s = .next (s.on fun s => s.cellEvent cell.val fun s => s.bundleIssue cell.val errs) := rfl
theorem exec_idleRepeat (cell : CellIx) (count : BitVec 16) (s : State) :
    exec (.idleRepeat cell count) s = .next (s.on fun s => if s.frozen then s else s.idleRepeat cell.val count.toNat) := rfl
theorem exec_resultLand (cell : CellIx) (errs : List MemErr) (s : State) :
    exec (.resultLand cell errs) s = .next (s.on fun s => if s.frozen then s else s.cellEvent cell.val fun s => s.resultLand cell.val errs) := rfl
theorem exec_cofferScheduledRead (cell : CellIx) (s : State) :
    exec (.cofferScheduledRead cell) s = .next (s.on fun s => if s.frozen then s else s.cofferReads cell.val (s.cell cell.val).rc) := rfl
theorem exec_cellStart (cell : CellIx) (s : State) :
    exec (.cellStart cell) s = .next (s.on fun s => s.cellStart cell.val) := rfl
theorem exec_cellStop (cell : CellIx) (s : State) :
    exec (.cellStop cell) s = .next (s.on fun s => s.cellStop cell.val) := rfl
theorem exec_cellStep (cell : CellIx) (s : State) :
    exec (.cellStep cell) s = .next (s.on fun s => s.cellStepCmd cell.val) := rfl
theorem exec_cellStopped (cell : CellIx) (s : State) :
    exec (.cellStopped cell) s = .next (s.on fun s => s.cellStopped cell.val) := rfl
theorem exec_tallyAddWrite (cell : CellIx) (value : Word) (s : State) :
    exec (.tallyAddWrite cell value) s = .next (s.on fun s => s.tallyAddWrite cell.val value.toNat) := rfl
theorem exec_arrivalLand (cell : CellIx) (s : State) :
    exec (.arrivalLand cell) s = .next (s.on fun s => if s.frozen then s else s.arrivalLand cell.val) := rfl
theorem exec_stewardInstruction (steward : StewardIx) (errs : List VaultErr) (s : State) :
    exec (.stewardInstruction steward errs) s = .next (s.on fun s => s.stwInstr steward.val errs) := rfl
theorem exec_wfi (steward : StewardIx) (s : State) :
    exec (.wfi steward) s = .next (s.on fun s => s.stwWhere steward.val (· == 0x10500073)) := rfl
theorem exec_wideWrite (steward : StewardIx) (s : State) :
    exec (.wideWrite steward) s = .next (s.on fun s => s.stwWhere steward.val isWideGo) := rfl
theorem exec_stewardTimer (steward : StewardIx) (s : State) :
    exec (.stewardTimer steward) s = .next (s.on fun s => s.stwTimer steward.val) := rfl
theorem exec_stewardInterrupt (steward : StewardIx) (s : State) :
    exec (.stewardInterrupt steward) s = .next (s.on fun s => s.stwInterrupt steward.val) := rfl
theorem exec_regWrite (who : Requester) (addr : BitVec 48) (value : WriteData) (s : State) :
    exec (.regWrite who addr value) s = .next (s.on fun s => s.regWriteBy who addr.toNat value.value.toNat value.same.toNat) := rfl
theorem exec_hostBar0Access (write : Bool) (offset : BitVec 25) (length : Nat) (value : Word) (s : State) :
    exec (.hostBar0Access write offset length value) s = .next (s.on fun s => s.bar0Access write offset.toNat length value.toNat) := rfl
theorem exec_hostBar2Read (offset : BitVec 36) (length : Nat) (errs : List VaultErr) (s : State) :
    exec (.hostBar2Read offset length errs) s = .next (s.on fun s => s.bar2Read offset.toNat length errs) := rfl
theorem exec_hostBar2Write (offset : BitVec 36) (data : List Byte) (s : State) :
    exec (.hostBar2Write offset data) s = .next (s.on fun s => s.bar2Write offset.toNat data) := rfl
theorem exec_rbDataRead (index : Fin 32) (s : State) :
    exec (.rbDataRead index) s = .next (s.on fun s => s.rbShow index.val) := rfl
theorem exec_capStart (s : State) :
    exec (.capStart) s = .next (s.on fun s => s.capStart) := rfl
theorem exec_capAbort (s : State) :
    exec (.capAbort) s = .next (s.on fun s => s.capAbort) := rfl
theorem exec_capDone (s : State) :
    exec (.capDone) s = .next (s.on fun s => s.capDone) := rfl
theorem exec_ctrlAccessComplete (s : State) :
    exec (.ctrlAccessComplete) s = .next (s.on fun s => s.ctrlFinish) := rfl
theorem exec_ethLinkUp (port : EthIx) (pmd : BitVec 4) (s : State) :
    exec (.ethLinkUp port pmd) s = .next (s.on fun s => s.ethLinkUp port.val pmd.toNat) := rfl
theorem exec_ethLinkDown (port : EthIx) (s : State) :
    exec (.ethLinkDown port) s = .next (s.on fun s => s.ethLinkDown port.val) := rfl
theorem exec_ethFecUe (port : EthIx) (corrected : BitVec 32) (s : State) :
    exec (.ethFecUe port corrected) s = .next (s.on fun s => s.ethFecUe port.val corrected.toNat) := rfl
theorem exec_pfcFrameReceive (port : EthIx) (enable : BitVec 8) (quanta : BitVec 16) (s : State) :
    exec (.pfcFrameReceive port enable quanta) s = .next (s.on fun s => s.pfcReceive port.val enable.toNat quanta.toNat) := rfl
theorem exec_mgmtFrameReceive (port : EthIx) (frame : List Byte) (s : State) :
    exec (.mgmtFrameReceive port frame) s = .next (s.on fun s => s.mgmtReceive port.val frame) := rfl
theorem exec_roceRequestReceive (port : EthIx) (s : State) :
    exec (.roceRequestReceive port) s = .next (s.on fun s => s.roceRequest port.val) := rfl
theorem exec_roceResponseReceive (port : EthIx) (qp : BitVec 8) (response : RoceResponse) (s : State) :
    exec (.roceResponseReceive port qp response) s = .next (s.on fun s => s.roceResponse port.val qp.toNat response) := rfl
theorem exec_roceAckTimeout (port : EthIx) (qp : BitVec 8) (s : State) :
    exec (.roceAckTimeout port qp) s = .next (s.on fun s => s.ackTimeout port.val qp.toNat) := rfl
theorem exec_ecnReceive (port : EthIx) (qp : BitVec 8) (s : State) :
    exec (.ecnReceive port qp) s = .next (s.on fun s => s.ecnReceive port.val qp.toNat) := rfl
theorem exec_cnpReceive (port : EthIx) (qp : BitVec 8) (s : State) :
    exec (.cnpReceive port qp) s = .next (s.on fun s => s.cnpReceive port.val qp.toNat) := rfl
theorem exec_roceRateRaise (port : EthIx) (qp : BitVec 8) (s : State) :
    exec (.roceRateRaise port qp) s = .next (s.on fun s => if s.frozen then s else s.rateRaise port.val qp.toNat) := rfl
theorem exec_qpCtrlWrite (port : EthIx) (qp : BitVec 8) (value : Word) (s : State) :
    exec (.qpCtrlWrite port qp value) s = .next (s.on fun s => s.inDomain (108 + port.val) fun s => s.qpCtrlWrite port.val qp.toNat value.toNat) := rfl
theorem exec_ptpMessageReceive (port : EthIx) (domain : Byte) (fromMaster : Bool) (message : PtpMessage) (arrival : Int) (s : State) :
    exec (.ptpMessageReceive port domain fromMaster message arrival) s = .next (s.on fun s => s.ptpReceive port.val domain.toNat fromMaster message arrival) := rfl
theorem exec_ptpLost (port : EthIx) (s : State) :
    exec (.ptpLost port) s = .next (s.on fun s => s.ptpLost port.val) := rfl
theorem exec_meshMemberStart (tenancy : TenancyIx) (entry member : BitVec 16) (ue : List Nat) (s : State) :
    exec (.meshMemberStart tenancy entry member ue) s = .next (s.on fun s => (s.memberStart tenancy.val entry.toNat member.toNat ue).autoRetires s) := rfl
theorem exec_unschedFlitForward (router : BlockIx) (fc : BitVec 13) (ue : List Nat) (s : State) :
    exec (.unschedFlitForward router fc ue) s = .next (s.on fun s => if s.frozen then s else s.flitForward router.val fc.toNat ue) := rfl
theorem exec_packetArrive (port : PortIx) (s : State) :
    exec (.packetArrive port) s = .next (s.on fun s => if s.frozen then s else s.packetArrive port.val) := rfl
theorem exec_write (s : State) :
    exec (.write) s = .next (s.on fun s => s.deliver 1 Lanorun.applyWrite) := rfl
theorem exec_engine (s : State) :
    exec (.engine) s = .next (s.on fun s => s.deliver 2 Lanorun.applyEngine) := rfl
theorem exec_readData (s : State) :
    exec (.readData) s = .next (s.on fun s => s.deliver 3 Lanorun.applyWrite) := rfl
theorem exec_mgmtWrite (s : State) :
    exec (.mgmtWrite) s = .next (s.on fun s => s.deliver 4 Lanorun.mgmtArrive) := rfl
theorem exec_ack (s : State) :
    exec (.ack) s = .next (s.on fun s => s.deliver 0x10 Lanorun.applyAck) := rfl
theorem exec_nack (s : State) :
    exec (.nack) s = .next (s.on fun s => s.deliver 0x11 Lanorun.applyNack) := rfl
theorem exec_readReq (s : State) :
    exec (.readReq) s = .next (s.on fun s => s.deliver 0x12 Lanorun.applyReadReq) := rfl
theorem exec_faultNotice (s : State) :
    exec (.faultNotice) s = .next (s.on fun s => s.deliver 0x13 (fun s k => s.applyNotice k false)) := rfl
theorem exec_haltNotice (s : State) :
    exec (.haltNotice) s = .next (s.on fun s => s.deliver 0x14 (fun s k => s.applyNotice k true)) := rfl
theorem exec_msg (s : State) :
    exec (.msg) s = .next (s.on fun s => s.deliver 0x15 Lanorun.applyMsg) := rfl
theorem exec_readEngineReply (s : State) :
    exec (.readEngineReply) s = .next (s.on fun s => if s.frozen then s else s.readReply) := rfl
theorem exec_resendTimeout (tag : BitVec 32) (s : State) :
    exec (.resendTimeout tag) s = .next (s.on fun s => if s.frozen then s else s.resendTimeout tag.toNat) := rfl
theorem exec_filterExpire (src : BitVec 14) (tag : BitVec 32) (s : State) :
    exec (.filterExpire src tag) s = .next (s.on fun s => s.filterExpire src.toNat tag.toNat) := rfl
theorem exec_niSend (key : BitVec 16) (addr : BitVec 39) (s : State) :
    exec (.niSend key addr) s = .next (s.on fun s => s.niSend key.toNat addr.toNat) := rfl
theorem exec_holdWrite (on : Bool) (s : State) :
    exec (.holdWrite on) s = .next (s.on fun s => s.holdWrite on) := rfl
theorem exec_freezeNFall (offset : Fin 4000) (s : State) :
    exec (.freezeNFall offset) s = .next (s.on fun s => s.freezePin (4000 * s.frame + offset.val)) := rfl
theorem exec_freezeNow (offset : Fin 4000) (s : State) :
    exec (.freezeNow offset) s = .next (s.on fun s => s.freezeNow (4000 * s.frame + offset.val) 3) := rfl
theorem exec_jtagFreezeNow (offset : Fin 4000) (s : State) :
    exec (.jtagFreezeNow offset) s = .next (s.on fun s => s.jtagFreeze (4000 * s.frame + offset.val)) := rfl
theorem exec_freezeTakeEffect (s : State) :
    exec (.freezeTakeEffect) s = .next (s.on fun s => s.reachFreeze) := rfl
theorem exec_resume (fault : Bool) (s : State) :
    exec (.resume fault) s = .next (s.on fun s => s.resumeCmd fault) := rfl
theorem exec_resumeCancel (s : State) :
    exec (.resumeCancel) s = .next (s.on fun s => s.resumeCancel) := rfl
theorem exec_resumeAtTr (s : State) :
    exec (.resumeAtTr) s = .next (s.on fun s => s.reachResume) := rfl
theorem exec_hwqDrain (s : State) :
    exec (.hwqDrain) s = .next (s.on fun s => s.hwqDrain) := rfl
theorem exec_msixSend (source : Fin 16) (masked : Bool) (s : State) :
    exec (.msixSend source masked) s = .next (s.on fun s => s.msixSend source.val masked) := rfl
theorem exec_rearm (source : Fin 16) (masked : Bool) (s : State) :
    exec (.rearm source masked) s = .next (s.on fun s => s.rearm source.val masked) := rfl
theorem exec_wakeRequest (s : State) :
    exec (.wakeRequest) s = .next (s.on fun s => s.wakeRequest) := rfl
theorem exec_wakeExit (s : State) :
    exec (.wakeExit) s = .next (s.on fun s => s.wakeExit) := rfl
theorem exec_dStateChange (d0 busMaster : Bool) (s : State) :
    exec (.dStateChange d0 busMaster) s = .next (s.on fun s => s.dState d0 busMaster) := rfl
theorem exec_perstReset (pin : Bool) (s : State) :
    exec (.perstReset pin) s = .next (s.on fun s => s.perstReset pin) := rfl
theorem exec_perstRelease (rate : BitVec 3) (width : BitVec 5) (flit : Bool) (s : State) :
    exec (.perstRelease rate width flit) s = .next (s.on fun s => s.perstRelease rate.toNat width.toNat flit) := rfl
theorem exec_pcieLinkDown (s : State) :
    exec (.pcieLinkDown) s = .next (s.on fun s => s.pcieLinkDown) := rfl
theorem exec_flr (s : State) :
    exec (.flr) s = .next (s.on fun s => s.flr) := rfl
theorem exec_doorbell (opcode : Byte) (s : State) :
    exec (.doorbell opcode) s = .next (s.on fun s => s.doorbell opcode.toNat) := rfl
theorem exec_post (code : BitVec 16) (s : State) :
    exec (.post code) s = .next (s.on fun s => s.mboxPost code.toNat) := rfl
theorem exec_mboxAck (seq : BitVec 16) (s : State) :
    exec (.mboxAck seq) s = .next (s.on fun s => s.mboxAck seq.toNat) := rfl
theorem exec_mboxStatusRead (s : State) :
    exec (.mboxStatusRead) s = .next (s.on fun s => s.mboxStatusRead.2) := rfl
theorem exec_ident (s : State) :
    exec (.ident) s = .next (s.on fun s => s.identRequest) := rfl
theorem exec_stageK (millivolts : BitVec 16) (retained : Bool) (s : State) :
    exec (.stageK millivolts retained) s = .next (s.on fun s => s.stageK millivolts.toNat retained) := rfl
theorem exec_stageRom (s : State) :
    exec (.stageRom) s = .next (s.on fun s => s.stageRom) := rfl
theorem exec_stageHead (s : State) :
    exec (.stageHead) s = .next (s.on fun s => s.stageHead) := rfl
theorem exec_stageReady (s : State) :
    exec (.stageReady) s = .next (s.on fun s => s.stageReady) := rfl
theorem exec_backupCheck (millivolts : BitVec 16) (s : State) :
    exec (.backupCheck millivolts) s = .next (s.on fun s => if s.keep.src = 0 then s.backupCheck millivolts.toNat else s) := rfl
theorem exec_rtcWrite (value : Word) (s : State) :
    exec (.rtcWrite value) s = .next (s.on fun s => s.rtcWrite value.toNat) := rfl
theorem exec_intrusion (opened : Bool) (s : State) :
    exec (.intrusion opened) s = .next (s.on fun s => s.intrusion opened) := rfl
theorem exec_keepAck (s : State) :
    exec (.keepAck) s = .next (s.on fun s => s.keepAck) := rfl
theorem exec_attest (request : SpdmRequest) (s : State) :
    exec (.attest request) s = .next (s.on fun s => s.attest request) := rfl
theorem exec_fwStage (s : State) :
    exec (.fwStage) s = .next (s.on fun s => s.fwStage) := rfl
theorem exec_fwActivate (s : State) :
    exec (.fwActivate) s = .next (s.on fun s => s.mboxActivate) := rfl
theorem exec_confirm (s : State) :
    exec (.confirm) s = .next (s.on fun s => s.fwConfirm) := rfl
theorem exec_confirmTimeout (s : State) :
    exec (.confirmTimeout) s = .next (s.on fun s => s.confirmTimeout) := rfl
theorem exec_abortStage (s : State) :
    exec (.abortStage) s = .next (s.on fun s => s.stageAbort) := rfl
theorem exec_stageHoldExpire (s : State) :
    exec (.stageHoldExpire) s = .next (s.on fun s => s.stageAbort) := rfl
theorem exec_fwCommitEnd (mismatch : Bool) (s : State) :
    exec (.fwCommitEnd mismatch) s = .next (s.on fun s => s.commitEnd mismatch) := rfl
theorem exec_svcIdent (seq : BitVec 16) (s : State) :
    exec (.svcIdent seq) s = .next (s.on fun s => s.svc 1 seq.toNat fun s => s.svcIdent seq.toNat) := rfl
theorem exec_svcSpdm (seq : BitVec 16) (request : SpdmRequest) (s : State) :
    exec (.svcSpdm seq request) s = .next (s.on fun s => s.svc 2 seq.toNat fun s => s.svcSpdm seq.toNat request) := rfl
theorem exec_stageWrite (seq : BitVec 16) (offset : BitVec 32) (data : List Byte) (s : State) :
    exec (.stageWrite seq offset data) s = .next (s.on fun s => s.svc 3 seq.toNat fun s => s.svcWrite seq.toNat offset.toNat data) := rfl
theorem exec_stageQuery (seq : BitVec 16) (s : State) :
    exec (.stageQuery seq) s = .next (s.on fun s => s.svc 4 seq.toNat fun s => s.svcAnswer 4 seq.toNat 0 s.lowestBlock) := rfl
theorem exec_stageCommit (seq : BitVec 16) (length : BitVec 32) (s : State) :
    exec (.stageCommit seq length) s = .next (s.on fun s => s.svc 5 seq.toNat fun s => s.commitStart { src := 2, len := length.toNat, seq := seq.toNat }) := rfl
theorem exec_svcFwActivate (seq : BitVec 16) (reboot : Bool) (s : State) :
    exec (.svcFwActivate seq reboot) s = .next (s.on fun s => s.svc 6 seq.toNat fun s => s.svcActivate seq.toNat reboot) := rfl
theorem exec_setPosition (seq : BitVec 16) (id : BitVec 14) (s : State) :
    exec (.setPosition seq id) s = .next (s.on fun s => s.svc 7 seq.toNat fun s => s.svcPosition seq.toNat id.toNat) := rfl
theorem exec_logRead (seq : BitVec 16) (first count : BitVec 32) (s : State) :
    exec (.logRead seq first count) s = .next (s.on fun s => s.svc 8 seq.toNat fun s => s.svcLog seq.toNat first.toNat count.toNat) := rfl
theorem exec_getVersion (s : State) :
    exec (.getVersion) s = .next (s.on fun s => s.spdm .getVersion) := rfl
theorem exec_getCapabilities (s : State) :
    exec (.getCapabilities) s = .next (s.on fun s => s.spdm .getCapabilities) := rfl
theorem exec_negotiateAlgorithms (s : State) :
    exec (.negotiateAlgorithms) s = .next (s.on fun s => s.spdm .negotiateAlgorithms) := rfl
theorem exec_getDigests (s : State) :
    exec (.getDigests) s = .next (s.on fun s => s.spdm .getDigests) := rfl
theorem exec_getCertificate (slot : BitVec 4) (offset length : BitVec 16) (s : State) :
    exec (.getCertificate slot offset length) s = .next (s.on fun s => s.spdm (.getCertificate slot.toNat offset.toNat length.toNat)) := rfl
theorem exec_challenge (slot : BitVec 4) (nonce : List Byte) (s : State) :
    exec (.challenge slot nonce) s = .next (s.on fun s => s.spdm (.challenge slot.toNat nonce)) := rfl
theorem exec_getMeasurements (index : Byte) (nonce : List Byte) (s : State) :
    exec (.getMeasurements index nonce) s = .next (s.on fun s => s.spdm (.getMeasurements index.toNat nonce)) := rfl
theorem exec_chainOffer (src : BitVec 14) (version : Word) (mdigest : BitVec 128) (s : State) :
    exec (.chainOffer src version mdigest) s = .next (s.on fun s => s.chainOffered src.toNat version.toNat (leBytes 16 mdigest.toNat)) := rfl
theorem exec_chainNeed (src : BitVec 14) (block : BitVec 9) (s : State) :
    exec (.chainNeed src block) s = .next (s.on fun s => s.chainNeed src.toNat block.toNat) := rfl
theorem exec_chainDone (src : BitVec 14) (code : BitVec 16) (s : State) :
    exec (.chainDone src code) s = .next (s.on fun s => s.chainDone src.toNat code.toNat) := rfl
theorem exec_chainAbort (src : BitVec 14) (s : State) :
    exec (.chainAbort src) s = .next (s.on fun s => s.chainAbort src.toNat) := rfl
theorem exec_chainNeedTimeout (hop : Fin 4) (s : State) :
    exec (.chainNeedTimeout hop) s = .next (s.on fun s => s.hopTimeout hop.val 1) := rfl
theorem exec_chainDoneTimeout (hop : Fin 4) (s : State) :
    exec (.chainDoneTimeout hop) s = .next (s.on fun s => s.hopTimeout hop.val 2) := rfl
theorem exec_kepChainWrite (value : Word) (s : State) :
    exec (.kepChainWrite value) s = .next (s.on fun s => s.chainWrite value.toNat) := rfl
theorem exec_linkEnableWrite (port : PortIx) (on : Bool) (s : State) :
    exec (.linkEnableWrite port on) s = .next (s.on fun s => s.linkEnable port.val on) := rfl
theorem exec_signalDetect (port : PortIx) (lanes : BitVec 16) (s : State) :
    exec (.signalDetect port lanes) s = .next (s.on fun s => s.signalDetect port.val lanes.toNat) := rfl
theorem exec_equaliseDone (port : PortIx) (rx tx polarity : BitVec 16) (reversed : Bool) (s : State) :
    exec (.equaliseDone port rx tx polarity reversed) s = .next (s.on fun s => s.equaliseDone port.val rx.toNat tx.toNat polarity.toNat reversed) := rfl
theorem exec_equaliseTimeout (port : PortIx) (s : State) :
    exec (.equaliseTimeout port) s = .next (s.on fun s => s.equaliseTimeout port.val) := rfl
theorem exec_configReceive (port : PortIx) (flit : BitVec 512) (txrx : Int) (s : State) :
    exec (.configReceive port flit txrx) s = .next (s.on fun s => s.configReceive port.val (flitBytes flit) txrx) := rfl
theorem exec_calibrateDone (port : PortIx) (s : State) :
    exec (.calibrateDone port) s = .next (s.on fun s => s.calibrateDone port.val) := rfl
theorem exec_linkUnitTransmit (port : PortIx) (s : State) :
    exec (.linkUnitTransmit port) s = .next (s.on fun s => s.linkTransmit port.val) := rfl
theorem exec_flitUnitReceive (port : PortIx) (unit : BitVec 544) (s : State) :
    exec (.flitUnitReceive port unit) s = .next (s.on fun s => s.unitReceive port.val unit) := rfl
theorem exec_lstatReceive (port : PortIx) (flit : BitVec 512) (s : State) :
    exec (.lstatReceive port flit) s = .next (s.on fun s => s.lstatReceive port.val (flitBytes flit)) := rfl
theorem exec_nakReceive (port : PortIx) (flit : BitVec 512) (s : State) :
    exec (.nakReceive port flit) s = .next (s.on fun s => s.nakReceive port.val (flitBytes flit)) := rfl
theorem exec_replayStart (port : PortIx) (s : State) :
    exec (.replayStart port) s = .next (s.on fun s => s.replayStart port.val) := rfl
theorem exec_nakTimeout (port : PortIx) (s : State) :
    exec (.nakTimeout port) s = .next (s.on fun s => s.nakTimeout port.val) := rfl
theorem exec_carryExceeded (port : PortIx) (s : State) :
    exec (.carryExceeded port) s = .next (s.on fun s => s.carryCheck port.val) := rfl
theorem exec_probationEnd (port : PortIx) (s : State) :
    exec (.probationEnd port) s = .next (s.on fun s => s.probationEnd port.val) := rfl
theorem exec_frtReqReceive (port : PortIx) (flit : BitVec 512) (s : State) :
    exec (.frtReqReceive port flit) s = .next (s.on fun s => s.frtReqReceive port.val (flitBytes flit)) := rfl
theorem exec_calNoticeReceive (port : PortIx) (flit : BitVec 512) (s : State) :
    exec (.calNoticeReceive port flit) s = .next (s.on fun s => s.calNoticeReceive port.val (flitBytes flit)) := rfl
theorem exec_downNoticeReceive (port : PortIx) (flit : BitVec 512) (s : State) :
    exec (.downNoticeReceive port flit) s = .next (s.on fun s => s.downNoticeReceive port.val (flitBytes flit)) := rfl
theorem exec_laneLockLoss (port : PortIx) (good : BitVec 16) (s : State) :
    exec (.laneLockLoss port good) s = .next (s.on fun s => s.laneLoss port.val good.toNat) := rfl
theorem exec_frtDone (port : PortIx) (s : State) :
    exec (.frtDone port) s = .next (s.on fun s => s.frtDone port.val) := rfl
theorem exec_frtTimeout (port : PortIx) (s : State) :
    exec (.frtTimeout port) s = .next (s.on fun s => s.frtTimeout port.val) := rfl
theorem exec_retrainDone (port : PortIx) (expect : BitVec 14) (s : State) :
    exec (.retrainDone port expect) s = .next (s.on fun s => s.retrainDone port.val expect.toNat) := rfl
theorem exec_retrainTimeout (port : PortIx) (s : State) :
    exec (.retrainTimeout port) s = .next (s.on fun s => s.retrainTimeout port.val) := rfl
theorem exec_downRetry (port : PortIx) (s : State) :
    exec (.downRetry port) s = .next (s.on fun s => s.downRetry port.val) := rfl
theorem exec_retrain (port : PortIx) (s : State) :
    exec (.retrain port) s = .next (s.on fun s => s.cmdRetrain port.val) := rfl
theorem exec_down (port : PortIx) (s : State) :
    exec (.down port) s = .next (s.on fun s => s.cmdDown port.val) := rfl
theorem exec_pllCal (port : PortIx) (s : State) :
    exec (.pllCal port) s = .next (s.on fun s => s.cmdPllCal port.val) := rfl
theorem exec_test (port : PortIx) (s : State) :
    exec (.test port) s = .next (s.on fun s => s.cmdTest port.val) := rfl
theorem exec_pllCalDone (port : PortIx) (s : State) :
    exec (.pllCalDone port) s = .next (s.on fun s => s.pllCalDone port.val) := rfl
theorem exec_pllDrift (port : PortIx) (temperature : Int) (s : State) :
    exec (.pllDrift port temperature) s = .next (s.on fun s => s.pllDrift port.val temperature) := rfl
theorem exec_testStart (port : PortIx) (s : State) :
    exec (.testStart port) s = .next (s.on fun s => s.testStart port.val) := rfl
theorem exec_testStop (port : PortIx) (errors : BitVec 32) (s : State) :
    exec (.testStop port errors) s = .next (s.on fun s => s.testStop port.val errors.toNat) := rfl
theorem exec_mma (cell : CellIx) (body : BitVec 64) (s : State) :
    exec (.mma cell body) s = .next (s.on fun s => if s.frozen then s else s.runM cell.val .mma body.toNat) := rfl
theorem exec_drain (cell : CellIx) (body : BitVec 64) (s : State) :
    exec (.drain cell body) s = .next (s.on fun s => if s.frozen then s else s.runM cell.val .drain body.toNat) := rfl
theorem exec_drainl (cell : CellIx) (body : BitVec 64) (s : State) :
    exec (.drainl cell body) s = .next (s.on fun s => if s.frozen then s else s.runM cell.val .drainl body.toNat) := rfl
theorem exec_mladd (cell : CellIx) (body : BitVec 64) (s : State) :
    exec (.mladd cell body) s = .next (s.on fun s => if s.frozen then s else s.runM cell.val .mladd body.toNat) := rfl
theorem exec_binit (cell : CellIx) (body : BitVec 64) (s : State) :
    exec (.binit cell body) s = .next (s.on fun s => if s.frozen then s else s.runM cell.val .binit body.toNat) := rfl
theorem exec_ldv (cell : CellIx) (body : BitVec 64) (s : State) :
    exec (.ldv cell body) s = .next (s.on fun s => if s.frozen then s else s.runL cell.val .ldv body.toNat) := rfl
theorem exec_lds (cell : CellIx) (body : BitVec 64) (s : State) :
    exec (.lds cell body) s = .next (s.on fun s => if s.frozen then s else s.runL cell.val .lds body.toNat) := rfl
theorem exec_ldw (cell : CellIx) (body : BitVec 64) (s : State) :
    exec (.ldw cell body) s = .next (s.on fun s => if s.frozen then s else s.runL cell.val .ldw body.toNat) := rfl
theorem exec_ldc (cell : CellIx) (body : BitVec 64) (s : State) :
    exec (.ldc cell body) s = .next (s.on fun s => if s.frozen then s else s.runL cell.val .ldc body.toNat) := rfl
theorem exec_stv (cell : CellIx) (body : BitVec 64) (s : State) :
    exec (.stv cell body) s = .next (s.on fun s => if s.frozen then s else s.runT cell.val .stv body.toNat) := rfl
theorem exec_sts (cell : CellIx) (body : BitVec 64) (s : State) :
    exec (.sts cell body) s = .next (s.on fun s => if s.frozen then s else s.runT cell.val .sts body.toNat) := rfl
theorem exec_stw (cell : CellIx) (body : BitVec 64) (s : State) :
    exec (.stw cell body) s = .next (s.on fun s => if s.frozen then s else s.runT cell.val .stw body.toNat) := rfl
theorem exec_stc (cell : CellIx) (body : BitVec 64) (s : State) :
    exec (.stc cell body) s = .next (s.on fun s => if s.frozen then s else s.runT cell.val .stc body.toNat) := rfl
theorem exec_waitpos (cell : CellIx) (body : BitVec 32) (s : State) :
    exec (.waitpos cell body) s = .next (s.on fun s => if s.frozen then s else s.runY cell.val .waitpos body.toNat) := rfl
theorem exec_efs (cell : CellIx) (body : BitVec 32) (s : State) :
    exec (.efs cell body) s = .next (s.on fun s => if s.frozen then s else s.cellEvent cell.val fun s => s.runY cell.val .efs body.toNat) := rfl
theorem exec_twait (cell : CellIx) (body : BitVec 32) (s : State) :
    exec (.twait cell body) s = .next (s.on fun s => if s.frozen then s else s.runY cell.val .twait body.toNat) := rfl
theorem exec_tadd (cell : CellIx) (body : BitVec 32) (s : State) :
    exec (.tadd cell body) s = .next (s.on fun s => if s.frozen then s else s.runY cell.val .tadd body.toNat) := rfl
theorem exec_ttest (cell : CellIx) (body : BitVec 32) (s : State) :
    exec (.ttest cell body) s = .next (s.on fun s => if s.frozen then s else s.runY cell.val .ttest body.toNat) := rfl
theorem exec_send (cell : CellIx) (body : BitVec 32) (s : State) :
    exec (.send cell body) s = .next (s.on fun s => if s.frozen then s else s.runY cell.val .send body.toNat) := rfl
theorem exec_bell (fillLate : Bool) (s : State) :
    exec (.bell fillLate) s = .next (s.on fun s => s.bell fillLate) := rfl
theorem exec_slotArm (slot : CmdSlotIx) (s : State) :
    exec (.slotArm slot) s = .next (s.on fun s => s.slotArm slot.val) := rfl
theorem exec_slotCancel (slot : CmdSlotIx) (s : State) :
    exec (.slotCancel slot) s = .next (s.on fun s => s.slotCancel slot.val) := rfl
theorem exec_activatePlan (slot : CmdSlotIx) (s : State) :
    exec (.activatePlan slot) s = .next (s.on fun s => s.slotDue slot.val 1) := rfl
theorem exec_switchBank (slot : CmdSlotIx) (s : State) :
    exec (.switchBank slot) s = .next (s.on fun s => s.slotDue slot.val 2) := rfl
theorem exec_freeze (slot : CmdSlotIx) (s : State) :
    exec (.freeze slot) s = .next (s.on fun s => s.slotDue slot.val 3) := rfl
theorem exec_event (slot : CmdSlotIx) (s : State) :
    exec (.event slot) s = .next (s.on fun s => s.slotDue slot.val 4) := rfl
theorem exec_slotMissedFrozen (slot : CmdSlotIx) (s : State) :
    exec (.slotMissedFrozen slot) s = .next (s.on fun s => s.slotFrozen slot.val) := rfl
theorem exec_planLoad (slot : SlotIx) (s : State) :
    exec (.planLoad slot) s = .next (s.on fun s => s.planLoad slot.val) := rfl
theorem exec_loadDomainsReady (s : State) :
    exec (.loadDomainsReady) s = .next (s.on fun s => s.loadFinish) := rfl
theorem exec_unload (slot : SlotIx) (s : State) :
    exec (.unload slot) s = .next (s.on fun s => s.unload slot.val) := rfl
theorem exec_abort (slot : SlotIx) (s : State) :
    exec (.abort slot) s = .next (s.on fun s => s.loadAbort slot.val) := rfl
theorem exec_pdOn (domain : BitVec 7) (s : State) :
    exec (.pdOn domain) s = .next (s.on fun s => s.pdRequest domain.toNat true) := rfl
theorem exec_pdOff (domain : BitVec 7) (s : State) :
    exec (.pdOff domain) s = .next (s.on fun s => s.pdRequest domain.toNat false) := rfl
theorem exec_pdSwitchDone (s : State) :
    exec (.pdSwitchDone) s = .next (s.on fun s => s.switchDone.loadBlocks s) := rfl
theorem exec_pdFail (s : State) :
    exec (.pdFail) s = .next (s.on fun s => s.pdFail) := rfl
theorem exec_inputSample (millivolts milliamps : BitVec 32) (s : State) :
    exec (.inputSample millivolts milliamps) s = .next (s.on fun s => s.inputSample millivolts.toNat milliamps.toNat) := rfl
theorem exec_monitorEvaluate (margins : List Byte) (sensors vaults : List Int) (s : State) :
    exec (.monitorEvaluate margins sensors vaults) s = .next (s.on fun s => s.evaluate (margins.map (·.toNat)) sensors vaults) := rfl
theorem exec_pmbusPoll (rail : Fin 12) (answer : Option (BitVec 16 × BitVec 16 × BitVec 16 × BitVec 16)) (s : State) :
    exec (.pmbusPoll rail answer) s = .next (s.on fun s => s.pmbusPoll rail.val answer) := rfl
theorem exec_clkenWrite (value : Word) (s : State) :
    exec (.clkenWrite value) s = .next (s.on fun s => s.clkenWrite value.toNat) := rfl
theorem exec_cpclkWrite (per : BitVec 8) (steward : BitVec 4) (s : State) :
    exec (.cpclkWrite per steward) s = .next (s.on fun s => s.cpclkWrite per.toNat steward.toNat) := rfl
theorem exec_cmuStart (s : State) :
    exec (.cmuStart) s = .next (s.on fun s => s.cmuStart) := rfl
theorem exec_cmuDone (count : BitVec 32) (s : State) :
    exec (.cmuDone count) s = .next (s.on fun s => s.cmuDone count.toNat) := rfl
theorem exec_retire (kind : BitVec 2) (unit : BitVec 11) (s : State) :
    exec (.retire kind unit) s = .next (s.on fun s => s.retire kind.toNat unit.toNat) := rfl
theorem exec_add (cell : CellIx) (body : BitVec 32) (ext : Option (BitVec 32)) (s : State) :
    exec (.add cell body ext) s = .next (s.on fun s => if s.frozen then s else s.runS cell.val .add body.toNat (ext.map (·.toNat))) := rfl
theorem exec_sub (cell : CellIx) (body : BitVec 32) (ext : Option (BitVec 32)) (s : State) :
    exec (.sub cell body ext) s = .next (s.on fun s => if s.frozen then s else s.runS cell.val .sub body.toNat (ext.map (·.toNat))) := rfl
theorem exec_and (cell : CellIx) (body : BitVec 32) (ext : Option (BitVec 32)) (s : State) :
    exec (.and cell body ext) s = .next (s.on fun s => if s.frozen then s else s.runS cell.val .and body.toNat (ext.map (·.toNat))) := rfl
theorem exec_or (cell : CellIx) (body : BitVec 32) (ext : Option (BitVec 32)) (s : State) :
    exec (.or cell body ext) s = .next (s.on fun s => if s.frozen then s else s.runS cell.val .or body.toNat (ext.map (·.toNat))) := rfl
theorem exec_xor (cell : CellIx) (body : BitVec 32) (ext : Option (BitVec 32)) (s : State) :
    exec (.xor cell body ext) s = .next (s.on fun s => if s.frozen then s else s.runS cell.val .xor body.toNat (ext.map (·.toNat))) := rfl
theorem exec_sll (cell : CellIx) (body : BitVec 32) (ext : Option (BitVec 32)) (s : State) :
    exec (.sll cell body ext) s = .next (s.on fun s => if s.frozen then s else s.runS cell.val .sll body.toNat (ext.map (·.toNat))) := rfl
theorem exec_srl (cell : CellIx) (body : BitVec 32) (ext : Option (BitVec 32)) (s : State) :
    exec (.srl cell body ext) s = .next (s.on fun s => if s.frozen then s else s.runS cell.val .srl body.toNat (ext.map (·.toNat))) := rfl
theorem exec_sra (cell : CellIx) (body : BitVec 32) (ext : Option (BitVec 32)) (s : State) :
    exec (.sra cell body ext) s = .next (s.on fun s => if s.frozen then s else s.runS cell.val .sra body.toNat (ext.map (·.toNat))) := rfl
theorem exec_min (cell : CellIx) (body : BitVec 32) (ext : Option (BitVec 32)) (s : State) :
    exec (.min cell body ext) s = .next (s.on fun s => if s.frozen then s else s.runS cell.val .min body.toNat (ext.map (·.toNat))) := rfl
theorem exec_max (cell : CellIx) (body : BitVec 32) (ext : Option (BitVec 32)) (s : State) :
    exec (.max cell body ext) s = .next (s.on fun s => if s.frozen then s else s.runS cell.val .max body.toNat (ext.map (·.toNat))) := rfl
theorem exec_minu (cell : CellIx) (body : BitVec 32) (ext : Option (BitVec 32)) (s : State) :
    exec (.minu cell body ext) s = .next (s.on fun s => if s.frozen then s else s.runS cell.val .minu body.toNat (ext.map (·.toNat))) := rfl
theorem exec_maxu (cell : CellIx) (body : BitVec 32) (ext : Option (BitVec 32)) (s : State) :
    exec (.maxu cell body ext) s = .next (s.on fun s => if s.frozen then s else s.runS cell.val .maxu body.toNat (ext.map (·.toNat))) := rfl
theorem exec_mul (cell : CellIx) (body : BitVec 32) (ext : Option (BitVec 32)) (s : State) :
    exec (.mul cell body ext) s = .next (s.on fun s => if s.frozen then s else s.runS cell.val .mul body.toNat (ext.map (·.toNat))) := rfl
theorem exec_mulhu (cell : CellIx) (body : BitVec 32) (ext : Option (BitVec 32)) (s : State) :
    exec (.mulhu cell body ext) s = .next (s.on fun s => if s.frozen then s else s.runS cell.val .mulhu body.toNat (ext.map (·.toNat))) := rfl
theorem exec_addi (cell : CellIx) (body : BitVec 32) (ext : Option (BitVec 32)) (s : State) :
    exec (.addi cell body ext) s = .next (s.on fun s => if s.frozen then s else s.runS cell.val .addi body.toNat (ext.map (·.toNat))) := rfl
theorem exec_andi (cell : CellIx) (body : BitVec 32) (ext : Option (BitVec 32)) (s : State) :
    exec (.andi cell body ext) s = .next (s.on fun s => if s.frozen then s else s.runS cell.val .andi body.toNat (ext.map (·.toNat))) := rfl
theorem exec_ori (cell : CellIx) (body : BitVec 32) (ext : Option (BitVec 32)) (s : State) :
    exec (.ori cell body ext) s = .next (s.on fun s => if s.frozen then s else s.runS cell.val .ori body.toNat (ext.map (·.toNat))) := rfl
theorem exec_xori (cell : CellIx) (body : BitVec 32) (ext : Option (BitVec 32)) (s : State) :
    exec (.xori cell body ext) s = .next (s.on fun s => if s.frozen then s else s.runS cell.val .xori body.toNat (ext.map (·.toNat))) := rfl
theorem exec_slli (cell : CellIx) (body : BitVec 32) (ext : Option (BitVec 32)) (s : State) :
    exec (.slli cell body ext) s = .next (s.on fun s => if s.frozen then s else s.runS cell.val .slli body.toNat (ext.map (·.toNat))) := rfl
theorem exec_srli (cell : CellIx) (body : BitVec 32) (ext : Option (BitVec 32)) (s : State) :
    exec (.srli cell body ext) s = .next (s.on fun s => if s.frozen then s else s.runS cell.val .srli body.toNat (ext.map (·.toNat))) := rfl
theorem exec_srai (cell : CellIx) (body : BitVec 32) (ext : Option (BitVec 32)) (s : State) :
    exec (.srai cell body ext) s = .next (s.on fun s => if s.frozen then s else s.runS cell.val .srai body.toNat (ext.map (·.toNat))) := rfl
theorem exec_cmpEq (cell : CellIx) (body : BitVec 32) (ext : Option (BitVec 32)) (s : State) :
    exec (.cmpEq cell body ext) s = .next (s.on fun s => if s.frozen then s else s.runS cell.val .cmpEq body.toNat (ext.map (·.toNat))) := rfl
theorem exec_cmpNe (cell : CellIx) (body : BitVec 32) (ext : Option (BitVec 32)) (s : State) :
    exec (.cmpNe cell body ext) s = .next (s.on fun s => if s.frozen then s else s.runS cell.val .cmpNe body.toNat (ext.map (·.toNat))) := rfl
theorem exec_cmpLt (cell : CellIx) (body : BitVec 32) (ext : Option (BitVec 32)) (s : State) :
    exec (.cmpLt cell body ext) s = .next (s.on fun s => if s.frozen then s else s.runS cell.val .cmpLt body.toNat (ext.map (·.toNat))) := rfl
theorem exec_cmpGe (cell : CellIx) (body : BitVec 32) (ext : Option (BitVec 32)) (s : State) :
    exec (.cmpGe cell body ext) s = .next (s.on fun s => if s.frozen then s else s.runS cell.val .cmpGe body.toNat (ext.map (·.toNat))) := rfl
theorem exec_cmpLtu (cell : CellIx) (body : BitVec 32) (ext : Option (BitVec 32)) (s : State) :
    exec (.cmpLtu cell body ext) s = .next (s.on fun s => if s.frozen then s else s.runS cell.val .cmpLtu body.toNat (ext.map (·.toNat))) := rfl
theorem exec_cmpGeu (cell : CellIx) (body : BitVec 32) (ext : Option (BitVec 32)) (s : State) :
    exec (.cmpGeu cell body ext) s = .next (s.on fun s => if s.frozen then s else s.runS cell.val .cmpGeu body.toNat (ext.map (·.toNat))) := rfl
theorem exec_cmpeqi (cell : CellIx) (body : BitVec 32) (ext : Option (BitVec 32)) (s : State) :
    exec (.cmpeqi cell body ext) s = .next (s.on fun s => if s.frozen then s else s.runS cell.val .cmpeqi body.toNat (ext.map (·.toNat))) := rfl
theorem exec_cmplti (cell : CellIx) (body : BitVec 32) (ext : Option (BitVec 32)) (s : State) :
    exec (.cmplti cell body ext) s = .next (s.on fun s => if s.frozen then s else s.runS cell.val .cmplti body.toNat (ext.map (·.toNat))) := rfl
theorem exec_cmpgei (cell : CellIx) (body : BitVec 32) (ext : Option (BitVec 32)) (s : State) :
    exec (.cmpgei cell body ext) s = .next (s.on fun s => if s.frozen then s else s.runS cell.val .cmpgei body.toNat (ext.map (·.toNat))) := rfl
theorem exec_cmpltui (cell : CellIx) (body : BitVec 32) (ext : Option (BitVec 32)) (s : State) :
    exec (.cmpltui cell body ext) s = .next (s.on fun s => if s.frozen then s else s.runS cell.val .cmpltui body.toNat (ext.map (·.toNat))) := rfl
theorem exec_plogAnd (cell : CellIx) (body : BitVec 32) (ext : Option (BitVec 32)) (s : State) :
    exec (.plogAnd cell body ext) s = .next (s.on fun s => if s.frozen then s else s.runS cell.val .plogAnd body.toNat (ext.map (·.toNat))) := rfl
theorem exec_plogOr (cell : CellIx) (body : BitVec 32) (ext : Option (BitVec 32)) (s : State) :
    exec (.plogOr cell body ext) s = .next (s.on fun s => if s.frozen then s else s.runS cell.val .plogOr body.toNat (ext.map (·.toNat))) := rfl
theorem exec_plogXor (cell : CellIx) (body : BitVec 32) (ext : Option (BitVec 32)) (s : State) :
    exec (.plogXor cell body ext) s = .next (s.on fun s => if s.frozen then s else s.runS cell.val .plogXor body.toNat (ext.map (·.toNat))) := rfl
theorem exec_plogAndn (cell : CellIx) (body : BitVec 32) (ext : Option (BitVec 32)) (s : State) :
    exec (.plogAndn cell body ext) s = .next (s.on fun s => if s.frozen then s else s.runS cell.val .plogAndn body.toNat (ext.map (·.toNat))) := rfl
theorem exec_fadd (cell : CellIx) (body : BitVec 32) (ext : Option (BitVec 32)) (s : State) :
    exec (.fadd cell body ext) s = .next (s.on fun s => if s.frozen then s else s.runS cell.val .fadd body.toNat (ext.map (·.toNat))) := rfl
theorem exec_fsub (cell : CellIx) (body : BitVec 32) (ext : Option (BitVec 32)) (s : State) :
    exec (.fsub cell body ext) s = .next (s.on fun s => if s.frozen then s else s.runS cell.val .fsub body.toNat (ext.map (·.toNat))) := rfl
theorem exec_fmul (cell : CellIx) (body : BitVec 32) (ext : Option (BitVec 32)) (s : State) :
    exec (.fmul cell body ext) s = .next (s.on fun s => if s.frozen then s else s.runS cell.val .fmul body.toNat (ext.map (·.toNat))) := rfl
theorem exec_fmin (cell : CellIx) (body : BitVec 32) (ext : Option (BitVec 32)) (s : State) :
    exec (.fmin cell body ext) s = .next (s.on fun s => if s.frozen then s else s.runS cell.val .fmin body.toNat (ext.map (·.toNat))) := rfl
theorem exec_fmax (cell : CellIx) (body : BitVec 32) (ext : Option (BitVec 32)) (s : State) :
    exec (.fmax cell body ext) s = .next (s.on fun s => if s.frozen then s else s.runS cell.val .fmax body.toNat (ext.map (·.toNat))) := rfl
theorem exec_fcvtfi (cell : CellIx) (body : BitVec 32) (ext : Option (BitVec 32)) (s : State) :
    exec (.fcvtfi cell body ext) s = .next (s.on fun s => if s.frozen then s else s.runS cell.val .fcvtfi body.toNat (ext.map (·.toNat))) := rfl
theorem exec_fcvtif (cell : CellIx) (body : BitVec 32) (ext : Option (BitVec 32)) (s : State) :
    exec (.fcvtif cell body ext) s = .next (s.on fun s => if s.frozen then s else s.runS cell.val .fcvtif body.toNat (ext.map (·.toNat))) := rfl
theorem exec_mfs (cell : CellIx) (body : BitVec 32) (ext : Option (BitVec 32)) (s : State) :
    exec (.mfs cell body ext) s = .next (s.on fun s => if s.frozen then s else s.runS cell.val .mfs body.toNat (ext.map (·.toNat))) := rfl
theorem exec_b (cell : CellIx) (body : BitVec 32) (ext : Option (BitVec 32)) (s : State) :
    exec (.b cell body ext) s = .next (s.on fun s => if s.frozen then s else s.runS cell.val .b body.toNat (ext.map (·.toNat))) := rfl
theorem exec_bal (cell : CellIx) (body : BitVec 32) (ext : Option (BitVec 32)) (s : State) :
    exec (.bal cell body ext) s = .next (s.on fun s => if s.frozen then s else s.runS cell.val .bal body.toNat (ext.map (·.toNat))) := rfl
theorem exec_jr (cell : CellIx) (body : BitVec 32) (ext : Option (BitVec 32)) (s : State) :
    exec (.jr cell body ext) s = .next (s.on fun s => if s.frozen then s else s.runS cell.val .jr body.toNat (ext.map (·.toNat))) := rfl
theorem exec_jalr (cell : CellIx) (body : BitVec 32) (ext : Option (BitVec 32)) (s : State) :
    exec (.jalr cell body ext) s = .next (s.on fun s => if s.frozen then s else s.runS cell.val .jalr body.toNat (ext.map (·.toNat))) := rfl
theorem exec_hotplugRemove (masked : Bool) (s : State) :
    exec (.hotplugRemove masked) s = .next (s.on fun s => s.ebOpen masked) := rfl
theorem exec_flushDomainsOff (s : State) :
    exec (.flushDomainsOff) s = .next (s.on fun s => s.flushOff) := rfl
theorem exec_insertion (s : State) :
    exec (.insertion) s = .next (s.on fun s => s.insertion) := rfl
theorem exec_hotSwapConnect (s : State) :
    exec (.hotSwapConnect) s = .next (s.on fun s => s.inputConnect) := rfl
theorem exec_inputLoss (masked : Bool) (s : State) :
    exec (.inputLoss masked) s = .next (s.on fun s => s.inputLoss masked) := rfl
theorem exec_ebNReclose (s : State) :
    exec (.ebNReclose) s = .next (s.on fun s => s.ebClose) := rfl
theorem exec_holdupExhausted (s : State) :
    exec (.holdupExhausted) s = .next (s.on fun s => s.powerGone) := rfl
theorem exec_holdupBankCharged (s : State) :
    exec (.holdupBankCharged) s = .next (s.on fun s => s.bankCharged) := rfl
theorem exec_vaultReadyTimeout (vault : VaultIx) (s : State) :
    exec (.vaultReadyTimeout vault) s = .next (s.on fun s => s.vaultLate vault.val) := rfl
theorem exec_hrefLoss (s : State) :
    exec (.hrefLoss) s = .next (s.on fun s => s.hrefLost) := rfl
theorem exec_hrefReturn (s : State) :
    exec (.hrefReturn) s = .next (s.on fun s => s.hrefBack) := rfl
theorem exec_clkRet (s : State) :
    exec (.clkRet) s = .next (s.on fun s => s.clkReturn) := rfl
theorem exec_ppsEdge (offset : Fin 4000) (ps8 : Fin 125) (s : State) :
    exec (.ppsEdge offset ps8) s = .next (s.on fun s => s.ppsEdge offset.val ps8.val) := rfl
theorem exec_smbStuckDetect (free : Bool) (s : State) :
    exec (.smbStuckDetect free) s = .next (s.on fun s => s.smbStuck free) := rfl
theorem exec_smbVtelCycleDone (free : Bool) (s : State) :
    exec (.smbVtelCycleDone free) s = .next (s.on fun s => s.smbCycled free) := rfl
theorem exec_recover (free : Bool) (s : State) :
    exec (.recover free) s = .next (s.on fun s => s.smbRetry free) := rfl
theorem exec_extest (cells : List (Nat × Bool)) (s : State) :
    exec (.extest cells) s = .next (s.on fun s => s.extest cells) := rfl
theorem exec_idcode (s : State) :
    exec (.idcode) s = .next (s.on fun s => s.idcode) := rfl
theorem exec_samplePreload (s : State) :
    exec (.samplePreload) s = .next (s.on fun s => s.samplePreload) := rfl
theorem exec_bypass (s : State) :
    exec (.bypass) s = .next (s.on fun s => s.bypass) := rfl
theorem exec_trstAssert (s : State) :
    exec (.trstAssert) s = .next (s.on fun s => s.trst) := rfl
theorem exec_jtagLock (s : State) :
    exec (.jtagLock) s = .next (s.on fun s => s.put F.DBG_CTRL_JTAG_LOCK 1) := rfl
theorem exec_ctrlAccess (write : Bool) (addr : BitVec 48) (data : Word) (s : State) :
    exec (.ctrlAccess write addr data) s = .next (s.on fun s => s.ctrlStart write addr.toNat data.toNat) := rfl
theorem exec_acquire (block : BlockIx) (head : Bool) (s : State) :
    exec (.acquire block head) s = .next (s.on fun s => s.mboxAcquire block.val head) := rfl
theorem exec_hand (block : BlockIx) (head : Bool) (s : State) :
    exec (.hand block head) s = .next (s.on fun s => s.mboxHand block.val head) := rfl
theorem exec_release (block : BlockIx) (head : Bool) (s : State) :
    exec (.release block head) s = .next (s.on fun s => s.mboxRelease block.val head) := rfl
theorem exec_mboxDataWrite (block : BlockIx) (head : Bool) (index : Fin 8) (value : Word) (s : State) :
    exec (.mboxDataWrite block head index value) s = .next (s.on fun s => s.mboxData block.val head index.val value.toNat) := rfl
theorem exec_wdogKick (block : BlockIx) (s : State) :
    exec (.wdogKick block) s = .next (s.on fun s => s.wdogKick block.val) := rfl
theorem exec_wdogExpire (block : BlockIx) (s : State) :
    exec (.wdogExpire block) s = .next (s.on fun s => s.wdogExpire block.val) := rfl
theorem exec_stewardReset (block : BlockIx) (s : State) :
    exec (.stewardReset block) s = .next (s.on fun s => s.stewardReset block.val) := rfl
theorem exec_stewardHalt (block : BlockIx) (on : Bool) (s : State) :
    exec (.stewardHalt block on) s = .next (s.on fun s => s.stewardHalt block.val on) := rfl
theorem exec_stewardResetRelease (steward : StewardIx) (s : State) :
    exec (.stewardResetRelease steward) s = .next (s.on fun s => s.stewardRelease steward.val) := rfl
theorem exec_hsKick (head : HeadIx) (s : State) :
    exec (.hsKick head) s = .next (s.on fun s => s.hsKick head.val) := rfl
theorem exec_hsHang (head : HeadIx) (s : State) :
    exec (.hsHang head) s = .next (s.on fun s => s.hsHang head.val) := rfl
theorem exec_hsReset (head : HeadIx) (who : Requester) (loads : Bool) (s : State) :
    exec (.hsReset head who loads) s = .next (s.on fun s => s.hsReset who loads head.val) := rfl
theorem exec_sqTailWrite (tail : BitVec 16) (s : State) :
    exec (.sqTailWrite tail) s = .next (s.on fun s => s.sqTail tail.toNat) := rfl
theorem exec_sqEntryRead (entry : BitVec 512) (s : State) :
    exec (.sqEntryRead entry) s = .next (s.on fun s => s.sqRead (flitBytes entry)) := rfl
theorem exec_promptChunkFetched (slot : BitVec 13) (tokens : List (BitVec 32)) (s : State) :
    exec (.promptChunkFetched slot tokens) s = .next (s.on fun s => s.chunkFetched slot.toNat tokens) := rfl
theorem exec_maskLatch (s : State) :
    exec (.maskLatch) s = .next (s.on fun s => s.maskLatch) := rfl
theorem exec_cancel (slot : BitVec 13) (tag : BitVec 32) (s : State) :
    exec (.cancel slot tag) s = .next (s.on fun s => s.reqCmd false slot.toNat tag.toNat) := rfl
theorem exec_pause (slot : BitVec 13) (tag : BitVec 32) (s : State) :
    exec (.pause slot tag) s = .next (s.on fun s => s.reqCmd true slot.toNat tag.toNat) := rfl
theorem exec_acctRead (account : BitVec 16) (s : State) :
    exec (.acctRead account) s = .next (s.on fun s => s.acctRead account.toNat) := rfl
theorem exec_acctWrite (account : BitVec 16) (s : State) :
    exec (.acctWrite account) s = .next (s.on fun s => s.acctWrite account.toNat) := rfl
theorem exec_acctAdd (account : BitVec 16) (s : State) :
    exec (.acctAdd account) s = .next (s.on fun s => s.acctAdd account.toNat) := rfl
theorem exec_endingFlush (slot : BitVec 13) (s : State) :
    exec (.endingFlush slot) s = .next (s.on fun s => s.endFlush slot.toNat) := rfl
theorem exec_ringWriteFail (slot : BitVec 13) (s : State) :
    exec (.ringWriteFail slot) s = .next (s.on fun s => s.ringFail slot.toNat (((s.req slot.toNat).map (·.reqId)).getD 0)) := rfl
theorem exec_digestRecordArrive (index : BitVec 15) (s : State) :
    exec (.digestRecordArrive index) s = .next (s.on fun s => s.detCompare index.toNat) := rfl
theorem exec_detMissing (s : State) :
    exec (.detMissing) s = .next (s.on fun s => s.detMissing) := rfl
theorem exec_capclr (s : State) :
    exec (.capclr) s = .next (s.on fun s => s.capClr) := rfl
theorem exec_counterSnap (addr : BitVec 48) (s : State) :
    exec (.counterSnap addr) s = .next (s.on fun s => s.snapAt addr.toNat) := rfl
theorem exec_ovfClear (addr : BitVec 48) (s : State) :
    exec (.ovfClear addr) s = .next (s.on fun s => s.ovfClear addr.toNat) := rfl
theorem exec_lockGained (s : State) :
    exec (.lockGained) s = .next (s.on fun s => s.lockGained) := rfl
theorem exec_blfSnap (s : State) :
    exec (.blfSnap) s = .next (s.on fun s => s.blfSnap) := rfl
theorem exec_restart (s : State) :
    exec (.restart) s = .next (s.on fun s => s.blfRestart) := rfl
theorem exec_blfLeaveFreerun (s : State) :
    exec (.blfLeaveFreerun) s = .next (s.on fun s => s.leaveFreerun) := rfl
theorem exec_ptpCoarseStep (s : State) :
    exec (.ptpCoarseStep) s = .next (s.on fun s => if s.blfState ≠ blfCoarse then s else (s.ptpNow.2).coarseStep s.ptpNow.1) := rfl
theorem exec_timeReceive (port : PortIx) (unit : TimeUnit) (t4 own : Nat) (s : State) :
    exec (.timeReceive port unit t4 own) s = .next (s.on fun s => s.timeReceive port.val unit t4 own) := rfl
theorem exec_parentLost (s : State) :
    exec (.parentLost) s = .next (s.on fun s => s.parentLost) := rfl
theorem exec_holdoverBoundGrow (s : State) :
    exec (.holdoverBoundGrow) s = .next (s.on fun s => s.holdoverGrow) := rfl
theorem exec_planStepWrite (region : RegionIx) (clkStep : BitVec 7) (s : State) :
    exec (.planStepWrite region clkStep) s = .next (s.on fun s => if s.planActive then s else s.inDomain (80 + region.val) fun s => s.planStepWrite region.val clkStep.toNat) := rfl
theorem exec_modeCalibratedWrite (region : RegionIx) (s : State) :
    exec (.modeCalibratedWrite region) s = .next (s.on fun s => if s.planActive then s else s.inDomain (80 + region.val) fun s => s.modeWrite region.val false) := rfl
theorem exec_modeAlignedWrite (region : RegionIx) (s : State) :
    exec (.modeAlignedWrite region) s = .next (s.on fun s => if s.planActive then s else s.inDomain (80 + region.val) fun s => s.modeWrite region.val true) := rfl
theorem exec_alignDone (region : RegionIx) (passing : BitVec 64) (s : State) :
    exec (.alignDone region passing) s = .next (s.on fun s => s.inDomain (80 + region.val) fun s => s.alignDone region.val passing.toNat) := rfl
theorem exec_droopDetect (region : RegionIx) (s : State) :
    exec (.droopDetect region) s = .next (s.on fun s => s.inDomain (80 + region.val) fun s => s.droop region.val) := rfl
theorem exec_vaultReady (vault : VaultIx) (s : State) :
    exec (.vaultReady vault) s = .next (s.on fun s => s.vaultReadyNow vault.val) := rfl
theorem exec_vaultScheduledRead (tenancy : TenancyIx) (entry member : BitVec 16) (errs : List VaultErr) (s : State) :
    exec (.vaultScheduledRead tenancy entry member errs) s = .next (s.on fun s => if s.frozen then s else s.scheduledRead tenancy.val entry.toNat member.toNat errs) := rfl
theorem exec_vaultScheduledWrite (vault : VaultIx) (errs : List VaultErr) (s : State) :
    exec (.vaultScheduledWrite vault errs) s = .next (s.on fun s => if s.frozen then s else s.scheduledWrite vault.val errs) := rfl
theorem exec_refreshWindow (vault : VaultIx) (opens second : Bool) (errs : List VaultErr) (s : State) :
    exec (.refreshWindow vault opens second errs) s = .next (s.on fun s => s.refreshWindow vault.val opens second errs) := rfl
theorem exec_vaultBandChange (vault : VaultIx) (temperature : Int) (s : State) :
    exec (.vaultBandChange vault temperature) s = .next (s.on fun s => s.bandChange vault.val temperature) := rfl
theorem exec_engineCmdArrive (engine : EngineIx) (s : State) :
    exec (.engineCmdArrive engine) s = .next (s.on fun s => if s.frozen then s else s.cmdArrive engine.val) := rfl
theorem exec_engineCmdStart (engine : EngineIx) (s : State) :
    exec (.engineCmdStart engine) s = .next (s.on fun s => if s.frozen then s else s.engStart engine.val) := rfl
theorem exec_engineSuspend (engine : EngineIx) (s : State) :
    exec (.engineSuspend engine) s = .next (s.on fun s => if s.frozen then s else s.engSuspend engine.val) := rfl
theorem exec_engineCmdComplete (engine : EngineIx) (s : State) :
    exec (.engineCmdComplete engine) s = .next (s.on fun s => if s.frozen then s else s.engComplete engine.val) := rfl
theorem exec_engineResultSlot (engine : EngineIx) (tenancy : TenancyIx) (entry : BitVec 16) (ue : List Nat) (s : State) :
    exec (.engineResultSlot engine tenancy entry ue) s = .next (s.on fun s => if s.frozen then s else s.resultSlot engine.val tenancy.val entry.toNat ue) := rfl
theorem exec_attn (engine : EngineIx) (errs : List VaultErr) (s : State) :
    exec (.attn engine errs) s = .next (s.on fun s => if s.frozen then s else s.engOp engine.val 1 errs) := rfl
theorem exec_reduce (engine : EngineIx) (errs : List VaultErr) (s : State) :
    exec (.reduce engine errs) s = .next (s.on fun s => if s.frozen then s else s.engOp engine.val 2 errs) := rfl
theorem exec_gather (engine : EngineIx) (errs : List VaultErr) (s : State) :
    exec (.gather engine errs) s = .next (s.on fun s => if s.frozen then s else s.engOp engine.val 3 errs) := rfl
theorem exec_scatter (engine : EngineIx) (errs : List VaultErr) (s : State) :
    exec (.scatter engine errs) s = .next (s.on fun s => if s.frozen then s else s.engOp engine.val 4 errs) := rfl
theorem exec_atomic (engine : EngineIx) (errs : List VaultErr) (s : State) :
    exec (.atomic engine errs) s = .next (s.on fun s => if s.frozen then s else s.engOp engine.val 5 errs) := rfl
theorem exec_cringWrite (ring : Fin 2) (packet : BitVec 512) (s : State) :
    exec (.cringWrite ring packet) s = .next (s.on fun s => (s.cringWrite ring.val (flitBytes packet)).2) := rfl
theorem exec_cringConsWrite (ring : Fin 2) (cons : BitVec 32) (s : State) :
    exec (.cringConsWrite ring cons) s = .next (s.on fun s => s.cringCons ring.val cons.toNat) := rfl
theorem exec_viadd (cell : CellIx) (body : BitVec 64) (s : State) :
    exec (.viadd cell body) s = .next (s.on fun s => if s.frozen then s else s.runV cell.val .viadd body.toNat) := rfl
theorem exec_visub (cell : CellIx) (body : BitVec 64) (s : State) :
    exec (.visub cell body) s = .next (s.on fun s => if s.frozen then s else s.runV cell.val .visub body.toNat) := rfl
theorem exec_vand (cell : CellIx) (body : BitVec 64) (s : State) :
    exec (.vand cell body) s = .next (s.on fun s => if s.frozen then s else s.runV cell.val .vand body.toNat) := rfl
theorem exec_vor (cell : CellIx) (body : BitVec 64) (s : State) :
    exec (.vor cell body) s = .next (s.on fun s => if s.frozen then s else s.runV cell.val .vor body.toNat) := rfl
theorem exec_vxor (cell : CellIx) (body : BitVec 64) (s : State) :
    exec (.vxor cell body) s = .next (s.on fun s => if s.frozen then s else s.runV cell.val .vxor body.toNat) := rfl
theorem exec_vimin (cell : CellIx) (body : BitVec 64) (s : State) :
    exec (.vimin cell body) s = .next (s.on fun s => if s.frozen then s else s.runV cell.val .vimin body.toNat) := rfl
theorem exec_vimax (cell : CellIx) (body : BitVec 64) (s : State) :
    exec (.vimax cell body) s = .next (s.on fun s => if s.frozen then s else s.runV cell.val .vimax body.toNat) := rfl
theorem exec_vsll (cell : CellIx) (body : BitVec 64) (s : State) :
    exec (.vsll cell body) s = .next (s.on fun s => if s.frozen then s else s.runV cell.val .vsll body.toNat) := rfl
theorem exec_vsrl (cell : CellIx) (body : BitVec 64) (s : State) :
    exec (.vsrl cell body) s = .next (s.on fun s => if s.frozen then s else s.runV cell.val .vsrl body.toNat) := rfl
theorem exec_vsra (cell : CellIx) (body : BitVec 64) (s : State) :
    exec (.vsra cell body) s = .next (s.on fun s => if s.frozen then s else s.runV cell.val .vsra body.toNat) := rfl
theorem exec_vimul (cell : CellIx) (body : BitVec 64) (s : State) :
    exec (.vimul cell body) s = .next (s.on fun s => if s.frozen then s else s.runV cell.val .vimul body.toNat) := rfl
theorem exec_vmov (cell : CellIx) (body : BitVec 64) (s : State) :
    exec (.vmov cell body) s = .next (s.on fun s => if s.frozen then s else s.runV cell.val .vmov body.toNat) := rfl
theorem exec_vsel (cell : CellIx) (body : BitVec 64) (s : State) :
    exec (.vsel cell body) s = .next (s.on fun s => if s.frozen then s else s.runV cell.val .vsel body.toNat) := rfl
theorem exec_vmovm (cell : CellIx) (body : BitVec 64) (s : State) :
    exec (.vmovm cell body) s = .next (s.on fun s => if s.frozen then s else s.runV cell.val .vmovm body.toNat) := rfl
theorem exec_vicmpEq (cell : CellIx) (body : BitVec 64) (s : State) :
    exec (.vicmpEq cell body) s = .next (s.on fun s => if s.frozen then s else s.runV cell.val .vicmpEq body.toNat) := rfl
theorem exec_vicmpNe (cell : CellIx) (body : BitVec 64) (s : State) :
    exec (.vicmpNe cell body) s = .next (s.on fun s => if s.frozen then s else s.runV cell.val .vicmpNe body.toNat) := rfl
theorem exec_vicmpLt (cell : CellIx) (body : BitVec 64) (s : State) :
    exec (.vicmpLt cell body) s = .next (s.on fun s => if s.frozen then s else s.runV cell.val .vicmpLt body.toNat) := rfl
theorem exec_vicmpLtu (cell : CellIx) (body : BitVec 64) (s : State) :
    exec (.vicmpLtu cell body) s = .next (s.on fun s => if s.frozen then s else s.runV cell.val .vicmpLtu body.toNat) := rfl
theorem exec_vfcmpEq (cell : CellIx) (body : BitVec 64) (s : State) :
    exec (.vfcmpEq cell body) s = .next (s.on fun s => if s.frozen then s else s.runV cell.val .vfcmpEq body.toNat) := rfl
theorem exec_vfcmpLt (cell : CellIx) (body : BitVec 64) (s : State) :
    exec (.vfcmpLt cell body) s = .next (s.on fun s => if s.frozen then s else s.runV cell.val .vfcmpLt body.toNat) := rfl
theorem exec_vfcmpLe (cell : CellIx) (body : BitVec 64) (s : State) :
    exec (.vfcmpLe cell body) s = .next (s.on fun s => if s.frozen then s else s.runV cell.val .vfcmpLe body.toNat) := rfl
theorem exec_vfcmpUn (cell : CellIx) (body : BitVec 64) (s : State) :
    exec (.vfcmpUn cell body) s = .next (s.on fun s => if s.frozen then s else s.runV cell.val .vfcmpUn body.toNat) := rfl
theorem exec_vfadd (cell : CellIx) (body : BitVec 64) (s : State) :
    exec (.vfadd cell body) s = .next (s.on fun s => if s.frozen then s else s.runV cell.val .vfadd body.toNat) := rfl
theorem exec_vfsub (cell : CellIx) (body : BitVec 64) (s : State) :
    exec (.vfsub cell body) s = .next (s.on fun s => if s.frozen then s else s.runV cell.val .vfsub body.toNat) := rfl
theorem exec_vfmul (cell : CellIx) (body : BitVec 64) (s : State) :
    exec (.vfmul cell body) s = .next (s.on fun s => if s.frozen then s else s.runV cell.val .vfmul body.toNat) := rfl
theorem exec_vfmin (cell : CellIx) (body : BitVec 64) (s : State) :
    exec (.vfmin cell body) s = .next (s.on fun s => if s.frozen then s else s.runV cell.val .vfmin body.toNat) := rfl
theorem exec_vfmax (cell : CellIx) (body : BitVec 64) (s : State) :
    exec (.vfmax cell body) s = .next (s.on fun s => if s.frozen then s else s.runV cell.val .vfmax body.toNat) := rfl
theorem exec_vfma (cell : CellIx) (body : BitVec 64) (s : State) :
    exec (.vfma cell body) s = .next (s.on fun s => if s.frozen then s else s.runV cell.val .vfma body.toNat) := rfl
theorem exec_vfnma (cell : CellIx) (body : BitVec 64) (s : State) :
    exec (.vfnma cell body) s = .next (s.on fun s => if s.frozen then s else s.runV cell.val .vfnma body.toNat) := rfl
theorem exec_vfabs (cell : CellIx) (body : BitVec 64) (s : State) :
    exec (.vfabs cell body) s = .next (s.on fun s => if s.frozen then s else s.runV cell.val .vfabs body.toNat) := rfl
theorem exec_vfneg (cell : CellIx) (body : BitVec 64) (s : State) :
    exec (.vfneg cell body) s = .next (s.on fun s => if s.frozen then s else s.runV cell.val .vfneg body.toNat) := rfl
theorem exec_vcvtfi (cell : CellIx) (body : BitVec 64) (s : State) :
    exec (.vcvtfi cell body) s = .next (s.on fun s => if s.frozen then s else s.runV cell.val .vcvtfi body.toNat) := rfl
theorem exec_vcvtif (cell : CellIx) (body : BitVec 64) (s : State) :
    exec (.vcvtif cell body) s = .next (s.on fun s => if s.frozen then s else s.runV cell.val .vcvtif body.toNat) := rfl
theorem exec_vpack (cell : CellIx) (body : BitVec 64) (s : State) :
    exec (.vpack cell body) s = .next (s.on fun s => if s.frozen then s else s.runV cell.val .vpack body.toNat) := rfl
theorem exec_vunpk (cell : CellIx) (body : BitVec 64) (s : State) :
    exec (.vunpk cell body) s = .next (s.on fun s => if s.frozen then s else s.runV cell.val .vunpk body.toNat) := rfl
theorem exec_vmxsc (cell : CellIx) (body : BitVec 64) (s : State) :
    exec (.vmxsc cell body) s = .next (s.on fun s => if s.frozen then s else s.runV cell.val .vmxsc body.toNat) := rfl
theorem exec_vperm (cell : CellIx) (body : BitVec 64) (s : State) :
    exec (.vperm cell body) s = .next (s.on fun s => if s.frozen then s else s.runV cell.val .vperm body.toNat) := rfl
theorem exec_vrot (cell : CellIx) (body : BitVec 64) (s : State) :
    exec (.vrot cell body) s = .next (s.on fun s => if s.frozen then s else s.runV cell.val .vrot body.toNat) := rfl
theorem exec_vbcl (cell : CellIx) (body : BitVec 64) (s : State) :
    exec (.vbcl cell body) s = .next (s.on fun s => if s.frozen then s else s.runV cell.val .vbcl body.toNat) := rfl
theorem exec_vexp (cell : CellIx) (body : BitVec 64) (s : State) :
    exec (.vexp cell body) s = .next (s.on fun s => if s.frozen then s else s.runV cell.val .vexp body.toNat) := rfl
theorem exec_vexp2 (cell : CellIx) (body : BitVec 64) (s : State) :
    exec (.vexp2 cell body) s = .next (s.on fun s => if s.frozen then s else s.runV cell.val .vexp2 body.toNat) := rfl
theorem exec_vlog (cell : CellIx) (body : BitVec 64) (s : State) :
    exec (.vlog cell body) s = .next (s.on fun s => if s.frozen then s else s.runV cell.val .vlog body.toNat) := rfl
theorem exec_vlog2 (cell : CellIx) (body : BitVec 64) (s : State) :
    exec (.vlog2 cell body) s = .next (s.on fun s => if s.frozen then s else s.runV cell.val .vlog2 body.toNat) := rfl
theorem exec_vrcp (cell : CellIx) (body : BitVec 64) (s : State) :
    exec (.vrcp cell body) s = .next (s.on fun s => if s.frozen then s else s.runV cell.val .vrcp body.toNat) := rfl
theorem exec_vrsqrt (cell : CellIx) (body : BitVec 64) (s : State) :
    exec (.vrsqrt cell body) s = .next (s.on fun s => if s.frozen then s else s.runV cell.val .vrsqrt body.toNat) := rfl
theorem exec_vrsum (cell : CellIx) (body : BitVec 64) (s : State) :
    exec (.vrsum cell body) s = .next (s.on fun s => if s.frozen then s else s.runV cell.val .vrsum body.toNat) := rfl
theorem exec_vrmax (cell : CellIx) (body : BitVec 64) (s : State) :
    exec (.vrmax cell body) s = .next (s.on fun s => if s.frozen then s else s.runV cell.val .vrmax body.toNat) := rfl
theorem exec_vrmin (cell : CellIx) (body : BitVec 64) (s : State) :
    exec (.vrmin cell body) s = .next (s.on fun s => if s.frozen then s else s.runV cell.val .vrmin body.toNat) := rfl
theorem exec_vrisum (cell : CellIx) (body : BitVec 64) (s : State) :
    exec (.vrisum cell body) s = .next (s.on fun s => if s.frozen then s else s.runV cell.val .vrisum body.toNat) := rfl
theorem exec_vrmsk (cell : CellIx) (body : BitVec 64) (s : State) :
    exec (.vrmsk cell body) s = .next (s.on fun s => if s.frozen then s else s.runV cell.val .vrmsk body.toNat) := rfl
theorem exec_vstat (cell : CellIx) (body : BitVec 64) (s : State) :
    exec (.vstat cell body) s = .next (s.on fun s => if s.frozen then s else s.runV cell.val .vstat body.toNat) := rfl
theorem exec_vsmxp (cell : CellIx) (body : BitVec 64) (s : State) :
    exec (.vsmxp cell body) s = .next (s.on fun s => if s.frozen then s else s.runV cell.val .vsmxp body.toNat) := rfl
theorem exec_vlse (cell : CellIx) (body : BitVec 64) (s : State) :
    exec (.vlse cell body) s = .next (s.on fun s => if s.frozen then s else s.runV cell.val .vlse body.toNat) := rfl
theorem exec_vpmrg (cell : CellIx) (body : BitVec 64) (s : State) :
    exec (.vpmrg cell body) s = .next (s.on fun s => if s.frozen then s else s.runV cell.val .vpmrg body.toNat) := rfl
theorem exec_vonrm (cell : CellIx) (body : BitVec 64) (s : State) :
    exec (.vonrm cell body) s = .next (s.on fun s => if s.frozen then s else s.runV cell.val .vonrm body.toNat) := rfl
theorem exec_vnrmf (cell : CellIx) (body : BitVec 64) (s : State) :
    exec (.vnrmf cell body) s = .next (s.on fun s => if s.frozen then s else s.runV cell.val .vnrmf body.toNat) := rfl
theorem exec_vslli (cell : CellIx) (body : BitVec 64) (s : State) :
    exec (.vslli cell body) s = .next (s.on fun s => if s.frozen then s else s.runV cell.val .vslli body.toNat) := rfl
theorem exec_vsrli (cell : CellIx) (body : BitVec 64) (s : State) :
    exec (.vsrli cell body) s = .next (s.on fun s => if s.frozen then s else s.runV cell.val .vsrli body.toNat) := rfl
theorem exec_vsrai (cell : CellIx) (body : BitVec 64) (s : State) :
    exec (.vsrai cell body) s = .next (s.on fun s => if s.frozen then s else s.runV cell.val .vsrai body.toNat) := rfl
theorem exec_vmovmi (cell : CellIx) (body : BitVec 64) (s : State) :
    exec (.vmovmi cell body) s = .next (s.on fun s => if s.frozen then s else s.runV cell.val .vmovmi body.toNat) := rfl
theorem exec_vrng (cell : CellIx) (body : BitVec 64) (s : State) :
    exec (.vrng cell body) s = .next (s.on fun s => if s.frozen then s else s.runV cell.val .vrng body.toNat) := rfl
theorem exec_vscl2 (cell : CellIx) (body : BitVec 64) (s : State) :
    exec (.vscl2 cell body) s = .next (s.on fun s => if s.frozen then s else s.runV cell.val .vscl2 body.toNat) := rfl
theorem exec_vclampi (cell : CellIx) (body : BitVec 64) (s : State) :
    exec (.vclampi cell body) s = .next (s.on fun s => if s.frozen then s else s.runV cell.val .vclampi body.toNat) := rfl
theorem exec_wgtLoad (s : State) :
    exec (.wgtLoad) s = .next (s.on fun s => s.moverCmd 1 (s.reg R.MOD_WGT_CTRL)) := rfl
theorem exec_verify (s : State) :
    exec (.verify) s = .next (s.on fun s => s.moverCmd 2 (s.reg R.MOD_WGT_CTRL)) := rfl
theorem exec_wgtAbort (s : State) :
    exec (.wgtAbort) s = .next (s.on fun s => s.moverAbort) := rfl
theorem exec_wgtChunkComplete (s : State) :
    exec (.wgtChunkComplete) s = .next (s.on fun s => if s.frozen then s else s.chunkComplete) := rfl
theorem exec_wgtLoadDone (s : State) :
    exec (.wgtLoadDone) s = .next (s.on fun s => if s.frozen then s else s.loadDone) := rfl
theorem exec_wgtTimeout (s : State) :
    exec (.wgtTimeout) s = .next (s.on fun s => if s.frozen then s else s.moverTimeout) := rfl
theorem exec_wgtVerifyDone (s : State) :
    exec (.wgtVerifyDone) s = .next (s.on fun s => if s.frozen then s else s.verifyDone) := rfl

end Sys2Proof.Machine
end

