-- ==== Sys2Proof/Laws/Store.lean ====
section
/-! SUPPORT. Laws of the sparse stores and of bit fields: read after write, other keys, the canonical form, fields of a word. -/
namespace Sys2Proof.Machine

variable {α : Type} [DecidableEq α]

/-- A key reads what was last written to it, and every other key what it read before. -/
theorem sget_sset (d : α) (m : List (Nat × α)) (n k : Nat) (v : α) :
    sget d (sset d m n v) k = if k = n then v else sget d m k := by
  induction m with
  | nil => by_cases h : v = d <;> by_cases hk : k = n <;> simp_all [sset, sget]
  | cons e m ih =>
    obtain ⟨a, w⟩ := e
    by_cases hd : v = d
    · by_cases ha : n = a
      · subst ha
        by_cases hk : k = n <;> simp_all [sset, sget]
      · by_cases hk : k = a
        · subst hk; simp_all [sset, sget]; intro h; exact absurd h.symm ha
        · simp_all [sset, sget]
    · by_cases h1 : n < a
      · simp [sset, sget, hd, h1]
      · by_cases h2 : n = a
        · subst h2; by_cases hk : k = n <;> simp [sset, sget, hd, hk]
        · by_cases hk : k = a
          · subst hk; simp [sset, sget, hd, h1, h2]; intro h; exact absurd h.symm h2
          · simp [sset, sget, hd, h1, h2, hk, ih]

/-- Other keys keep what they read, whatever the unlisted value they are read with. -/
theorem sget_sset_ne (d d' : α) (m : List (Nat × α)) (n k : Nat) (v : α) (h : k ≠ n) :
    sget d' (sset d m n v) k = sget d' m k := by
  induction m with
  | nil => by_cases hd : v = d <;> simp [sset, sget, hd, h]
  | cons e m ih =>
    obtain ⟨a, w⟩ := e
    by_cases hd : v = d
    · by_cases ha : n = a
      · subst ha; simp_all [sset, sget]
      · by_cases hk : k = a <;> simp_all [sset, sget]
    · by_cases h1 : n < a
      · simp [sset, sget, hd, h1, h]
      · by_cases h2 : n = a
        · subst h2; simp [sset, sget, hd, h]
        · by_cases hk : k = a <;> simp [sset, sget, hd, h1, h2, hk, ih]

/-- The canonical form from a later key on is the canonical form from an earlier one. -/
theorem swf_mono {d : Nat → α} {lo lo' : Nat} {m : List (Nat × α)} (h : swf d lo m = true) (hl : lo' ≤ lo) :
    swf d lo' m = true := by
  cases m with
  | nil => rfl
  | cons e m =>
    obtain ⟨k, v⟩ := e
    simp only [swf, Bool.and_eq_true, decide_eq_true_eq] at h ⊢
    exact ⟨⟨by omega, h.1.2⟩, h.2⟩

/-- Writing the unlisted value at a key below every listed one changes nothing. -/
theorem sset_absent {d : Nat → α} {lo n : Nat} {m : List (Nat × α)} (h : swf d lo m = true) (hn : n < lo) :
    sset (d n) m n (d n) = m := by
  induction m generalizing lo with
  | nil => simp [sset]
  | cons e m ih =>
    obtain ⟨k, w⟩ := e
    simp only [swf, Bool.and_eq_true, decide_eq_true_eq] at h
    have hk : ¬ n = k := by omega
    simp [sset, hk, ih h.2 (by omega)]

/-- A write keeps the canonical form. -/
theorem swf_sset (d : Nat → α) (lo : Nat) (m : List (Nat × α)) (n : Nat) (v : α) (hn : lo ≤ n)
    (h : swf d lo m = true) : swf d lo (sset (d n) m n v) = true := by
  induction m generalizing lo with
  | nil => by_cases hv : v = d n <;> simp [sset, swf, hv, hn]
  | cons e m ih =>
    obtain ⟨k, w⟩ := e
    simp only [swf, Bool.and_eq_true, decide_eq_true_eq] at h
    obtain ⟨⟨hk, hw⟩, hm⟩ := h
    by_cases hv : v = d n
    · by_cases hnk : n = k
      · subst hnk
        simpa [sset, hv, sset_absent hm (Nat.lt_succ_self n)] using swf_mono hm (by omega)
      · by_cases hlt : n < k
        · simp [sset, hv, hnk, swf, hk, hw, hm, sset_absent hm (Nat.lt_succ_of_lt hlt)]
        · simpa [sset, hv, hnk, swf, hk, hw] using ih (k + 1) (by omega) hm
    · by_cases h1 : n < k
      · have hk' : n + 1 ≤ k := h1
        simp [sset, hv, h1, swf, hn, hw, hm, hk']
      · by_cases h2 : n = k
        · subst h2
          simp [sset, hv, swf, hn, hm]
        · simp [sset, hv, h1, h2, swf, hk, hw, ih (k + 1) (by omega) hm]

/-- A field of a word just set reads what was put there. -/
theorem bitsOf_setBits_same {w hi lo v : Nat} (h : lo ≤ hi) : bitsOf (setBits w hi lo v) hi lo = v % 2 ^ (hi - lo + 1) := by
  unfold bitsOf setBits
  rw [Nat.shiftRight_eq_div_pow, Nat.shiftLeft_eq, Nat.shiftLeft_eq]
  have e : 2 ^ (hi + 1) = 2 ^ (hi - lo + 1) * 2 ^ lo := by rw [← Nat.pow_add]; congr 1; omega
  have hp : 0 < 2 ^ lo := Nat.two_pow_pos lo
  have hb : w % 2 ^ lo < 2 ^ lo := Nat.mod_lt _ hp
  rw [e, ← Nat.mul_assoc, ← Nat.add_mul, Nat.mul_comm _ (2 ^ lo), Nat.mul_add_div hp, Nat.div_eq_of_lt hb, Nat.add_zero,
    Nat.mul_add_mod', Nat.mod_mod]

end Sys2Proof.Machine
end

