-- ==== Sys2Proof/Laws/State.lean ====
section
/-! SUPPORT. One lemma per field and per accessor of the module for each named update, all by rfl. -/
namespace Sys2Proof.Machine

variable (s : Lanorun)

@[simp] theorem Lanorun.setReg_latch (r : Reg) (v u i : Nat) : (s.setReg r v u i).latch = s.latch := rfl
@[simp] theorem Lanorun.setReg_freeCtr (r : Reg) (v u i : Nat) : (s.setReg r v u i).freeCtr = s.freeCtr := rfl
@[simp] theorem Lanorun.setReg_hall (r : Reg) (v u i : Nat) : (s.setReg r v u i).hall = s.hall := rfl
@[simp] theorem Lanorun.setReg_rgns (r : Reg) (v u i : Nat) : (s.setReg r v u i).rgns = s.rgns := rfl
@[simp] theorem Lanorun.setReg_cells (r : Reg) (v u i : Nat) : (s.setReg r v u i).cells = s.cells := rfl
@[simp] theorem Lanorun.setReg_vaults (r : Reg) (v u i : Nat) : (s.setReg r v u i).vaults = s.vaults := rfl
@[simp] theorem Lanorun.setReg_engines (r : Reg) (v u i : Nat) : (s.setReg r v u i).engines = s.engines := rfl
@[simp] theorem Lanorun.setReg_mesh (r : Reg) (v u i : Nat) : (s.setReg r v u i).mesh = s.mesh := rfl
@[simp] theorem Lanorun.setReg_ports (r : Reg) (v u i : Nat) : (s.setReg r v u i).ports = s.ports := rfl
@[simp] theorem Lanorun.setReg_ni (r : Reg) (v u i : Nat) : (s.setReg r v u i).ni = s.ni := rfl
@[simp] theorem Lanorun.setReg_mover (r : Reg) (v u i : Nat) : (s.setReg r v u i).mover = s.mover := rfl
@[simp] theorem Lanorun.setReg_plan (r : Reg) (v u i : Nat) : (s.setReg r v u i).plan = s.plan := rfl
@[simp] theorem Lanorun.setReg_det (r : Reg) (v u i : Nat) : (s.setReg r v u i).det = s.det := rfl
@[simp] theorem Lanorun.setReg_frz (r : Reg) (v u i : Nat) : (s.setReg r v u i).frz = s.frz := rfl
@[simp] theorem Lanorun.setReg_stewards (r : Reg) (v u i : Nat) : (s.setReg r v u i).stewards = s.stewards := rfl
@[simp] theorem Lanorun.setReg_power (r : Reg) (v u i : Nat) : (s.setReg r v u i).power = s.power := rfl
@[simp] theorem Lanorun.setReg_eths (r : Reg) (v u i : Nat) : (s.setReg r v u i).eths = s.eths := rfl
@[simp] theorem Lanorun.setReg_host (r : Reg) (v u i : Nat) : (s.setReg r v u i).host = s.host := rfl
@[simp] theorem Lanorun.setReg_teller (r : Reg) (v u i : Nat) : (s.setReg r v u i).teller = s.teller := rfl
@[simp] theorem Lanorun.setReg_keep (r : Reg) (v u i : Nat) : (s.setReg r v u i).keep = s.keep := rfl
@[simp] theorem Lanorun.setReg_jtag (r : Reg) (v u i : Nat) : (s.setReg r v u i).jtag = s.jtag := rfl
@[simp] theorem Lanorun.setReg_site (r : Reg) (v u i : Nat) : (s.setReg r v u i).site = s.site := rfl
@[simp] theorem Lanorun.setReg_at_cell (r : Reg) (v u i : Nat) (w : Nat) : (s.setReg r v u i).cell w = s.cell w := rfl
@[simp] theorem Lanorun.setReg_at_rgn (r : Reg) (v u i : Nat) (w : Nat) : (s.setReg r v u i).rgn w = s.rgn w := rfl
@[simp] theorem Lanorun.setReg_at_ptime (r : Reg) (v u i : Nat) (w : Nat) : (s.setReg r v u i).ptime w = s.ptime w := rfl
@[simp] theorem Lanorun.setReg_at_ten (r : Reg) (v u i : Nat) (w : Nat) : (s.setReg r v u i).ten w = s.ten w := rfl
@[simp] theorem Lanorun.setReg_at_wgt (r : Reg) (v u i : Nat) (w : Nat) : (s.setReg r v u i).wgt w = s.wgt w := rfl
@[simp] theorem Lanorun.setReg_at_vault (r : Reg) (v u i : Nat) (w : Nat) : (s.setReg r v u i).vault w = s.vault w := rfl
@[simp] theorem Lanorun.setReg_at_engine (r : Reg) (v u i : Nat) (w : Nat) : (s.setReg r v u i).engine w = s.engine w := rfl
@[simp] theorem Lanorun.setReg_at_port (r : Reg) (v u i : Nat) (w : Nat) : (s.setReg r v u i).port w = s.port w := rfl
@[simp] theorem Lanorun.setReg_at_eth (r : Reg) (v u i : Nat) (w : Nat) : (s.setReg r v u i).eth w = s.eth w := rfl
@[simp] theorem Lanorun.setReg_at_steward (r : Reg) (v u i : Nat) (w : Nat) : (s.setReg r v u i).steward w = s.steward w := rfl

@[simp] theorem Lanorun.put_latch (f : Fld) (v u i : Nat) : (s.put f v u i).latch = s.latch := rfl
@[simp] theorem Lanorun.put_freeCtr (f : Fld) (v u i : Nat) : (s.put f v u i).freeCtr = s.freeCtr := rfl
@[simp] theorem Lanorun.put_hall (f : Fld) (v u i : Nat) : (s.put f v u i).hall = s.hall := rfl
@[simp] theorem Lanorun.put_rgns (f : Fld) (v u i : Nat) : (s.put f v u i).rgns = s.rgns := rfl
@[simp] theorem Lanorun.put_cells (f : Fld) (v u i : Nat) : (s.put f v u i).cells = s.cells := rfl
@[simp] theorem Lanorun.put_vaults (f : Fld) (v u i : Nat) : (s.put f v u i).vaults = s.vaults := rfl
@[simp] theorem Lanorun.put_engines (f : Fld) (v u i : Nat) : (s.put f v u i).engines = s.engines := rfl
@[simp] theorem Lanorun.put_mesh (f : Fld) (v u i : Nat) : (s.put f v u i).mesh = s.mesh := rfl
@[simp] theorem Lanorun.put_ports (f : Fld) (v u i : Nat) : (s.put f v u i).ports = s.ports := rfl
@[simp] theorem Lanorun.put_ni (f : Fld) (v u i : Nat) : (s.put f v u i).ni = s.ni := rfl
@[simp] theorem Lanorun.put_mover (f : Fld) (v u i : Nat) : (s.put f v u i).mover = s.mover := rfl
@[simp] theorem Lanorun.put_plan (f : Fld) (v u i : Nat) : (s.put f v u i).plan = s.plan := rfl
@[simp] theorem Lanorun.put_det (f : Fld) (v u i : Nat) : (s.put f v u i).det = s.det := rfl
@[simp] theorem Lanorun.put_frz (f : Fld) (v u i : Nat) : (s.put f v u i).frz = s.frz := rfl
@[simp] theorem Lanorun.put_stewards (f : Fld) (v u i : Nat) : (s.put f v u i).stewards = s.stewards := rfl
@[simp] theorem Lanorun.put_power (f : Fld) (v u i : Nat) : (s.put f v u i).power = s.power := rfl
@[simp] theorem Lanorun.put_eths (f : Fld) (v u i : Nat) : (s.put f v u i).eths = s.eths := rfl
@[simp] theorem Lanorun.put_host (f : Fld) (v u i : Nat) : (s.put f v u i).host = s.host := rfl
@[simp] theorem Lanorun.put_teller (f : Fld) (v u i : Nat) : (s.put f v u i).teller = s.teller := rfl
@[simp] theorem Lanorun.put_keep (f : Fld) (v u i : Nat) : (s.put f v u i).keep = s.keep := rfl
@[simp] theorem Lanorun.put_jtag (f : Fld) (v u i : Nat) : (s.put f v u i).jtag = s.jtag := rfl
@[simp] theorem Lanorun.put_site (f : Fld) (v u i : Nat) : (s.put f v u i).site = s.site := rfl
@[simp] theorem Lanorun.put_at_cell (f : Fld) (v u i : Nat) (w : Nat) : (s.put f v u i).cell w = s.cell w := rfl
@[simp] theorem Lanorun.put_at_rgn (f : Fld) (v u i : Nat) (w : Nat) : (s.put f v u i).rgn w = s.rgn w := rfl
@[simp] theorem Lanorun.put_at_ptime (f : Fld) (v u i : Nat) (w : Nat) : (s.put f v u i).ptime w = s.ptime w := rfl
@[simp] theorem Lanorun.put_at_ten (f : Fld) (v u i : Nat) (w : Nat) : (s.put f v u i).ten w = s.ten w := rfl
@[simp] theorem Lanorun.put_at_wgt (f : Fld) (v u i : Nat) (w : Nat) : (s.put f v u i).wgt w = s.wgt w := rfl
@[simp] theorem Lanorun.put_at_vault (f : Fld) (v u i : Nat) (w : Nat) : (s.put f v u i).vault w = s.vault w := rfl
@[simp] theorem Lanorun.put_at_engine (f : Fld) (v u i : Nat) (w : Nat) : (s.put f v u i).engine w = s.engine w := rfl
@[simp] theorem Lanorun.put_at_port (f : Fld) (v u i : Nat) (w : Nat) : (s.put f v u i).port w = s.port w := rfl
@[simp] theorem Lanorun.put_at_eth (f : Fld) (v u i : Nat) (w : Nat) : (s.put f v u i).eth w = s.eth w := rfl
@[simp] theorem Lanorun.put_at_steward (f : Fld) (v u i : Nat) (w : Nat) : (s.put f v u i).steward w = s.steward w := rfl

@[simp] theorem Lanorun.event_latch (f : Fld) (u i : Nat) : (s.event f u i).latch = s.latch := rfl
@[simp] theorem Lanorun.event_freeCtr (f : Fld) (u i : Nat) : (s.event f u i).freeCtr = s.freeCtr := rfl
@[simp] theorem Lanorun.event_hall (f : Fld) (u i : Nat) : (s.event f u i).hall = s.hall := rfl
@[simp] theorem Lanorun.event_rgns (f : Fld) (u i : Nat) : (s.event f u i).rgns = s.rgns := rfl
@[simp] theorem Lanorun.event_cells (f : Fld) (u i : Nat) : (s.event f u i).cells = s.cells := rfl
@[simp] theorem Lanorun.event_vaults (f : Fld) (u i : Nat) : (s.event f u i).vaults = s.vaults := rfl
@[simp] theorem Lanorun.event_engines (f : Fld) (u i : Nat) : (s.event f u i).engines = s.engines := rfl
@[simp] theorem Lanorun.event_mesh (f : Fld) (u i : Nat) : (s.event f u i).mesh = s.mesh := rfl
@[simp] theorem Lanorun.event_ports (f : Fld) (u i : Nat) : (s.event f u i).ports = s.ports := rfl
@[simp] theorem Lanorun.event_ni (f : Fld) (u i : Nat) : (s.event f u i).ni = s.ni := rfl
@[simp] theorem Lanorun.event_mover (f : Fld) (u i : Nat) : (s.event f u i).mover = s.mover := rfl
@[simp] theorem Lanorun.event_plan (f : Fld) (u i : Nat) : (s.event f u i).plan = s.plan := rfl
@[simp] theorem Lanorun.event_det (f : Fld) (u i : Nat) : (s.event f u i).det = s.det := rfl
@[simp] theorem Lanorun.event_frz (f : Fld) (u i : Nat) : (s.event f u i).frz = s.frz := rfl
@[simp] theorem Lanorun.event_stewards (f : Fld) (u i : Nat) : (s.event f u i).stewards = s.stewards := rfl
@[simp] theorem Lanorun.event_power (f : Fld) (u i : Nat) : (s.event f u i).power = s.power := rfl
@[simp] theorem Lanorun.event_eths (f : Fld) (u i : Nat) : (s.event f u i).eths = s.eths := rfl
@[simp] theorem Lanorun.event_host (f : Fld) (u i : Nat) : (s.event f u i).host = s.host := rfl
@[simp] theorem Lanorun.event_teller (f : Fld) (u i : Nat) : (s.event f u i).teller = s.teller := rfl
@[simp] theorem Lanorun.event_keep (f : Fld) (u i : Nat) : (s.event f u i).keep = s.keep := rfl
@[simp] theorem Lanorun.event_jtag (f : Fld) (u i : Nat) : (s.event f u i).jtag = s.jtag := rfl
@[simp] theorem Lanorun.event_site (f : Fld) (u i : Nat) : (s.event f u i).site = s.site := rfl
@[simp] theorem Lanorun.event_at_cell (f : Fld) (u i : Nat) (w : Nat) : (s.event f u i).cell w = s.cell w := rfl
@[simp] theorem Lanorun.event_at_rgn (f : Fld) (u i : Nat) (w : Nat) : (s.event f u i).rgn w = s.rgn w := rfl
@[simp] theorem Lanorun.event_at_ptime (f : Fld) (u i : Nat) (w : Nat) : (s.event f u i).ptime w = s.ptime w := rfl
@[simp] theorem Lanorun.event_at_ten (f : Fld) (u i : Nat) (w : Nat) : (s.event f u i).ten w = s.ten w := rfl
@[simp] theorem Lanorun.event_at_wgt (f : Fld) (u i : Nat) (w : Nat) : (s.event f u i).wgt w = s.wgt w := rfl
@[simp] theorem Lanorun.event_at_vault (f : Fld) (u i : Nat) (w : Nat) : (s.event f u i).vault w = s.vault w := rfl
@[simp] theorem Lanorun.event_at_engine (f : Fld) (u i : Nat) (w : Nat) : (s.event f u i).engine w = s.engine w := rfl
@[simp] theorem Lanorun.event_at_port (f : Fld) (u i : Nat) (w : Nat) : (s.event f u i).port w = s.port w := rfl
@[simp] theorem Lanorun.event_at_eth (f : Fld) (u i : Nat) (w : Nat) : (s.event f u i).eth w = s.eth w := rfl
@[simp] theorem Lanorun.event_at_steward (f : Fld) (u i : Nat) (w : Nat) : (s.event f u i).steward w = s.steward w := rfl

@[simp] theorem Lanorun.countEvt_latch (r : Reg) (n u i : Nat) : (s.countEvt r n u i).latch = s.latch := rfl
@[simp] theorem Lanorun.countEvt_freeCtr (r : Reg) (n u i : Nat) : (s.countEvt r n u i).freeCtr = s.freeCtr := rfl
@[simp] theorem Lanorun.countEvt_hall (r : Reg) (n u i : Nat) : (s.countEvt r n u i).hall = s.hall := rfl
@[simp] theorem Lanorun.countEvt_rgns (r : Reg) (n u i : Nat) : (s.countEvt r n u i).rgns = s.rgns := rfl
@[simp] theorem Lanorun.countEvt_cells (r : Reg) (n u i : Nat) : (s.countEvt r n u i).cells = s.cells := rfl
@[simp] theorem Lanorun.countEvt_vaults (r : Reg) (n u i : Nat) : (s.countEvt r n u i).vaults = s.vaults := rfl
@[simp] theorem Lanorun.countEvt_engines (r : Reg) (n u i : Nat) : (s.countEvt r n u i).engines = s.engines := rfl
@[simp] theorem Lanorun.countEvt_mesh (r : Reg) (n u i : Nat) : (s.countEvt r n u i).mesh = s.mesh := rfl
@[simp] theorem Lanorun.countEvt_ports (r : Reg) (n u i : Nat) : (s.countEvt r n u i).ports = s.ports := rfl
@[simp] theorem Lanorun.countEvt_ni (r : Reg) (n u i : Nat) : (s.countEvt r n u i).ni = s.ni := rfl
@[simp] theorem Lanorun.countEvt_mover (r : Reg) (n u i : Nat) : (s.countEvt r n u i).mover = s.mover := rfl
@[simp] theorem Lanorun.countEvt_plan (r : Reg) (n u i : Nat) : (s.countEvt r n u i).plan = s.plan := rfl
@[simp] theorem Lanorun.countEvt_det (r : Reg) (n u i : Nat) : (s.countEvt r n u i).det = s.det := rfl
@[simp] theorem Lanorun.countEvt_frz (r : Reg) (n u i : Nat) : (s.countEvt r n u i).frz = s.frz := rfl
@[simp] theorem Lanorun.countEvt_stewards (r : Reg) (n u i : Nat) : (s.countEvt r n u i).stewards = s.stewards := rfl
@[simp] theorem Lanorun.countEvt_power (r : Reg) (n u i : Nat) : (s.countEvt r n u i).power = s.power := rfl
@[simp] theorem Lanorun.countEvt_eths (r : Reg) (n u i : Nat) : (s.countEvt r n u i).eths = s.eths := rfl
@[simp] theorem Lanorun.countEvt_host (r : Reg) (n u i : Nat) : (s.countEvt r n u i).host = s.host := rfl
@[simp] theorem Lanorun.countEvt_teller (r : Reg) (n u i : Nat) : (s.countEvt r n u i).teller = s.teller := rfl
@[simp] theorem Lanorun.countEvt_keep (r : Reg) (n u i : Nat) : (s.countEvt r n u i).keep = s.keep := rfl
@[simp] theorem Lanorun.countEvt_jtag (r : Reg) (n u i : Nat) : (s.countEvt r n u i).jtag = s.jtag := rfl
@[simp] theorem Lanorun.countEvt_site (r : Reg) (n u i : Nat) : (s.countEvt r n u i).site = s.site := rfl
@[simp] theorem Lanorun.countEvt_at_cell (r : Reg) (n u i : Nat) (w : Nat) : (s.countEvt r n u i).cell w = s.cell w := rfl
@[simp] theorem Lanorun.countEvt_at_rgn (r : Reg) (n u i : Nat) (w : Nat) : (s.countEvt r n u i).rgn w = s.rgn w := rfl
@[simp] theorem Lanorun.countEvt_at_ptime (r : Reg) (n u i : Nat) (w : Nat) : (s.countEvt r n u i).ptime w = s.ptime w := rfl
@[simp] theorem Lanorun.countEvt_at_ten (r : Reg) (n u i : Nat) (w : Nat) : (s.countEvt r n u i).ten w = s.ten w := rfl
@[simp] theorem Lanorun.countEvt_at_wgt (r : Reg) (n u i : Nat) (w : Nat) : (s.countEvt r n u i).wgt w = s.wgt w := rfl
@[simp] theorem Lanorun.countEvt_at_vault (r : Reg) (n u i : Nat) (w : Nat) : (s.countEvt r n u i).vault w = s.vault w := rfl
@[simp] theorem Lanorun.countEvt_at_engine (r : Reg) (n u i : Nat) (w : Nat) : (s.countEvt r n u i).engine w = s.engine w := rfl
@[simp] theorem Lanorun.countEvt_at_port (r : Reg) (n u i : Nat) (w : Nat) : (s.countEvt r n u i).port w = s.port w := rfl
@[simp] theorem Lanorun.countEvt_at_eth (r : Reg) (n u i : Nat) (w : Nat) : (s.countEvt r n u i).eth w = s.eth w := rfl
@[simp] theorem Lanorun.countEvt_at_steward (r : Reg) (n u i : Nat) (w : Nat) : (s.countEvt r n u i).steward w = s.steward w := rfl

@[simp] theorem Lanorun.setRgn_regs (k : Nat) (x : Region) : (s.setRgn k x).regs = s.regs := rfl
@[simp] theorem Lanorun.setRgn_latch (k : Nat) (x : Region) : (s.setRgn k x).latch = s.latch := rfl
@[simp] theorem Lanorun.setRgn_freeCtr (k : Nat) (x : Region) : (s.setRgn k x).freeCtr = s.freeCtr := rfl
@[simp] theorem Lanorun.setRgn_hall (k : Nat) (x : Region) : (s.setRgn k x).hall = s.hall := rfl
@[simp] theorem Lanorun.setRgn_cells (k : Nat) (x : Region) : (s.setRgn k x).cells = s.cells := rfl
@[simp] theorem Lanorun.setRgn_vaults (k : Nat) (x : Region) : (s.setRgn k x).vaults = s.vaults := rfl
@[simp] theorem Lanorun.setRgn_engines (k : Nat) (x : Region) : (s.setRgn k x).engines = s.engines := rfl
@[simp] theorem Lanorun.setRgn_mesh (k : Nat) (x : Region) : (s.setRgn k x).mesh = s.mesh := rfl
@[simp] theorem Lanorun.setRgn_ports (k : Nat) (x : Region) : (s.setRgn k x).ports = s.ports := rfl
@[simp] theorem Lanorun.setRgn_ni (k : Nat) (x : Region) : (s.setRgn k x).ni = s.ni := rfl
@[simp] theorem Lanorun.setRgn_mover (k : Nat) (x : Region) : (s.setRgn k x).mover = s.mover := rfl
@[simp] theorem Lanorun.setRgn_plan (k : Nat) (x : Region) : (s.setRgn k x).plan = s.plan := rfl
@[simp] theorem Lanorun.setRgn_det (k : Nat) (x : Region) : (s.setRgn k x).det = s.det := rfl
@[simp] theorem Lanorun.setRgn_frz (k : Nat) (x : Region) : (s.setRgn k x).frz = s.frz := rfl
@[simp] theorem Lanorun.setRgn_stewards (k : Nat) (x : Region) : (s.setRgn k x).stewards = s.stewards := rfl
@[simp] theorem Lanorun.setRgn_power (k : Nat) (x : Region) : (s.setRgn k x).power = s.power := rfl
@[simp] theorem Lanorun.setRgn_eths (k : Nat) (x : Region) : (s.setRgn k x).eths = s.eths := rfl
@[simp] theorem Lanorun.setRgn_host (k : Nat) (x : Region) : (s.setRgn k x).host = s.host := rfl
@[simp] theorem Lanorun.setRgn_teller (k : Nat) (x : Region) : (s.setRgn k x).teller = s.teller := rfl
@[simp] theorem Lanorun.setRgn_keep (k : Nat) (x : Region) : (s.setRgn k x).keep = s.keep := rfl
@[simp] theorem Lanorun.setRgn_jtag (k : Nat) (x : Region) : (s.setRgn k x).jtag = s.jtag := rfl
@[simp] theorem Lanorun.setRgn_site (k : Nat) (x : Region) : (s.setRgn k x).site = s.site := rfl
@[simp] theorem Lanorun.setRgn_at_reg (k : Nat) (x : Region) (q : Reg) (w j : Nat) : (s.setRgn k x).reg q w j = s.reg q w j := rfl
@[simp] theorem Lanorun.setRgn_at_get (k : Nat) (x : Region) (f' : Fld) (w j : Nat) : (s.setRgn k x).get f' w j = s.get f' w j := rfl
@[simp] theorem Lanorun.setRgn_at_flag (k : Nat) (x : Region) (f' : Fld) (w j : Nat) : (s.setRgn k x).flag f' w j = s.flag f' w j := rfl
@[simp] theorem Lanorun.setRgn_at_cell (k : Nat) (x : Region) (w : Nat) : (s.setRgn k x).cell w = s.cell w := rfl
@[simp] theorem Lanorun.setRgn_at_ptime (k : Nat) (x : Region) (w : Nat) : (s.setRgn k x).ptime w = s.ptime w := rfl
@[simp] theorem Lanorun.setRgn_at_ten (k : Nat) (x : Region) (w : Nat) : (s.setRgn k x).ten w = s.ten w := rfl
@[simp] theorem Lanorun.setRgn_at_wgt (k : Nat) (x : Region) (w : Nat) : (s.setRgn k x).wgt w = s.wgt w := rfl
@[simp] theorem Lanorun.setRgn_at_vault (k : Nat) (x : Region) (w : Nat) : (s.setRgn k x).vault w = s.vault w := rfl
@[simp] theorem Lanorun.setRgn_at_engine (k : Nat) (x : Region) (w : Nat) : (s.setRgn k x).engine w = s.engine w := rfl
@[simp] theorem Lanorun.setRgn_at_port (k : Nat) (x : Region) (w : Nat) : (s.setRgn k x).port w = s.port w := rfl
@[simp] theorem Lanorun.setRgn_at_eth (k : Nat) (x : Region) (w : Nat) : (s.setRgn k x).eth w = s.eth w := rfl
@[simp] theorem Lanorun.setRgn_at_steward (k : Nat) (x : Region) (w : Nat) : (s.setRgn k x).steward w = s.steward w := rfl

@[simp] theorem Lanorun.setPtime_regs (k : Nat) (x : PortTime) : (s.setPtime k x).regs = s.regs := rfl
@[simp] theorem Lanorun.setPtime_latch (k : Nat) (x : PortTime) : (s.setPtime k x).latch = s.latch := rfl
@[simp] theorem Lanorun.setPtime_freeCtr (k : Nat) (x : PortTime) : (s.setPtime k x).freeCtr = s.freeCtr := rfl
@[simp] theorem Lanorun.setPtime_rgns (k : Nat) (x : PortTime) : (s.setPtime k x).rgns = s.rgns := rfl
@[simp] theorem Lanorun.setPtime_cells (k : Nat) (x : PortTime) : (s.setPtime k x).cells = s.cells := rfl
@[simp] theorem Lanorun.setPtime_vaults (k : Nat) (x : PortTime) : (s.setPtime k x).vaults = s.vaults := rfl
@[simp] theorem Lanorun.setPtime_engines (k : Nat) (x : PortTime) : (s.setPtime k x).engines = s.engines := rfl
@[simp] theorem Lanorun.setPtime_mesh (k : Nat) (x : PortTime) : (s.setPtime k x).mesh = s.mesh := rfl
@[simp] theorem Lanorun.setPtime_ports (k : Nat) (x : PortTime) : (s.setPtime k x).ports = s.ports := rfl
@[simp] theorem Lanorun.setPtime_ni (k : Nat) (x : PortTime) : (s.setPtime k x).ni = s.ni := rfl
@[simp] theorem Lanorun.setPtime_mover (k : Nat) (x : PortTime) : (s.setPtime k x).mover = s.mover := rfl
@[simp] theorem Lanorun.setPtime_plan (k : Nat) (x : PortTime) : (s.setPtime k x).plan = s.plan := rfl
@[simp] theorem Lanorun.setPtime_det (k : Nat) (x : PortTime) : (s.setPtime k x).det = s.det := rfl
@[simp] theorem Lanorun.setPtime_frz (k : Nat) (x : PortTime) : (s.setPtime k x).frz = s.frz := rfl
@[simp] theorem Lanorun.setPtime_stewards (k : Nat) (x : PortTime) : (s.setPtime k x).stewards = s.stewards := rfl
@[simp] theorem Lanorun.setPtime_power (k : Nat) (x : PortTime) : (s.setPtime k x).power = s.power := rfl
@[simp] theorem Lanorun.setPtime_eths (k : Nat) (x : PortTime) : (s.setPtime k x).eths = s.eths := rfl
@[simp] theorem Lanorun.setPtime_host (k : Nat) (x : PortTime) : (s.setPtime k x).host = s.host := rfl
@[simp] theorem Lanorun.setPtime_teller (k : Nat) (x : PortTime) : (s.setPtime k x).teller = s.teller := rfl
@[simp] theorem Lanorun.setPtime_keep (k : Nat) (x : PortTime) : (s.setPtime k x).keep = s.keep := rfl
@[simp] theorem Lanorun.setPtime_jtag (k : Nat) (x : PortTime) : (s.setPtime k x).jtag = s.jtag := rfl
@[simp] theorem Lanorun.setPtime_site (k : Nat) (x : PortTime) : (s.setPtime k x).site = s.site := rfl
@[simp] theorem Lanorun.setPtime_at_reg (k : Nat) (x : PortTime) (q : Reg) (w j : Nat) : (s.setPtime k x).reg q w j = s.reg q w j := rfl
@[simp] theorem Lanorun.setPtime_at_get (k : Nat) (x : PortTime) (f' : Fld) (w j : Nat) : (s.setPtime k x).get f' w j = s.get f' w j := rfl
@[simp] theorem Lanorun.setPtime_at_flag (k : Nat) (x : PortTime) (f' : Fld) (w j : Nat) : (s.setPtime k x).flag f' w j = s.flag f' w j := rfl
@[simp] theorem Lanorun.setPtime_at_cell (k : Nat) (x : PortTime) (w : Nat) : (s.setPtime k x).cell w = s.cell w := rfl
@[simp] theorem Lanorun.setPtime_at_rgn (k : Nat) (x : PortTime) (w : Nat) : (s.setPtime k x).rgn w = s.rgn w := rfl
@[simp] theorem Lanorun.setPtime_at_ten (k : Nat) (x : PortTime) (w : Nat) : (s.setPtime k x).ten w = s.ten w := rfl
@[simp] theorem Lanorun.setPtime_at_wgt (k : Nat) (x : PortTime) (w : Nat) : (s.setPtime k x).wgt w = s.wgt w := rfl
@[simp] theorem Lanorun.setPtime_at_vault (k : Nat) (x : PortTime) (w : Nat) : (s.setPtime k x).vault w = s.vault w := rfl
@[simp] theorem Lanorun.setPtime_at_engine (k : Nat) (x : PortTime) (w : Nat) : (s.setPtime k x).engine w = s.engine w := rfl
@[simp] theorem Lanorun.setPtime_at_port (k : Nat) (x : PortTime) (w : Nat) : (s.setPtime k x).port w = s.port w := rfl
@[simp] theorem Lanorun.setPtime_at_eth (k : Nat) (x : PortTime) (w : Nat) : (s.setPtime k x).eth w = s.eth w := rfl
@[simp] theorem Lanorun.setPtime_at_steward (k : Nat) (x : PortTime) (w : Nat) : (s.setPtime k x).steward w = s.steward w := rfl

@[simp] theorem Lanorun.setCell_regs (k : Nat) (x : Cell) : (s.setCell k x).regs = s.regs := rfl
@[simp] theorem Lanorun.setCell_latch (k : Nat) (x : Cell) : (s.setCell k x).latch = s.latch := rfl
@[simp] theorem Lanorun.setCell_freeCtr (k : Nat) (x : Cell) : (s.setCell k x).freeCtr = s.freeCtr := rfl
@[simp] theorem Lanorun.setCell_hall (k : Nat) (x : Cell) : (s.setCell k x).hall = s.hall := rfl
@[simp] theorem Lanorun.setCell_rgns (k : Nat) (x : Cell) : (s.setCell k x).rgns = s.rgns := rfl
@[simp] theorem Lanorun.setCell_vaults (k : Nat) (x : Cell) : (s.setCell k x).vaults = s.vaults := rfl
@[simp] theorem Lanorun.setCell_engines (k : Nat) (x : Cell) : (s.setCell k x).engines = s.engines := rfl
@[simp] theorem Lanorun.setCell_mesh (k : Nat) (x : Cell) : (s.setCell k x).mesh = s.mesh := rfl
@[simp] theorem Lanorun.setCell_ports (k : Nat) (x : Cell) : (s.setCell k x).ports = s.ports := rfl
@[simp] theorem Lanorun.setCell_ni (k : Nat) (x : Cell) : (s.setCell k x).ni = s.ni := rfl
@[simp] theorem Lanorun.setCell_mover (k : Nat) (x : Cell) : (s.setCell k x).mover = s.mover := rfl
@[simp] theorem Lanorun.setCell_plan (k : Nat) (x : Cell) : (s.setCell k x).plan = s.plan := rfl
@[simp] theorem Lanorun.setCell_det (k : Nat) (x : Cell) : (s.setCell k x).det = s.det := rfl
@[simp] theorem Lanorun.setCell_frz (k : Nat) (x : Cell) : (s.setCell k x).frz = s.frz := rfl
@[simp] theorem Lanorun.setCell_stewards (k : Nat) (x : Cell) : (s.setCell k x).stewards = s.stewards := rfl
@[simp] theorem Lanorun.setCell_power (k : Nat) (x : Cell) : (s.setCell k x).power = s.power := rfl
@[simp] theorem Lanorun.setCell_eths (k : Nat) (x : Cell) : (s.setCell k x).eths = s.eths := rfl
@[simp] theorem Lanorun.setCell_host (k : Nat) (x : Cell) : (s.setCell k x).host = s.host := rfl
@[simp] theorem Lanorun.setCell_teller (k : Nat) (x : Cell) : (s.setCell k x).teller = s.teller := rfl
@[simp] theorem Lanorun.setCell_keep (k : Nat) (x : Cell) : (s.setCell k x).keep = s.keep := rfl
@[simp] theorem Lanorun.setCell_jtag (k : Nat) (x : Cell) : (s.setCell k x).jtag = s.jtag := rfl
@[simp] theorem Lanorun.setCell_site (k : Nat) (x : Cell) : (s.setCell k x).site = s.site := rfl
@[simp] theorem Lanorun.setCell_at_reg (k : Nat) (x : Cell) (q : Reg) (w j : Nat) : (s.setCell k x).reg q w j = s.reg q w j := rfl
@[simp] theorem Lanorun.setCell_at_get (k : Nat) (x : Cell) (f' : Fld) (w j : Nat) : (s.setCell k x).get f' w j = s.get f' w j := rfl
@[simp] theorem Lanorun.setCell_at_flag (k : Nat) (x : Cell) (f' : Fld) (w j : Nat) : (s.setCell k x).flag f' w j = s.flag f' w j := rfl
@[simp] theorem Lanorun.setCell_at_rgn (k : Nat) (x : Cell) (w : Nat) : (s.setCell k x).rgn w = s.rgn w := rfl
@[simp] theorem Lanorun.setCell_at_ptime (k : Nat) (x : Cell) (w : Nat) : (s.setCell k x).ptime w = s.ptime w := rfl
@[simp] theorem Lanorun.setCell_at_ten (k : Nat) (x : Cell) (w : Nat) : (s.setCell k x).ten w = s.ten w := rfl
@[simp] theorem Lanorun.setCell_at_wgt (k : Nat) (x : Cell) (w : Nat) : (s.setCell k x).wgt w = s.wgt w := rfl
@[simp] theorem Lanorun.setCell_at_vault (k : Nat) (x : Cell) (w : Nat) : (s.setCell k x).vault w = s.vault w := rfl
@[simp] theorem Lanorun.setCell_at_engine (k : Nat) (x : Cell) (w : Nat) : (s.setCell k x).engine w = s.engine w := rfl
@[simp] theorem Lanorun.setCell_at_port (k : Nat) (x : Cell) (w : Nat) : (s.setCell k x).port w = s.port w := rfl
@[simp] theorem Lanorun.setCell_at_eth (k : Nat) (x : Cell) (w : Nat) : (s.setCell k x).eth w = s.eth w := rfl
@[simp] theorem Lanorun.setCell_at_steward (k : Nat) (x : Cell) (w : Nat) : (s.setCell k x).steward w = s.steward w := rfl

@[simp] theorem Lanorun.setTen_regs (k : Nat) (x : Ten) : (s.setTen k x).regs = s.regs := rfl
@[simp] theorem Lanorun.setTen_latch (k : Nat) (x : Ten) : (s.setTen k x).latch = s.latch := rfl
@[simp] theorem Lanorun.setTen_freeCtr (k : Nat) (x : Ten) : (s.setTen k x).freeCtr = s.freeCtr := rfl
@[simp] theorem Lanorun.setTen_hall (k : Nat) (x : Ten) : (s.setTen k x).hall = s.hall := rfl
@[simp] theorem Lanorun.setTen_rgns (k : Nat) (x : Ten) : (s.setTen k x).rgns = s.rgns := rfl
@[simp] theorem Lanorun.setTen_cells (k : Nat) (x : Ten) : (s.setTen k x).cells = s.cells := rfl
@[simp] theorem Lanorun.setTen_vaults (k : Nat) (x : Ten) : (s.setTen k x).vaults = s.vaults := rfl
@[simp] theorem Lanorun.setTen_engines (k : Nat) (x : Ten) : (s.setTen k x).engines = s.engines := rfl
@[simp] theorem Lanorun.setTen_mesh (k : Nat) (x : Ten) : (s.setTen k x).mesh = s.mesh := rfl
@[simp] theorem Lanorun.setTen_ports (k : Nat) (x : Ten) : (s.setTen k x).ports = s.ports := rfl
@[simp] theorem Lanorun.setTen_ni (k : Nat) (x : Ten) : (s.setTen k x).ni = s.ni := rfl
@[simp] theorem Lanorun.setTen_mover (k : Nat) (x : Ten) : (s.setTen k x).mover = s.mover := rfl
@[simp] theorem Lanorun.setTen_det (k : Nat) (x : Ten) : (s.setTen k x).det = s.det := rfl
@[simp] theorem Lanorun.setTen_frz (k : Nat) (x : Ten) : (s.setTen k x).frz = s.frz := rfl
@[simp] theorem Lanorun.setTen_stewards (k : Nat) (x : Ten) : (s.setTen k x).stewards = s.stewards := rfl
@[simp] theorem Lanorun.setTen_power (k : Nat) (x : Ten) : (s.setTen k x).power = s.power := rfl
@[simp] theorem Lanorun.setTen_eths (k : Nat) (x : Ten) : (s.setTen k x).eths = s.eths := rfl
@[simp] theorem Lanorun.setTen_host (k : Nat) (x : Ten) : (s.setTen k x).host = s.host := rfl
@[simp] theorem Lanorun.setTen_teller (k : Nat) (x : Ten) : (s.setTen k x).teller = s.teller := rfl
@[simp] theorem Lanorun.setTen_keep (k : Nat) (x : Ten) : (s.setTen k x).keep = s.keep := rfl
@[simp] theorem Lanorun.setTen_jtag (k : Nat) (x : Ten) : (s.setTen k x).jtag = s.jtag := rfl
@[simp] theorem Lanorun.setTen_site (k : Nat) (x : Ten) : (s.setTen k x).site = s.site := rfl
@[simp] theorem Lanorun.setTen_at_reg (k : Nat) (x : Ten) (q : Reg) (w j : Nat) : (s.setTen k x).reg q w j = s.reg q w j := rfl
@[simp] theorem Lanorun.setTen_at_get (k : Nat) (x : Ten) (f' : Fld) (w j : Nat) : (s.setTen k x).get f' w j = s.get f' w j := rfl
@[simp] theorem Lanorun.setTen_at_flag (k : Nat) (x : Ten) (f' : Fld) (w j : Nat) : (s.setTen k x).flag f' w j = s.flag f' w j := rfl
@[simp] theorem Lanorun.setTen_at_cell (k : Nat) (x : Ten) (w : Nat) : (s.setTen k x).cell w = s.cell w := rfl
@[simp] theorem Lanorun.setTen_at_rgn (k : Nat) (x : Ten) (w : Nat) : (s.setTen k x).rgn w = s.rgn w := rfl
@[simp] theorem Lanorun.setTen_at_ptime (k : Nat) (x : Ten) (w : Nat) : (s.setTen k x).ptime w = s.ptime w := rfl
@[simp] theorem Lanorun.setTen_at_vault (k : Nat) (x : Ten) (w : Nat) : (s.setTen k x).vault w = s.vault w := rfl
@[simp] theorem Lanorun.setTen_at_engine (k : Nat) (x : Ten) (w : Nat) : (s.setTen k x).engine w = s.engine w := rfl
@[simp] theorem Lanorun.setTen_at_port (k : Nat) (x : Ten) (w : Nat) : (s.setTen k x).port w = s.port w := rfl
@[simp] theorem Lanorun.setTen_at_eth (k : Nat) (x : Ten) (w : Nat) : (s.setTen k x).eth w = s.eth w := rfl
@[simp] theorem Lanorun.setTen_at_steward (k : Nat) (x : Ten) (w : Nat) : (s.setTen k x).steward w = s.steward w := rfl

@[simp] theorem Lanorun.setWgt_regs (k : Nat) (x : WgtTen) : (s.setWgt k x).regs = s.regs := rfl
@[simp] theorem Lanorun.setWgt_latch (k : Nat) (x : WgtTen) : (s.setWgt k x).latch = s.latch := rfl
@[simp] theorem Lanorun.setWgt_freeCtr (k : Nat) (x : WgtTen) : (s.setWgt k x).freeCtr = s.freeCtr := rfl
@[simp] theorem Lanorun.setWgt_hall (k : Nat) (x : WgtTen) : (s.setWgt k x).hall = s.hall := rfl
@[simp] theorem Lanorun.setWgt_rgns (k : Nat) (x : WgtTen) : (s.setWgt k x).rgns = s.rgns := rfl
@[simp] theorem Lanorun.setWgt_cells (k : Nat) (x : WgtTen) : (s.setWgt k x).cells = s.cells := rfl
@[simp] theorem Lanorun.setWgt_vaults (k : Nat) (x : WgtTen) : (s.setWgt k x).vaults = s.vaults := rfl
@[simp] theorem Lanorun.setWgt_engines (k : Nat) (x : WgtTen) : (s.setWgt k x).engines = s.engines := rfl
@[simp] theorem Lanorun.setWgt_mesh (k : Nat) (x : WgtTen) : (s.setWgt k x).mesh = s.mesh := rfl
@[simp] theorem Lanorun.setWgt_ports (k : Nat) (x : WgtTen) : (s.setWgt k x).ports = s.ports := rfl
@[simp] theorem Lanorun.setWgt_ni (k : Nat) (x : WgtTen) : (s.setWgt k x).ni = s.ni := rfl
@[simp] theorem Lanorun.setWgt_mover (k : Nat) (x : WgtTen) : (s.setWgt k x).mover = s.mover := rfl
@[simp] theorem Lanorun.setWgt_det (k : Nat) (x : WgtTen) : (s.setWgt k x).det = s.det := rfl
@[simp] theorem Lanorun.setWgt_frz (k : Nat) (x : WgtTen) : (s.setWgt k x).frz = s.frz := rfl
@[simp] theorem Lanorun.setWgt_stewards (k : Nat) (x : WgtTen) : (s.setWgt k x).stewards = s.stewards := rfl
@[simp] theorem Lanorun.setWgt_power (k : Nat) (x : WgtTen) : (s.setWgt k x).power = s.power := rfl
@[simp] theorem Lanorun.setWgt_eths (k : Nat) (x : WgtTen) : (s.setWgt k x).eths = s.eths := rfl
@[simp] theorem Lanorun.setWgt_host (k : Nat) (x : WgtTen) : (s.setWgt k x).host = s.host := rfl
@[simp] theorem Lanorun.setWgt_teller (k : Nat) (x : WgtTen) : (s.setWgt k x).teller = s.teller := rfl
@[simp] theorem Lanorun.setWgt_keep (k : Nat) (x : WgtTen) : (s.setWgt k x).keep = s.keep := rfl
@[simp] theorem Lanorun.setWgt_jtag (k : Nat) (x : WgtTen) : (s.setWgt k x).jtag = s.jtag := rfl
@[simp] theorem Lanorun.setWgt_site (k : Nat) (x : WgtTen) : (s.setWgt k x).site = s.site := rfl
@[simp] theorem Lanorun.setWgt_at_reg (k : Nat) (x : WgtTen) (q : Reg) (w j : Nat) : (s.setWgt k x).reg q w j = s.reg q w j := rfl
@[simp] theorem Lanorun.setWgt_at_get (k : Nat) (x : WgtTen) (f' : Fld) (w j : Nat) : (s.setWgt k x).get f' w j = s.get f' w j := rfl
@[simp] theorem Lanorun.setWgt_at_flag (k : Nat) (x : WgtTen) (f' : Fld) (w j : Nat) : (s.setWgt k x).flag f' w j = s.flag f' w j := rfl
@[simp] theorem Lanorun.setWgt_at_cell (k : Nat) (x : WgtTen) (w : Nat) : (s.setWgt k x).cell w = s.cell w := rfl
@[simp] theorem Lanorun.setWgt_at_rgn (k : Nat) (x : WgtTen) (w : Nat) : (s.setWgt k x).rgn w = s.rgn w := rfl
@[simp] theorem Lanorun.setWgt_at_ptime (k : Nat) (x : WgtTen) (w : Nat) : (s.setWgt k x).ptime w = s.ptime w := rfl
@[simp] theorem Lanorun.setWgt_at_vault (k : Nat) (x : WgtTen) (w : Nat) : (s.setWgt k x).vault w = s.vault w := rfl
@[simp] theorem Lanorun.setWgt_at_engine (k : Nat) (x : WgtTen) (w : Nat) : (s.setWgt k x).engine w = s.engine w := rfl
@[simp] theorem Lanorun.setWgt_at_port (k : Nat) (x : WgtTen) (w : Nat) : (s.setWgt k x).port w = s.port w := rfl
@[simp] theorem Lanorun.setWgt_at_eth (k : Nat) (x : WgtTen) (w : Nat) : (s.setWgt k x).eth w = s.eth w := rfl
@[simp] theorem Lanorun.setWgt_at_steward (k : Nat) (x : WgtTen) (w : Nat) : (s.setWgt k x).steward w = s.steward w := rfl

@[simp] theorem Lanorun.setVault_regs (k : Nat) (x : Vault) : (s.setVault k x).regs = s.regs := rfl
@[simp] theorem Lanorun.setVault_latch (k : Nat) (x : Vault) : (s.setVault k x).latch = s.latch := rfl
@[simp] theorem Lanorun.setVault_freeCtr (k : Nat) (x : Vault) : (s.setVault k x).freeCtr = s.freeCtr := rfl
@[simp] theorem Lanorun.setVault_hall (k : Nat) (x : Vault) : (s.setVault k x).hall = s.hall := rfl
@[simp] theorem Lanorun.setVault_rgns (k : Nat) (x : Vault) : (s.setVault k x).rgns = s.rgns := rfl
@[simp] theorem Lanorun.setVault_cells (k : Nat) (x : Vault) : (s.setVault k x).cells = s.cells := rfl
@[simp] theorem Lanorun.setVault_engines (k : Nat) (x : Vault) : (s.setVault k x).engines = s.engines := rfl
@[simp] theorem Lanorun.setVault_mesh (k : Nat) (x : Vault) : (s.setVault k x).mesh = s.mesh := rfl
@[simp] theorem Lanorun.setVault_ports (k : Nat) (x : Vault) : (s.setVault k x).ports = s.ports := rfl
@[simp] theorem Lanorun.setVault_ni (k : Nat) (x : Vault) : (s.setVault k x).ni = s.ni := rfl
@[simp] theorem Lanorun.setVault_mover (k : Nat) (x : Vault) : (s.setVault k x).mover = s.mover := rfl
@[simp] theorem Lanorun.setVault_plan (k : Nat) (x : Vault) : (s.setVault k x).plan = s.plan := rfl
@[simp] theorem Lanorun.setVault_det (k : Nat) (x : Vault) : (s.setVault k x).det = s.det := rfl
@[simp] theorem Lanorun.setVault_frz (k : Nat) (x : Vault) : (s.setVault k x).frz = s.frz := rfl
@[simp] theorem Lanorun.setVault_stewards (k : Nat) (x : Vault) : (s.setVault k x).stewards = s.stewards := rfl
@[simp] theorem Lanorun.setVault_power (k : Nat) (x : Vault) : (s.setVault k x).power = s.power := rfl
@[simp] theorem Lanorun.setVault_eths (k : Nat) (x : Vault) : (s.setVault k x).eths = s.eths := rfl
@[simp] theorem Lanorun.setVault_host (k : Nat) (x : Vault) : (s.setVault k x).host = s.host := rfl
@[simp] theorem Lanorun.setVault_teller (k : Nat) (x : Vault) : (s.setVault k x).teller = s.teller := rfl
@[simp] theorem Lanorun.setVault_keep (k : Nat) (x : Vault) : (s.setVault k x).keep = s.keep := rfl
@[simp] theorem Lanorun.setVault_jtag (k : Nat) (x : Vault) : (s.setVault k x).jtag = s.jtag := rfl
@[simp] theorem Lanorun.setVault_site (k : Nat) (x : Vault) : (s.setVault k x).site = s.site := rfl
@[simp] theorem Lanorun.setVault_at_reg (k : Nat) (x : Vault) (q : Reg) (w j : Nat) : (s.setVault k x).reg q w j = s.reg q w j := rfl
@[simp] theorem Lanorun.setVault_at_get (k : Nat) (x : Vault) (f' : Fld) (w j : Nat) : (s.setVault k x).get f' w j = s.get f' w j := rfl
@[simp] theorem Lanorun.setVault_at_flag (k : Nat) (x : Vault) (f' : Fld) (w j : Nat) : (s.setVault k x).flag f' w j = s.flag f' w j := rfl
@[simp] theorem Lanorun.setVault_at_cell (k : Nat) (x : Vault) (w : Nat) : (s.setVault k x).cell w = s.cell w := rfl
@[simp] theorem Lanorun.setVault_at_rgn (k : Nat) (x : Vault) (w : Nat) : (s.setVault k x).rgn w = s.rgn w := rfl
@[simp] theorem Lanorun.setVault_at_ptime (k : Nat) (x : Vault) (w : Nat) : (s.setVault k x).ptime w = s.ptime w := rfl
@[simp] theorem Lanorun.setVault_at_ten (k : Nat) (x : Vault) (w : Nat) : (s.setVault k x).ten w = s.ten w := rfl
@[simp] theorem Lanorun.setVault_at_wgt (k : Nat) (x : Vault) (w : Nat) : (s.setVault k x).wgt w = s.wgt w := rfl
@[simp] theorem Lanorun.setVault_at_engine (k : Nat) (x : Vault) (w : Nat) : (s.setVault k x).engine w = s.engine w := rfl
@[simp] theorem Lanorun.setVault_at_port (k : Nat) (x : Vault) (w : Nat) : (s.setVault k x).port w = s.port w := rfl
@[simp] theorem Lanorun.setVault_at_eth (k : Nat) (x : Vault) (w : Nat) : (s.setVault k x).eth w = s.eth w := rfl
@[simp] theorem Lanorun.setVault_at_steward (k : Nat) (x : Vault) (w : Nat) : (s.setVault k x).steward w = s.steward w := rfl

@[simp] theorem Lanorun.setEngine_regs (k : Nat) (x : Engine) : (s.setEngine k x).regs = s.regs := rfl
@[simp] theorem Lanorun.setEngine_latch (k : Nat) (x : Engine) : (s.setEngine k x).latch = s.latch := rfl
@[simp] theorem Lanorun.setEngine_freeCtr (k : Nat) (x : Engine) : (s.setEngine k x).freeCtr = s.freeCtr := rfl
@[simp] theorem Lanorun.setEngine_hall (k : Nat) (x : Engine) : (s.setEngine k x).hall = s.hall := rfl
@[simp] theorem Lanorun.setEngine_rgns (k : Nat) (x : Engine) : (s.setEngine k x).rgns = s.rgns := rfl
@[simp] theorem Lanorun.setEngine_cells (k : Nat) (x : Engine) : (s.setEngine k x).cells = s.cells := rfl
@[simp] theorem Lanorun.setEngine_vaults (k : Nat) (x : Engine) : (s.setEngine k x).vaults = s.vaults := rfl
@[simp] theorem Lanorun.setEngine_mesh (k : Nat) (x : Engine) : (s.setEngine k x).mesh = s.mesh := rfl
@[simp] theorem Lanorun.setEngine_ports (k : Nat) (x : Engine) : (s.setEngine k x).ports = s.ports := rfl
@[simp] theorem Lanorun.setEngine_ni (k : Nat) (x : Engine) : (s.setEngine k x).ni = s.ni := rfl
@[simp] theorem Lanorun.setEngine_mover (k : Nat) (x : Engine) : (s.setEngine k x).mover = s.mover := rfl
@[simp] theorem Lanorun.setEngine_plan (k : Nat) (x : Engine) : (s.setEngine k x).plan = s.plan := rfl
@[simp] theorem Lanorun.setEngine_det (k : Nat) (x : Engine) : (s.setEngine k x).det = s.det := rfl
@[simp] theorem Lanorun.setEngine_frz (k : Nat) (x : Engine) : (s.setEngine k x).frz = s.frz := rfl
@[simp] theorem Lanorun.setEngine_stewards (k : Nat) (x : Engine) : (s.setEngine k x).stewards = s.stewards := rfl
@[simp] theorem Lanorun.setEngine_power (k : Nat) (x : Engine) : (s.setEngine k x).power = s.power := rfl
@[simp] theorem Lanorun.setEngine_eths (k : Nat) (x : Engine) : (s.setEngine k x).eths = s.eths := rfl
@[simp] theorem Lanorun.setEngine_host (k : Nat) (x : Engine) : (s.setEngine k x).host = s.host := rfl
@[simp] theorem Lanorun.setEngine_teller (k : Nat) (x : Engine) : (s.setEngine k x).teller = s.teller := rfl
@[simp] theorem Lanorun.setEngine_keep (k : Nat) (x : Engine) : (s.setEngine k x).keep = s.keep := rfl
@[simp] theorem Lanorun.setEngine_jtag (k : Nat) (x : Engine) : (s.setEngine k x).jtag = s.jtag := rfl
@[simp] theorem Lanorun.setEngine_site (k : Nat) (x : Engine) : (s.setEngine k x).site = s.site := rfl
@[simp] theorem Lanorun.setEngine_at_reg (k : Nat) (x : Engine) (q : Reg) (w j : Nat) : (s.setEngine k x).reg q w j = s.reg q w j := rfl
@[simp] theorem Lanorun.setEngine_at_get (k : Nat) (x : Engine) (f' : Fld) (w j : Nat) : (s.setEngine k x).get f' w j = s.get f' w j := rfl
@[simp] theorem Lanorun.setEngine_at_flag (k : Nat) (x : Engine) (f' : Fld) (w j : Nat) : (s.setEngine k x).flag f' w j = s.flag f' w j := rfl
@[simp] theorem Lanorun.setEngine_at_cell (k : Nat) (x : Engine) (w : Nat) : (s.setEngine k x).cell w = s.cell w := rfl
@[simp] theorem Lanorun.setEngine_at_rgn (k : Nat) (x : Engine) (w : Nat) : (s.setEngine k x).rgn w = s.rgn w := rfl
@[simp] theorem Lanorun.setEngine_at_ptime (k : Nat) (x : Engine) (w : Nat) : (s.setEngine k x).ptime w = s.ptime w := rfl
@[simp] theorem Lanorun.setEngine_at_ten (k : Nat) (x : Engine) (w : Nat) : (s.setEngine k x).ten w = s.ten w := rfl
@[simp] theorem Lanorun.setEngine_at_wgt (k : Nat) (x : Engine) (w : Nat) : (s.setEngine k x).wgt w = s.wgt w := rfl
@[simp] theorem Lanorun.setEngine_at_vault (k : Nat) (x : Engine) (w : Nat) : (s.setEngine k x).vault w = s.vault w := rfl
@[simp] theorem Lanorun.setEngine_at_port (k : Nat) (x : Engine) (w : Nat) : (s.setEngine k x).port w = s.port w := rfl
@[simp] theorem Lanorun.setEngine_at_eth (k : Nat) (x : Engine) (w : Nat) : (s.setEngine k x).eth w = s.eth w := rfl
@[simp] theorem Lanorun.setEngine_at_steward (k : Nat) (x : Engine) (w : Nat) : (s.setEngine k x).steward w = s.steward w := rfl

@[simp] theorem Lanorun.setPort_regs (k : Nat) (x : Port) : (s.setPort k x).regs = s.regs := rfl
@[simp] theorem Lanorun.setPort_latch (k : Nat) (x : Port) : (s.setPort k x).latch = s.latch := rfl
@[simp] theorem Lanorun.setPort_freeCtr (k : Nat) (x : Port) : (s.setPort k x).freeCtr = s.freeCtr := rfl
@[simp] theorem Lanorun.setPort_hall (k : Nat) (x : Port) : (s.setPort k x).hall = s.hall := rfl
@[simp] theorem Lanorun.setPort_rgns (k : Nat) (x : Port) : (s.setPort k x).rgns = s.rgns := rfl
@[simp] theorem Lanorun.setPort_cells (k : Nat) (x : Port) : (s.setPort k x).cells = s.cells := rfl
@[simp] theorem Lanorun.setPort_vaults (k : Nat) (x : Port) : (s.setPort k x).vaults = s.vaults := rfl
@[simp] theorem Lanorun.setPort_engines (k : Nat) (x : Port) : (s.setPort k x).engines = s.engines := rfl
@[simp] theorem Lanorun.setPort_mesh (k : Nat) (x : Port) : (s.setPort k x).mesh = s.mesh := rfl
@[simp] theorem Lanorun.setPort_ni (k : Nat) (x : Port) : (s.setPort k x).ni = s.ni := rfl
@[simp] theorem Lanorun.setPort_mover (k : Nat) (x : Port) : (s.setPort k x).mover = s.mover := rfl
@[simp] theorem Lanorun.setPort_plan (k : Nat) (x : Port) : (s.setPort k x).plan = s.plan := rfl
@[simp] theorem Lanorun.setPort_det (k : Nat) (x : Port) : (s.setPort k x).det = s.det := rfl
@[simp] theorem Lanorun.setPort_frz (k : Nat) (x : Port) : (s.setPort k x).frz = s.frz := rfl
@[simp] theorem Lanorun.setPort_stewards (k : Nat) (x : Port) : (s.setPort k x).stewards = s.stewards := rfl
@[simp] theorem Lanorun.setPort_power (k : Nat) (x : Port) : (s.setPort k x).power = s.power := rfl
@[simp] theorem Lanorun.setPort_eths (k : Nat) (x : Port) : (s.setPort k x).eths = s.eths := rfl
@[simp] theorem Lanorun.setPort_host (k : Nat) (x : Port) : (s.setPort k x).host = s.host := rfl
@[simp] theorem Lanorun.setPort_teller (k : Nat) (x : Port) : (s.setPort k x).teller = s.teller := rfl
@[simp] theorem Lanorun.setPort_keep (k : Nat) (x : Port) : (s.setPort k x).keep = s.keep := rfl
@[simp] theorem Lanorun.setPort_jtag (k : Nat) (x : Port) : (s.setPort k x).jtag = s.jtag := rfl
@[simp] theorem Lanorun.setPort_site (k : Nat) (x : Port) : (s.setPort k x).site = s.site := rfl
@[simp] theorem Lanorun.setPort_at_reg (k : Nat) (x : Port) (q : Reg) (w j : Nat) : (s.setPort k x).reg q w j = s.reg q w j := rfl
@[simp] theorem Lanorun.setPort_at_get (k : Nat) (x : Port) (f' : Fld) (w j : Nat) : (s.setPort k x).get f' w j = s.get f' w j := rfl
@[simp] theorem Lanorun.setPort_at_flag (k : Nat) (x : Port) (f' : Fld) (w j : Nat) : (s.setPort k x).flag f' w j = s.flag f' w j := rfl
@[simp] theorem Lanorun.setPort_at_cell (k : Nat) (x : Port) (w : Nat) : (s.setPort k x).cell w = s.cell w := rfl
@[simp] theorem Lanorun.setPort_at_rgn (k : Nat) (x : Port) (w : Nat) : (s.setPort k x).rgn w = s.rgn w := rfl
@[simp] theorem Lanorun.setPort_at_ptime (k : Nat) (x : Port) (w : Nat) : (s.setPort k x).ptime w = s.ptime w := rfl
@[simp] theorem Lanorun.setPort_at_ten (k : Nat) (x : Port) (w : Nat) : (s.setPort k x).ten w = s.ten w := rfl
@[simp] theorem Lanorun.setPort_at_wgt (k : Nat) (x : Port) (w : Nat) : (s.setPort k x).wgt w = s.wgt w := rfl
@[simp] theorem Lanorun.setPort_at_vault (k : Nat) (x : Port) (w : Nat) : (s.setPort k x).vault w = s.vault w := rfl
@[simp] theorem Lanorun.setPort_at_engine (k : Nat) (x : Port) (w : Nat) : (s.setPort k x).engine w = s.engine w := rfl
@[simp] theorem Lanorun.setPort_at_eth (k : Nat) (x : Port) (w : Nat) : (s.setPort k x).eth w = s.eth w := rfl
@[simp] theorem Lanorun.setPort_at_steward (k : Nat) (x : Port) (w : Nat) : (s.setPort k x).steward w = s.steward w := rfl

@[simp] theorem Lanorun.setEth_regs (k : Nat) (x : Eth) : (s.setEth k x).regs = s.regs := rfl
@[simp] theorem Lanorun.setEth_latch (k : Nat) (x : Eth) : (s.setEth k x).latch = s.latch := rfl
@[simp] theorem Lanorun.setEth_freeCtr (k : Nat) (x : Eth) : (s.setEth k x).freeCtr = s.freeCtr := rfl
@[simp] theorem Lanorun.setEth_hall (k : Nat) (x : Eth) : (s.setEth k x).hall = s.hall := rfl
@[simp] theorem Lanorun.setEth_rgns (k : Nat) (x : Eth) : (s.setEth k x).rgns = s.rgns := rfl
@[simp] theorem Lanorun.setEth_cells (k : Nat) (x : Eth) : (s.setEth k x).cells = s.cells := rfl
@[simp] theorem Lanorun.setEth_vaults (k : Nat) (x : Eth) : (s.setEth k x).vaults = s.vaults := rfl
@[simp] theorem Lanorun.setEth_engines (k : Nat) (x : Eth) : (s.setEth k x).engines = s.engines := rfl
@[simp] theorem Lanorun.setEth_mesh (k : Nat) (x : Eth) : (s.setEth k x).mesh = s.mesh := rfl
@[simp] theorem Lanorun.setEth_ports (k : Nat) (x : Eth) : (s.setEth k x).ports = s.ports := rfl
@[simp] theorem Lanorun.setEth_ni (k : Nat) (x : Eth) : (s.setEth k x).ni = s.ni := rfl
@[simp] theorem Lanorun.setEth_mover (k : Nat) (x : Eth) : (s.setEth k x).mover = s.mover := rfl
@[simp] theorem Lanorun.setEth_plan (k : Nat) (x : Eth) : (s.setEth k x).plan = s.plan := rfl
@[simp] theorem Lanorun.setEth_det (k : Nat) (x : Eth) : (s.setEth k x).det = s.det := rfl
@[simp] theorem Lanorun.setEth_frz (k : Nat) (x : Eth) : (s.setEth k x).frz = s.frz := rfl
@[simp] theorem Lanorun.setEth_stewards (k : Nat) (x : Eth) : (s.setEth k x).stewards = s.stewards := rfl
@[simp] theorem Lanorun.setEth_power (k : Nat) (x : Eth) : (s.setEth k x).power = s.power := rfl
@[simp] theorem Lanorun.setEth_host (k : Nat) (x : Eth) : (s.setEth k x).host = s.host := rfl
@[simp] theorem Lanorun.setEth_teller (k : Nat) (x : Eth) : (s.setEth k x).teller = s.teller := rfl
@[simp] theorem Lanorun.setEth_keep (k : Nat) (x : Eth) : (s.setEth k x).keep = s.keep := rfl
@[simp] theorem Lanorun.setEth_jtag (k : Nat) (x : Eth) : (s.setEth k x).jtag = s.jtag := rfl
@[simp] theorem Lanorun.setEth_site (k : Nat) (x : Eth) : (s.setEth k x).site = s.site := rfl
@[simp] theorem Lanorun.setEth_at_reg (k : Nat) (x : Eth) (q : Reg) (w j : Nat) : (s.setEth k x).reg q w j = s.reg q w j := rfl
@[simp] theorem Lanorun.setEth_at_get (k : Nat) (x : Eth) (f' : Fld) (w j : Nat) : (s.setEth k x).get f' w j = s.get f' w j := rfl
@[simp] theorem Lanorun.setEth_at_flag (k : Nat) (x : Eth) (f' : Fld) (w j : Nat) : (s.setEth k x).flag f' w j = s.flag f' w j := rfl
@[simp] theorem Lanorun.setEth_at_cell (k : Nat) (x : Eth) (w : Nat) : (s.setEth k x).cell w = s.cell w := rfl
@[simp] theorem Lanorun.setEth_at_rgn (k : Nat) (x : Eth) (w : Nat) : (s.setEth k x).rgn w = s.rgn w := rfl
@[simp] theorem Lanorun.setEth_at_ptime (k : Nat) (x : Eth) (w : Nat) : (s.setEth k x).ptime w = s.ptime w := rfl
@[simp] theorem Lanorun.setEth_at_ten (k : Nat) (x : Eth) (w : Nat) : (s.setEth k x).ten w = s.ten w := rfl
@[simp] theorem Lanorun.setEth_at_wgt (k : Nat) (x : Eth) (w : Nat) : (s.setEth k x).wgt w = s.wgt w := rfl
@[simp] theorem Lanorun.setEth_at_vault (k : Nat) (x : Eth) (w : Nat) : (s.setEth k x).vault w = s.vault w := rfl
@[simp] theorem Lanorun.setEth_at_engine (k : Nat) (x : Eth) (w : Nat) : (s.setEth k x).engine w = s.engine w := rfl
@[simp] theorem Lanorun.setEth_at_port (k : Nat) (x : Eth) (w : Nat) : (s.setEth k x).port w = s.port w := rfl
@[simp] theorem Lanorun.setEth_at_steward (k : Nat) (x : Eth) (w : Nat) : (s.setEth k x).steward w = s.steward w := rfl

@[simp] theorem Lanorun.setSteward_regs (k : Nat) (x : Steward) : (s.setSteward k x).regs = s.regs := rfl
@[simp] theorem Lanorun.setSteward_latch (k : Nat) (x : Steward) : (s.setSteward k x).latch = s.latch := rfl
@[simp] theorem Lanorun.setSteward_freeCtr (k : Nat) (x : Steward) : (s.setSteward k x).freeCtr = s.freeCtr := rfl
@[simp] theorem Lanorun.setSteward_hall (k : Nat) (x : Steward) : (s.setSteward k x).hall = s.hall := rfl
@[simp] theorem Lanorun.setSteward_rgns (k : Nat) (x : Steward) : (s.setSteward k x).rgns = s.rgns := rfl
@[simp] theorem Lanorun.setSteward_cells (k : Nat) (x : Steward) : (s.setSteward k x).cells = s.cells := rfl
@[simp] theorem Lanorun.setSteward_vaults (k : Nat) (x : Steward) : (s.setSteward k x).vaults = s.vaults := rfl
@[simp] theorem Lanorun.setSteward_engines (k : Nat) (x : Steward) : (s.setSteward k x).engines = s.engines := rfl
@[simp] theorem Lanorun.setSteward_mesh (k : Nat) (x : Steward) : (s.setSteward k x).mesh = s.mesh := rfl
@[simp] theorem Lanorun.setSteward_ports (k : Nat) (x : Steward) : (s.setSteward k x).ports = s.ports := rfl
@[simp] theorem Lanorun.setSteward_ni (k : Nat) (x : Steward) : (s.setSteward k x).ni = s.ni := rfl
@[simp] theorem Lanorun.setSteward_mover (k : Nat) (x : Steward) : (s.setSteward k x).mover = s.mover := rfl
@[simp] theorem Lanorun.setSteward_plan (k : Nat) (x : Steward) : (s.setSteward k x).plan = s.plan := rfl
@[simp] theorem Lanorun.setSteward_det (k : Nat) (x : Steward) : (s.setSteward k x).det = s.det := rfl
@[simp] theorem Lanorun.setSteward_frz (k : Nat) (x : Steward) : (s.setSteward k x).frz = s.frz := rfl
@[simp] theorem Lanorun.setSteward_power (k : Nat) (x : Steward) : (s.setSteward k x).power = s.power := rfl
@[simp] theorem Lanorun.setSteward_eths (k : Nat) (x : Steward) : (s.setSteward k x).eths = s.eths := rfl
@[simp] theorem Lanorun.setSteward_host (k : Nat) (x : Steward) : (s.setSteward k x).host = s.host := rfl
@[simp] theorem Lanorun.setSteward_teller (k : Nat) (x : Steward) : (s.setSteward k x).teller = s.teller := rfl
@[simp] theorem Lanorun.setSteward_keep (k : Nat) (x : Steward) : (s.setSteward k x).keep = s.keep := rfl
@[simp] theorem Lanorun.setSteward_jtag (k : Nat) (x : Steward) : (s.setSteward k x).jtag = s.jtag := rfl
@[simp] theorem Lanorun.setSteward_site (k : Nat) (x : Steward) : (s.setSteward k x).site = s.site := rfl
@[simp] theorem Lanorun.setSteward_at_reg (k : Nat) (x : Steward) (q : Reg) (w j : Nat) : (s.setSteward k x).reg q w j = s.reg q w j := rfl
@[simp] theorem Lanorun.setSteward_at_get (k : Nat) (x : Steward) (f' : Fld) (w j : Nat) : (s.setSteward k x).get f' w j = s.get f' w j := rfl
@[simp] theorem Lanorun.setSteward_at_flag (k : Nat) (x : Steward) (f' : Fld) (w j : Nat) : (s.setSteward k x).flag f' w j = s.flag f' w j := rfl
@[simp] theorem Lanorun.setSteward_at_cell (k : Nat) (x : Steward) (w : Nat) : (s.setSteward k x).cell w = s.cell w := rfl
@[simp] theorem Lanorun.setSteward_at_rgn (k : Nat) (x : Steward) (w : Nat) : (s.setSteward k x).rgn w = s.rgn w := rfl
@[simp] theorem Lanorun.setSteward_at_ptime (k : Nat) (x : Steward) (w : Nat) : (s.setSteward k x).ptime w = s.ptime w := rfl
@[simp] theorem Lanorun.setSteward_at_ten (k : Nat) (x : Steward) (w : Nat) : (s.setSteward k x).ten w = s.ten w := rfl
@[simp] theorem Lanorun.setSteward_at_wgt (k : Nat) (x : Steward) (w : Nat) : (s.setSteward k x).wgt w = s.wgt w := rfl
@[simp] theorem Lanorun.setSteward_at_vault (k : Nat) (x : Steward) (w : Nat) : (s.setSteward k x).vault w = s.vault w := rfl
@[simp] theorem Lanorun.setSteward_at_engine (k : Nat) (x : Steward) (w : Nat) : (s.setSteward k x).engine w = s.engine w := rfl
@[simp] theorem Lanorun.setSteward_at_port (k : Nat) (x : Steward) (w : Nat) : (s.setSteward k x).port w = s.port w := rfl
@[simp] theorem Lanorun.setSteward_at_eth (k : Nat) (x : Steward) (w : Nat) : (s.setSteward k x).eth w = s.eth w := rfl

@[simp] theorem Lanorun.setHall_regs (g : Hall → Hall) : (s.setHall g).regs = s.regs := rfl
@[simp] theorem Lanorun.setHall_latch (g : Hall → Hall) : (s.setHall g).latch = s.latch := rfl
@[simp] theorem Lanorun.setHall_freeCtr (g : Hall → Hall) : (s.setHall g).freeCtr = s.freeCtr := rfl
@[simp] theorem Lanorun.setHall_hall (g : Hall → Hall) : (s.setHall g).hall = g s.hall := rfl
@[simp] theorem Lanorun.setHall_rgns (g : Hall → Hall) : (s.setHall g).rgns = s.rgns := rfl
@[simp] theorem Lanorun.setHall_cells (g : Hall → Hall) : (s.setHall g).cells = s.cells := rfl
@[simp] theorem Lanorun.setHall_vaults (g : Hall → Hall) : (s.setHall g).vaults = s.vaults := rfl
@[simp] theorem Lanorun.setHall_engines (g : Hall → Hall) : (s.setHall g).engines = s.engines := rfl
@[simp] theorem Lanorun.setHall_mesh (g : Hall → Hall) : (s.setHall g).mesh = s.mesh := rfl
@[simp] theorem Lanorun.setHall_ports (g : Hall → Hall) : (s.setHall g).ports = s.ports := rfl
@[simp] theorem Lanorun.setHall_ni (g : Hall → Hall) : (s.setHall g).ni = s.ni := rfl
@[simp] theorem Lanorun.setHall_mover (g : Hall → Hall) : (s.setHall g).mover = s.mover := rfl
@[simp] theorem Lanorun.setHall_plan (g : Hall → Hall) : (s.setHall g).plan = s.plan := rfl
@[simp] theorem Lanorun.setHall_det (g : Hall → Hall) : (s.setHall g).det = s.det := rfl
@[simp] theorem Lanorun.setHall_frz (g : Hall → Hall) : (s.setHall g).frz = s.frz := rfl
@[simp] theorem Lanorun.setHall_stewards (g : Hall → Hall) : (s.setHall g).stewards = s.stewards := rfl
@[simp] theorem Lanorun.setHall_power (g : Hall → Hall) : (s.setHall g).power = s.power := rfl
@[simp] theorem Lanorun.setHall_eths (g : Hall → Hall) : (s.setHall g).eths = s.eths := rfl
@[simp] theorem Lanorun.setHall_host (g : Hall → Hall) : (s.setHall g).host = s.host := rfl
@[simp] theorem Lanorun.setHall_teller (g : Hall → Hall) : (s.setHall g).teller = s.teller := rfl
@[simp] theorem Lanorun.setHall_keep (g : Hall → Hall) : (s.setHall g).keep = s.keep := rfl
@[simp] theorem Lanorun.setHall_jtag (g : Hall → Hall) : (s.setHall g).jtag = s.jtag := rfl
@[simp] theorem Lanorun.setHall_site (g : Hall → Hall) : (s.setHall g).site = s.site := rfl
@[simp] theorem Lanorun.setHall_at_reg (g : Hall → Hall) (q : Reg) (w j : Nat) : (s.setHall g).reg q w j = s.reg q w j := rfl
@[simp] theorem Lanorun.setHall_at_get (g : Hall → Hall) (f' : Fld) (w j : Nat) : (s.setHall g).get f' w j = s.get f' w j := rfl
@[simp] theorem Lanorun.setHall_at_flag (g : Hall → Hall) (f' : Fld) (w j : Nat) : (s.setHall g).flag f' w j = s.flag f' w j := rfl
@[simp] theorem Lanorun.setHall_at_cell (g : Hall → Hall) (w : Nat) : (s.setHall g).cell w = s.cell w := rfl
@[simp] theorem Lanorun.setHall_at_rgn (g : Hall → Hall) (w : Nat) : (s.setHall g).rgn w = s.rgn w := rfl
@[simp] theorem Lanorun.setHall_at_ten (g : Hall → Hall) (w : Nat) : (s.setHall g).ten w = s.ten w := rfl
@[simp] theorem Lanorun.setHall_at_wgt (g : Hall → Hall) (w : Nat) : (s.setHall g).wgt w = s.wgt w := rfl
@[simp] theorem Lanorun.setHall_at_vault (g : Hall → Hall) (w : Nat) : (s.setHall g).vault w = s.vault w := rfl
@[simp] theorem Lanorun.setHall_at_engine (g : Hall → Hall) (w : Nat) : (s.setHall g).engine w = s.engine w := rfl
@[simp] theorem Lanorun.setHall_at_port (g : Hall → Hall) (w : Nat) : (s.setHall g).port w = s.port w := rfl
@[simp] theorem Lanorun.setHall_at_eth (g : Hall → Hall) (w : Nat) : (s.setHall g).eth w = s.eth w := rfl
@[simp] theorem Lanorun.setHall_at_steward (g : Hall → Hall) (w : Nat) : (s.setHall g).steward w = s.steward w := rfl

@[simp] theorem Lanorun.setPlan_regs (g : Plan → Plan) : (s.setPlan g).regs = s.regs := rfl
@[simp] theorem Lanorun.setPlan_latch (g : Plan → Plan) : (s.setPlan g).latch = s.latch := rfl
@[simp] theorem Lanorun.setPlan_freeCtr (g : Plan → Plan) : (s.setPlan g).freeCtr = s.freeCtr := rfl
@[simp] theorem Lanorun.setPlan_hall (g : Plan → Plan) : (s.setPlan g).hall = s.hall := rfl
@[simp] theorem Lanorun.setPlan_rgns (g : Plan → Plan) : (s.setPlan g).rgns = s.rgns := rfl
@[simp] theorem Lanorun.setPlan_cells (g : Plan → Plan) : (s.setPlan g).cells = s.cells := rfl
@[simp] theorem Lanorun.setPlan_vaults (g : Plan → Plan) : (s.setPlan g).vaults = s.vaults := rfl
@[simp] theorem Lanorun.setPlan_engines (g : Plan → Plan) : (s.setPlan g).engines = s.engines := rfl
@[simp] theorem Lanorun.setPlan_mesh (g : Plan → Plan) : (s.setPlan g).mesh = s.mesh := rfl
@[simp] theorem Lanorun.setPlan_ports (g : Plan → Plan) : (s.setPlan g).ports = s.ports := rfl
@[simp] theorem Lanorun.setPlan_ni (g : Plan → Plan) : (s.setPlan g).ni = s.ni := rfl
@[simp] theorem Lanorun.setPlan_mover (g : Plan → Plan) : (s.setPlan g).mover = s.mover := rfl
@[simp] theorem Lanorun.setPlan_plan (g : Plan → Plan) : (s.setPlan g).plan = g s.plan := rfl
@[simp] theorem Lanorun.setPlan_det (g : Plan → Plan) : (s.setPlan g).det = s.det := rfl
@[simp] theorem Lanorun.setPlan_frz (g : Plan → Plan) : (s.setPlan g).frz = s.frz := rfl
@[simp] theorem Lanorun.setPlan_stewards (g : Plan → Plan) : (s.setPlan g).stewards = s.stewards := rfl
@[simp] theorem Lanorun.setPlan_power (g : Plan → Plan) : (s.setPlan g).power = s.power := rfl
@[simp] theorem Lanorun.setPlan_eths (g : Plan → Plan) : (s.setPlan g).eths = s.eths := rfl
@[simp] theorem Lanorun.setPlan_host (g : Plan → Plan) : (s.setPlan g).host = s.host := rfl
@[simp] theorem Lanorun.setPlan_teller (g : Plan → Plan) : (s.setPlan g).teller = s.teller := rfl
@[simp] theorem Lanorun.setPlan_keep (g : Plan → Plan) : (s.setPlan g).keep = s.keep := rfl
@[simp] theorem Lanorun.setPlan_jtag (g : Plan → Plan) : (s.setPlan g).jtag = s.jtag := rfl
@[simp] theorem Lanorun.setPlan_site (g : Plan → Plan) : (s.setPlan g).site = s.site := rfl
@[simp] theorem Lanorun.setPlan_at_reg (g : Plan → Plan) (q : Reg) (w j : Nat) : (s.setPlan g).reg q w j = s.reg q w j := rfl
@[simp] theorem Lanorun.setPlan_at_get (g : Plan → Plan) (f' : Fld) (w j : Nat) : (s.setPlan g).get f' w j = s.get f' w j := rfl
@[simp] theorem Lanorun.setPlan_at_flag (g : Plan → Plan) (f' : Fld) (w j : Nat) : (s.setPlan g).flag f' w j = s.flag f' w j := rfl
@[simp] theorem Lanorun.setPlan_at_cell (g : Plan → Plan) (w : Nat) : (s.setPlan g).cell w = s.cell w := rfl
@[simp] theorem Lanorun.setPlan_at_rgn (g : Plan → Plan) (w : Nat) : (s.setPlan g).rgn w = s.rgn w := rfl
@[simp] theorem Lanorun.setPlan_at_ptime (g : Plan → Plan) (w : Nat) : (s.setPlan g).ptime w = s.ptime w := rfl
@[simp] theorem Lanorun.setPlan_at_vault (g : Plan → Plan) (w : Nat) : (s.setPlan g).vault w = s.vault w := rfl
@[simp] theorem Lanorun.setPlan_at_engine (g : Plan → Plan) (w : Nat) : (s.setPlan g).engine w = s.engine w := rfl
@[simp] theorem Lanorun.setPlan_at_port (g : Plan → Plan) (w : Nat) : (s.setPlan g).port w = s.port w := rfl
@[simp] theorem Lanorun.setPlan_at_eth (g : Plan → Plan) (w : Nat) : (s.setPlan g).eth w = s.eth w := rfl
@[simp] theorem Lanorun.setPlan_at_steward (g : Plan → Plan) (w : Nat) : (s.setPlan g).steward w = s.steward w := rfl

@[simp] theorem Lanorun.setNi_regs (g : Ni → Ni) : (s.setNi g).regs = s.regs := rfl
@[simp] theorem Lanorun.setNi_latch (g : Ni → Ni) : (s.setNi g).latch = s.latch := rfl
@[simp] theorem Lanorun.setNi_freeCtr (g : Ni → Ni) : (s.setNi g).freeCtr = s.freeCtr := rfl
@[simp] theorem Lanorun.setNi_hall (g : Ni → Ni) : (s.setNi g).hall = s.hall := rfl
@[simp] theorem Lanorun.setNi_rgns (g : Ni → Ni) : (s.setNi g).rgns = s.rgns := rfl
@[simp] theorem Lanorun.setNi_cells (g : Ni → Ni) : (s.setNi g).cells = s.cells := rfl
@[simp] theorem Lanorun.setNi_vaults (g : Ni → Ni) : (s.setNi g).vaults = s.vaults := rfl
@[simp] theorem Lanorun.setNi_engines (g : Ni → Ni) : (s.setNi g).engines = s.engines := rfl
@[simp] theorem Lanorun.setNi_mesh (g : Ni → Ni) : (s.setNi g).mesh = s.mesh := rfl
@[simp] theorem Lanorun.setNi_ports (g : Ni → Ni) : (s.setNi g).ports = s.ports := rfl
@[simp] theorem Lanorun.setNi_ni (g : Ni → Ni) : (s.setNi g).ni = g s.ni := rfl
@[simp] theorem Lanorun.setNi_mover (g : Ni → Ni) : (s.setNi g).mover = s.mover := rfl
@[simp] theorem Lanorun.setNi_plan (g : Ni → Ni) : (s.setNi g).plan = s.plan := rfl
@[simp] theorem Lanorun.setNi_det (g : Ni → Ni) : (s.setNi g).det = s.det := rfl
@[simp] theorem Lanorun.setNi_frz (g : Ni → Ni) : (s.setNi g).frz = s.frz := rfl
@[simp] theorem Lanorun.setNi_stewards (g : Ni → Ni) : (s.setNi g).stewards = s.stewards := rfl
@[simp] theorem Lanorun.setNi_power (g : Ni → Ni) : (s.setNi g).power = s.power := rfl
@[simp] theorem Lanorun.setNi_eths (g : Ni → Ni) : (s.setNi g).eths = s.eths := rfl
@[simp] theorem Lanorun.setNi_host (g : Ni → Ni) : (s.setNi g).host = s.host := rfl
@[simp] theorem Lanorun.setNi_teller (g : Ni → Ni) : (s.setNi g).teller = s.teller := rfl
@[simp] theorem Lanorun.setNi_keep (g : Ni → Ni) : (s.setNi g).keep = s.keep := rfl
@[simp] theorem Lanorun.setNi_jtag (g : Ni → Ni) : (s.setNi g).jtag = s.jtag := rfl
@[simp] theorem Lanorun.setNi_site (g : Ni → Ni) : (s.setNi g).site = s.site := rfl
@[simp] theorem Lanorun.setNi_at_reg (g : Ni → Ni) (q : Reg) (w j : Nat) : (s.setNi g).reg q w j = s.reg q w j := rfl
@[simp] theorem Lanorun.setNi_at_get (g : Ni → Ni) (f' : Fld) (w j : Nat) : (s.setNi g).get f' w j = s.get f' w j := rfl
@[simp] theorem Lanorun.setNi_at_flag (g : Ni → Ni) (f' : Fld) (w j : Nat) : (s.setNi g).flag f' w j = s.flag f' w j := rfl
@[simp] theorem Lanorun.setNi_at_cell (g : Ni → Ni) (w : Nat) : (s.setNi g).cell w = s.cell w := rfl
@[simp] theorem Lanorun.setNi_at_rgn (g : Ni → Ni) (w : Nat) : (s.setNi g).rgn w = s.rgn w := rfl
@[simp] theorem Lanorun.setNi_at_ptime (g : Ni → Ni) (w : Nat) : (s.setNi g).ptime w = s.ptime w := rfl
@[simp] theorem Lanorun.setNi_at_ten (g : Ni → Ni) (w : Nat) : (s.setNi g).ten w = s.ten w := rfl
@[simp] theorem Lanorun.setNi_at_wgt (g : Ni → Ni) (w : Nat) : (s.setNi g).wgt w = s.wgt w := rfl
@[simp] theorem Lanorun.setNi_at_vault (g : Ni → Ni) (w : Nat) : (s.setNi g).vault w = s.vault w := rfl
@[simp] theorem Lanorun.setNi_at_engine (g : Ni → Ni) (w : Nat) : (s.setNi g).engine w = s.engine w := rfl
@[simp] theorem Lanorun.setNi_at_port (g : Ni → Ni) (w : Nat) : (s.setNi g).port w = s.port w := rfl
@[simp] theorem Lanorun.setNi_at_eth (g : Ni → Ni) (w : Nat) : (s.setNi g).eth w = s.eth w := rfl
@[simp] theorem Lanorun.setNi_at_steward (g : Ni → Ni) (w : Nat) : (s.setNi g).steward w = s.steward w := rfl

@[simp] theorem Lanorun.setMover_regs (g : Mover → Mover) : (s.setMover g).regs = s.regs := rfl
@[simp] theorem Lanorun.setMover_latch (g : Mover → Mover) : (s.setMover g).latch = s.latch := rfl
@[simp] theorem Lanorun.setMover_freeCtr (g : Mover → Mover) : (s.setMover g).freeCtr = s.freeCtr := rfl
@[simp] theorem Lanorun.setMover_hall (g : Mover → Mover) : (s.setMover g).hall = s.hall := rfl
@[simp] theorem Lanorun.setMover_rgns (g : Mover → Mover) : (s.setMover g).rgns = s.rgns := rfl
@[simp] theorem Lanorun.setMover_cells (g : Mover → Mover) : (s.setMover g).cells = s.cells := rfl
@[simp] theorem Lanorun.setMover_vaults (g : Mover → Mover) : (s.setMover g).vaults = s.vaults := rfl
@[simp] theorem Lanorun.setMover_engines (g : Mover → Mover) : (s.setMover g).engines = s.engines := rfl
@[simp] theorem Lanorun.setMover_mesh (g : Mover → Mover) : (s.setMover g).mesh = s.mesh := rfl
@[simp] theorem Lanorun.setMover_ports (g : Mover → Mover) : (s.setMover g).ports = s.ports := rfl
@[simp] theorem Lanorun.setMover_ni (g : Mover → Mover) : (s.setMover g).ni = s.ni := rfl
@[simp] theorem Lanorun.setMover_mover (g : Mover → Mover) : (s.setMover g).mover = g s.mover := rfl
@[simp] theorem Lanorun.setMover_plan (g : Mover → Mover) : (s.setMover g).plan = s.plan := rfl
@[simp] theorem Lanorun.setMover_det (g : Mover → Mover) : (s.setMover g).det = s.det := rfl
@[simp] theorem Lanorun.setMover_frz (g : Mover → Mover) : (s.setMover g).frz = s.frz := rfl
@[simp] theorem Lanorun.setMover_stewards (g : Mover → Mover) : (s.setMover g).stewards = s.stewards := rfl
@[simp] theorem Lanorun.setMover_power (g : Mover → Mover) : (s.setMover g).power = s.power := rfl
@[simp] theorem Lanorun.setMover_eths (g : Mover → Mover) : (s.setMover g).eths = s.eths := rfl
@[simp] theorem Lanorun.setMover_host (g : Mover → Mover) : (s.setMover g).host = s.host := rfl
@[simp] theorem Lanorun.setMover_teller (g : Mover → Mover) : (s.setMover g).teller = s.teller := rfl
@[simp] theorem Lanorun.setMover_keep (g : Mover → Mover) : (s.setMover g).keep = s.keep := rfl
@[simp] theorem Lanorun.setMover_jtag (g : Mover → Mover) : (s.setMover g).jtag = s.jtag := rfl
@[simp] theorem Lanorun.setMover_site (g : Mover → Mover) : (s.setMover g).site = s.site := rfl
@[simp] theorem Lanorun.setMover_at_reg (g : Mover → Mover) (q : Reg) (w j : Nat) : (s.setMover g).reg q w j = s.reg q w j := rfl
@[simp] theorem Lanorun.setMover_at_get (g : Mover → Mover) (f' : Fld) (w j : Nat) : (s.setMover g).get f' w j = s.get f' w j := rfl
@[simp] theorem Lanorun.setMover_at_flag (g : Mover → Mover) (f' : Fld) (w j : Nat) : (s.setMover g).flag f' w j = s.flag f' w j := rfl
@[simp] theorem Lanorun.setMover_at_cell (g : Mover → Mover) (w : Nat) : (s.setMover g).cell w = s.cell w := rfl
@[simp] theorem Lanorun.setMover_at_rgn (g : Mover → Mover) (w : Nat) : (s.setMover g).rgn w = s.rgn w := rfl
@[simp] theorem Lanorun.setMover_at_ptime (g : Mover → Mover) (w : Nat) : (s.setMover g).ptime w = s.ptime w := rfl
@[simp] theorem Lanorun.setMover_at_ten (g : Mover → Mover) (w : Nat) : (s.setMover g).ten w = s.ten w := rfl
@[simp] theorem Lanorun.setMover_at_wgt (g : Mover → Mover) (w : Nat) : (s.setMover g).wgt w = s.wgt w := rfl
@[simp] theorem Lanorun.setMover_at_vault (g : Mover → Mover) (w : Nat) : (s.setMover g).vault w = s.vault w := rfl
@[simp] theorem Lanorun.setMover_at_engine (g : Mover → Mover) (w : Nat) : (s.setMover g).engine w = s.engine w := rfl
@[simp] theorem Lanorun.setMover_at_port (g : Mover → Mover) (w : Nat) : (s.setMover g).port w = s.port w := rfl
@[simp] theorem Lanorun.setMover_at_eth (g : Mover → Mover) (w : Nat) : (s.setMover g).eth w = s.eth w := rfl
@[simp] theorem Lanorun.setMover_at_steward (g : Mover → Mover) (w : Nat) : (s.setMover g).steward w = s.steward w := rfl

@[simp] theorem Lanorun.setMesh_regs (g : Mesh → Mesh) : (s.setMesh g).regs = s.regs := rfl
@[simp] theorem Lanorun.setMesh_latch (g : Mesh → Mesh) : (s.setMesh g).latch = s.latch := rfl
@[simp] theorem Lanorun.setMesh_freeCtr (g : Mesh → Mesh) : (s.setMesh g).freeCtr = s.freeCtr := rfl
@[simp] theorem Lanorun.setMesh_hall (g : Mesh → Mesh) : (s.setMesh g).hall = s.hall := rfl
@[simp] theorem Lanorun.setMesh_rgns (g : Mesh → Mesh) : (s.setMesh g).rgns = s.rgns := rfl
@[simp] theorem Lanorun.setMesh_cells (g : Mesh → Mesh) : (s.setMesh g).cells = s.cells := rfl
@[simp] theorem Lanorun.setMesh_vaults (g : Mesh → Mesh) : (s.setMesh g).vaults = s.vaults := rfl
@[simp] theorem Lanorun.setMesh_engines (g : Mesh → Mesh) : (s.setMesh g).engines = s.engines := rfl
@[simp] theorem Lanorun.setMesh_mesh (g : Mesh → Mesh) : (s.setMesh g).mesh = g s.mesh := rfl
@[simp] theorem Lanorun.setMesh_ports (g : Mesh → Mesh) : (s.setMesh g).ports = s.ports := rfl
@[simp] theorem Lanorun.setMesh_ni (g : Mesh → Mesh) : (s.setMesh g).ni = s.ni := rfl
@[simp] theorem Lanorun.setMesh_mover (g : Mesh → Mesh) : (s.setMesh g).mover = s.mover := rfl
@[simp] theorem Lanorun.setMesh_plan (g : Mesh → Mesh) : (s.setMesh g).plan = s.plan := rfl
@[simp] theorem Lanorun.setMesh_det (g : Mesh → Mesh) : (s.setMesh g).det = s.det := rfl
@[simp] theorem Lanorun.setMesh_frz (g : Mesh → Mesh) : (s.setMesh g).frz = s.frz := rfl
@[simp] theorem Lanorun.setMesh_stewards (g : Mesh → Mesh) : (s.setMesh g).stewards = s.stewards := rfl
@[simp] theorem Lanorun.setMesh_power (g : Mesh → Mesh) : (s.setMesh g).power = s.power := rfl
@[simp] theorem Lanorun.setMesh_eths (g : Mesh → Mesh) : (s.setMesh g).eths = s.eths := rfl
@[simp] theorem Lanorun.setMesh_host (g : Mesh → Mesh) : (s.setMesh g).host = s.host := rfl
@[simp] theorem Lanorun.setMesh_teller (g : Mesh → Mesh) : (s.setMesh g).teller = s.teller := rfl
@[simp] theorem Lanorun.setMesh_keep (g : Mesh → Mesh) : (s.setMesh g).keep = s.keep := rfl
@[simp] theorem Lanorun.setMesh_jtag (g : Mesh → Mesh) : (s.setMesh g).jtag = s.jtag := rfl
@[simp] theorem Lanorun.setMesh_site (g : Mesh → Mesh) : (s.setMesh g).site = s.site := rfl
@[simp] theorem Lanorun.setMesh_at_reg (g : Mesh → Mesh) (q : Reg) (w j : Nat) : (s.setMesh g).reg q w j = s.reg q w j := rfl
@[simp] theorem Lanorun.setMesh_at_get (g : Mesh → Mesh) (f' : Fld) (w j : Nat) : (s.setMesh g).get f' w j = s.get f' w j := rfl
@[simp] theorem Lanorun.setMesh_at_flag (g : Mesh → Mesh) (f' : Fld) (w j : Nat) : (s.setMesh g).flag f' w j = s.flag f' w j := rfl
@[simp] theorem Lanorun.setMesh_at_cell (g : Mesh → Mesh) (w : Nat) : (s.setMesh g).cell w = s.cell w := rfl
@[simp] theorem Lanorun.setMesh_at_rgn (g : Mesh → Mesh) (w : Nat) : (s.setMesh g).rgn w = s.rgn w := rfl
@[simp] theorem Lanorun.setMesh_at_ptime (g : Mesh → Mesh) (w : Nat) : (s.setMesh g).ptime w = s.ptime w := rfl
@[simp] theorem Lanorun.setMesh_at_ten (g : Mesh → Mesh) (w : Nat) : (s.setMesh g).ten w = s.ten w := rfl
@[simp] theorem Lanorun.setMesh_at_wgt (g : Mesh → Mesh) (w : Nat) : (s.setMesh g).wgt w = s.wgt w := rfl
@[simp] theorem Lanorun.setMesh_at_vault (g : Mesh → Mesh) (w : Nat) : (s.setMesh g).vault w = s.vault w := rfl
@[simp] theorem Lanorun.setMesh_at_engine (g : Mesh → Mesh) (w : Nat) : (s.setMesh g).engine w = s.engine w := rfl
@[simp] theorem Lanorun.setMesh_at_port (g : Mesh → Mesh) (w : Nat) : (s.setMesh g).port w = s.port w := rfl
@[simp] theorem Lanorun.setMesh_at_eth (g : Mesh → Mesh) (w : Nat) : (s.setMesh g).eth w = s.eth w := rfl
@[simp] theorem Lanorun.setMesh_at_steward (g : Mesh → Mesh) (w : Nat) : (s.setMesh g).steward w = s.steward w := rfl

@[simp] theorem Lanorun.setHost_regs (g : HostIf → HostIf) : (s.setHost g).regs = s.regs := rfl
@[simp] theorem Lanorun.setHost_latch (g : HostIf → HostIf) : (s.setHost g).latch = s.latch := rfl
@[simp] theorem Lanorun.setHost_freeCtr (g : HostIf → HostIf) : (s.setHost g).freeCtr = s.freeCtr := rfl
@[simp] theorem Lanorun.setHost_hall (g : HostIf → HostIf) : (s.setHost g).hall = s.hall := rfl
@[simp] theorem Lanorun.setHost_rgns (g : HostIf → HostIf) : (s.setHost g).rgns = s.rgns := rfl
@[simp] theorem Lanorun.setHost_cells (g : HostIf → HostIf) : (s.setHost g).cells = s.cells := rfl
@[simp] theorem Lanorun.setHost_vaults (g : HostIf → HostIf) : (s.setHost g).vaults = s.vaults := rfl
@[simp] theorem Lanorun.setHost_engines (g : HostIf → HostIf) : (s.setHost g).engines = s.engines := rfl
@[simp] theorem Lanorun.setHost_mesh (g : HostIf → HostIf) : (s.setHost g).mesh = s.mesh := rfl
@[simp] theorem Lanorun.setHost_ports (g : HostIf → HostIf) : (s.setHost g).ports = s.ports := rfl
@[simp] theorem Lanorun.setHost_ni (g : HostIf → HostIf) : (s.setHost g).ni = s.ni := rfl
@[simp] theorem Lanorun.setHost_mover (g : HostIf → HostIf) : (s.setHost g).mover = s.mover := rfl
@[simp] theorem Lanorun.setHost_plan (g : HostIf → HostIf) : (s.setHost g).plan = s.plan := rfl
@[simp] theorem Lanorun.setHost_det (g : HostIf → HostIf) : (s.setHost g).det = s.det := rfl
@[simp] theorem Lanorun.setHost_frz (g : HostIf → HostIf) : (s.setHost g).frz = s.frz := rfl
@[simp] theorem Lanorun.setHost_stewards (g : HostIf → HostIf) : (s.setHost g).stewards = s.stewards := rfl
@[simp] theorem Lanorun.setHost_power (g : HostIf → HostIf) : (s.setHost g).power = s.power := rfl
@[simp] theorem Lanorun.setHost_eths (g : HostIf → HostIf) : (s.setHost g).eths = s.eths := rfl
@[simp] theorem Lanorun.setHost_host (g : HostIf → HostIf) : (s.setHost g).host = g s.host := rfl
@[simp] theorem Lanorun.setHost_teller (g : HostIf → HostIf) : (s.setHost g).teller = s.teller := rfl
@[simp] theorem Lanorun.setHost_keep (g : HostIf → HostIf) : (s.setHost g).keep = s.keep := rfl
@[simp] theorem Lanorun.setHost_jtag (g : HostIf → HostIf) : (s.setHost g).jtag = s.jtag := rfl
@[simp] theorem Lanorun.setHost_site (g : HostIf → HostIf) : (s.setHost g).site = s.site := rfl
@[simp] theorem Lanorun.setHost_at_reg (g : HostIf → HostIf) (q : Reg) (w j : Nat) : (s.setHost g).reg q w j = s.reg q w j := rfl
@[simp] theorem Lanorun.setHost_at_get (g : HostIf → HostIf) (f' : Fld) (w j : Nat) : (s.setHost g).get f' w j = s.get f' w j := rfl
@[simp] theorem Lanorun.setHost_at_flag (g : HostIf → HostIf) (f' : Fld) (w j : Nat) : (s.setHost g).flag f' w j = s.flag f' w j := rfl
@[simp] theorem Lanorun.setHost_at_cell (g : HostIf → HostIf) (w : Nat) : (s.setHost g).cell w = s.cell w := rfl
@[simp] theorem Lanorun.setHost_at_rgn (g : HostIf → HostIf) (w : Nat) : (s.setHost g).rgn w = s.rgn w := rfl
@[simp] theorem Lanorun.setHost_at_ptime (g : HostIf → HostIf) (w : Nat) : (s.setHost g).ptime w = s.ptime w := rfl
@[simp] theorem Lanorun.setHost_at_ten (g : HostIf → HostIf) (w : Nat) : (s.setHost g).ten w = s.ten w := rfl
@[simp] theorem Lanorun.setHost_at_wgt (g : HostIf → HostIf) (w : Nat) : (s.setHost g).wgt w = s.wgt w := rfl
@[simp] theorem Lanorun.setHost_at_vault (g : HostIf → HostIf) (w : Nat) : (s.setHost g).vault w = s.vault w := rfl
@[simp] theorem Lanorun.setHost_at_engine (g : HostIf → HostIf) (w : Nat) : (s.setHost g).engine w = s.engine w := rfl
@[simp] theorem Lanorun.setHost_at_port (g : HostIf → HostIf) (w : Nat) : (s.setHost g).port w = s.port w := rfl
@[simp] theorem Lanorun.setHost_at_eth (g : HostIf → HostIf) (w : Nat) : (s.setHost g).eth w = s.eth w := rfl
@[simp] theorem Lanorun.setHost_at_steward (g : HostIf → HostIf) (w : Nat) : (s.setHost g).steward w = s.steward w := rfl

@[simp] theorem Lanorun.setKeep_regs (g : Keep → Keep) : (s.setKeep g).regs = s.regs := rfl
@[simp] theorem Lanorun.setKeep_latch (g : Keep → Keep) : (s.setKeep g).latch = s.latch := rfl
@[simp] theorem Lanorun.setKeep_freeCtr (g : Keep → Keep) : (s.setKeep g).freeCtr = s.freeCtr := rfl
@[simp] theorem Lanorun.setKeep_hall (g : Keep → Keep) : (s.setKeep g).hall = s.hall := rfl
@[simp] theorem Lanorun.setKeep_rgns (g : Keep → Keep) : (s.setKeep g).rgns = s.rgns := rfl
@[simp] theorem Lanorun.setKeep_cells (g : Keep → Keep) : (s.setKeep g).cells = s.cells := rfl
@[simp] theorem Lanorun.setKeep_vaults (g : Keep → Keep) : (s.setKeep g).vaults = s.vaults := rfl
@[simp] theorem Lanorun.setKeep_engines (g : Keep → Keep) : (s.setKeep g).engines = s.engines := rfl
@[simp] theorem Lanorun.setKeep_mesh (g : Keep → Keep) : (s.setKeep g).mesh = s.mesh := rfl
@[simp] theorem Lanorun.setKeep_ports (g : Keep → Keep) : (s.setKeep g).ports = s.ports := rfl
@[simp] theorem Lanorun.setKeep_ni (g : Keep → Keep) : (s.setKeep g).ni = s.ni := rfl
@[simp] theorem Lanorun.setKeep_mover (g : Keep → Keep) : (s.setKeep g).mover = s.mover := rfl
@[simp] theorem Lanorun.setKeep_plan (g : Keep → Keep) : (s.setKeep g).plan = s.plan := rfl
@[simp] theorem Lanorun.setKeep_det (g : Keep → Keep) : (s.setKeep g).det = s.det := rfl
@[simp] theorem Lanorun.setKeep_frz (g : Keep → Keep) : (s.setKeep g).frz = s.frz := rfl
@[simp] theorem Lanorun.setKeep_stewards (g : Keep → Keep) : (s.setKeep g).stewards = s.stewards := rfl
@[simp] theorem Lanorun.setKeep_power (g : Keep → Keep) : (s.setKeep g).power = s.power := rfl
@[simp] theorem Lanorun.setKeep_eths (g : Keep → Keep) : (s.setKeep g).eths = s.eths := rfl
@[simp] theorem Lanorun.setKeep_host (g : Keep → Keep) : (s.setKeep g).host = s.host := rfl
@[simp] theorem Lanorun.setKeep_teller (g : Keep → Keep) : (s.setKeep g).teller = s.teller := rfl
@[simp] theorem Lanorun.setKeep_keep (g : Keep → Keep) : (s.setKeep g).keep = g s.keep := rfl
@[simp] theorem Lanorun.setKeep_jtag (g : Keep → Keep) : (s.setKeep g).jtag = s.jtag := rfl
@[simp] theorem Lanorun.setKeep_site (g : Keep → Keep) : (s.setKeep g).site = s.site := rfl
@[simp] theorem Lanorun.setKeep_at_reg (g : Keep → Keep) (q : Reg) (w j : Nat) : (s.setKeep g).reg q w j = s.reg q w j := rfl
@[simp] theorem Lanorun.setKeep_at_get (g : Keep → Keep) (f' : Fld) (w j : Nat) : (s.setKeep g).get f' w j = s.get f' w j := rfl
@[simp] theorem Lanorun.setKeep_at_flag (g : Keep → Keep) (f' : Fld) (w j : Nat) : (s.setKeep g).flag f' w j = s.flag f' w j := rfl
@[simp] theorem Lanorun.setKeep_at_cell (g : Keep → Keep) (w : Nat) : (s.setKeep g).cell w = s.cell w := rfl
@[simp] theorem Lanorun.setKeep_at_rgn (g : Keep → Keep) (w : Nat) : (s.setKeep g).rgn w = s.rgn w := rfl
@[simp] theorem Lanorun.setKeep_at_ptime (g : Keep → Keep) (w : Nat) : (s.setKeep g).ptime w = s.ptime w := rfl
@[simp] theorem Lanorun.setKeep_at_ten (g : Keep → Keep) (w : Nat) : (s.setKeep g).ten w = s.ten w := rfl
@[simp] theorem Lanorun.setKeep_at_wgt (g : Keep → Keep) (w : Nat) : (s.setKeep g).wgt w = s.wgt w := rfl
@[simp] theorem Lanorun.setKeep_at_vault (g : Keep → Keep) (w : Nat) : (s.setKeep g).vault w = s.vault w := rfl
@[simp] theorem Lanorun.setKeep_at_engine (g : Keep → Keep) (w : Nat) : (s.setKeep g).engine w = s.engine w := rfl
@[simp] theorem Lanorun.setKeep_at_port (g : Keep → Keep) (w : Nat) : (s.setKeep g).port w = s.port w := rfl
@[simp] theorem Lanorun.setKeep_at_eth (g : Keep → Keep) (w : Nat) : (s.setKeep g).eth w = s.eth w := rfl
@[simp] theorem Lanorun.setKeep_at_steward (g : Keep → Keep) (w : Nat) : (s.setKeep g).steward w = s.steward w := rfl

@[simp] theorem Lanorun.setSite_regs (g : Site → Site) : (s.setSite g).regs = s.regs := rfl
@[simp] theorem Lanorun.setSite_latch (g : Site → Site) : (s.setSite g).latch = s.latch := rfl
@[simp] theorem Lanorun.setSite_freeCtr (g : Site → Site) : (s.setSite g).freeCtr = s.freeCtr := rfl
@[simp] theorem Lanorun.setSite_hall (g : Site → Site) : (s.setSite g).hall = s.hall := rfl
@[simp] theorem Lanorun.setSite_rgns (g : Site → Site) : (s.setSite g).rgns = s.rgns := rfl
@[simp] theorem Lanorun.setSite_cells (g : Site → Site) : (s.setSite g).cells = s.cells := rfl
@[simp] theorem Lanorun.setSite_vaults (g : Site → Site) : (s.setSite g).vaults = s.vaults := rfl
@[simp] theorem Lanorun.setSite_engines (g : Site → Site) : (s.setSite g).engines = s.engines := rfl
@[simp] theorem Lanorun.setSite_mesh (g : Site → Site) : (s.setSite g).mesh = s.mesh := rfl
@[simp] theorem Lanorun.setSite_ports (g : Site → Site) : (s.setSite g).ports = s.ports := rfl
@[simp] theorem Lanorun.setSite_ni (g : Site → Site) : (s.setSite g).ni = s.ni := rfl
@[simp] theorem Lanorun.setSite_mover (g : Site → Site) : (s.setSite g).mover = s.mover := rfl
@[simp] theorem Lanorun.setSite_plan (g : Site → Site) : (s.setSite g).plan = s.plan := rfl
@[simp] theorem Lanorun.setSite_det (g : Site → Site) : (s.setSite g).det = s.det := rfl
@[simp] theorem Lanorun.setSite_frz (g : Site → Site) : (s.setSite g).frz = s.frz := rfl
@[simp] theorem Lanorun.setSite_stewards (g : Site → Site) : (s.setSite g).stewards = s.stewards := rfl
@[simp] theorem Lanorun.setSite_power (g : Site → Site) : (s.setSite g).power = s.power := rfl
@[simp] theorem Lanorun.setSite_eths (g : Site → Site) : (s.setSite g).eths = s.eths := rfl
@[simp] theorem Lanorun.setSite_host (g : Site → Site) : (s.setSite g).host = s.host := rfl
@[simp] theorem Lanorun.setSite_teller (g : Site → Site) : (s.setSite g).teller = s.teller := rfl
@[simp] theorem Lanorun.setSite_keep (g : Site → Site) : (s.setSite g).keep = s.keep := rfl
@[simp] theorem Lanorun.setSite_jtag (g : Site → Site) : (s.setSite g).jtag = s.jtag := rfl
@[simp] theorem Lanorun.setSite_site (g : Site → Site) : (s.setSite g).site = g s.site := rfl
@[simp] theorem Lanorun.setSite_at_reg (g : Site → Site) (q : Reg) (w j : Nat) : (s.setSite g).reg q w j = s.reg q w j := rfl
@[simp] theorem Lanorun.setSite_at_get (g : Site → Site) (f' : Fld) (w j : Nat) : (s.setSite g).get f' w j = s.get f' w j := rfl
@[simp] theorem Lanorun.setSite_at_flag (g : Site → Site) (f' : Fld) (w j : Nat) : (s.setSite g).flag f' w j = s.flag f' w j := rfl
@[simp] theorem Lanorun.setSite_at_cell (g : Site → Site) (w : Nat) : (s.setSite g).cell w = s.cell w := rfl
@[simp] theorem Lanorun.setSite_at_rgn (g : Site → Site) (w : Nat) : (s.setSite g).rgn w = s.rgn w := rfl
@[simp] theorem Lanorun.setSite_at_ptime (g : Site → Site) (w : Nat) : (s.setSite g).ptime w = s.ptime w := rfl
@[simp] theorem Lanorun.setSite_at_ten (g : Site → Site) (w : Nat) : (s.setSite g).ten w = s.ten w := rfl
@[simp] theorem Lanorun.setSite_at_wgt (g : Site → Site) (w : Nat) : (s.setSite g).wgt w = s.wgt w := rfl
@[simp] theorem Lanorun.setSite_at_vault (g : Site → Site) (w : Nat) : (s.setSite g).vault w = s.vault w := rfl
@[simp] theorem Lanorun.setSite_at_engine (g : Site → Site) (w : Nat) : (s.setSite g).engine w = s.engine w := rfl
@[simp] theorem Lanorun.setSite_at_port (g : Site → Site) (w : Nat) : (s.setSite g).port w = s.port w := rfl
@[simp] theorem Lanorun.setSite_at_eth (g : Site → Site) (w : Nat) : (s.setSite g).eth w = s.eth w := rfl
@[simp] theorem Lanorun.setSite_at_steward (g : Site → Site) (w : Nat) : (s.setSite g).steward w = s.steward w := rfl

@[simp] theorem Lanorun.setJtag_regs (g : Jtag → Jtag) : (s.setJtag g).regs = s.regs := rfl
@[simp] theorem Lanorun.setJtag_latch (g : Jtag → Jtag) : (s.setJtag g).latch = s.latch := rfl
@[simp] theorem Lanorun.setJtag_freeCtr (g : Jtag → Jtag) : (s.setJtag g).freeCtr = s.freeCtr := rfl
@[simp] theorem Lanorun.setJtag_hall (g : Jtag → Jtag) : (s.setJtag g).hall = s.hall := rfl
@[simp] theorem Lanorun.setJtag_rgns (g : Jtag → Jtag) : (s.setJtag g).rgns = s.rgns := rfl
@[simp] theorem Lanorun.setJtag_cells (g : Jtag → Jtag) : (s.setJtag g).cells = s.cells := rfl
@[simp] theorem Lanorun.setJtag_vaults (g : Jtag → Jtag) : (s.setJtag g).vaults = s.vaults := rfl
@[simp] theorem Lanorun.setJtag_engines (g : Jtag → Jtag) : (s.setJtag g).engines = s.engines := rfl
@[simp] theorem Lanorun.setJtag_mesh (g : Jtag → Jtag) : (s.setJtag g).mesh = s.mesh := rfl
@[simp] theorem Lanorun.setJtag_ports (g : Jtag → Jtag) : (s.setJtag g).ports = s.ports := rfl
@[simp] theorem Lanorun.setJtag_ni (g : Jtag → Jtag) : (s.setJtag g).ni = s.ni := rfl
@[simp] theorem Lanorun.setJtag_mover (g : Jtag → Jtag) : (s.setJtag g).mover = s.mover := rfl
@[simp] theorem Lanorun.setJtag_plan (g : Jtag → Jtag) : (s.setJtag g).plan = s.plan := rfl
@[simp] theorem Lanorun.setJtag_det (g : Jtag → Jtag) : (s.setJtag g).det = s.det := rfl
@[simp] theorem Lanorun.setJtag_frz (g : Jtag → Jtag) : (s.setJtag g).frz = s.frz := rfl
@[simp] theorem Lanorun.setJtag_stewards (g : Jtag → Jtag) : (s.setJtag g).stewards = s.stewards := rfl
@[simp] theorem Lanorun.setJtag_power (g : Jtag → Jtag) : (s.setJtag g).power = s.power := rfl
@[simp] theorem Lanorun.setJtag_eths (g : Jtag → Jtag) : (s.setJtag g).eths = s.eths := rfl
@[simp] theorem Lanorun.setJtag_host (g : Jtag → Jtag) : (s.setJtag g).host = s.host := rfl
@[simp] theorem Lanorun.setJtag_teller (g : Jtag → Jtag) : (s.setJtag g).teller = s.teller := rfl
@[simp] theorem Lanorun.setJtag_keep (g : Jtag → Jtag) : (s.setJtag g).keep = s.keep := rfl
@[simp] theorem Lanorun.setJtag_jtag (g : Jtag → Jtag) : (s.setJtag g).jtag = g s.jtag := rfl
@[simp] theorem Lanorun.setJtag_site (g : Jtag → Jtag) : (s.setJtag g).site = s.site := rfl
@[simp] theorem Lanorun.setJtag_at_reg (g : Jtag → Jtag) (q : Reg) (w j : Nat) : (s.setJtag g).reg q w j = s.reg q w j := rfl
@[simp] theorem Lanorun.setJtag_at_get (g : Jtag → Jtag) (f' : Fld) (w j : Nat) : (s.setJtag g).get f' w j = s.get f' w j := rfl
@[simp] theorem Lanorun.setJtag_at_flag (g : Jtag → Jtag) (f' : Fld) (w j : Nat) : (s.setJtag g).flag f' w j = s.flag f' w j := rfl
@[simp] theorem Lanorun.setJtag_at_cell (g : Jtag → Jtag) (w : Nat) : (s.setJtag g).cell w = s.cell w := rfl
@[simp] theorem Lanorun.setJtag_at_rgn (g : Jtag → Jtag) (w : Nat) : (s.setJtag g).rgn w = s.rgn w := rfl
@[simp] theorem Lanorun.setJtag_at_ptime (g : Jtag → Jtag) (w : Nat) : (s.setJtag g).ptime w = s.ptime w := rfl
@[simp] theorem Lanorun.setJtag_at_ten (g : Jtag → Jtag) (w : Nat) : (s.setJtag g).ten w = s.ten w := rfl
@[simp] theorem Lanorun.setJtag_at_wgt (g : Jtag → Jtag) (w : Nat) : (s.setJtag g).wgt w = s.wgt w := rfl
@[simp] theorem Lanorun.setJtag_at_vault (g : Jtag → Jtag) (w : Nat) : (s.setJtag g).vault w = s.vault w := rfl
@[simp] theorem Lanorun.setJtag_at_engine (g : Jtag → Jtag) (w : Nat) : (s.setJtag g).engine w = s.engine w := rfl
@[simp] theorem Lanorun.setJtag_at_port (g : Jtag → Jtag) (w : Nat) : (s.setJtag g).port w = s.port w := rfl
@[simp] theorem Lanorun.setJtag_at_eth (g : Jtag → Jtag) (w : Nat) : (s.setJtag g).eth w = s.eth w := rfl
@[simp] theorem Lanorun.setJtag_at_steward (g : Jtag → Jtag) (w : Nat) : (s.setJtag g).steward w = s.steward w := rfl

@[simp] theorem Lanorun.setFrz_regs (g : Freeze → Freeze) : (s.setFrz g).regs = s.regs := rfl
@[simp] theorem Lanorun.setFrz_latch (g : Freeze → Freeze) : (s.setFrz g).latch = s.latch := rfl
@[simp] theorem Lanorun.setFrz_freeCtr (g : Freeze → Freeze) : (s.setFrz g).freeCtr = s.freeCtr := rfl
@[simp] theorem Lanorun.setFrz_hall (g : Freeze → Freeze) : (s.setFrz g).hall = s.hall := rfl
@[simp] theorem Lanorun.setFrz_rgns (g : Freeze → Freeze) : (s.setFrz g).rgns = s.rgns := rfl
@[simp] theorem Lanorun.setFrz_cells (g : Freeze → Freeze) : (s.setFrz g).cells = s.cells := rfl
@[simp] theorem Lanorun.setFrz_vaults (g : Freeze → Freeze) : (s.setFrz g).vaults = s.vaults := rfl
@[simp] theorem Lanorun.setFrz_engines (g : Freeze → Freeze) : (s.setFrz g).engines = s.engines := rfl
@[simp] theorem Lanorun.setFrz_mesh (g : Freeze → Freeze) : (s.setFrz g).mesh = s.mesh := rfl
@[simp] theorem Lanorun.setFrz_ports (g : Freeze → Freeze) : (s.setFrz g).ports = s.ports := rfl
@[simp] theorem Lanorun.setFrz_ni (g : Freeze → Freeze) : (s.setFrz g).ni = s.ni := rfl
@[simp] theorem Lanorun.setFrz_mover (g : Freeze → Freeze) : (s.setFrz g).mover = s.mover := rfl
@[simp] theorem Lanorun.setFrz_plan (g : Freeze → Freeze) : (s.setFrz g).plan = s.plan := rfl
@[simp] theorem Lanorun.setFrz_det (g : Freeze → Freeze) : (s.setFrz g).det = s.det := rfl
@[simp] theorem Lanorun.setFrz_frz (g : Freeze → Freeze) : (s.setFrz g).frz = g s.frz := rfl
@[simp] theorem Lanorun.setFrz_stewards (g : Freeze → Freeze) : (s.setFrz g).stewards = s.stewards := rfl
@[simp] theorem Lanorun.setFrz_power (g : Freeze → Freeze) : (s.setFrz g).power = s.power := rfl
@[simp] theorem Lanorun.setFrz_eths (g : Freeze → Freeze) : (s.setFrz g).eths = s.eths := rfl
@[simp] theorem Lanorun.setFrz_host (g : Freeze → Freeze) : (s.setFrz g).host = s.host := rfl
@[simp] theorem Lanorun.setFrz_teller (g : Freeze → Freeze) : (s.setFrz g).teller = s.teller := rfl
@[simp] theorem Lanorun.setFrz_keep (g : Freeze → Freeze) : (s.setFrz g).keep = s.keep := rfl
@[simp] theorem Lanorun.setFrz_jtag (g : Freeze → Freeze) : (s.setFrz g).jtag = s.jtag := rfl
@[simp] theorem Lanorun.setFrz_site (g : Freeze → Freeze) : (s.setFrz g).site = s.site := rfl
@[simp] theorem Lanorun.setFrz_at_reg (g : Freeze → Freeze) (q : Reg) (w j : Nat) : (s.setFrz g).reg q w j = s.reg q w j := rfl
@[simp] theorem Lanorun.setFrz_at_get (g : Freeze → Freeze) (f' : Fld) (w j : Nat) : (s.setFrz g).get f' w j = s.get f' w j := rfl
@[simp] theorem Lanorun.setFrz_at_flag (g : Freeze → Freeze) (f' : Fld) (w j : Nat) : (s.setFrz g).flag f' w j = s.flag f' w j := rfl
@[simp] theorem Lanorun.setFrz_at_cell (g : Freeze → Freeze) (w : Nat) : (s.setFrz g).cell w = s.cell w := rfl
@[simp] theorem Lanorun.setFrz_at_rgn (g : Freeze → Freeze) (w : Nat) : (s.setFrz g).rgn w = s.rgn w := rfl
@[simp] theorem Lanorun.setFrz_at_ptime (g : Freeze → Freeze) (w : Nat) : (s.setFrz g).ptime w = s.ptime w := rfl
@[simp] theorem Lanorun.setFrz_at_ten (g : Freeze → Freeze) (w : Nat) : (s.setFrz g).ten w = s.ten w := rfl
@[simp] theorem Lanorun.setFrz_at_wgt (g : Freeze → Freeze) (w : Nat) : (s.setFrz g).wgt w = s.wgt w := rfl
@[simp] theorem Lanorun.setFrz_at_vault (g : Freeze → Freeze) (w : Nat) : (s.setFrz g).vault w = s.vault w := rfl
@[simp] theorem Lanorun.setFrz_at_engine (g : Freeze → Freeze) (w : Nat) : (s.setFrz g).engine w = s.engine w := rfl
@[simp] theorem Lanorun.setFrz_at_port (g : Freeze → Freeze) (w : Nat) : (s.setFrz g).port w = s.port w := rfl
@[simp] theorem Lanorun.setFrz_at_eth (g : Freeze → Freeze) (w : Nat) : (s.setFrz g).eth w = s.eth w := rfl
@[simp] theorem Lanorun.setFrz_at_steward (g : Freeze → Freeze) (w : Nat) : (s.setFrz g).steward w = s.steward w := rfl

@[simp] theorem Lanorun.setDet_regs (g : Det → Det) : (s.setDet g).regs = s.regs := rfl
@[simp] theorem Lanorun.setDet_latch (g : Det → Det) : (s.setDet g).latch = s.latch := rfl
@[simp] theorem Lanorun.setDet_freeCtr (g : Det → Det) : (s.setDet g).freeCtr = s.freeCtr := rfl
@[simp] theorem Lanorun.setDet_hall (g : Det → Det) : (s.setDet g).hall = s.hall := rfl
@[simp] theorem Lanorun.setDet_rgns (g : Det → Det) : (s.setDet g).rgns = s.rgns := rfl
@[simp] theorem Lanorun.setDet_cells (g : Det → Det) : (s.setDet g).cells = s.cells := rfl
@[simp] theorem Lanorun.setDet_vaults (g : Det → Det) : (s.setDet g).vaults = s.vaults := rfl
@[simp] theorem Lanorun.setDet_engines (g : Det → Det) : (s.setDet g).engines = s.engines := rfl
@[simp] theorem Lanorun.setDet_mesh (g : Det → Det) : (s.setDet g).mesh = s.mesh := rfl
@[simp] theorem Lanorun.setDet_ports (g : Det → Det) : (s.setDet g).ports = s.ports := rfl
@[simp] theorem Lanorun.setDet_ni (g : Det → Det) : (s.setDet g).ni = s.ni := rfl
@[simp] theorem Lanorun.setDet_mover (g : Det → Det) : (s.setDet g).mover = s.mover := rfl
@[simp] theorem Lanorun.setDet_plan (g : Det → Det) : (s.setDet g).plan = s.plan := rfl
@[simp] theorem Lanorun.setDet_det (g : Det → Det) : (s.setDet g).det = g s.det := rfl
@[simp] theorem Lanorun.setDet_frz (g : Det → Det) : (s.setDet g).frz = s.frz := rfl
@[simp] theorem Lanorun.setDet_stewards (g : Det → Det) : (s.setDet g).stewards = s.stewards := rfl
@[simp] theorem Lanorun.setDet_power (g : Det → Det) : (s.setDet g).power = s.power := rfl
@[simp] theorem Lanorun.setDet_eths (g : Det → Det) : (s.setDet g).eths = s.eths := rfl
@[simp] theorem Lanorun.setDet_host (g : Det → Det) : (s.setDet g).host = s.host := rfl
@[simp] theorem Lanorun.setDet_teller (g : Det → Det) : (s.setDet g).teller = s.teller := rfl
@[simp] theorem Lanorun.setDet_keep (g : Det → Det) : (s.setDet g).keep = s.keep := rfl
@[simp] theorem Lanorun.setDet_jtag (g : Det → Det) : (s.setDet g).jtag = s.jtag := rfl
@[simp] theorem Lanorun.setDet_site (g : Det → Det) : (s.setDet g).site = s.site := rfl
@[simp] theorem Lanorun.setDet_at_reg (g : Det → Det) (q : Reg) (w j : Nat) : (s.setDet g).reg q w j = s.reg q w j := rfl
@[simp] theorem Lanorun.setDet_at_get (g : Det → Det) (f' : Fld) (w j : Nat) : (s.setDet g).get f' w j = s.get f' w j := rfl
@[simp] theorem Lanorun.setDet_at_flag (g : Det → Det) (f' : Fld) (w j : Nat) : (s.setDet g).flag f' w j = s.flag f' w j := rfl
@[simp] theorem Lanorun.setDet_at_cell (g : Det → Det) (w : Nat) : (s.setDet g).cell w = s.cell w := rfl
@[simp] theorem Lanorun.setDet_at_rgn (g : Det → Det) (w : Nat) : (s.setDet g).rgn w = s.rgn w := rfl
@[simp] theorem Lanorun.setDet_at_ptime (g : Det → Det) (w : Nat) : (s.setDet g).ptime w = s.ptime w := rfl
@[simp] theorem Lanorun.setDet_at_ten (g : Det → Det) (w : Nat) : (s.setDet g).ten w = s.ten w := rfl
@[simp] theorem Lanorun.setDet_at_wgt (g : Det → Det) (w : Nat) : (s.setDet g).wgt w = s.wgt w := rfl
@[simp] theorem Lanorun.setDet_at_vault (g : Det → Det) (w : Nat) : (s.setDet g).vault w = s.vault w := rfl
@[simp] theorem Lanorun.setDet_at_engine (g : Det → Det) (w : Nat) : (s.setDet g).engine w = s.engine w := rfl
@[simp] theorem Lanorun.setDet_at_port (g : Det → Det) (w : Nat) : (s.setDet g).port w = s.port w := rfl
@[simp] theorem Lanorun.setDet_at_eth (g : Det → Det) (w : Nat) : (s.setDet g).eth w = s.eth w := rfl
@[simp] theorem Lanorun.setDet_at_steward (g : Det → Det) (w : Nat) : (s.setDet g).steward w = s.steward w := rfl

@[simp] theorem Lanorun.setTeller_regs (g : Teller → Teller) : (s.setTeller g).regs = s.regs := rfl
@[simp] theorem Lanorun.setTeller_latch (g : Teller → Teller) : (s.setTeller g).latch = s.latch := rfl
@[simp] theorem Lanorun.setTeller_freeCtr (g : Teller → Teller) : (s.setTeller g).freeCtr = s.freeCtr := rfl
@[simp] theorem Lanorun.setTeller_hall (g : Teller → Teller) : (s.setTeller g).hall = s.hall := rfl
@[simp] theorem Lanorun.setTeller_rgns (g : Teller → Teller) : (s.setTeller g).rgns = s.rgns := rfl
@[simp] theorem Lanorun.setTeller_cells (g : Teller → Teller) : (s.setTeller g).cells = s.cells := rfl
@[simp] theorem Lanorun.setTeller_vaults (g : Teller → Teller) : (s.setTeller g).vaults = s.vaults := rfl
@[simp] theorem Lanorun.setTeller_engines (g : Teller → Teller) : (s.setTeller g).engines = s.engines := rfl
@[simp] theorem Lanorun.setTeller_mesh (g : Teller → Teller) : (s.setTeller g).mesh = s.mesh := rfl
@[simp] theorem Lanorun.setTeller_ports (g : Teller → Teller) : (s.setTeller g).ports = s.ports := rfl
@[simp] theorem Lanorun.setTeller_ni (g : Teller → Teller) : (s.setTeller g).ni = s.ni := rfl
@[simp] theorem Lanorun.setTeller_mover (g : Teller → Teller) : (s.setTeller g).mover = s.mover := rfl
@[simp] theorem Lanorun.setTeller_plan (g : Teller → Teller) : (s.setTeller g).plan = s.plan := rfl
@[simp] theorem Lanorun.setTeller_det (g : Teller → Teller) : (s.setTeller g).det = s.det := rfl
@[simp] theorem Lanorun.setTeller_frz (g : Teller → Teller) : (s.setTeller g).frz = s.frz := rfl
@[simp] theorem Lanorun.setTeller_stewards (g : Teller → Teller) : (s.setTeller g).stewards = s.stewards := rfl
@[simp] theorem Lanorun.setTeller_power (g : Teller → Teller) : (s.setTeller g).power = s.power := rfl
@[simp] theorem Lanorun.setTeller_eths (g : Teller → Teller) : (s.setTeller g).eths = s.eths := rfl
@[simp] theorem Lanorun.setTeller_host (g : Teller → Teller) : (s.setTeller g).host = s.host := rfl
@[simp] theorem Lanorun.setTeller_teller (g : Teller → Teller) : (s.setTeller g).teller = g s.teller := rfl
@[simp] theorem Lanorun.setTeller_keep (g : Teller → Teller) : (s.setTeller g).keep = s.keep := rfl
@[simp] theorem Lanorun.setTeller_jtag (g : Teller → Teller) : (s.setTeller g).jtag = s.jtag := rfl
@[simp] theorem Lanorun.setTeller_site (g : Teller → Teller) : (s.setTeller g).site = s.site := rfl
@[simp] theorem Lanorun.setTeller_at_reg (g : Teller → Teller) (q : Reg) (w j : Nat) : (s.setTeller g).reg q w j = s.reg q w j := rfl
@[simp] theorem Lanorun.setTeller_at_get (g : Teller → Teller) (f' : Fld) (w j : Nat) : (s.setTeller g).get f' w j = s.get f' w j := rfl
@[simp] theorem Lanorun.setTeller_at_flag (g : Teller → Teller) (f' : Fld) (w j : Nat) : (s.setTeller g).flag f' w j = s.flag f' w j := rfl
@[simp] theorem Lanorun.setTeller_at_cell (g : Teller → Teller) (w : Nat) : (s.setTeller g).cell w = s.cell w := rfl
@[simp] theorem Lanorun.setTeller_at_rgn (g : Teller → Teller) (w : Nat) : (s.setTeller g).rgn w = s.rgn w := rfl
@[simp] theorem Lanorun.setTeller_at_ptime (g : Teller → Teller) (w : Nat) : (s.setTeller g).ptime w = s.ptime w := rfl
@[simp] theorem Lanorun.setTeller_at_ten (g : Teller → Teller) (w : Nat) : (s.setTeller g).ten w = s.ten w := rfl
@[simp] theorem Lanorun.setTeller_at_wgt (g : Teller → Teller) (w : Nat) : (s.setTeller g).wgt w = s.wgt w := rfl
@[simp] theorem Lanorun.setTeller_at_vault (g : Teller → Teller) (w : Nat) : (s.setTeller g).vault w = s.vault w := rfl
@[simp] theorem Lanorun.setTeller_at_engine (g : Teller → Teller) (w : Nat) : (s.setTeller g).engine w = s.engine w := rfl
@[simp] theorem Lanorun.setTeller_at_port (g : Teller → Teller) (w : Nat) : (s.setTeller g).port w = s.port w := rfl
@[simp] theorem Lanorun.setTeller_at_eth (g : Teller → Teller) (w : Nat) : (s.setTeller g).eth w = s.eth w := rfl
@[simp] theorem Lanorun.setTeller_at_steward (g : Teller → Teller) (w : Nat) : (s.setTeller g).steward w = s.steward w := rfl

@[simp] theorem Lanorun.setPower_regs (g : Power → Power) : (s.setPower g).regs = s.regs := rfl
@[simp] theorem Lanorun.setPower_latch (g : Power → Power) : (s.setPower g).latch = s.latch := rfl
@[simp] theorem Lanorun.setPower_freeCtr (g : Power → Power) : (s.setPower g).freeCtr = s.freeCtr := rfl
@[simp] theorem Lanorun.setPower_hall (g : Power → Power) : (s.setPower g).hall = s.hall := rfl
@[simp] theorem Lanorun.setPower_rgns (g : Power → Power) : (s.setPower g).rgns = s.rgns := rfl
@[simp] theorem Lanorun.setPower_cells (g : Power → Power) : (s.setPower g).cells = s.cells := rfl
@[simp] theorem Lanorun.setPower_vaults (g : Power → Power) : (s.setPower g).vaults = s.vaults := rfl
@[simp] theorem Lanorun.setPower_engines (g : Power → Power) : (s.setPower g).engines = s.engines := rfl
@[simp] theorem Lanorun.setPower_mesh (g : Power → Power) : (s.setPower g).mesh = s.mesh := rfl
@[simp] theorem Lanorun.setPower_ports (g : Power → Power) : (s.setPower g).ports = s.ports := rfl
@[simp] theorem Lanorun.setPower_ni (g : Power → Power) : (s.setPower g).ni = s.ni := rfl
@[simp] theorem Lanorun.setPower_mover (g : Power → Power) : (s.setPower g).mover = s.mover := rfl
@[simp] theorem Lanorun.setPower_plan (g : Power → Power) : (s.setPower g).plan = s.plan := rfl
@[simp] theorem Lanorun.setPower_det (g : Power → Power) : (s.setPower g).det = s.det := rfl
@[simp] theorem Lanorun.setPower_frz (g : Power → Power) : (s.setPower g).frz = s.frz := rfl
@[simp] theorem Lanorun.setPower_stewards (g : Power → Power) : (s.setPower g).stewards = s.stewards := rfl
@[simp] theorem Lanorun.setPower_power (g : Power → Power) : (s.setPower g).power = g s.power := rfl
@[simp] theorem Lanorun.setPower_eths (g : Power → Power) : (s.setPower g).eths = s.eths := rfl
@[simp] theorem Lanorun.setPower_host (g : Power → Power) : (s.setPower g).host = s.host := rfl
@[simp] theorem Lanorun.setPower_teller (g : Power → Power) : (s.setPower g).teller = s.teller := rfl
@[simp] theorem Lanorun.setPower_keep (g : Power → Power) : (s.setPower g).keep = s.keep := rfl
@[simp] theorem Lanorun.setPower_jtag (g : Power → Power) : (s.setPower g).jtag = s.jtag := rfl
@[simp] theorem Lanorun.setPower_site (g : Power → Power) : (s.setPower g).site = s.site := rfl
@[simp] theorem Lanorun.setPower_at_reg (g : Power → Power) (q : Reg) (w j : Nat) : (s.setPower g).reg q w j = s.reg q w j := rfl
@[simp] theorem Lanorun.setPower_at_get (g : Power → Power) (f' : Fld) (w j : Nat) : (s.setPower g).get f' w j = s.get f' w j := rfl
@[simp] theorem Lanorun.setPower_at_flag (g : Power → Power) (f' : Fld) (w j : Nat) : (s.setPower g).flag f' w j = s.flag f' w j := rfl
@[simp] theorem Lanorun.setPower_at_cell (g : Power → Power) (w : Nat) : (s.setPower g).cell w = s.cell w := rfl
@[simp] theorem Lanorun.setPower_at_rgn (g : Power → Power) (w : Nat) : (s.setPower g).rgn w = s.rgn w := rfl
@[simp] theorem Lanorun.setPower_at_ptime (g : Power → Power) (w : Nat) : (s.setPower g).ptime w = s.ptime w := rfl
@[simp] theorem Lanorun.setPower_at_ten (g : Power → Power) (w : Nat) : (s.setPower g).ten w = s.ten w := rfl
@[simp] theorem Lanorun.setPower_at_wgt (g : Power → Power) (w : Nat) : (s.setPower g).wgt w = s.wgt w := rfl
@[simp] theorem Lanorun.setPower_at_vault (g : Power → Power) (w : Nat) : (s.setPower g).vault w = s.vault w := rfl
@[simp] theorem Lanorun.setPower_at_engine (g : Power → Power) (w : Nat) : (s.setPower g).engine w = s.engine w := rfl
@[simp] theorem Lanorun.setPower_at_port (g : Power → Power) (w : Nat) : (s.setPower g).port w = s.port w := rfl
@[simp] theorem Lanorun.setPower_at_eth (g : Power → Power) (w : Nat) : (s.setPower g).eth w = s.eth w := rfl
@[simp] theorem Lanorun.setPower_at_steward (g : Power → Power) (w : Nat) : (s.setPower g).steward w = s.steward w := rfl

@[simp] theorem Lanorun.setRgn_rgn_hit (k w : Nat) (x : Region) : (s.setRgn k x).rgn w = if w = k then x else s.rgn w := sget_sset ..
@[simp] theorem Lanorun.setCell_cell_hit (k w : Nat) (x : Cell) : (s.setCell k x).cell w = if w = k then x else s.cell w := sget_sset ..
@[simp] theorem Lanorun.setVault_vault_hit (k w : Nat) (x : Vault) : (s.setVault k x).vault w = if w = k then x else s.vault w := sget_sset ..
@[simp] theorem Lanorun.setEngine_engine_hit (k w : Nat) (x : Engine) : (s.setEngine k x).engine w = if w = k then x else s.engine w := sget_sset ..
@[simp] theorem Lanorun.setPort_port_hit (k w : Nat) (x : Port) : (s.setPort k x).port w = if w = k then x else s.port w := sget_sset ..
@[simp] theorem Lanorun.setEth_eth_hit (k w : Nat) (x : Eth) : (s.setEth k x).eth w = if w = k then x else s.eth w := sget_sset ..
@[simp] theorem Lanorun.setSteward_steward_hit (k w : Nat) (x : Steward) : (s.setSteward k x).steward w = if w = k then x else s.steward w := sget_sset ..
@[simp] theorem Lanorun.setTen_ten_hit (k w : Nat) (x : Ten) : (s.setTen k x).ten w = if w = k then x else s.ten w := sget_sset ..
@[simp] theorem Lanorun.setWgt_wgt_hit (k w : Nat) (x : WgtTen) : (s.setWgt k x).wgt w = if w = k then x else s.wgt w := sget_sset ..
@[simp] theorem Lanorun.setPtime_ptime_hit (k w : Nat) (x : PortTime) : (s.setPtime k x).ptime w = if w = k then x else s.ptime w := sget_sset ..

@[simp] theorem State.on_m (s : State) (f : Lanorun → Lanorun) : (s.on f).m = f s.m := rfl
@[simp] theorem State.on_pending (s : State) (f : Lanorun → Lanorun) : (s.on f).pending = s.pending := rfl
theorem State.on_eq (s : State) (f : Lanorun → Lanorun) : s.on f = { pending := s.pending, m := f s.m } := rfl

/-- Every command changes the module alone and answers a next state. -/
theorem exec_on (c : Instr) (s : State) : ∃ f : Lanorun → Lanorun, exec c s = .next (s.on f) := by
  cases c <;> exact ⟨_, rfl⟩

end Sys2Proof.Machine
end

