-- ==== Sys2Proof/Safety.lean ====
section
/-! DEFINITION. What a safe run is: every step answers a next state. -/
namespace Sys2Proof.Machine

/-- The step answers a next state: neither a fault nor a refusal ends the run. -/
def Advances (s : State) : Prop := ∃ t, step s = .next t

/-- n steps from s all answer a next state. -/
def SafeFor : Nat → State → Prop
  | 0, _ => True
  | n + 1, s => ∃ t, step s = .next t ∧ SafeFor n t

/-- Every addressed memory of the module is in canonical form: the cell stores, coffers and tail-chain records, the vaults' DRAM, the
stewards' SRAMs, host memory and the flash. -/
def Lanorun.memoriesWf (s : Lanorun) : Prop :=
  (∀ c, Memory.wf (s.cell c).store = true ∧ Memory.wf (s.cell c).coffer = true ∧ Memory.wf (s.cell c).tail = true) ∧
  (∀ v, Memory.wf (s.vault v).dram = true) ∧
  (∀ i, Memory.wf (s.steward i).isram = true ∧ Memory.wf (s.steward i).dsram = true) ∧
  Memory.wf s.host.mem = true ∧ Memory.wf s.keep.flash 0xFF#8 = true

end Sys2Proof.Machine
end

