-- ==== Sys2Proof/Laws/Memory.lean ====
section
/-! SUPPORT. Laws of the addressed memories: what a read gives after a write of many bytes, that every write keeps the canonical
form, and that reset's memories have it. -/
namespace Sys2Proof.Machine

variable {α : Type} [DecidableEq α]

/-- A key reads the value just written there, and every key outside the written ones what it read before. -/
theorem sget_ssets (d : α) (m : List (Nat × α)) (n k : Nat) (vs : List α) :
    sget d (ssets d m n vs) k = if n ≤ k then (vs[k - n]?).getD (sget d m k) else sget d m k := by
  induction vs generalizing m n with
  | nil => simp [ssets]
  | cons v vs ih =>
    rw [ssets, ih, sget_sset]
    by_cases h1 : n + 1 ≤ k
    · have h2 : n ≤ k := by omega
      have h3 : k ≠ n := by omega
      have h4 : k - n = (k - (n + 1)) + 1 := by omega
      rw [if_pos h1, if_pos h2, if_neg h3, h4, List.getElem?_cons_succ]
    · by_cases h2 : k = n
      · subst h2; rw [if_neg h1]; simp
      · have h3 : ¬ n ≤ k := by omega
        rw [if_neg h1, if_neg h3, if_neg h2]

/-- The byte i of what was written reads back. -/
theorem sget_ssets_at (d : α) (m : List (Nat × α)) (n i : Nat) (vs : List α) (v : α) (h : vs[i]? = some v) :
    sget d (ssets d m n vs) (n + i) = v := by
  rw [sget_ssets, if_pos (Nat.le_add_right n i), Nat.add_sub_cancel_left, h]; rfl

/-- A key outside the written ones reads what it read. -/
theorem sget_ssets_outside (d : α) (m : List (Nat × α)) (n k : Nat) (vs : List α) (h : k < n ∨ n + vs.length ≤ k) :
    sget d (ssets d m n vs) k = sget d m k := by
  rw [sget_ssets]
  by_cases hn : n ≤ k
  · have hl : vs.length ≤ k - n := by omega
    rw [if_pos hn, List.getElem?_eq_none hl]; rfl
  · rw [if_neg hn]

/-- Writing many values keeps the canonical form. -/
theorem swf_ssets (d : α) (lo n : Nat) (m : List (Nat × α)) (vs : List α) (hn : lo ≤ n)
    (h : swf (fun _ => d) lo m = true) : swf (fun _ => d) lo (ssets d m n vs) = true := by
  induction vs generalizing m n with
  | nil => exact h
  | cons v vs ih => exact ih (n + 1) _ (by omega) (swf_sset (fun _ => d) lo m n v hn h)

omit [DecidableEq α] in
@[simp] theorem length_sgets (d : α) (m : List (Nat × α)) (n k : Nat) : (sgets d m n k).length = k := by
  induction k generalizing n with
  | zero => rfl
  | succ k ih => simp [sgets, ih]

omit [DecidableEq α] in
theorem getElem_sgets (d : α) (m : List (Nat × α)) (n k i : Nat) (h : i < k) :
    (sgets d m n k)[i]? = some (sget d m (n + i)) := by
  induction k generalizing n i with
  | zero => omega
  | succ k ih =>
    cases i with
    | zero => simp [sgets]
    | succ i => rw [sgets, List.getElem?_cons_succ, ih (n + 1) i (by omega)]; congr 2; omega

/-- Reading back all that was written gives it. -/
theorem sgets_ssets (d : α) (m : List (Nat × α)) (n : Nat) (vs : List α) :
    sgets d (ssets d m n vs) n vs.length = vs := by
  apply List.ext_getElem?
  intro i
  by_cases h : i < vs.length
  · rw [getElem_sgets d _ n _ i h, List.getElem?_eq_getElem h,
      sget_ssets_at d m n i vs vs[i] (List.getElem?_eq_getElem h)]
  · rw [List.getElem?_eq_none (by simpa using Nat.le_of_not_lt h), List.getElem?_eq_none (Nat.le_of_not_lt h)]

/-! ## Every memory operation keeps the canonical form -/

theorem Memory.wf_nil (d : BitVec 8) : Memory.wf [] d = true := rfl

theorem Memory.wf_ssets (m : Memory) (d : BitVec 8) (n : Nat) (bs : List (BitVec 8)) (h : Memory.wf m d = true) :
    Memory.wf (ssets d m n bs) d = true := swf_ssets d 0 n m bs (Nat.zero_le n) h

theorem Cell.writeCoffer_wf (x : Cell) (a : Nat) (bs : List (BitVec 8)) (h : Memory.wf x.coffer = true) :
    Memory.wf (x.writeCoffer a bs).coffer = true := Memory.wf_ssets x.coffer 0#8 a bs h

theorem Cell.writeStore1_wf (x : Cell) (a : Nat) (bs : List (BitVec 8)) (h : Memory.wf x.store = true) :
    Memory.wf (x.writeStore1 a bs).store = true := Memory.wf_ssets x.store 0#8 a bs h

theorem Cell.writeStore_wf (x : Cell) (a : Nat) (bs : List (BitVec 8)) (h : Memory.wf x.store = true) :
    Memory.wf (x.writeStore a bs).store = true := by
  unfold Cell.writeStore
  by_cases hk : bs.length ≤ 0x100000 - a % 0x100000
  · simpa [hk] using Cell.writeStore1_wf x (a % 0x100000) bs h
  · simpa [hk] using Cell.writeStore1_wf _ 0 _ (Cell.writeStore1_wf x (a % 0x100000) _ h)

theorem Cell.meshWrite_wf (x : Cell) (a : Nat) (bs : List (BitVec 8)) (h : Memory.wf x.store = true) :
    Memory.wf (x.meshWrite a bs).store = true := Cell.writeStore_wf x a bs h

theorem Steward.putCode_wf (x : Steward) (o : Nat) (bs : List (BitVec 8)) (h : Memory.wf x.isram = true) :
    Memory.wf (x.putCode o bs).isram = true := Memory.wf_ssets x.isram 0#8 o bs h

theorem Steward.putData_wf (x : Steward) (o : Nat) (bs : List (BitVec 8)) (own : Bool) (h : Memory.wf x.dsram = true) :
    Memory.wf (x.putData o bs own).dsram = true := Memory.wf_ssets x.dsram 0#8 o bs h

theorem Lanorun.flashWrite_wf (s : Lanorun) (off : Nat) (bs : List (BitVec 8)) (h : Memory.wf s.keep.flash 0xFF#8 = true) :
    Memory.wf (s.flashWrite off bs).keep.flash 0xFF#8 = true := Memory.wf_ssets s.keep.flash 0xFF#8 off bs h

@[simp] theorem Lanorun.vault_setVault (s : Lanorun) (v u : Nat) (x : Vault) :
    (s.setVault v x).vault u = if u = v then x else s.vault u := by
  simp [Lanorun.vault, Lanorun.setVault, sget_sset]

@[simp] theorem Lanorun.cell_setCell (s : Lanorun) (c d : Nat) (x : Cell) :
    (s.setCell c x).cell d = if d = c then x else s.cell d := by
  simp [Lanorun.cell, Lanorun.setCell, sget_sset]

@[simp] theorem Lanorun.steward_setSteward (s : Lanorun) (i j : Nat) (x : Steward) :
    (s.setSteward i x).steward j = if j = i then x else s.steward j := by
  simp [Lanorun.steward, Lanorun.setSteward, sget_sset]

/-- A DRAM write keeps every vault's memory canonical. -/
theorem Lanorun.dramWrite_wf (s : Lanorun) (a : Nat) (bs : List (BitVec 8)) (u : Nat) (h : ∀ v, Memory.wf (s.vault v).dram = true) :
    Memory.wf ((s.dramWrite a bs).vault u).dram = true := by
  unfold Lanorun.dramWrite
  by_cases hr : s.vaultReady (vaultOf a) = true
  · simp only [hr, if_true, Lanorun.vault_setVault]
    by_cases hu : u = vaultOf a
    · simp only [hu, if_true]; exact Memory.wf_ssets _ 0#8 _ bs (h _)
    · simp only [hu, if_false]; exact h u
  · simp only [hr]; exact h u

/-- Draining the host-write queue keeps host memory canonical. -/
theorem Lanorun.hwqDrain_wf (s : Lanorun) (h : Memory.wf s.host.mem = true) : Memory.wf s.hwqDrain.host.mem = true := by
  have key : ∀ (q : List HostWrite) (m : Memory), Memory.wf m = true →
      Memory.wf (q.foldl (fun m w => ssets 0#8 m w.addr w.data) m) = true := by
    intro q
    induction q with
    | nil => exact fun m hm => hm
    | cons w q ih => exact fun m hm => ih _ (Memory.wf_ssets m 0#8 w.addr w.data hm)
  unfold Lanorun.hwqDrain
  by_cases hh : s.hostHeld = true
  · simpa [hh] using h
  · simp only [hh]; exact key _ _ h

/-- At reset every memory is canonical. -/
theorem reset_memoriesWf : State.reset.m.memoriesWf :=
  ⟨fun _ => ⟨rfl, rfl, rfl⟩, fun _ => rfl, fun _ => ⟨rfl, rfl⟩, rfl, rfl⟩

end Sys2Proof.Machine
end

