-- ==== Sys2Proof/Laws/Reg.lean ====
section
/-! SUPPORT. Laws of registers and fields: what a read gives after a write of a register or a field, for the same field, another
field of the register, and another register. -/
namespace Sys2Proof.Machine

/-! ## Bits -/

/-- The bits of a field of a word. -/
theorem testBit_bitsOf (w hi lo j : Nat) : (bitsOf w hi lo).testBit j = (decide (j < hi - lo + 1) && w.testBit (lo + j)) := by
  simp [bitsOf, Nat.testBit_mod_two_pow, Nat.testBit_shiftRight]

/-- The bits of a word with a field replaced. -/
theorem testBit_setBits {w hi lo v : Nat} (h : lo ≤ hi) (j : Nat) :
    (setBits w hi lo v).testBit j = if j < lo then w.testBit j else if j ≤ hi then v.testBit (j - lo) else w.testBit j := by
  have e : setBits w hi lo v =
      2 ^ (hi + 1) * (w >>> (hi + 1)) + (2 ^ lo * (v % 2 ^ (hi - lo + 1)) + w % 2 ^ lo) := by
    simp [setBits, Nat.shiftLeft_eq, Nat.mul_comm, Nat.add_assoc]
  have hl : w % 2 ^ lo < 2 ^ lo := Nat.mod_lt _ (Nat.two_pow_pos lo)
  have hv : v % 2 ^ (hi - lo + 1) < 2 ^ (hi - lo + 1) := Nat.mod_lt _ (Nat.two_pow_pos _)
  have hm : 2 ^ lo * (v % 2 ^ (hi - lo + 1)) + w % 2 ^ lo < 2 ^ (hi + 1) := by
    have e2 : 2 ^ (hi + 1) = 2 ^ lo * 2 ^ (hi - lo + 1) := by rw [← Nat.pow_add]; congr 1; omega
    calc 2 ^ lo * (v % 2 ^ (hi - lo + 1)) + w % 2 ^ lo
        < 2 ^ lo * (v % 2 ^ (hi - lo + 1)) + 2 ^ lo := by omega
      _ = 2 ^ lo * (v % 2 ^ (hi - lo + 1) + 1) := by rw [Nat.mul_add, Nat.mul_one]
      _ ≤ 2 ^ lo * 2 ^ (hi - lo + 1) := Nat.mul_le_mul_left _ hv
      _ = 2 ^ (hi + 1) := e2.symm
  rw [e, Nat.testBit_two_pow_mul_add _ hm]
  by_cases h1 : j < hi + 1
  · rw [if_pos h1, Nat.testBit_two_pow_mul_add _ hl]
    by_cases h2 : j < lo
    · simp [h2, Nat.testBit_mod_two_pow]
    · have h3 : j ≤ hi := by omega
      have h4 : j - lo < hi - lo + 1 := by omega
      simp [h2, h3, Nat.testBit_mod_two_pow, h4]
  · have h2 : ¬ j < lo := by omega
    have h3 : ¬ j ≤ hi := by omega
    have h4 : hi + 1 + (j - (hi + 1)) = j := by omega
    simp [h1, h2, h3, Nat.testBit_shiftRight, h4]

/-- A field set reads what was put there. -/
theorem bitsOf_setBits {w hi lo v : Nat} (h : lo ≤ hi) : bitsOf (setBits w hi lo v) hi lo = v % 2 ^ (hi - lo + 1) :=
  bitsOf_setBits_same h

/-- A field apart from the one set reads what it read. -/
theorem bitsOf_setBits_apart {w hi lo v hi' lo' : Nat} (h : lo ≤ hi) (ha : hi' < lo ∨ hi < lo') (h' : lo' ≤ hi') :
    bitsOf (setBits w hi lo v) hi' lo' = bitsOf w hi' lo' := by
  apply Nat.eq_of_testBit_eq
  intro j
  rw [testBit_bitsOf, testBit_bitsOf, testBit_setBits h]
  by_cases hj : j < hi' - lo' + 1
  · rcases ha with ha | ha
    · have : lo' + j < lo := by omega
      simp [hj, this]
    · have h1 : ¬ lo' + j < lo := by omega
      have h2 : ¬ lo' + j ≤ hi := by omega
      simp [hj, h1, h2]
  · simp [hj]

/-- A word keeps below 2^64 when a field inside is set. -/
theorem setBits_lt {w hi lo v : Nat} (h : lo ≤ hi) (hh : hi < 64) (hw : w < 2 ^ 64) : setBits w hi lo v < 2 ^ 64 := by
  apply Nat.lt_pow_two_of_testBit
  intro j hj
  have h1 : ¬ j < lo := by omega
  have h2 : ¬ j ≤ hi := by omega
  rw [testBit_setBits h]
  simp [h1, h2, Nat.testBit_lt_two_pow (Nat.lt_of_lt_of_le hw (Nat.pow_le_pow_right (by decide) hj))]

/-- A field's value fits its width. -/
theorem bitsOf_lt (w hi lo : Nat) : bitsOf w hi lo < 2 ^ (hi - lo + 1) := Nat.mod_lt _ (Nat.two_pow_pos _)

/-! ## Registers -/

/-- A register reads what was last written to it. -/
theorem reg_setReg_same (s : Lanorun) (r : Reg) (v u i : Nat) : (s.setReg r v u i).reg r u i = v % 2 ^ 64 := by
  simp [Lanorun.reg, Lanorun.setReg, sget_sset]

/-- Registers at other addresses keep what they read. -/
theorem reg_setReg_ne (s : Lanorun) (r q : Reg) (v u i w j : Nat) (h : q.addr w j ≠ r.addr u i) :
    (s.setReg r v u i).reg q w j = s.reg q w j := by
  simp [Lanorun.reg, Lanorun.setReg, sget_sset_ne _ _ _ _ _ _ h]

/-- A register is a 64-bit word. -/
theorem reg_lt (s : Lanorun) (r : Reg) (u i : Nat) : s.reg r u i < 2 ^ 64 := (sget _ s.regs (r.addr u i)).isLt

/-- A field lies inside a 64-bit word. -/
abbrev Fld.ok (f : Fld) : Prop := f.lo ≤ f.hi ∧ f.hi < 64

/-- The word of a register after one of its fields was set. -/
theorem reg_put_same (s : Lanorun) (f : Fld) (v u i : Nat) (h : f.ok) :
    (s.put f v u i).reg f.reg u i = setBits (s.reg f.reg u i) f.hi f.lo v := by
  rw [Lanorun.put, reg_setReg_same, Nat.mod_eq_of_lt (setBits_lt h.1 h.2 (reg_lt ..))]

/-- Registers at other addresses keep what they read. -/
theorem reg_put_ne (s : Lanorun) (f : Fld) (q : Reg) (v u i w j : Nat) (h : q.addr w j ≠ f.reg.addr u i) :
    (s.put f v u i).reg q w j = s.reg q w j := reg_setReg_ne _ _ _ _ _ _ _ _ h

/-- A field reads what was put there, cut to its width. -/
theorem get_put_same (s : Lanorun) (f : Fld) (v u i : Nat) (h : f.ok) :
    (s.put f v u i).get f u i = v % 2 ^ (f.hi - f.lo + 1) := by
  rw [Lanorun.get, reg_put_same s f v u i h, bitsOf_setBits h.1]

/-- Another field of the same register keeps what it read. -/
theorem get_put_apart (s : Lanorun) (f g : Fld) (v u i : Nat) (hf : f.ok) (hg : g.ok) (hr : g.reg = f.reg)
    (ha : g.hi < f.lo ∨ f.hi < g.lo) : (s.put f v u i).get g u i = s.get g u i := by
  rw [Lanorun.get, Lanorun.get, hr, reg_put_same s f v u i hf, bitsOf_setBits_apart hf.1 ha hg.1]

/-- A field of a register at another address keeps what it read. -/
theorem get_put_ne (s : Lanorun) (f g : Fld) (v u i w j : Nat) (h : g.reg.addr w j ≠ f.reg.addr u i) :
    (s.put f v u i).get g w j = s.get g w j := by
  rw [Lanorun.get, Lanorun.get, reg_put_ne s f g.reg v u i w j h]

/-- An event bit that hardware sets reads 1. -/
theorem flag_event_same (s : Lanorun) (f : Fld) (u i : Nat) (h : f.ok) : (s.event f u i).flag f u i = true := by
  have hm : 1 % 2 ^ (f.hi - f.lo + 1) = 1 := Nat.mod_eq_of_lt (by rw [Nat.pow_succ]; have := Nat.two_pow_pos (f.hi - f.lo); omega)
  simp [Lanorun.event, Lanorun.flag, get_put_same s f 1 u i h, hm]

end Sys2Proof.Machine
end

