-- ==== Sys2Proof/Tests/Slice0.lean ====
section
/-! SUPPORT. Tests: ill-formed commands, encodings written out from the spec's tables, the spec's worked examples, and for every statement
with hypotheses a state and operands that meet them, clause by clause. -/
open Sys2Proof.Spec

namespace Sys2Proof.Machine

/-- The module with an image active in slot 0. -/
def Lanorun.withImage (m : Lanorun) (im : Image) : Lanorun :=
  m.setPlan fun p => { p with images := [(0, im)], active := some 0 }

/-- The module whose interface has packet k to deliver. -/
def Lanorun.receiving (m : Lanorun) (k : Packet) : Lanorun := m.setNi fun n => { n with inbox := [k] }

/-- The module with a mailbox request of an opcode, with a directory record in the flash, and with a service port that is served. -/
def Lanorun.asked (m : Lanorun) (op : Nat) : Lanorun := (m.put F.HST_MBOX_STATUS_BUSY 1).put F.HST_MBOX_STATUS_OPCODE op

def Lanorun.withDir (m : Lanorun) (active a b : Nat) : Lanorun :=
  m.flashWrite 0 (Dir.bytes { dseq := 1, active := active, stateA := a, stateB := b, attempts := 0, verA := 5, verB := 6 })

def Lanorun.served1 (m : Lanorun) : Lanorun := (m.put F.MOD_SVC_LINK_UP 1).put F.KEP_STATUS_STAGE 3

end Sys2Proof.Machine

namespace Sys2Proof.Tests
open Sys2Proof.Machine
set_option Elab.async false

/-- The state whose module is m, with no command waiting. -/
def st (m : Lanorun) : State := { m := m }

/-- The module after reset. -/
abbrev L0 : Lanorun := Lanorun.reset

/-- n bytes, zero but for the fields that a list gives by offset, width in bytes and value. -/
def bytesOf (n : Nat) (fs : List (Nat × Nat × Nat)) : List (BitVec 8) :=
  (List.range n).map fun i => match fs.find? fun f => decide (f.1 ≤ i) && decide (i < f.1 + f.2.1) with
    | some f => BitVec.ofNat 8 (f.2.2 / 256 ^ (i - f.1))
    | none => 0#8

/-- A section of a type and tenancy with its records. -/
def sec (ty ten : Nat) (rs : List (List (BitVec 8))) : Section :=
  { ty := ty, flags := 0, ver := 0, ten := ten, off := 0, size := 16 + rs.flatten.length, crc := 0,
    body := leBytes 4 rs.length ++ leBytes 4 (rs.headD []).length ++ List.replicate 8 0#8 ++ rs.flatten }

/-- An image of one tenancy with the fields of its TENANCY record, bound to some cells, and further sections. -/
def image1 (fs : List (Nat × Nat × Nat)) (cells : List Nat) (more : List Section) : Image :=
  { header := bytesOf 256 [(0x2A, 1, 1)], secs := sec 1 0xFF [bytesOf 64 fs] :: more, bound := [(0, cells)] }

/-- A flit from its first bytes, and a unit of a KIND and SEQ with odd parity on every lane. -/
def flit (bs : List Nat) : BitVec 512 := BitVec.ofNat 512 (leNat (bs.map (BitVec.ofNat 8)))

def unitOf (kind seq : Nat) (bs : List (BitVec 8)) : BitVec 544 :=
  BitVec.ofNat 544 ((List.range 16).map fun i => laneWord kind seq bs i * 2 ^ (34 * i)).sum

/-- A control packet and a data packet with their check, from module 9 with tag 3. -/
def ctlPkt (op pkey : Nat) (body : List (BitVec 8)) : Packet := Packet.withCrc { hdr := mkHdr 1 3 pkey 0 9 3 op 0 0 body }

def dataPkt (op pkey target : Nat) (data : List (BitVec 8)) : Packet :=
  Packet.withCrc { hdr := mkHdr 2 1 pkey 0 9 3 op ((data.length + 63) / 64) 0 (dataBody target 0 0 true data.length), data := data }

/-- An image with a SERVING tenancy of one slot, and the lead of it: running, its host link up, account 3 enabled, one entry waiting. -/
def serveIm : Image :=
  image1 [(1, 1, 1), (6, 1, 0x80)] [] [sec 12 0 [bytesOf 64 [(0, 4, 64), (0xA, 2, 1), (0x10, 4, 100), (0x20, 8, 0x12000)]], sec 5 0 [bytesOf 16 []]]

def lead : Lanorun :=
  ((((((((L0.withImage serveIm).setReg R.MOD_RANK 0x8000).put F.MOD_POSID_ID 0).setOn 110 true).put F.HST_STATUS_BME 1).put F.HST_STATUS_LSTATE 0).put
    F.TLR_CTRL_ENABLE 1).put F.PLN_TEN_STAT_STATE tenRunning 0 0).put F.TLR_SQ_PTR_TAIL 1
    |>.setTeller (fun t => { t with accounts := [(3, { enabled := true })] }) |>.setHost fun h => { h with inReset := false }

/-- The lead with a request in slot 0. -/
def leadReq (r : TlrReq) : Lanorun := lead.setReq 0 (some r)

/-- A submission entry: KIND, flags and account, the request's number, its prompt length, token limit and ring size. -/
def sqEntry (fl acct id len new ring : Nat) : BitVec 512 :=
  BitVec.ofNat 512 (leNat (bytesOf 64 [(0, 1, 1), (1, 1, fl), (2, 2, acct), (8, 8, id), (0x18, 4, len), (0x1C, 4, new), (0x28, 4, ring)]))

/-- The module with Ethernet port 1 up. -/
def ethM : Lanorun := (L0.setOn 109 true).put F.ETH_STATUS_LINK_UP 1 1

/-- The module with an ACTIVE next hop 3, module 9, in a phase. -/
def hopM (ph : Nat) : Lanorun :=
  (((L0.setReg R.KEP_CHAIN (0x91 * 2 ^ 24)).put F.LNK_STATUS_STATE 5 17).put F.LNK_STATUS_PEER_ID 9 17).setKeep fun k => { k with hops := [(3, ph)] }

/-- No tenancy runs and no link is up at reset, nor where only the pins' register has changed. -/
theorem reset_ten (t : Nat) : L0.tenState t = 0 := by
  change bitsOf (BitVec.ofNat 64 0).toNat 35 32 = 0
  decide

theorem reset_link (p : Nat) : L0.linkState p = 0 := by
  change bitsOf (BitVec.ofNat 64 0x3E00300000000).toNat 3 0 = 0
  decide

theorem eb_ten (t : Nat) : (L0.put F.MOD_PINS_EB 1).tenState t = 0 :=
  (get_put_ne L0 F.MOD_PINS_EB F.PLN_TEN_STAT_STATE 1 0 0 0 t (by
    change 0x30000 + 0x200 + 0x10 * t ≠ 0 + 0x90 + 0; omega)).trans (reset_ten t)

theorem eb_link (p : Nat) : (L0.put F.MOD_PINS_EB 1).linkState p = 0 :=
  (get_put_ne L0 F.MOD_PINS_EB F.LNK_STATUS_STATE 1 0 0 p 0 (by
    change 0x100000 + p * 0x10000 + 8 + 0 ≠ 0 + 0x90 + 0; omega)).trans (reset_link p)

/-- With no image active a statement over the active image holds. -/
theorem noImage {m : Lanorun} {P : Image → Prop} (h : m.activeImage = none) : ∀ im, m.activeImage = some im → P im :=
  fun _ e => nomatch h.symm.trans e

/-- A locked module with command slot 7 armed for an activation of a handle at tick 0, and one whose slot 3 is READY with handle 0x104. -/
def actM (h : Nat) : Lanorun :=
  ((((L0.put F.BLF_CMD_CTRL_STAT 1 0 7).put F.BLF_CMD_CTRL_KIND 1 0 7).put F.BLF_CMD_TICK_TICK 0 0 7).put F.BLF_CMD_CTRL_ARG h 0 7).put
    F.BLF_STATUS_STATE 3

def readyM : Lanorun := ((actM 0x104).put F.PLN_SLOT_STAT_STATE 2 0 3).put F.PLN_SLOT_STAT_HANDLE 0x104 0 3

/-- Every link of a module is DOWN; the eight vaults of a module are ready. -/
def linksDown (m : Lanorun) : Lanorun := (List.range 18).foldl (fun m p => m.put F.LNK_STATUS_STATE 7 p) m

def vaultsReady (m : Lanorun) : Lanorun := (List.range 8).foldl (fun m v => m.put F.VLT_STATUS_READY 1 v) m

/-- The lead as the host reaches it in normal operation. -/
def hostM : Lanorun := lead.put F.KEP_STATUS_STAGE 3

/-! ## Well-formedness: an ill-formed command for each check, which the check refuses -/

theorem test_wf_requesters : Instr.wf (.regWrite (.head 4) 0 ⟨0, 0⟩) = false ∧ Instr.wf (.regWrite (.block 80) 0 ⟨0, 0⟩) = false ∧
    Instr.wf (.regWrite (.block 79) 0 ⟨0, 0⟩) = true ∧ Instr.wf (.hsReset 0 (.head 4) false) = false := by decide

/-- A TIME unit with all fields zero. -/
def timeUnit : TimeUnit := { state := 0, role := 0, locTxrx := 0, arrValid := true, bound := 0, tDep := 0, tArr := 0 }

theorem test_wf_times : Instr.wf (.timeReceive 0 timeUnit 0 0) = true ∧
    Instr.wf (.timeReceive 0 { timeUnit with state := 16 } 0 0) = false ∧
    Instr.wf (.timeReceive 0 { timeUnit with role := 4 } 0 0) = false ∧
    Instr.wf (.timeReceive 0 { timeUnit with locTxrx := 32768 } 0 0) = false ∧
    Instr.wf (.timeReceive 0 { timeUnit with locTxrx := -32769 } 0 0) = false ∧
    Instr.wf (.timeReceive 0 { timeUnit with bound := 65536 } 0 0) = false ∧
    Instr.wf (.timeReceive 0 { timeUnit with tDep := 2 ^ 80 } 0 0) = false ∧
    Instr.wf (.timeReceive 0 { timeUnit with tArr := 2 ^ 80 } 0 0) = false ∧
    Instr.wf (.timeReceive 0 timeUnit (2 ^ 80) 0) = false ∧ Instr.wf (.timeReceive 0 timeUnit 0 (2 ^ 52)) = false := by decide

theorem test_wf_lengths : Instr.wf (.monitorEvaluate [] [] []) = false ∧ Instr.wf (.hostBar0Access false 0 0 0) = false ∧
    Instr.wf (.hostBar0Access false 0x1FFFFFF 2 0) = false ∧ Instr.wf (.hostBar2Read 0 0 []) = false ∧
    Instr.wf (.hostBar2Read 0xFFFFFFFFF 2 []) = false ∧ Instr.wf (.hostBar2Write 0 []) = false ∧
    Instr.wf (.hostBar2Write 0xFFFFFFFFF [0, 0]) = false := by decide

theorem test_wf_long_lists : Instr.wf (.promptChunkFetched 0 (List.replicate 4097 0)) = false ∧
    Instr.wf (.promptChunkFetched 0 (List.replicate 4096 0)) = true ∧
    Instr.wf (.mgmtFrameReceive 0 (List.replicate 9217 0)) = false := by decide +kernel

theorem test_wf_units : Instr.wf (.pdOn 112) = false ∧ Instr.wf (.pdOff 112) = false ∧ Instr.wf (.retire 0 1360) = false ∧
    Instr.wf (.retire 1 80) = false ∧ Instr.wf (.retire 2 16) = false ∧ Instr.wf (.retire 3 0) = false ∧
    Instr.wf (.retire 0 1359) = true ∧ Instr.wf (.unschedFlitForward 0 6250 []) = false ∧
    Instr.wf (.extest [(5, true), (5, false)]) = false := by decide

theorem test_wf_spdm : Instr.wf (.attest (.challenge 0 [])) = false ∧ Instr.wf (.attest (.getCertificate 16 0 0)) = false ∧
    Instr.wf (.attest (.getCertificate 0 65536 0)) = false ∧ Instr.wf (.attest (.getCertificate 0 0 65536)) = false ∧
    Instr.wf (.svcSpdm 0 (.getMeasurements 256 (List.replicate 32 0))) = false ∧ Instr.wf (.svcSpdm 0 (.other 256)) = false ∧
    Instr.wf (.challenge 0 []) = false ∧ Instr.wf (.getMeasurements 0 []) = false := by decide

/-- A slot command whose body is another operation's, one slot of each kind. -/
theorem test_wf_bodies : Instr.wf (.sub 0 0x04061100 none) = false ∧ Instr.wf (.add 0 0x04061100 none) = true ∧
    Instr.wf (.visub 0 0x0406082000000000) = false ∧ Instr.wf (.drain 0 0x0400000000000000) = false ∧
    Instr.wf (.lds 0 0x0406100000000040) = false ∧ Instr.wf (.stw 0 0x0806100000000040) = false ∧
    Instr.wf (.twait 0 0x080000C8) = false := by decide

/-! ## Bundles and slot bodies, written out from the tables of R107, R111, R114, R130, R146, R177, R180, R211 and R212 -/

/-- The worked example after R110: ADDI s1, s0, 4 and EFS with RESUME 200, in 12 bytes; an idle-repeat of 185 rc. -/
theorem test_bundle_example :
    (decodeBundle [0x00, 0x00, 0x00, 0x84, 0x04, 0x00, 0x02, 0x08, 0xC8, 0x00, 0x00, 0x08]).toOption =
      some { len := 12, s := some (.addi, 0x08020004, none), y := some (.efs, 0x080000C8) } ∧
    (decodeBundle [0xB8, 0x00, 0x00, 0x01]).toOption = some { len := 4, idle := some 184 } := by decide

/-- OPC, PRED, RD, RA, RB and FN of ADD s3, s1, s2; OPC, PRED, RD, RA and IMM of ANDI with its extension. -/
theorem test_scalar_bodies : decodeS 0b000001_0000_00011_00001_00010_0000000 none = some .add ∧
    decodeS 0b000011_1001_00011_00001_000000000000 (some 0xFFFF0000) = some .andi ∧
    decodeS 0b000011_1001_00011_00001_000000000001 (some 0xFFFF0000) = none ∧
    decodeS 0b000110_0000_00011_00001_000001000000 none = none ∧
    decodeS 0b001001_0000_01000_00001_00010_0000011 none = none ∧ decodeS 0b111111_0000_00011_00001_00010_0000000 none = none := by
  decide

/-- OPC, PRED, VD, VA, VB, VC, BMODE, CLINE, FN and ROW of VFMA v3, v1, v2, v4; VSLLI by 5, and with SB not zero. -/
theorem test_vector_bodies :
    decodeV 0b001000_0000_00011_00001_00010_00100_00_00000000_00000101_0000_000000000000 = some .vfma ∧
    decodeV 0b001000_0000_00011_00001_00010_00100_11_00000000_00000101_0000_000000000000 = none ∧
    decodeV 0b100000_0000_00011_00001_00000_00000_00_00000000000000000000000000000101 = some .vslli ∧
    decodeV 0b100000_0000_00011_00001_00001_00000_00_00000000000000000000000000000101 = none := by decide

/-- OPC, PRED, BANK, ACC, EXACT, WEAUTO, FA, FB, SCALE, MQ, NQ, KU, ALINE, BLINE, SLINE and WREG of an exact MMA of E4M3 panels of 64 by 32
with K = 1,024 and the window exponent in s7; a BF16 pair must not be exact. -/
theorem test_matrix_bodies :
    decodeM 0b000001_0000_1_0_1_0_000_000_0_11_11_000000_00000100_10000000_00000000_00111_0000 = some .mma ∧
    mmaOf 0b000001_0000_1_0_1_0_000_000_0_11_11_000000_00000100_10000000_00000000_00111_0000 =
      { bank := 1, acc := false, exact := true, weauto := false, fa := 0, fb := 0, scaled := false, mq := 3, nq := 3, k := 1024,
        aline := 4, bline := 128, sline := 0, wreg := 7 } ∧
    decodeM 0b000001_0000_1_0_1_0_110_110_0_11_11_000000_00000100_10000000_00000000_00111_0000 = none := by decide

/-- OPC, PRED, REG, RA, LINE, NL and OFFSET of LDW and of STC; a T body with NL not zero is reserved. -/
theorem test_memory_bodies :
    decodeL 0b000011_0000_00111_00001_00000000_0000_000000000000_00000000000001000000 = some .ldw ∧
    decodeT 0b000100_0000_00000_00001_11111111_0000_000000000000_00000000000100000000 = some .stc ∧
    decodeT 0b000100_0000_00000_00001_11111111_0001_000000000000_00000000000100000000 = none := by decide

/-- OPC, PRED, A, F and IMM of TWAIT on tally 9 and of TTEST into p3; SEND's descriptor has six bits. -/
theorem test_sync_bodies : decodeY 0b000011_0000_1001_00_0000000000000101 = some .twait ∧
    decodeY 0b000101_0000_0011_00_1001000000000101 = some .ttest ∧ decodeY 0b000110_0000_0000_00_0000000001000000 = none := by
  decide

theorem test_table_gives_no_bits : decodeTableWord 32 5 = none := rfl

/-! ## The spec's worked examples -/

/-- Locating a cell (after R24): cell 1,000 has its registers at 0x01B6E000; the host reaches CEL_FAULT at BAR0 + 0x1B6E020 (after R439). -/
theorem test_cell_1000 : R.CEL_FAULT.addr 1000 0 = 0x1B6E020 ∧ L0.bar0 0x1B6E020 = 0x1B6E020 := by decide +kernel

/-- Order independence (05_matrix_arithmetic.md): in FP32 mode three groups give +0; an exact bank that holds 512 at WE = -18 drains to
0x3B000000 and puts 0x07DC... on the ledger wire. -/
theorem test_order_independence :
    accGroups 3 0 ((List.range 48).map fun k =>
      (decodeElem 0 (listGet 0 [0x78, 0x20, 0xF8] (k / 16))).mul (if k % 16 = 0 then decodeElem 0 (listGet 0 [0x78, 0x08, 0x78] (k / 16))
        else decodeElem 0 0)) = 0 ∧
    drainValue true (-18) { x := 512 } = 0x3B000000 ∧
    (drainWord (-18) { x := 512 }).1.bits = 0x07DC0000000000000000000000000200 := by decide +kernel

/-- K row 1,000 of engine 5 of vault 6 (07_memory_vaults.md): vault address 0x60203E8500. -/
theorem test_engine_row : EngCtx.at ⟨6 * 32 + 5, none, none, 0, 0⟩ (0x1000000 + 1000 * 128) = 0x60203E8500 := by decide

/-- Cumulative return across the wrap (09_link_layer.md): 2,000 data credits are free. -/
theorem test_credit_wrap :
    (((L0.put F.LNK_CREDIT_TX_DATA_LIM 1464 3 1).put F.LNK_CREDIT_TX_DATA_CONS 65000 3 1).credits 3 1).2 = 2000 := by decide +kernel

/-! ## The queue -/

/-- The first command in is the first out, and the second stays: DOORBELL raises BUSY and leaves ACK in the queue. -/
theorem test_first_in_first_out :
    (match step { m := L0, pending := [.doorbell 9, .mboxAck 7] } with
     | .next s => decide (s.m.flag F.HST_MBOX_STATUS_BUSY = true ∧ s.pending = [.mboxAck 7])
     | _ => false) = true := by decide +kernel

/-! ## Witnesses of the statements' hypotheses, in the order of their clauses -/

theorem witness_EveryStepAnswers :
    ∃ (s : State), s.pending = [] :=
  ⟨st (L0), by decide +kernel⟩

theorem witness_QueueStaysWellFormed :
    (∃ (s : State) (s' : State), ((∀ c ∈ s.pending, c.wf = true)) ∧ (step s = .next s')) :=
  ⟨{ m := L0, pending := [.mboxAck 7, .post 5] }, { m := L0, pending := [.post 5] }, ⟨by decide, rfl⟩⟩

theorem witness_HallTimeMoves :
    (∃ (s : State), (s.m.blfState = blfFine) ∧ (256 ≤ s.m.hall.lockFrames) ∧ (s.m.hall.bound ≤ s.m.boundLim) ∧ (s.m.validParent (s.m.get
      F.BLF_STATUS_PARENT_PORT) = true)) ∧
    (∃ (s : State), s.m.planActive = false) ∧
    (∃ (s : State), (s.m.blfState = blfFreerun) ∧ (s.m.flag F.BLF_CTRL_ENABLE = true) ∧ (s.m.role = 0)) ∧
    (∃ (s : State), (s.m.blfState = blfFreerun) ∧ (s.m.flag F.BLF_CTRL_ENABLE = true) ∧ (s.m.role ≠ 0) ∧ (s.m.flag F.BLF_CTRL_PTP_EN =
      true)) ∧
    (∃ (s : State), (s.m.get F.BLF_STATUS_PARENT_PORT ≠ 0x1F) ∧ (s.m.validParent (s.m.get F.BLF_STATUS_PARENT_PORT) = false) ∧
      (s.m.blfState = blfLocked) ∧ ((s.m.event F.BLF_EVENT_PARENT_LOST).bestParent = none)) ∧
    (∃ (s : State), (s.m.blfState = blfHoldover) ∧ (s.m.hall.bound + (holdGrowth s.m) / 1562500 < s.m.boundLim)) ∧
    (∃ (s : State) (ms : Nat), (s.m.hall.lat = s.m.hall.holdAt + 1562500 * ms) ∧ (s.m.hall.holdFrac = 0)) ∧
    (∃ (s : State), (s.m.blfState = blfHoldover) ∧ (s.m.boundLim < s.m.hall.bound + holdGrowth s.m / 1562500)) ∧
    (∃ (u : TimeUnit), u.arrValid = true) ∧
    (∃ (u : TimeUnit), u.arrValid = false) ∧
    (∃ (s : State), (s.m.blfState = blfCoarse) ∧ (s.m.flag F.BLF_STATUS_PTP_VALID = true) ∧ (s.m.hall.ptpStepped = false) ∧
      (s.m.planActive = false)) :=
  ⟨ ⟨st ((((((L0.setHall fun h => { h with lockFrames := 256, bound := 500 }).put F.BLF_STATUS_STATE 2).put F.BLF_LIMITS_BOUND_LIM
      500).put F.BLF_STATUS_ROLE_ACT 2).put F.BLF_STATUS_PARENT_PORT 4).put F.LNK_STATUS_STATE 5 4 |>.setPtime 4
      { since := 0, done := true, peerState := 3 }), by decide +kernel⟩,
    ⟨st (L0), by decide +kernel⟩,
    ⟨st ((L0.put F.BLF_CTRL_ENABLE 1).put F.BLF_STATUS_ROLE_ACT 0), by decide +kernel⟩,
    ⟨st (((L0.put F.BLF_CTRL_ENABLE 1).put F.BLF_STATUS_ROLE_ACT 1).put F.BLF_CTRL_PTP_EN 1), by decide +kernel⟩,
    ⟨st ((L0.put F.BLF_STATUS_STATE 3).put F.BLF_STATUS_PARENT_PORT 4), by decide +kernel⟩,
    ⟨st ((((L0.setHall fun h => { h with bound := 450 }).put F.BLF_STATUS_STATE 4).put F.BLF_CTRL_HOLD_RATE 5).put F.BLF_LIMITS_BOUND_LIM
      500), by decide +kernel⟩,
    ⟨st (L0.setHall fun h => { h with lat := 4687507, holdAt := 7, holdFrac := 0 }), 3, by decide +kernel⟩,
    ⟨st ((((L0.setHall fun h => { h with bound := 451, lat := 1562500 }).put F.BLF_STATUS_STATE 4).put F.BLF_CTRL_HOLD_RATE 5).put
      F.BLF_LIMITS_BOUND_LIM 500), by decide +kernel⟩,
    ⟨⟨3, 2, -100, 10, 262200000, true, 262700000⟩, by decide +kernel⟩,
    ⟨⟨3, 2, -100, 10, 262200000, false, 0⟩, by decide +kernel⟩,
    ⟨st ((L0.put F.BLF_STATUS_STATE 1).put F.BLF_STATUS_PTP_VALID 1), by decide +kernel⟩⟩

theorem witness_RegionFieldsWritten :
    (∃ (s : State), s.m.planActive = true) ∧
    (∃ (s : State) (k : BitVec 7), s.m.get F.MOD_IDENT_CLK_STEP_MAX < k.toNat) ∧
    (∃ (s : State) (r : RegionIx) (k : BitVec 7), (s.m.planActive = false) ∧ (s.m.isOn (80 + r) = true) ∧ (k.toNat ≤ s.m.get
      F.MOD_IDENT_CLK_STEP_MAX) ∧ ((s.m.rgn r).aligned = true ∨ s.m.get F.RGN_CLK_PLAN_STEP r = k.toNat)) ∧
    (∃ (s : State) (r : RegionIx) (k : BitVec 7), (s.m.planActive = false) ∧ (s.m.isOn (80 + r) = true) ∧ (k.toNat ≤ s.m.get
      F.MOD_IDENT_CLK_STEP_MAX) ∧ ((s.m.rgn r).aligned = false) ∧ (s.m.get F.RGN_CLK_PLAN_STEP r ≠ k.toNat)) ∧
    (∃ (s : State) (r : RegionIx), (s.m.planActive = false) ∧ (s.m.isOn (80 + r) = true)) :=
  ⟨ ⟨st (L0.put F.PLN_ACT_HANDLE 1), by decide +kernel⟩,
    ⟨st (L0.put F.MOD_IDENT_CLK_STEP_MAX 10), 11#7, by decide +kernel⟩,
    ⟨st (((L0.put F.MOD_IDENT_CLK_STEP_MAX 10).setRgn 0 { aligned := true }).setOn 80 true), 0, 10#7, by decide +kernel⟩,
    ⟨st (((L0.put F.MOD_IDENT_CLK_STEP_MAX 10).setRgn 15 { aligned := false }).setOn 95 true), 15, 10#7, by decide +kernel⟩,
    ⟨st (L0.setOn 95 true), 15, by decide +kernel⟩⟩

theorem witness_AlignmentPicksCentre :
    (∃ (s : State) (r : RegionIx) (pass : BitVec 64), (pass ≠ 0#64) ∧ (s.m.isOn (80 + r) = true) ∧ (65 ≤ (s.m.rgn r).bells) ∧ (s.m.get
      F.RGN_XCAL_ALIGN_DONE r = 0) ∧ ((s.m.rgn r).alignFail = false)) ∧
    (∃ (s : State) (r : RegionIx), (s.m.isOn (80 + r) = true) ∧ (65 ≤ (s.m.rgn r).bells) ∧ (s.m.get F.RGN_XCAL_ALIGN_DONE r = 0) ∧
      ((s.m.rgn r).alignFail = false)) ∧
    (∃ (s : State) (r : RegionIx), (s.m.rgn r).bells < 65) :=
  ⟨ ⟨st ((L0.setRgn 15 { bells := 65 }).setOn 95 true), 15, 0x8000000000000000#64, by decide +kernel⟩,
    ⟨st ((L0.setRgn 15 { bells := 65 }).setOn 95 true), 15, by decide +kernel⟩,
    ⟨st (L0.setRgn 15 { bells := 64 }), 15, by decide +kernel⟩⟩

theorem witness_DroopRemovesNextEdge :
    ∃ (s : State) (r : RegionIx), (s.m.isOn (80 + r) = true) ∧ (s.m.frozen = false) ∧ ((s.m.rgn r).droops.length ≤ 8) :=
  ⟨st ((L0.setRgn 3 { pos := 6248, droops := [0, 1, 2, 3, 4, 5, 6, 7] }).setOn 83 true), 3, by decide +kernel⟩

theorem witness_SnapLatchesGroup :
    (∃ (s : State) (a : BitVec 48) (r : Reg) (fs : List Fld) (u : Nat) (i : Nat) (g : Grp), (findReg a.toNat = some (r, fs, u, i)) ∧
      (snapGrp r = some g) ∧ (s.m.answers r u = true)) ∧
    (∃ (m : Lanorun) (q : Reg), (m.latch = State.reset.m.latch) ∧ (q.reset < 2 ^ 64)) :=
  ⟨ ⟨st (L0.setOn 104 true), BitVec.ofNat 48 (R.LNK_CTRL.addr 2 0), R.LNK_CTRL, (lnkTable.lookup R.LNK_CTRL).getD [], 2, 0, .lnk,
      by decide +kernel⟩,
    ⟨L0, R.LNK_PARITY_CNT, by decide +kernel⟩⟩

theorem witness_OverflowClears :
    ∃ (s : State) (a : BitVec 48) (r : Reg) (fs : List Fld) (u : Nat) (i : Nat), (findReg a.toNat = some (r, fs, u, i)) ∧ (isErrCounter fs
      = true) ∧ (s.m.answers r u = true) :=
  ⟨st (L0.setOn 104 true), BitVec.ofNat 48 (R.LNK_PARITY_CNT.addr 2 0), R.LNK_PARITY_CNT, (lnkTable.lookup R.LNK_PARITY_CNT).getD [], 2,
    0, by decide +kernel⟩

theorem witness_CountersStickAndWrap :
    (∃ (m : Lanorun) (p : PortIx), m.get F.LNK_PARITY_CNT_COUNT p = 0xFFFFFFFF) ∧
    (∃ (m : Lanorun) (p : PortIx), m.get F.LNK_PARITY_CNT_COUNT p = 0xFFFFFFFE) ∧
    (∃ (m : Lanorun) (r : RegionIx), (m.get F.RGN_DROOP_CNT_COUNT r = 2 ^ 48 - 1) ∧ (m.get F.RGN_DROOP_CNT_WRAP r < 0xFFFF)) :=
  ⟨ ⟨L0.put F.LNK_PARITY_CNT_COUNT 0xFFFFFFFF 17, 17, by decide +kernel⟩,
    ⟨L0.put F.LNK_PARITY_CNT_COUNT 0xFFFFFFFE 17, 17, by decide +kernel⟩,
    ⟨(L0.put F.RGN_DROOP_CNT_COUNT 0xFFFFFFFFFFFF 15).put F.RGN_DROOP_CNT_WRAP 0xFFFE 15, 15, by decide +kernel⟩⟩

theorem witness_SlotsFire :
    (∃ (s : State) (i : CmdSlotIx), DueAlone s.m i 4) ∧
    (∃ (s : State) (i : CmdSlotIx), (DueAlone s.m i 3) ∧ (s.m.frz.tz = none)) ∧
    (∃ (s : State) (i : CmdSlotIx) (a : BitVec 32), (DueAlone s.m i 2) ∧ (s.m.get F.BLF_CMD_CTRL_ARG 0 i = a.toNat) ∧ (s.m.activeImage =
      none)) ∧
    (∃ (s : State) (i : CmdSlotIx) (t : TenancyIx) (b : Bool) (k : Nat) (im : Image), (DueAlone s.m i 2) ∧ (0 < k) ∧ (k ≤ 2 ^ 22) ∧
      (s.m.get F.BLF_CMD_CTRL_ARG 0 i = t.val * 2 ^ 28 + b.toNat * 2 ^ 24 + ((s.m.ten t).step + k) % 2 ^ 24) ∧ (s.m.activeImage = some im)
      ∧ (t.val < im.tenancyCount) ∧ (im.pairs t ≠ []) ∧ (im.single t = false) ∧ (s.m.tenState t ≠ tenHalted) ∧ (s.m.tenState t ≠ tenDone)
      ∧ ((s.m.wgt t).pend = none) ∧ ((s.m.wgt t).bankAt (s.m.ten t).step ≠ some b)) :=
  ⟨ ⟨st ((((L0.put F.BLF_CMD_CTRL_STAT 1 0 7).put F.BLF_CMD_CTRL_KIND 4 0 7).put F.BLF_CMD_TICK_TICK 3999 0 7).put F.BLF_CMD_CTRL_ARG 77 0
      7), 7, by decide +kernel⟩,
    ⟨st (((L0.put F.BLF_CMD_CTRL_STAT 1 0 7).put F.BLF_CMD_CTRL_KIND 3 0 7).put F.BLF_CMD_TICK_TICK 3984 0 7), 7, by decide +kernel⟩,
    ⟨st ((((L0.put F.BLF_CMD_CTRL_STAT 1 0 7).put F.BLF_CMD_CTRL_KIND 2 0 7).put F.BLF_CMD_TICK_TICK 0 0 7).put F.BLF_CMD_CTRL_ARG
      0xF1000001 0 7), 7, 0xF1000001#32, by decide +kernel⟩,
    ⟨st (((((L0.put F.BLF_CMD_CTRL_STAT 1 0 7).put F.BLF_CMD_CTRL_KIND 2 0 7).put F.BLF_CMD_TICK_TICK 0 0 7).put F.BLF_CMD_CTRL_ARG
      0x1400000 0 7).withImage (image1 [] [] [sec 10 0 [bytesOf 32 [(2, 1, 1)]]])), 7, 0, true, 0x400000, image1 [] [] [sec 10 0 [bytesOf
      32 [(2, 1, 1)]]], by decide +kernel⟩⟩

theorem witness_ActivationOutcomes :
    (∃ (s : State) (i : CmdSlotIx), (DueAlone s.m i 1) ∧ (s.m.locked = false)) ∧
    (∃ (s : State) (i : CmdSlotIx) (j : CmdSlotIx), (i ≠ j) ∧ (slotArmed s.m i = true) ∧ (slotArmed s.m j = true) ∧ (∀ k, k < 8 → k ≠ i →
      k ≠ j → slotArmed s.m k = false) ∧ (s.m.slotKind i = 1) ∧ (s.m.slotKind j = 3) ∧ (s.m.slotTick i = s.m.slotTick j) ∧ (s.m.frozen =
      false) ∧ (s.m.slotTick i < 4000 * (s.m.frame + 1)) ∧ (s.m.hall.lat ≤ latOf (s.m.slotTick i)) ∧ (s.m.locked = true) ∧ (s.m.frz.tz =
      none)) ∧
    (∃ (s : State) (i : CmdSlotIx) (h : Nat), (DueAlone s.m i 1) ∧ (s.m.locked = true) ∧ (s.m.get F.BLF_CMD_CTRL_ARG 0 i = h) ∧ ((h ≠ 0 ∧
      s.m.slotOfHandle h = none) ∨ (h = 0 ∧ s.m.plan.active = none))) ∧
    (∃ (s : State) (i : CmdSlotIx) (h : Nat), (DueAlone s.m i 1) ∧ (s.m.locked = true) ∧ (s.m.get F.BLF_CMD_CTRL_ARG 0 i = h) ∧ (Named s.m
      h) ∧ (∃ t, t < 16 ∧ s.m.tenState t = tenFaulted)) ∧
    (∃ (s : State) (i : CmdSlotIx) (h : Nat), (DueAlone s.m i 1) ∧ (s.m.locked = true) ∧ (s.m.get F.BLF_CMD_CTRL_ARG 0 i = h) ∧ (Named s.m
      h) ∧ (∀ t, t < 16 → s.m.tenState t ≠ tenFaulted) ∧ (s.m.plan.active ≠ none) ∧ (s.m.plan.syncedAll = false)) ∧
    (∃ (s : State) (i : CmdSlotIx) (h : Nat) (j : _), (DueAlone s.m i 1) ∧ (s.m.locked = true) ∧ (s.m.get F.BLF_CMD_CTRL_ARG 0 i = h) ∧
      (Named s.m h) ∧ (∀ t, t < 16 → s.m.tenState t ≠ tenFaulted) ∧ (s.m.plan.active = none ∨ s.m.plan.syncedAll = true) ∧
      (s.m.slotOfHandle h = some j) ∧ (∃ p, p < 18 ∧ s.m.routeChanges (s.m.image j) p = true ∧ s.m.drained p = false)) ∧
    (∃ (s : State) (i : CmdSlotIx) (j : SlotIx) (h : Nat), (DueAlone s.m i 1) ∧ (s.m.locked = true) ∧ (s.m.get F.BLF_CMD_CTRL_ARG 0 i = h)
      ∧ (Activates s.m h j) ∧ (InRange s.m (s.m.image j)) ∧ (∀ im, s.m.activeImage = some im → InRange s.m im)) ∧
    (∃ (s : State) (i : CmdSlotIx), (DueAlone s.m i 1) ∧ (s.m.locked = true) ∧ (s.m.get F.BLF_CMD_CTRL_ARG 0 i = 0) ∧ (s.m.plan.active ≠
      none) ∧ (∀ j, j < 4 → s.m.slotState j = slotReady → s.m.get F.PLN_SLOT_STAT_HANDLE 0 j ≠ 0) ∧ (∀ t, t < 16 → s.m.tenState t ≠
      tenFaulted) ∧ (s.m.plan.syncedAll = true) ∧ (∀ im, s.m.activeImage = some im → InRange s.m im)) ∧
    (∃ (s : State) (i : CmdSlotIx) (j : SlotIx), (DueAlone s.m i 1) ∧ (s.m.locked = true) ∧ (s.m.plan.active = none) ∧ (Activates s.m
      (s.m.get F.BLF_CMD_CTRL_ARG 0 i) j) ∧ ((s.m.image j).header = []) ∧ ((s.m.image j).secs = []) ∧ (s.m.cells = []) ∧ (s.m.served =
      none) ∧ (s.m.mover.ten < 16)) :=
  ⟨ ⟨st (((L0.put F.BLF_CMD_CTRL_STAT 1 0 7).put F.BLF_CMD_CTRL_KIND 1 0 7).put F.BLF_CMD_TICK_TICK 0 0 7), 7, by decide +kernel⟩,
    ⟨st (((actM 0).put F.BLF_CMD_CTRL_STAT 1 0 0).put F.BLF_CMD_CTRL_KIND 3 0 0), 7, 0, by decide +kernel⟩,
    ⟨st (actM 0x101), 7, 0x101, by decide +kernel⟩,
    ⟨st (readyM.put F.PLN_TEN_STAT_STATE tenFaulted 0 15), 7, 0x104, by decide +kernel, by decide +kernel, by decide +kernel,
      by decide +kernel, 15, by decide +kernel⟩,
    ⟨st (readyM.setPlan fun p => { p with active := some 0, syncedAll := false }), 7, 0x104, by decide +kernel⟩,
    ⟨st (readyM.setPlan fun p => { p with images := [(3, image1 [] [] [sec 4 0xFF [bytesOf 16 [(0, 2, 1)]]])] }), 7, 0x104, 3,
      by decide +kernel, by decide +kernel, by decide +kernel, by decide +kernel, by decide +kernel, by decide +kernel, by decide +kernel,
      0, by decide +kernel, by decide +kernel, by decide +kernel⟩,
    ⟨st (linksDown readyM), 7, 3, 0x104, by decide +kernel, by decide +kernel, by decide +kernel, ⟨by decide +kernel, by decide +kernel,
      by decide +kernel, by decide +kernel, fun p h => .inr ((by decide +kernel : ∀ p, p < 18 → (linksDown readyM).drained p = true) p
      h)⟩, ⟨by decide +kernel, (fun _ _ h => nomatch h), by decide +kernel⟩, noImage (by decide +kernel)⟩,
    ⟨st ((actM 0).setPlan fun p => { p with active := some 0, syncedAll := true }), 7, by decide +kernel, by decide +kernel,
      by decide +kernel, by decide +kernel, by decide +kernel, by decide +kernel, by decide +kernel, fun _ e => Option.some.inj (show some
      ({} : Image) = some _ from e) ▸ ⟨by decide +kernel, (fun _ _ h => nomatch h), by decide +kernel⟩⟩,
    ⟨st (linksDown readyM), 7, 3, by decide +kernel, by decide +kernel, by decide +kernel, ⟨by decide +kernel, by decide +kernel,
      by decide +kernel, by decide +kernel, fun p h => .inr ((by decide +kernel : ∀ p, p < 18 → (linksDown readyM).drained p = true) p
      h)⟩, by decide +kernel⟩⟩

theorem witness_SlotsArmAndLapse :
    (∃ (s : State) (i : CmdSlotIx), slotArmed s.m i = true) ∧
    (∃ (s : State) (i : CmdSlotIx), (slotArmed s.m i = false) ∧ (s.m.slotKind i ∉ [1, 2, 3, 4])) ∧
    (∃ (s : State) (i : CmdSlotIx), (slotArmed s.m i = false) ∧ (s.m.slotKind i ∈ [1, 2, 3, 4]) ∧ (¬ Ahead s.m (s.m.slotTick i))) ∧
    (∃ (s : State) (i : CmdSlotIx), (slotArmed s.m i = false) ∧ (Ahead s.m (s.m.slotTick i)) ∧ (s.m.slotKind i ∈ [1, 2] ∧ s.m.slotTick i %
      4000 ≠ 0 ∨ s.m.slotKind i ∈ [3, 4] ∧ s.m.slotTick i % 16 ≠ 0)) ∧
    (∃ (s : State) (i : CmdSlotIx), (slotArmed s.m i = false) ∧ (Ahead s.m (s.m.slotTick i)) ∧ (s.m.slotKind i ∈ [1, 2] ∧ s.m.slotTick i %
      4000 = 0 ∨ s.m.slotKind i ∈ [3, 4] ∧ s.m.slotTick i % 16 = 0)) ∧
    (∃ (s : State) (i : CmdSlotIx), (slotArmed s.m i = true) ∧ (∀ j, j < 8 → slotArmed s.m j = true → s.m.ticks < s.m.slotTick j)) ∧
    (∃ (s : State), ∀ j, j < 8 → slotArmed s.m j = false) ∧
    (∃ (s : State) (i : CmdSlotIx), (slotArmed s.m i = true) ∧ (∀ j, j < 8 → j ≠ i → slotArmed s.m j = false) ∧ (s.m.frozen = true) ∧
      (s.m.slotTick i < 4000 * (s.m.frame + 1)) ∧ (s.m.hall.lat ≤ latOf (s.m.slotTick i))) :=
  ⟨ ⟨st (L0.put F.BLF_CMD_CTRL_STAT 1 0 7), 7, by decide +kernel⟩,
    ⟨st (L0.put F.BLF_CMD_CTRL_KIND 0 0 7), 7, by decide +kernel⟩,
    ⟨st (L0.put F.BLF_CMD_CTRL_KIND 1 0 7), 7, by decide +kernel⟩,
    ⟨st ((L0.put F.BLF_CMD_CTRL_KIND 4 0 7).put F.BLF_CMD_TICK_TICK 8001 0 7), 7, by decide +kernel⟩,
    ⟨st ((L0.put F.BLF_CMD_CTRL_KIND 3 0 7).put F.BLF_CMD_TICK_TICK 8016 0 7), 7, by decide +kernel⟩,
    ⟨st ((L0.put F.BLF_CMD_CTRL_STAT 1 0 7).put F.BLF_CMD_TICK_TICK 1 0 7), 7, by decide +kernel⟩,
    ⟨st (L0), by decide +kernel⟩,
    ⟨st (((L0.put F.BLF_CMD_CTRL_STAT 1 0 7).put F.DBG_STATUS_FROZEN 1).put F.BLF_CMD_TICK_TICK 3999 0 7), 7, by decide +kernel⟩⟩

theorem witness_LoaderCommands :
    (∃ (s : State), (s.m.get F.KEP_STATUS_STAGE = 3) ∧ (s.m.frozen = true)) ∧
    (∃ (s : State) (i : SlotIx), (s.m.get F.KEP_STATUS_STAGE = 3) ∧ (s.m.frozen = false) ∧ (s.m.slotState i = slotLoading ∨ s.m.slotState
      i = slotActive)) ∧
    (∃ (s : State) (i : SlotIx), (s.m.get F.KEP_STATUS_STAGE = 3) ∧ (s.m.frozen = false) ∧ (s.m.slotState i = slotEmpty) ∧
      (s.m.loadNow.isSome = true) ∧ (s.m.mover.ten < 16)) ∧
    (∃ (s : State) (i : SlotIx), (s.m.get F.KEP_STATUS_STAGE = 3) ∧ (s.m.frozen = false) ∧ (s.m.slotState i = slotEmpty) ∧ (s.m.loadNow =
      none) ∧ (s.m.vaults = []) ∧ (s.m.flag F.KEP_STATUS_UNACKED = true) ∧ (s.m.mover.ten < 16)) ∧
    (∃ (s : State) (i : SlotIx), (s.m.slotState i = slotReady ∨ s.m.slotState i = slotFailed) ∧ (s.m.mover.ten < 16)) ∧
    (∃ (s : State) (i : SlotIx), s.m.slotState i ∉ [slotReady, slotFailed]) ∧
    (∃ (s : State) (i : SlotIx) (l : Load), (s.m.loadNow = some l) ∧ (l.slot = i.val)) ∧
    (∃ (s : State) (l : Load), (s.m.loadNow = some l) ∧ (s.m.domainsReady (s.m.image l.slot) = false)) ∧
    (∃ (s : State) (l : Load), (s.m.loadNow = some l) ∧ (s.m.domainsReady (s.m.image l.slot) = true) ∧ (l.abort = true)) ∧
    (∃ (s : State) (l : Load), (s.m.loadNow = some l) ∧ (l.slot < 4) ∧ (s.m.domainsReady (s.m.image l.slot) = true) ∧ (l.abort = false) ∧
      (s.m.activeCells = (s.m.image l.slot).act) ∧ (∀ a, s.m.activeImage = some a → (s.m.image l.slot).overlaps a = none) ∧
      ((Lanorun.sections (s.m.image l.slot) (s.m.image l.slot).secs.zipIdx {} s.m).1 = .ok ()) ∧ (s.m.plan.gen < 2 ^ 24)) ∧
    (∃ (s : State) (i : SlotIx), (s.m.get F.KEP_STATUS_STAGE = 3) ∧ (s.m.frozen = false) ∧ (s.m.slotState i ≠ slotLoading) ∧
      (s.m.slotState i ≠ slotActive) ∧ (s.m.loadNow = none) ∧ (s.m.mover.ten < 16) ∧ (s.m.flag F.KEP_STATUS_UNACKED = false) ∧ (s.m.flag
      F.KEP_STATUS_TRIAL = false)) :=
  ⟨ ⟨st ((L0.put F.KEP_STATUS_STAGE 3).put F.DBG_STATUS_FROZEN 1), by decide +kernel⟩,
    ⟨st ((L0.put F.KEP_STATUS_STAGE 3).put F.PLN_SLOT_STAT_STATE 3 0 3), 3, by decide +kernel⟩,
    ⟨st (((L0.put F.KEP_STATUS_STAGE 3).put F.PLN_SLOT_STAT_STATE 1 0 2).setPlan fun p => { p with load := some { slot := 2 } }), 3,
      by decide +kernel⟩,
    ⟨st ((L0.put F.KEP_STATUS_STAGE 3).put F.KEP_STATUS_UNACKED 1), 3, by decide +kernel⟩,
    ⟨st (L0.put F.PLN_SLOT_STAT_STATE 4 0 3), 3, by decide +kernel⟩,
    ⟨st (L0.put F.PLN_SLOT_STAT_STATE 3 0 3), 3, by decide +kernel⟩,
    ⟨st ((L0.put F.PLN_SLOT_STAT_STATE 1 0 3).setPlan fun p => { p with load := some { slot := 3 } }), 3, { slot := 3 },
      by decide +kernel⟩,
    ⟨st (((L0.put F.PLN_SLOT_STAT_STATE 1 0 3).setPlan fun p => { p with load := some { slot := 3 } }).setPower fun p =>
      { p with job := some ⟨1, []⟩ }), { slot := 3 }, by decide +kernel⟩,
    ⟨st ((L0.put F.PLN_SLOT_STAT_STATE 1 0 3).setPlan fun p => { p with load := some { slot := 3, abort := true } }),
      { slot := 3, abort := true }, by decide +kernel⟩,
    ⟨st ((L0.put F.PLN_SLOT_STAT_STATE 1 0 3).setPlan fun p =>
      { p with load := some { slot := 3 }, images := [(3, { act := L0.activeCells })] }), { slot := 3 }, by decide +kernel,
      by decide +kernel, by decide +kernel, by decide +kernel, by decide +kernel, noImage (by decide +kernel), by rfl, by decide +kernel⟩,
    ⟨st (L0.put F.KEP_STATUS_STAGE 3), 3, by decide +kernel⟩⟩

theorem witness_FreezeAndResume :
    (∃ (s : State), s.m.frz.tz = none) ∧
    (∃ (s : State) (tz : Nat), s.m.frz.tz = some tz) ∧
    (∃ (s : State), (s.m.frz.tz = none) ∧ (s.m.flag F.MOD_PINS_FORWARD = false)) ∧
    (∃ (s : State) (o : Fin 4000), (s.m.frz.tz = none) ∧ (s.m.flag F.MOD_PINS_FORWARD = true) ∧ (o.val ≤ 3400)) ∧
    (∃ (s : State) (o : Fin 4000), (s.m.frz.tz = none) ∧ (s.m.flag F.MOD_PINS_FORWARD = true) ∧ (3400 < o.val)) ∧
    (∃ (s : State), (s.m.frz.tz = none) ∧ (s.m.flag F.MOD_PINS_FORWARD = false) ∧ (s.m.flag F.DBG_CTRL_JTAG_LOCK = false)) ∧
    (∃ (s : State), s.m.flag F.DBG_CTRL_JTAG_LOCK = true) ∧
    (∃ (s : State) (tz : Nat), (s.m.frz.tz = some tz) ∧ (s.m.frozen = false) ∧ (tz / 4000 = s.m.frame) ∧ (tz < 2 ^ 64) ∧ (∀ j, j < 8 →
      slotArmed s.m j = false)) ∧
    (∃ (s : State), s.m.flag F.DBG_STATUS_FROZEN = false) ∧
    (∃ (s : State), (s.m.flag F.DBG_STATUS_FROZEN = true) ∧ (¬ Ahead s.m (s.m.get F.DBG_RESUME_AT_TICK))) ∧
    (∃ (s : State) (tz : Nat), (s.m.flag F.DBG_STATUS_FROZEN = true) ∧ (s.m.frz.tz = some tz) ∧ (Ahead s.m (s.m.get F.DBG_RESUME_AT_TICK))
      ∧ (s.m.get F.DBG_RESUME_AT_TICK < tz + 8000 ∨ s.m.get F.DBG_RESUME_AT_TICK % 4000 ≠ tz % 4000)) ∧
    (∃ (s : State) (tz : Nat), (s.m.flag F.DBG_STATUS_FROZEN = true) ∧ (s.m.frz.tz = some tz) ∧ (Ahead s.m (s.m.get F.DBG_RESUME_AT_TICK))
      ∧ (tz + 8000 ≤ s.m.get F.DBG_RESUME_AT_TICK) ∧ (s.m.get F.DBG_RESUME_AT_TICK % 4000 = tz % 4000)) ∧
    (∃ (s : State), s.m.flag F.DBG_STATUS_RESUME_ARMED = true) ∧
    (∃ (s : State), s.m.flag F.DBG_STATUS_RESUME_ARMED = false) ∧
    (∃ (s : State) (tz : Nat), (s.m.flag F.DBG_STATUS_RESUME_ARMED = true) ∧ (s.m.frz.tz = some tz) ∧ (s.m.get F.DBG_RESUME_AT_TICK / 4000
      = s.m.frame) ∧ (∀ j, j < 8 → slotArmed s.m j = false) ∧ (s.m.locked = true) ∧ (s.m.flag F.PWR_EVENT_TRIP = false) ∧ (s.m.frz.domains
      &&& s.m.domainMask = s.m.frz.domains) ∧ (s.m.site.flush = 0) ∧ (s.m.frz.faultMode = false) ∧ (s.m.frz.timeFault = false) ∧
      (s.m.plan.held = []) ∧ (s.m.mover.held = none) ∧ (∀ c ∈ s.m.cells, c.2.sendq = [])) ∧
    (∃ (s : State), (s.m.flag F.DBG_STATUS_RESUME_ARMED = true) ∧ (s.m.frozen = true) ∧ (s.m.flag F.DBG_STATUS_FROZEN = true) ∧ (s.m.get
      F.DBG_RESUME_AT_TICK / 4000 = s.m.frame) ∧ (∀ j, j < 8 → slotArmed s.m j = false) ∧ (s.m.locked = false)) :=
  ⟨ ⟨st (L0), by decide +kernel⟩,
    ⟨st (L0.setFrz fun f => { f with tz := some 8000 }), 8000, by decide +kernel⟩,
    ⟨st (L0.put F.MOD_PINS_FORWARD 0), by decide +kernel⟩,
    ⟨st (L0.put F.MOD_PINS_FORWARD 1), 3400, by decide +kernel⟩,
    ⟨st (L0.put F.MOD_PINS_FORWARD 1), 3401, by decide +kernel⟩,
    ⟨st ((L0.put F.MOD_PINS_FORWARD 0).put F.DBG_CTRL_JTAG_LOCK 0), by decide +kernel⟩,
    ⟨st (L0.put F.DBG_CTRL_JTAG_LOCK 1), by decide +kernel⟩,
    ⟨st ((L0.setFrz fun f => { f with tz := some 3984, src := 3 })), 3984, by decide +kernel⟩,
    ⟨st (L0), by decide +kernel⟩,
    ⟨st ((L0.put F.DBG_STATUS_FROZEN 1).put F.DBG_RESUME_AT_TICK 7999), by decide +kernel⟩,
    ⟨st (((L0.put F.DBG_STATUS_FROZEN 1).put F.DBG_RESUME_AT_TICK 8000).setFrz fun f => { f with tz := some 1 }), 1, by decide +kernel⟩,
    ⟨st (((L0.put F.DBG_STATUS_FROZEN 1).put F.DBG_RESUME_AT_TICK 8000).setFrz fun f => { f with tz := some 0 }), 0, by decide +kernel⟩,
    ⟨st (L0.put F.DBG_STATUS_RESUME_ARMED 1), by decide +kernel⟩,
    ⟨st (L0), by decide +kernel⟩,
    ⟨st (((((L0.put F.DBG_STATUS_RESUME_ARMED 1).put F.DBG_RESUME_AT_TICK 3999).put F.BLF_STATUS_STATE 3).put F.DBG_STATUS_FROZEN
      1).setFrz fun f => { f with tz := some 0 }), 0, by decide +kernel⟩,
    ⟨st (((L0.put F.DBG_STATUS_RESUME_ARMED 1).put F.DBG_RESUME_AT_TICK 3999).put F.DBG_STATUS_FROZEN 1), by decide +kernel⟩⟩

theorem witness_ScalarAndPredicateResults :
    (∃ (row : _) (s : State) (c : CellIx) (body : BitVec 32), (row ∈ scalarRows) ∧ (s.m.frozen = false) ∧ ((s.m.cell c).pred
      (body.extractLsb' 22 4).toNat = true)) ∧
    (∃ (row : _) (s : State) (c : CellIx) (body : BitVec 32), (row ∈ immediateRows) ∧ (s.m.frozen = false) ∧ ((s.m.cell c).pred
      (body.extractLsb' 22 4).toNat = true)) ∧
    (∃ (row : _) (s : State) (c : CellIx) (body : BitVec 32), (row ∈ compareRows) ∧ (s.m.frozen = false) ∧ ((s.m.cell c).pred
      (body.extractLsb' 22 4).toNat = true)) ∧
    (∃ (row : _) (s : State) (c : CellIx) (body : BitVec 32), (row ∈ compareImmRows) ∧ (s.m.frozen = false) ∧ ((s.m.cell c).pred
      (body.extractLsb' 22 4).toNat = true)) ∧
    (∃ (row : _) (s : State) (c : CellIx) (body : BitVec 32), (row ∈ logicRows) ∧ (s.m.frozen = false) ∧ ((s.m.cell c).pred
      (body.extractLsb' 22 4).toNat = true)) ∧
    (∃ (s : State) (c : CellIx) (body : BitVec 32), (s.m.frozen = false) ∧ ((s.m.cell c).pred (body.extractLsb' 22 4).toNat = true)) :=
  ⟨ ⟨_, st (L0.setCell 1359 { sregs := [(1, 0x8000000000000005#64), (2, 67#64)] }), 1359, 0x61100#32, List.mem_cons_self ..,
      by decide +kernel⟩,
    ⟨_, st (L0.setCell 1359 { sregs := [(1, 0x8000000000000005#64), (2, 67#64)] }), 1359, 0x61100#32, List.mem_cons_self ..,
      by decide +kernel⟩,
    ⟨_, st (L0.setCell 1359 { sregs := [(1, 0x8000000000000005#64), (2, 67#64)] }), 1359, 0x61100#32, List.mem_cons_self ..,
      by decide +kernel⟩,
    ⟨_, st (L0.setCell 1359 { sregs := [(1, 0x8000000000000005#64), (2, 67#64)] }), 1359, 0x61100#32, List.mem_cons_self ..,
      by decide +kernel⟩,
    ⟨_, st (L0.setCell 1359 { sregs := [(1, 0x8000000000000005#64), (2, 67#64)] }), 1359, 0x61100#32, List.mem_cons_self ..,
      by decide +kernel⟩,
    ⟨st (L0.setCell 1359 { cframe := 9 }), 1359, 7#32, by decide +kernel⟩⟩

theorem witness_BranchesTaken :
    (∃ (s : State) (c : CellIx) (body : BitVec 32), (s.m.frozen = false) ∧ ((s.m.cell c).pc % 4 = 0) ∧ ((s.m.cell c).pred
      (body.extractLsb' 22 4).toNat = true)) ∧
    (∃ (s : State) (c : CellIx) (body : BitVec 32), (s.m.frozen = false) ∧ ((s.m.cell c).pc % 4 = 0) ∧ ((s.m.cell c).pred
      (body.extractLsb' 22 4).toNat = true) ∧ (((s.m.cell c).s (body.extractLsb' 12 5).toNat).toNat % 4 = 0)) ∧
    (∃ (s : State) (c : CellIx) (body : BitVec 32) (ext : Option (BitVec 32)) (cmd : _), (s.m.frozen = false) ∧ ((s.m.cell c).pred
      (body.extractLsb' 22 4).toNat = false) ∧ (cmd ∈ [Instr.b c body ext, .jr c body ext])) ∧
    (∃ (s : State) (c : CellIx) (body : BitVec 32) (ext : Option (BitVec 32)) (cmd : _), (s.m.frozen = false) ∧ ((s.m.cell c).pred
      (body.extractLsb' 22 4).toNat = false) ∧ (cmd ∈ [Instr.bal c body ext, .jalr c body ext])) ∧
    (∃ (s : State) (c : CellIx) (body : BitVec 32) (ext : Option (BitVec 32)) (cmd : _), (s.m.frozen = false) ∧ (s.m.activeImage = none) ∧
      ((s.m.cell c).pred (body.extractLsb' 22 4).toNat = true) ∧ (((s.m.cell c).s (body.extractLsb' 12 5).toNat).toNat % 4 ≠ 0) ∧ (cmd ∈
      [Instr.jr c body ext, .jalr c body ext])) :=
  ⟨ ⟨st (L0.setCell 7 { pc := 0xFFFFC, sregs := [(1, 0x100004#64)] }), 7, 0x3FFFFF#32, by decide +kernel⟩,
    ⟨st (L0.setCell 7 { pc := 0xFFFFC, sregs := [(1, 0x100004#64)] }), 7, 0x61000#32, by decide +kernel⟩,
    ⟨st (L0), 0, 0x461100#32, none, .jr 0 0x461100#32 none, by decide +kernel⟩,
    ⟨st (L0), 0, 0x461100#32, none, .jalr 0 0x461100#32 none, by decide +kernel⟩,
    ⟨st (L0.setCell 7 { sregs := [(1, 2#64)] }), 7, 0x1000#32, none, .jalr 7 0x1000#32 none, by decide +kernel⟩⟩

theorem witness_PredicatedOffWritesNothing :
    (∃ (row : _) (s : State) (c : CellIx) (body : BitVec 32), (row ∈ scalarRows) ∧ (s.m.frozen = false) ∧ ((s.m.cell c).pred
      (body.extractLsb' 22 4).toNat = false)) ∧
    (∃ (row : _) (s : State) (c : CellIx) (body : BitVec 32), (row ∈ immediateRows) ∧ (s.m.frozen = false) ∧ ((s.m.cell c).pred
      (body.extractLsb' 22 4).toNat = false)) ∧
    (∃ (row : _) (s : State) (c : CellIx) (body : BitVec 64), (row ∈ integerLanes ++ floatLanes ++ functionLanes) ∧ (s.m.frozen = false) ∧
      ((s.m.cell c).pred (body.extractLsb' 54 4).toNat = false)) ∧
    (∃ (s : State) (c : CellIx) (body : BitVec 64), (s.m.frozen = false) ∧ ((s.m.cell c).pred (body.extractLsb' 54 4).toNat = false)) ∧
    (∃ (s : State) (c : CellIx) (body : BitVec 32), (s.m.frozen = false) ∧ ((s.m.cell c).pred (body.extractLsb' 22 4).toNat = false)) :=
  ⟨ ⟨_, st (L0), 0, 0x461100#32, List.mem_cons_self .., by decide +kernel⟩,
    ⟨_, st (L0), 0, 0x461100#32, List.mem_cons_self .., by decide +kernel⟩,
    ⟨_, st (L0), 0, 1#64 <<< 54, List.mem_append_left _ (List.mem_append_left _ (List.mem_cons_self ..)), by decide +kernel⟩,
    ⟨st (L0), 0, 1#64 <<< 54, by decide +kernel⟩,
    ⟨st (L0), 0, 0x400000#32, by decide +kernel⟩⟩

theorem witness_VectorOperations :
    (∃ (row : _) (s : State) (c : CellIx) (body : BitVec 64), (row ∈ integerLanes ++ floatLanes ++ functionLanes) ∧ (s.m.frozen = false) ∧
      ((s.m.cell c).pred (body.extractLsb' 54 4).toNat = true)) ∧
    (∃ (s : State) (c : CellIx) (body : BitVec 64), (s.m.frozen = false) ∧ ((s.m.cell c).pred (body.extractLsb' 54 4).toNat = true)) :=
  ⟨ ⟨_, st (L0.setCell 1359
      { vregs := [(64, 0x3FC00000#32), (65, 0xC0000000#32), (66, 0x7FC00001#32), (130, 0x40400000#32), (129, 0x80000000#32)] }), 1359,
      (3#64 <<< 49) ||| (1#64 <<< 44) ||| (2#64 <<< 39), List.mem_append_left _ (List.mem_append_left _ (List.mem_cons_self ..)),
      by decide +kernel⟩,
    ⟨st (L0.setCell 1359 { vregs := [(64, 0x3FC00000#32), (65, 0xC0000000#32), (127, 0x40400000#32)] }), 1359, (3#64 <<< 49) ||| (1#64 <<<
      44), by decide +kernel⟩⟩

theorem witness_VectorRowStates :
    ∃ (s : State) (c : CellIx) (body : BitVec 64), (s.m.frozen = false) ∧ ((s.m.cell c).pred (body.extractLsb' 54 4).toNat = true) :=
  ⟨st (L0.setCell 1359 { vregs := [(65, 0x3F800000#32), (67, 0x3F800000#32)] }), 1359, (3#64 <<< 49) ||| (1#64 <<< 44), by decide +kernel⟩

theorem witness_BankInitialised :
    ∃ (s : State) (c : CellIx) (body : BitVec 64), (s.m.frozen = false) ∧ ((s.m.cell c).pred (body.extractLsb' 54 4).toNat = true) :=
  ⟨st (L0.setCell 1359 { sregs := [(1, 0x3FF#64)] }), 1359, (1#64 <<< 53) ||| (1#64 <<< 51) ||| (3#64 <<< 41) ||| (2#64 <<< 39) ||| (1#64
    <<< 4), by decide +kernel⟩

theorem witness_MatrixMultiplies :
    (∃ (s : State) (c : CellIx) (body : BitVec 64), (s.m.frozen = false) ∧ ((s.m.cell c).pred (body.extractLsb' 54 4).toNat = true) ∧
      ((mmaOf body.toNat).inRange = true) ∧ ((mmaOf body.toNat).acc = true → ((s.m.cell c).bankNow (mmaOf body.toNat).bank).ledger =
      (mmaOf body.toNat).exact ∧ ((s.m.cell c).bankNow (mmaOf body.toNat).bank).mq = (mmaOf body.toNat).mq ∧ ((s.m.cell c).bankNow (mmaOf
      body.toNat).bank).nq = (mmaOf body.toNat).nq) ∧ ((mmaOf body.toNat).exact = false)) ∧
    (∃ (s : State) (c : CellIx) (body : BitVec 64), (s.m.frozen = false) ∧ ((s.m.cell c).pred (body.extractLsb' 54 4).toNat = true) ∧
      ((mmaOf body.toNat).inRange = true) ∧ ((mmaOf body.toNat).acc = true → ((s.m.cell c).bankNow (mmaOf body.toNat).bank).ledger =
      (mmaOf body.toNat).exact ∧ ((s.m.cell c).bankNow (mmaOf body.toNat).bank).mq = (mmaOf body.toNat).mq ∧ ((s.m.cell c).bankNow (mmaOf
      body.toNat).bank).nq = (mmaOf body.toNat).nq) ∧ ((mmaOf body.toNat).exact = true) ∧ (s.m.flag F.CEL_MTX_CTRL_FAULT_HIGH c = false) ∧
      (s.m.flag F.CEL_MTX_CTRL_FAULT_OVER c = false)) :=
  ⟨ ⟨st (L0.setCell 1359 { coffer := [(0, 0x38#8), (2, 0x40#8)] }), 1359, 1#64 <<< 33, by decide +kernel⟩,
    ⟨st (L0.setCell 1359 { coffer := [(0, 0x38#8), (2, 0x40#8)] }), 1359, (1#64 <<< 51) ||| (1#64 <<< 33), by decide +kernel⟩⟩

theorem witness_MatrixDrainsAndFaults :
    (∃ (s : State) (c : CellIx) (body : BitVec 64), (s.m.frozen = false) ∧ (s.m.activeImage = none) ∧ ((s.m.cell c).pred (body.extractLsb'
      54 4).toNat = true) ∧ ((mmaOf body.toNat).inRange = false)) ∧
    (∃ (s : State) (c : CellIx) (body : BitVec 64), (s.m.frozen = false) ∧ (s.m.activeImage = none) ∧ ((s.m.cell c).pred (body.extractLsb'
      54 4).toNat = true) ∧ ((mmaOf body.toNat).inRange = true) ∧ ((mmaOf body.toNat).acc = true) ∧ (¬(((s.m.cell c).bankNow (mmaOf
      body.toNat).bank).ledger = (mmaOf body.toNat).exact ∧ ((s.m.cell c).bankNow (mmaOf body.toNat).bank).mq = (mmaOf body.toNat).mq ∧
      ((s.m.cell c).bankNow (mmaOf body.toNat).bank).nq = (mmaOf body.toNat).nq))) ∧
    (∃ (s : State) (c : CellIx) (body : BitVec 64), (s.m.frozen = false) ∧ (s.m.activeImage = none) ∧ ((s.m.cell c).pred (body.extractLsb'
      54 4).toNat = true) ∧ ((if body.getLsbD 44 then 65536 else 0x100000) < ((body.extractLsb' 24 20).toNat) + 16 * ((s.m.cell c).bankNow
      (body.extractLsb' 53 1).toNat).count)) ∧
    (∃ (s : State) (c : CellIx) (body : BitVec 64), (s.m.frozen = false) ∧ (s.m.activeImage = none) ∧ ((s.m.cell c).pred (body.extractLsb'
      54 4).toNat = true) ∧ (((body.extractLsb' 24 20).toNat) + 16 * ((s.m.cell c).bankNow (body.extractLsb' 53 1).toNat).count ≤ (if
      body.getLsbD 44 then 65536 else 0x100000)) ∧ (((s.m.cell c).bankNow (body.extractLsb' 53 1).toNat).ledger = false)) ∧
    (∃ (s : State) (c : CellIx) (body : BitVec 64), (s.m.frozen = false) ∧ (s.m.activeImage = none) ∧ ((s.m.cell c).pred (body.extractLsb'
      54 4).toNat = true) ∧ (65536 < ((body.extractLsb' 45 8).toNat * 256) + 16 * ((s.m.cell c).bankNow (body.extractLsb' 53
      1).toNat).count)) ∧
    (∃ (s : State) (c : CellIx) (body : BitVec 64), (s.m.frozen = false) ∧ (s.m.activeImage = none) ∧ ((s.m.cell c).pred (body.extractLsb'
      54 4).toNat = true) ∧ (((body.extractLsb' 45 8).toNat * 256) + 16 * ((s.m.cell c).bankNow (body.extractLsb' 53 1).toNat).count ≤
      65536) ∧ (((s.m.cell c).bankNow (body.extractLsb' 53 1).toNat).ledger = false)) ∧
    (∃ (s : State) (c : CellIx) (body : BitVec 64), (s.m.frozen = false) ∧ (s.m.activeImage = none) ∧ ((s.m.cell c).pred (body.extractLsb'
      54 4).toNat = true) ∧ ((s.m.cell c).tailCfg (body.extractLsb' 45 8).toNat = none) ∧ (((body.extractLsb' 24 20).toNat) + 4 *
      ((s.m.cell c).bankNow (body.extractLsb' 53 1).toNat).count ≤ (if body.getLsbD 44 then 65536 else 0x100000))) ∧
    (∃ (s : State) (c : CellIx) (body : BitVec 64) (t : _), (s.m.frozen = false) ∧ ((s.m.cell c).pred (body.extractLsb' 54 4).toNat =
      true) ∧ ((s.m.cell c).tailCfg (body.extractLsb' 45 8).toNat = some t) ∧ (((body.extractLsb' 24 20).toNat) + t.bytes (((s.m.cell
      c).bankNow (body.extractLsb' 53 1).toNat).markOver).count (mRows (((s.m.cell c).bankNow (body.extractLsb' 53 1).toNat).markOver).mq)
      ≤ (if body.getLsbD 44 then 65536 else 0x100000)) ∧ (t.on 3 = true → t.residLine * 256 + t.residSize * (((s.m.cell c).bankNow
      (body.extractLsb' 53 1).toNat).markOver).count ≤ 65536) ∧ (s.m.flag F.CEL_MTX_CTRL_FAULT_OVER c = false)) ∧
    (∃ (s : State) (c : CellIx) (body : BitVec 64), (s.m.frozen = false) ∧ ((s.m.cell c).pred (body.extractLsb' 54 4).toNat = true) ∧
      (((s.m.cell c).bankNow (body.extractLsb' 53 1).toNat).ledger = false) ∧ (body.getLsbD 44 = false) ∧ ((s.m.cell c).tailCfg
      (body.extractLsb' 45 8).toNat = some {}) ∧ (((body.extractLsb' 24 20).toNat) + 4 * ((s.m.cell c).bankNow (body.extractLsb' 53
      1).toNat).count ≤ 0x100000) ∧ (∀ e, e < ((s.m.cell c).bankNow (body.extractLsb' 53 1).toNat).count → isNan32 (((s.m.cell c).bankNow
      (body.extractLsb' 53 1).toNat).get e).f = false)) ∧
    (∃ (s : State) (c : CellIx) (body : BitVec 64), (s.m.frozen = false) ∧ ((s.m.cell c).pred (body.extractLsb' 54 4).toNat = true) ∧
      ((((s.m.cell c).bankNow (body.extractLsb' 53 1).toNat).markOver).ledger = true) ∧ (body.getLsbD 44 = false) ∧ (((body.extractLsb' 24
      20).toNat) + 16 * (((s.m.cell c).bankNow (body.extractLsb' 53 1).toNat).markOver).count ≤ 0x100000) ∧ (∀ e, e < (((s.m.cell
      c).bankNow (body.extractLsb' 53 1).toNat).markOver).count → ((((s.m.cell c).bankNow (body.extractLsb' 53 1).toNat).markOver).get
      e).isOver = false ∧ -(2 ^ 112) ≤ ((((s.m.cell c).bankNow (body.extractLsb' 53 1).toNat).markOver).get e).t ∧ ((((s.m.cell c).bankNow
      (body.extractLsb' 53 1).toNat).markOver).get e).t < 2 ^ 112)) ∧
    (∃ (s : State) (c : CellIx) (body : BitVec 64), (s.m.frozen = false) ∧ ((s.m.cell c).pred (body.extractLsb' 54 4).toNat = true) ∧
      (((s.m.cell c).bankNow ((body.extractLsb' 53 1).toNat)).ledger = true) ∧ (((body.extractLsb' 45 8).toNat) * 256 + 16 * ((s.m.cell
      c).bankNow ((body.extractLsb' 53 1).toNat)).count ≤ 65536) ∧ (s.m.flag F.CEL_MTX_CTRL_FAULT_OVER c = false)) :=
  ⟨ ⟨st (L0), 1359, (3#64 <<< 41) ||| (1#64 <<< 25), by decide +kernel⟩,
    ⟨st (L0), 1359, 128#64 <<< 45, by decide +kernel⟩,
    ⟨st (L0.setCell 1359 { bank0 := { mq := 0, nq := 0, els := [(0, { f := 0x3F800000#32 })] } }), 1359, 0xFFE00#64 <<< 24,
      by decide +kernel⟩,
    ⟨st (L0), 1359, (3#64 <<< 41) ||| (1#64 <<< 25), by decide +kernel⟩,
    ⟨st (L0.setCell 1359 { bank0 := { mq := 3, nq := 3 } }), 1359, 255#64 <<< 45, by decide +kernel⟩,
    ⟨st (L0), 1359, (3#64 <<< 41) ||| (1#64 <<< 25), by decide +kernel⟩,
    ⟨st (L0), 1359, 128#64 <<< 45, by decide +kernel⟩,
    ⟨st (L0.setCell 1359 { bank0 := { mq := 0, nq := 0, els := [(0, { f := 0x7FC00000#32 })] } }), 1359, 0xFFE00#64 <<< 24, {},
      by decide +kernel⟩,
    ⟨st (L0.setCell 1359 { bank0 := { mq := 0, nq := 0, els := [(0, { f := 0x3F800000#32 })] } }), 1359, 0xFFE00#64 <<< 24,
      by decide +kernel⟩,
    ⟨st (L0.setCell 1359 { bank0 := { ledger := true, mq := 0, nq := 0, els := [(0, { x := -7 })] } }), 1359, 0xFF800#64 <<< 24,
      by decide +kernel⟩,
    ⟨st (L0.setCell 1359 { bank0 := { ledger := true, mq := 0, nq := 0, els := [(0, { x := -7 })] } }), 1359, 0xFF800#64 <<< 24,
      by decide +kernel⟩⟩

theorem witness_LoadsAndStores :
    (∃ (s : State) (c : CellIx) (body : BitVec 64), (s.m.frozen = false) ∧ ((s.m.cell c).pred (body.extractLsb' 54 4).toNat = true) ∧
      (((((s.m.cell c).s (body.extractLsb' 44 5).toNat).toNat + (body.extractLsb' 0 20).toNat) % 0x100000) % 64 = 0)) ∧
    (∃ (s : State) (c : CellIx) (body : BitVec 64), (s.m.frozen = false) ∧ ((s.m.cell c).pred (body.extractLsb' 54 4).toNat = true) ∧
      (((((s.m.cell c).s (body.extractLsb' 44 5).toNat).toNat + (body.extractLsb' 0 20).toNat) % 0x100000) % 8 = 0)) ∧
    (∃ (s : State) (c : CellIx) (body : BitVec 64), (s.m.frozen = false) ∧ ((s.m.cell c).pred (body.extractLsb' 54 4).toNat = true) ∧
      (((((s.m.cell c).s (body.extractLsb' 44 5).toNat).toNat + (body.extractLsb' 0 20).toNat) % 0x100000) % 4 = 0)) ∧
    (∃ (s : State) (c : CellIx) (body : BitVec 64), (s.m.frozen = false) ∧ ((s.m.cell c).pred (body.extractLsb' 54 4).toNat = true) ∧
      (((((s.m.cell c).s (body.extractLsb' 44 5).toNat).toNat + (body.extractLsb' 0 20).toNat) % 0x100000) % 256 = 0) ∧
      (((body.extractLsb' 36 8).toNat) + ((body.extractLsb' 32 4).toNat) ≤ 255)) ∧
    (∃ (s : State) (c : CellIx) (body : BitVec 64), (s.m.frozen = false) ∧ ((s.m.cell c).pred (body.extractLsb' 54 4).toNat = true) ∧
      (((((s.m.cell c).s (body.extractLsb' 44 5).toNat).toNat + (body.extractLsb' 0 20).toNat) % 0x100000) % 256 = 0)) ∧
    (∃ (s : State) (c : CellIx) (body : BitVec 64) (k : _), (s.m.frozen = false) ∧ ((s.m.cell c).pred (body.extractLsb' 54 4).toNat =
      true) ∧ (s.m.activeImage = none) ∧ (k ∈ ([(.ldv, 64), (.lds, 8), (.ldw, 4), (.ldc, 256), (.stv, 64), (.sts, 8), (.stw, 4), (.stc,
      256)] : List (VCmd × Nat))) ∧ (((((s.m.cell c).s (body.extractLsb' 44 5).toNat).toNat + (body.extractLsb' 0 20).toNat) % 0x100000) %
      k.2 ≠ 0)) ∧
    (∃ (s : State) (c : CellIx) (body : BitVec 64), (s.m.frozen = false) ∧ ((s.m.cell c).pred (body.extractLsb' 54 4).toNat = true) ∧
      (s.m.activeImage = none) ∧ (((((s.m.cell c).s (body.extractLsb' 44 5).toNat).toNat + (body.extractLsb' 0 20).toNat) % 0x100000) %
      256 = 0) ∧ (255 < ((body.extractLsb' 36 8).toNat) + ((body.extractLsb' 32 4).toNat))) :=
  ⟨ ⟨st (L0.setCell 1359 { store := [(0xFFF00, 5#8)] }), 1359, (240#64 <<< 36) ||| (15#64 <<< 32) ||| 0xFFF00#64, by decide +kernel⟩,
    ⟨st (L0.setCell 1359 { store := [(0xFFF00, 5#8)] }), 1359, (240#64 <<< 36) ||| (15#64 <<< 32) ||| 0xFFF00#64, by decide +kernel⟩,
    ⟨st (L0.setCell 1359 { store := [(0xFFF00, 5#8)] }), 1359, (240#64 <<< 36) ||| (15#64 <<< 32) ||| 0xFFF00#64, by decide +kernel⟩,
    ⟨st (L0.setCell 1359 { store := [(0xFFF00, 5#8)] }), 1359, (240#64 <<< 36) ||| (15#64 <<< 32) ||| 0xFFF00#64, by decide +kernel⟩,
    ⟨st (L0.setCell 1359 { store := [(0xFFF00, 5#8)] }), 1359, (240#64 <<< 36) ||| (15#64 <<< 32) ||| 0xFFF00#64, by decide +kernel⟩,
    ⟨st (L0), 1359, 0xFFF02#64, _, by decide +kernel, by decide +kernel, by decide +kernel, List.mem_cons_self .., by decide +kernel⟩,
    ⟨st (L0), 1359, (255#64 <<< 36) ||| (1#64 <<< 32), by decide +kernel⟩⟩

theorem witness_SyncOperations :
    (∃ (s : State) (c : CellIx) (body : BitVec 32), (s.m.frozen = false) ∧ ((s.m.cell c).pred (body.extractLsb' 22 4).toNat = true) ∧ ((if
      body.getLsbD 16 then ((s.m.cell c).s (body.extractLsb' 0 5).toNat).toNat % 65536 else (body.extractLsb' 0 16).toNat) ≤ (s.m.cell
      c).pos)) ∧
    (∃ (s : State) (c : CellIx) (body : BitVec 32), (s.m.frozen = false) ∧ ((s.m.cell c).pred (body.extractLsb' 22 4).toNat = true) ∧
      ((s.m.cell c).pos < (if body.getLsbD 16 then ((s.m.cell c).s (body.extractLsb' 0 5).toNat).toNat % 65536 else (body.extractLsb' 0
      16).toNat))) ∧
    (∃ (s : State) (c : CellIx) (body : BitVec 32), (s.m.frozen = false) ∧ ((s.m.cell c).pred (body.extractLsb' 22 4).toNat = true) ∧
      (((body.extractLsb' 0 16).toNat) ≤ ((sget 0#16 (s.m.cell c).tallies ((body.extractLsb' 18 4).toNat)).toNat))) ∧
    (∃ (s : State) (c : CellIx) (body : BitVec 32), (s.m.frozen = false) ∧ ((s.m.cell c).pred (body.extractLsb' 22 4).toNat = true) ∧
      (((sget 0#16 (s.m.cell c).tallies ((body.extractLsb' 18 4).toNat)).toNat) < ((body.extractLsb' 0 16).toNat))) ∧
    (∃ (s : State) (c : CellIx) (body : BitVec 32), (s.m.frozen = false) ∧ ((s.m.cell c).pred (body.extractLsb' 22 4).toNat = true)) ∧
    (∃ (s : State) (c : CellIx) (body : BitVec 32), (s.m.frozen = false) ∧ ((s.m.cell c).pred (body.extractLsb' 22 4).toNat = true) ∧
      (s.m.sendFault c (s.m.sendDesc c (((body.extractLsb' 0 16).toNat) % 64)) = none)) ∧
    (∃ (s : State) (c : CellIx) (body : BitVec 32) (code : _), (s.m.frozen = false) ∧ ((s.m.cell c).pred (body.extractLsb' 22 4).toNat =
      true) ∧ (s.m.activeImage = none) ∧ (s.m.sendFault c (s.m.sendDesc c (((body.extractLsb' 0 16).toNat) % 64)) = some code)) ∧
    (∃ (s : State) (c : CellIx) (body : BitVec 32), (s.m.frozen = false) ∧ (∀ e ∈ s.m.cells, e.2.ueAt = (s.m.cell e.1).ueAt) ∧
      (s.m.tenOfCell c = none ∨ ∃ t im d, s.m.tenOfCell c = some t ∧ s.m.activeImage = some im ∧ body.getLsbD 16 = ((s.m.cell c).cframe +
      1 == im.stepFrames t) ∧ d ∈ im.cellsOf t ∧ d / 85 = c.val / 85 ∧ d ≠ c.val ∧ (s.m.cell d).done ≤ (s.m.cell c).done ∧ (s.m.cell
      d).done < ((s.m.ten t).released + 1) * im.stepFrames t ∧ ∀ l, im.lastStep t = some l → (s.m.cell c).done + 1 < (l + 1 - (s.m.ten
      t).startStep) * im.stepFrames t) ∧ (body.getLsbD 16 = true → (s.m.cell c).sendq = [])) ∧
    (∃ (s : State) (c : CellIx) (body : BitVec 32), (s.m.frozen = false) ∧ (∀ e ∈ s.m.cells, e.2.ueAt = (s.m.cell e.1).ueAt) ∧
      (s.m.tenOfCell c = none) ∧ (body.getLsbD 16 = true) ∧ ((s.m.cell c).sendq ≠ [])) :=
  ⟨ ⟨st (((L0.setCell 0
      { pos := 5, tallies := [(0, 5#16)], store := ssets 0#8 [] 0xA0 (bytesOf 32 [(0, 1, 4), (8, 4, 32), (16, 8, 0x4000000000000000), (24, 8, 0x1000000)]) }).withImage
      (image1 [(8, 16, 1)] [0] [sec 5 0 [bytesOf 4 []]])).setReg R.MOD_RANK 0x8000 0 0), 0, 5#32, by decide +kernel⟩,
    ⟨st (L0.setCell 0 { pos := 5, tallies := [(0, 5#16)] }), 0, 6#32, by decide +kernel⟩,
    ⟨st (((L0.setCell 0
      { pos := 5, tallies := [(0, 5#16)], store := ssets 0#8 [] 0xA0 (bytesOf 32 [(0, 1, 4), (8, 4, 32), (16, 8, 0x4000000000000000), (24, 8, 0x1000000)]) }).withImage
      (image1 [(8, 16, 1)] [0] [sec 5 0 [bytesOf 4 []]])).setReg R.MOD_RANK 0x8000 0 0), 0, 5#32, by decide +kernel⟩,
    ⟨st (L0.setCell 0 { pos := 5, tallies := [(0, 5#16)] }), 0, 6#32, by decide +kernel⟩,
    ⟨st (((L0.setCell 0
      { pos := 5, tallies := [(0, 5#16)], store := ssets 0#8 [] 0xA0 (bytesOf 32 [(0, 1, 4), (8, 4, 32), (16, 8, 0x4000000000000000), (24, 8, 0x1000000)]) }).withImage
      (image1 [(8, 16, 1)] [0] [sec 5 0 [bytesOf 4 []]])).setReg R.MOD_RANK 0x8000 0 0), 0, 5#32, by decide +kernel⟩,
    ⟨st (((L0.setCell 0
      { pos := 5, tallies := [(0, 5#16)], store := ssets 0#8 [] 0xA0 (bytesOf 32 [(0, 1, 4), (8, 4, 32), (16, 8, 0x4000000000000000), (24, 8, 0x1000000)]) }).withImage
      (image1 [(8, 16, 1)] [0] [sec 5 0 [bytesOf 4 []]])).setReg R.MOD_RANK 0x8000 0 0), 0, 5#32, by decide +kernel⟩,
    ⟨st (L0), 0, 0#32, 0x0702, by decide +kernel⟩,
    ⟨st (L0.setCell 5 { cframe := 3, frc := 9, pos := 5999 }), 5, 0x1FFFF#32, by decide +kernel, by decide +kernel, .inl
      (by decide +kernel), fun _ => by decide +kernel⟩,
    ⟨st (L0.setCell 5 { sendq := [{ desc := [], left := 32, step := 0, frame := 0 }] }), 5, 0x10000#32, by decide +kernel⟩⟩

theorem witness_CellCommandsAndTallies :
    (∃ (s : State) (c : CellIx), (s.m.cellAnswers c = true) ∧ (Unowned s.m c) ∧ (s.m.planActive = false) ∧ ((s.m.cell c).st = 0 ∨
      (s.m.cell c).st = 2)) ∧
    (∃ (s : State) (c : CellIx), (s.m.cellAnswers c = true) ∧ (Unowned s.m c) ∧ ((s.m.cell c).st = 1)) ∧
    (∃ (s : State) (c : CellIx), (s.m.cellAnswers c = true) ∧ (Unowned s.m c) ∧ ((s.m.cell c).st = 2)) ∧
    (∃ (s : State) (c : CellIx), ((s.m.cell c).stopping = true) ∧ ((s.m.cell c).st = 1) ∧ ((s.m.cell c).flights = []) ∧ ((s.m.cell
      c).sendq = [])) ∧
    (∃ (s : State) (c : CellIx) (im : Image) (t : Nat), (s.m.activeImage = some im) ∧ (im.tenOfBlock (c.val / 17) = some t)) ∧
    (∃ (s : State) (c : CellIx) (t : Fin 16) (n : BitVec 16), (s.m.cellAnswers c = true) ∧ ((sget 0#16 (s.m.cell c).tallies t).toNat +
      n.toNat ≤ 0xFFFF)) ∧
    (∃ (s : State) (c : CellIx) (t : Fin 16) (n : BitVec 16), (0xFFFF < (sget 0#16 (s.m.cell c).tallies t).toNat + n.toNat) ∧
      (s.m.cellAnswers c = true) ∧ (s.m.activeImage = none)) ∧
    (∃ (s : State) (c : CellIx), s.m.cellAnswers c = false) :=
  ⟨ ⟨st ((L0.setOn 79 true).setCell 1359 { st := 2, sregs := [(1, 1#64)], store := [(0, 1#8)] }), 1359, by decide +kernel, noImage
      (by decide +kernel), by decide +kernel⟩,
    ⟨st ((L0.setOn 79 true).setCell 1359 { st := 1 }), 1359, by decide +kernel, noImage (by decide +kernel), by decide +kernel⟩,
    ⟨st ((L0.setOn 79 true).setCell 1359 { st := 2 }), 1359, by decide +kernel, noImage (by decide +kernel), by decide +kernel⟩,
    ⟨st (L0.setCell 1359 { st := 1, stopping := true }), 1359, by decide +kernel⟩,
    ⟨st (L0.withImage (image1 [(8, 16, 1)] [0] [])), 16, image1 [(8, 16, 1)] [0] [], 0, by decide +kernel⟩,
    ⟨st ((L0.setOn 79 true).setCell 1359 { tallies := [(15, 0xFFFE#16)] }), 1359, 15, 1#16, by decide +kernel⟩,
    ⟨st ((L0.setOn 79 true).setCell 1359 { tallies := [(15, 0xFFFE#16)] }), 1359, 15, 2#16, by decide +kernel⟩,
    ⟨st (L0.setCell 1359 { st := 2, sregs := [(1, 1#64)], store := [(0, 1#8)] }), 1359, by decide +kernel⟩⟩

theorem witness_CellsIssue :
    (∃ (h : BitVec 32), (h.extractLsb' 24 2 = 1#2) ∧ (h.extractLsb' 16 7 = 0#7)) ∧
    (∃ (s : State) (c : CellIx) (n : BitVec 16), (Quiet s.m c) ∧ ((s.m.cell c).pos + n.toNat < s.m.budget (c.val / 85))) ∧
    (∃ (s : State) (c : CellIx) (b : Bundle), (Planless s.m) ∧ (Quiet s.m c) ∧ (s.m.planActive = false) ∧ ((s.m.cell c).resume ≤ (s.m.cell
      c).pos) ∧ ((s.m.cell c).idle = 0) ∧ ((s.m.cell c).sendq = []) ∧ ((s.m.cell c).fetched = false) ∧ (b.idle = none) ∧ (b.v = none) ∧
      (b.m = none) ∧ (b.y = none) ∧ (∀ k w e, b.s = some (k, w, e) → k.isBranch = false) ∧ (decodeBundle ((s.m.cell c).loadBytes (s.m.cell
      c).pc (bundleLen ((s.m.cell c).header (s.m.cell c).pc))) = .ok b) ∧ (guardCheck ((s.m.bundlePlans c b).map fun p => (p.1, p.2.foot))
      false (s.m.cell c) (s.m.cell c).rc = none) ∧ (firstFault (s.m.bundlePlans c b) = none)) ∧
    (∃ (s : State) (c : CellIx) (b : Bundle) (k : _) (res : _) (slot : _), (Planless s.m) ∧ (Quiet s.m c) ∧ (s.m.planActive = false) ∧
      ((s.m.cell c).resume ≤ (s.m.cell c).pos) ∧ ((s.m.cell c).idle = 0) ∧ ((s.m.cell c).sendq = []) ∧ ((s.m.cell c).fetched = false) ∧
      (b.idle = none) ∧ (b.v = none) ∧ (b.m = none) ∧ (b.y = none) ∧ (∀ k w e, b.s = some (k, w, e) → k.isBranch = false) ∧ (decodeBundle
      ((s.m.cell c).loadBytes (s.m.cell c).pc (bundleLen ((s.m.cell c).header (s.m.cell c).pc))) = .ok b) ∧ (guardCheck ((s.m.bundlePlans
      c b).map fun p => (p.1, p.2.foot)) false (s.m.cell c) (s.m.cell c).rc = some (k, res, slot)) ∧ (s.m.flag F.CEL_CTRL_STRICT c =
      false)) ∧
    (∃ (s : State) (c : CellIx) (b : Bundle) (k : _) (res : _) (slot : _), (Planless s.m) ∧ (Quiet s.m c) ∧ (s.m.planActive = false) ∧
      ((s.m.cell c).resume ≤ (s.m.cell c).pos) ∧ ((s.m.cell c).idle = 0) ∧ ((s.m.cell c).sendq = []) ∧ ((s.m.cell c).fetched = false) ∧
      (b.idle = none) ∧ (b.v = none) ∧ (b.m = none) ∧ (b.y = none) ∧ (∀ k w e, b.s = some (k, w, e) → k.isBranch = false) ∧ (decodeBundle
      ((s.m.cell c).loadBytes (s.m.cell c).pc (bundleLen ((s.m.cell c).header (s.m.cell c).pc))) = .ok b) ∧ (guardCheck ((s.m.bundlePlans
      c b).map fun p => (p.1, p.2.foot)) false (s.m.cell c) (s.m.cell c).rc = some (k, res, slot)) ∧ (s.m.flag F.CEL_CTRL_STRICT c =
      true)) ∧
    (∃ (s : State) (c : CellIx) (slot : Nat), (Planless s.m) ∧ (Quiet s.m c) ∧ ((s.m.cell c).resume ≤ (s.m.cell c).pos) ∧ ((s.m.cell
      c).idle = 0) ∧ (decodeBundle ((s.m.cell c).loadBytes (s.m.cell c).pc (bundleLen ((s.m.cell c).header (s.m.cell c).pc))) = .error
      slot)) ∧
    (∃ (s : State), (s.m.frozen = true) ∧ (Planless s.m)) :=
  ⟨ ⟨0x05000003#32, by decide +kernel⟩,
    ⟨st (L0.setCell 1359 { st := 1, pos := 5996 }), 1359, 3#16, by decide +kernel⟩,
    ⟨st (L0.setCell 1359 { st := 1, store := ssets 0#8 [] 0 (Bundle.encode { len := 8, s := some (.add, 0x4061100, none) }) }), 1359,
      { len := 8, s := some (.add, 0x4061100, none) }, by decide +kernel, by decide +kernel, by decide +kernel, by decide +kernel,
      by decide +kernel, by decide +kernel, by decide +kernel, rfl, rfl, rfl, rfl, (fun _ _ _ e => by cases e; rfl), by rfl,
      by decide +kernel, by decide +kernel⟩,
    ⟨st ((L0.setCell 1359
      { st := 1, ready := [(resS 1, 100)], store := ssets 0#8 [] 0 (Bundle.encode { len := 8, s := some (.add, 0x4061100, none) }) }).put
      F.CEL_CTRL_STRICT 0 1359), 1359, { len := 8, s := some (.add, 0x4061100, none) }, .raw, resS 1, 0, by decide +kernel,
      by decide +kernel, by decide +kernel, by decide +kernel, by decide +kernel, by decide +kernel, by decide +kernel, by decide +kernel,
      by decide +kernel, by decide +kernel, by decide +kernel, fun _ _ _ e => by cases e; rfl, by rfl, by decide +kernel,
      by decide +kernel⟩,
    ⟨st ((L0.setCell 1359
      { st := 1, ready := [(resS 1, 100)], store := ssets 0#8 [] 0 (Bundle.encode { len := 8, s := some (.add, 0x4061100, none) }) }).put
      F.CEL_CTRL_STRICT 1 1359), 1359, { len := 8, s := some (.add, 0x4061100, none) }, .raw, resS 1, 0, by decide +kernel,
      by decide +kernel, by decide +kernel, by decide +kernel, by decide +kernel, by decide +kernel, by decide +kernel, by decide +kernel,
      by decide +kernel, by decide +kernel, by decide +kernel, fun _ _ _ e => by cases e; rfl, by rfl, by decide +kernel,
      by decide +kernel⟩,
    ⟨st (L0.setCell 1359 { st := 1, store := ssets 0#8 [] 0 (leBytes 4 0x05000003) }), 1359, 6,
      by refine ⟨?_, ?_, ?_, ?_, ?_⟩ <;> first | rfl | decide +kernel⟩,
    ⟨st (L0.put F.DBG_STATUS_FROZEN 1), by decide +kernel⟩⟩

theorem witness_ResultsReadsArrivals :
    (∃ (s : State) (c : CellIx) (f : Flight) (r : _) (v : _), (Planless s.m) ∧ (s.m.frozen = false) ∧ ((s.m.cell c).flights = [f]) ∧
      (f.due ≤ (s.m.cell c).rc) ∧ ((s.m.cell c).poison = []) ∧ (f.w = .sreg r v)) ∧
    (∃ (s : State) (c : CellIx) (f : Flight) (p : _) (v : _), (Planless s.m) ∧ (s.m.frozen = false) ∧ ((s.m.cell c).flights = [f]) ∧
      (f.due ≤ (s.m.cell c).rc) ∧ ((s.m.cell c).poison = []) ∧ (f.w = .preg p v)) ∧
    (∃ (s : State) (c : CellIx) (f : Flight) (r : _) (vs : _), (Planless s.m) ∧ (s.m.frozen = false) ∧ ((s.m.cell c).flights = [f]) ∧
      (f.due ≤ (s.m.cell c).rc) ∧ ((s.m.cell c).poison = []) ∧ (f.w = .vreg r vs) ∧ (vs.length = 64)) ∧
    (∃ (s : State) (c : CellIx) (f : Flight) (b : _) (v : _), (Planless s.m) ∧ (s.m.frozen = false) ∧ ((s.m.cell c).flights = [f]) ∧
      (f.due ≤ (s.m.cell c).rc) ∧ ((s.m.cell c).poison = []) ∧ (f.w = .bank b v)) ∧
    (∃ (s : State) (c : CellIx) (f : Flight) (t : _) (n : _), (Planless s.m) ∧ (s.m.frozen = false) ∧ ((s.m.cell c).flights = [f]) ∧
      (f.due ≤ (s.m.cell c).rc) ∧ ((s.m.cell c).poison = []) ∧ (f.w = .tally t n) ∧ ((sget 0#16 (s.m.cell c).tallies t).toNat + n ≤
      0xFFFF)) ∧
    (∃ (s : State) (c : CellIx) (f : Flight) (a : _) (bs : _), (Planless s.m) ∧ (s.m.frozen = false) ∧ ((s.m.cell c).flights = [f]) ∧
      (f.due ≤ (s.m.cell c).rc) ∧ ((s.m.cell c).poison = []) ∧ (f.w = .coffer a bs)) ∧
    (∃ (s : State) (c : CellIx) (f : Flight) (a : _) (bs : _), (Planless s.m) ∧ (s.m.frozen = false) ∧ ((s.m.cell c).flights = [f]) ∧
      (f.due ≤ (s.m.cell c).rc) ∧ ((s.m.cell c).poison = []) ∧ (f.w = .store a bs) ∧ (a + bs.length ≤ 0x100000) ∧ (s.m.planActive = false)
      ∧ ((s.m.cell c).meshWr = [])) ∧
    (∃ (s : State) (c : CellIx), (Planless s.m) ∧ (s.m.frozen = false) ∧ (∀ f ∈ (s.m.cell c).flights, (s.m.cell c).rc < f.due)) ∧
    (∃ (s : State) (c : CellIx) (l : Nat) (k : Nat) (p : Nat) (q : Nat) (pc : Nat) (qc : Nat), (s.m.frozen = false) ∧ (l % 16 ≠ k % 16 ∨ l
      = k) ∧ ((s.m.cell c).reads = [⟨(s.m.cell c).rc, p, l, pc⟩, ⟨(s.m.cell c).rc, q, k, qc⟩])) ∧
    (∃ (s : State) (c : CellIx) (l : Nat) (k : Nat) (pc : Nat) (qc : Nat), (s.m.frozen = false) ∧ (s.m.activeImage = none) ∧ (l % 16 = k %
      16) ∧ (l ≠ k) ∧ ((s.m.cell c).reads = [⟨(s.m.cell c).rc, 0, l, pc⟩, ⟨(s.m.cell c).rc, 2, k, qc⟩])) ∧
    (∃ (s : State) (c : CellIx) (a : Arrival), (s.m.frozen = false) ∧ (s.m.mesh.arrivals.find? (fun a => decide (a.cell = c.val)) = some
      a) ∧ (∀ i, i < a.data.length → s.m.inProgram c ((a.addr + i) % 0x100000) = false) ∧ (a.addr + a.data.length ≤ 0x100000) ∧ (∀ t,
      a.tally = some t → (sget 0#16 (s.m.cell c).tallies t).toNat < 0xFFFF)) :=
  ⟨ ⟨st (L0.setCell 1359 { flights := [⟨4, 0, 0, 0, 0, 0, .sreg 0 5#64⟩], rc := 4 }), 1359, ⟨4, 0, 0, 0, 0, 0, .sreg 0 5#64⟩, 0, 5#64,
      by decide +kernel⟩,
    ⟨st (L0.setCell 1359 { flights := [⟨4, 0, 0, 0, 0, 0, .preg 3 true⟩], rc := 4 }), 1359, ⟨4, 0, 0, 0, 0, 0, .preg 3 true⟩, 3, true,
      by decide +kernel⟩,
    ⟨st (L0.setCell 1359 { flights := [⟨4, 0, 0, 0, 0, 0, .vreg 5 (List.replicate 64 7#32)⟩], rc := 4 }), 1359, ⟨4, 0, 0, 0, 0, 0, .vreg 5
      (List.replicate 64 7#32)⟩, 5, List.replicate 64 7#32, by decide +kernel⟩,
    ⟨st (L0.setCell 1359 { flights := [⟨4, 0, 0, 0, 0, 0, .bank 1 { mq := 3 }⟩], rc := 4 }), 1359, ⟨4, 0, 0, 0, 0, 0, .bank 1
      { mq := 3 }⟩, 1, { mq := 3 }, by decide +kernel⟩,
    ⟨st (L0.setCell 1359 { flights := [⟨4, 0, 0, 0, 0, 0, .tally 15 1⟩], rc := 4, tallies := [(15, 0xFFFE#16)] }), 1359, ⟨4, 0, 0, 0, 0,
      0, .tally 15 1⟩, 15, 1, by decide +kernel⟩,
    ⟨st (L0.setCell 1359 { flights := [⟨4, 3, 0, 0, 0, 0, .coffer 65534 [7#8, 8#8]⟩], rc := 4 }), 1359, ⟨4, 3, 0, 0, 0, 0, .coffer 65534
      [7#8, 8#8]⟩, 65534, [7#8, 8#8], by decide +kernel⟩,
    ⟨st (L0.setCell 1359 { flights := [⟨4, 0, 0, 0, 0, 0, .store 0xFFFFE [7#8, 8#8]⟩], rc := 4 }), 1359, ⟨4, 0, 0, 0, 0, 0, .store 0xFFFFE
      [7#8, 8#8]⟩, 0xFFFFE, [7#8, 8#8], by decide +kernel⟩,
    ⟨st (L0.setCell 1359 { flights := [⟨5, 0, 31, 0, 0, 0, .sreg 31 5#64⟩], rc := 4 }), 1359, by decide +kernel⟩,
    ⟨st (L0.setCell 1359 { reads := [⟨0, 0, 5, 0⟩, ⟨0, 1, 22, 0⟩] }), 1359, 5, 22, 0, 1, 0, 0, by decide +kernel⟩,
    ⟨st (L0.setCell 1359 { reads := [⟨0, 0, 5, 0⟩, ⟨0, 2, 21, 0⟩] }), 1359, 5, 21, 0, 0, by decide +kernel⟩,
    ⟨st ((L0.setCell 1359 { tallies := [(15, 0xFFFE#16)] }).setMesh fun e =>
      { e with arrivals := [⟨1359, 0xFFFFE, [7#8, 0#8], some 15, 0, 0, 0, 0⟩] }), 1359, ⟨1359, 0xFFFFE, [7#8, 0#8], some 15, 0, 0, 0, 0⟩,
      by decide +kernel, by decide +kernel, by decide +kernel, by decide +kernel, fun _ e => Option.some.inj e ▸ by decide +kernel⟩⟩

theorem witness_FramesOpenAndSlip :
    (∃ (s : State), (s.m.frozen = false) ∧ (∀ tz, s.m.frz.tz = some tz → 4000 * (s.m.frame + 1) < tz) ∧ (NoneDue s.m)) ∧
    (∃ (s : State), (s.m.frozen = true) ∧ (NoneDue s.m)) ∧
    (∃ (s : State) (t : TenancyIx) (r : RegionIx) (im : Image) (c : CellIx), (s.m.activeImage = some im) ∧ (s.m.tenState t = tenRunning) ∧
      ((s.m.ten t).fault = none) ∧ (c.val ∈ im.cellsOf t) ∧ (c.val / 85 = r.val) ∧ ((s.m.cell c).st = 1) ∧ ((s.m.cell c).sync = false) ∧
      (im.progRc r + im.slackRc r < (s.m.cell c).pos)) ∧
    (∃ (s : State) (t : TenancyIx) (r : RegionIx) (im : Image), (s.m.activeImage = some im) ∧ (∀ c ∈ im.cellsOf t, c / 85 = r.val →
      (s.m.cell c).st = 1 → (s.m.cell c).sync = false → (s.m.cell c).pos ≤ im.progRc r + im.slackRc r)) :=
  ⟨ ⟨st (L0), by decide +kernel, (fun _ e => nomatch (show (none : Option Nat) = some _ from e)), by decide +kernel, fun e => absurd e
      (by decide +kernel)⟩,
    ⟨st (L0.put F.DBG_STATUS_FROZEN 1), by decide +kernel⟩,
    ⟨st (((L0.setCell 0 { st := 1, pos := 111 }).withImage (image1 [(8, 16, 1)] [0] [sec 3 0xFF [bytesOf 8 [(2, 2, 100), (4, 2,
      10)]]])).put F.PLN_TEN_STAT_STATE 1 0 0), 0, 0, image1 [(8, 16, 1)] [0] [sec 3 0xFF [bytesOf 8 [(2, 2, 100), (4, 2, 10)]]], 0,
      by decide +kernel⟩,
    ⟨st (((L0.setCell 0 { st := 1, pos := 110 }).withImage (image1 [(8, 16, 1)] [0] [sec 3 0xFF [bytesOf 8 [(2, 2, 100), (4, 2,
      10)]]])).put F.PLN_TEN_STAT_STATE 1 0 0), 0, 0, image1 [(8, 16, 1)] [0] [sec 3 0xFF [bytesOf 8 [(2, 2, 100), (4, 2, 10)]]],
      by decide +kernel⟩⟩

theorem witness_VaultsAndScheduledAccesses :
    (∃ (s : State) (v : VaultIx), (s.m.vault v).training = true) ∧
    (∃ (s : State) (v : VaultIx), (s.m.vault v).training = false) ∧
    (∃ (s : State) (v : VaultIx) (opens : Bool) (second : Bool) (errs : List VaultErr), opens = false ∨ second = true ∨ s.m.get
      F.VLT_STATUS_BAND v ≠ 0 ∨ s.m.flag F.VLT_CTRL_SCRUB_EN v = false ∨ errs = []) ∧
    (∃ (s : State) (t : TenancyIx) (e : BitVec 16) (k : BitVec 16) (im : Image) (x : MeshEntry), (s.m.activeImage = some im) ∧ (im.mesh t
      e.toNat = some x) ∧ (x.skind = 1) ∧ (s.m.frozen = false) ∧ (s.m.tenState t = tenRunning) ∧ (im.pairs t = []) ∧ (∀ v, (s.m.vault
      v).poison = []) ∧ (∀ p ∈ (readPieces (im.vaultMask t) (x.vaddr.testBit 63) (x.bytes / 8192 + 2) (x.vaddr % 2 ^ 39 + k.toNat *
      x.bytes) x.bytes), s.m.vaultReady (vaultOf p.1) = true ∧ (s.m.vault (vaultOf p.1)).window = false ∧ p.1 % 2 ^ 36 + p.2 ≤ 2 ^ 36)) ∧
    (∃ (s : State) (t : TenancyIx) (e : BitVec 16) (k : BitVec 16) (im : Image) (x : MeshEntry), (s.m.activeImage = some im) ∧ (im.mesh t
      e.toNat = some x) ∧ (x.skind = 1) ∧ (∃ p ∈ (readPieces (im.vaultMask t) (x.vaddr.testBit 63) (x.bytes / 8192 + 2) (x.vaddr % 2 ^ 39
      + k.toNat * x.bytes) x.bytes), s.m.vaultReady (vaultOf p.1) = false ∨ (s.m.vault (vaultOf p.1)).window = true)) ∧
    (∃ (s : State) (v : VaultIx) (w : VaultWrite) (a : Nat) (bs : List (BitVec 8)) (q : List (Nat × List (BitVec 8))) (rest : List
      VaultWrite), (s.m.frozen = false) ∧ (s.m.mesh.vwrites = w :: rest) ∧ (w.pieces = (a, bs) :: q) ∧ (a / 2 ^ 36 = v.val) ∧ ((s.m.vault
      v).window = false) ∧ (q = []) ∧ (a % 2 ^ 36 + bs.length ≤ 2 ^ 36) ∧ (∀ i, w.tslot = some i → s.m.slotBit i = true) ∧ (∀ im,
      s.m.activeImage = some im → im.pairs w.ten = []) ∧ (s.m.vaultReady v = true)) ∧
    (∃ (s : State) (v : VaultIx) (w : VaultWrite) (a : Nat) (bs : List (BitVec 8)) (q : List (Nat × List (BitVec 8))) (rest : List
      VaultWrite) (i : _), (s.m.frozen = false) ∧ (s.m.mesh.vwrites = w :: rest) ∧ (w.pieces = (a, bs) :: q) ∧ (a / 2 ^ 36 = v.val) ∧
      ((s.m.vault v).window = false) ∧ (w.tslot = some i) ∧ (s.m.slotBit i = false)) ∧
    (∃ (s : State) (v : VaultIx) (w : VaultWrite) (a : Nat) (bs : List (BitVec 8)) (q : List (Nat × List (BitVec 8))) (rest : List
      VaultWrite), (s.m.frozen = false) ∧ (s.m.mesh.vwrites = w :: rest) ∧ (w.pieces = (a, bs) :: q) ∧ (a / 2 ^ 36 = v.val) ∧ ((s.m.vault
      v).window = true)) :=
  ⟨ ⟨st (L0.setVault 7 { dram := [(5, 1#8)], training := true }), 7, by decide +kernel⟩,
    ⟨st (L0.setVault 7 { dram := [(5, 1#8)] }), 7, by decide +kernel⟩,
    ⟨st (L0.put F.VLT_CTRL_SCRUB_EN 1 7), 7, true, true, [], by decide +kernel⟩,
    ⟨st (((L0.withImage (image1 [] [] [sec 7 0 [bytesOf 48 [(0, 4, 48), (6, 1, 1), (20, 4, 32), (24, 8, 0xFFFFFFFC0)]]])).put
      F.PLN_TEN_STAT_STATE 1 0 0).put F.VLT_STATUS_READY 1 0), 0, 0#16, 1#16, image1 [] [] [sec 7 0 [bytesOf 48 [(0, 4, 48), (6, 1, 1),
      (20, 4, 32), (24, 8, 0xFFFFFFFC0)]]], meshEntryOf (bytesOf 48 [(0, 4, 48), (6, 1, 1), (20, 4, 32), (24, 8, 0xFFFFFFFC0)]),
      by decide +kernel, by decide +kernel, by decide +kernel, by decide +kernel, by decide +kernel, by decide +kernel, fun _ => rfl,
      by decide +kernel⟩,
    ⟨st (L0.withImage (image1 [] [] [sec 7 0 [bytesOf 48 [(0, 4, 48), (6, 1, 1), (20, 4, 32), (24, 8, 0x7FFFFFFFE0)]]])), 0, 0#16, 0#16,
      image1 [] [] [sec 7 0 [bytesOf 48 [(0, 4, 48), (6, 1, 1), (20, 4, 32), (24, 8, 0x7FFFFFFFE0)]]], meshEntryOf (bytesOf 48 [(0, 4,
      48), (6, 1, 1), (20, 4, 32), (24, 8, 0x7FFFFFFFE0)]), by decide +kernel⟩,
    ⟨st ((L0.put F.VLT_STATUS_READY 1 7).setMesh fun e => { e with vwrites := [⟨0, [(0x7FFFFFFFFE, [1#8, 2#8])], none, 0, 0, 0, 0⟩] }), 7,
      ⟨0, [(0x7FFFFFFFFE, [1#8, 2#8])], none, 0, 0, 0, 0⟩, 0x7FFFFFFFFE, [1#8, 2#8], [], [], by decide +kernel, by decide +kernel,
      by decide +kernel, by decide +kernel, by decide +kernel, by decide +kernel, by decide +kernel, (fun _ e => nomatch e), noImage
      (by decide +kernel), by decide +kernel⟩,
    ⟨st ((L0.put F.VLT_STATUS_READY 1 7).setMesh fun e =>
      { e with vwrites := [⟨0, [(0x7FFFFFFFFE, [1#8, 2#8])], some 8191, 0, 0, 0, 0⟩] }), 7, ⟨0, [(0x7FFFFFFFFE, [1#8, 2#8])], some 8191,
      0, 0, 0, 0⟩, 0x7FFFFFFFFE, [1#8, 2#8], [], [], 8191, by decide +kernel⟩,
    ⟨st (((L0.put F.VLT_STATUS_READY 1 7).setMesh fun e =>
      { e with vwrites := [⟨0, [(0x7FFFFFFFFE, [1#8, 2#8])], none, 0, 0, 0, 0⟩] }).setVault 7 { window := true }), 7, ⟨0, [(0x7FFFFFFFFE,
      [1#8, 2#8])], none, 0, 0, 0, 0⟩, 0x7FFFFFFFFE, [1#8, 2#8], [], [], by decide +kernel⟩⟩

theorem witness_EngineCommands :
    (∃ (s : State) (g : EngineIx) (c : EngCmd) (rest : List (Nat × EngCmd)), (s.m.frozen = false) ∧ (s.m.mesh.ecmds = (g.val, c) :: rest)
      ∧ (s.m.vaultReady (g.val / 32) = true) ∧ ((s.m.engine g).sq.length < 16)) ∧
    (∃ (s : State) (g : EngineIx) (c : EngCmd) (rest : List (Nat × EngCmd)), (s.m.frozen = false) ∧ (s.m.mesh.ecmds = (g.val, c) :: rest)
      ∧ (s.m.vaultReady (g.val / 32) = true) ∧ (16 ≤ (s.m.engine g).sq.length) ∧ (c.ten = none)) ∧
    (∃ (s : State) (g : EngineIx) (c : EngCmd) (k : Packet) (rest : List (Nat × EngCmd × Packet)), (s.m.frozen = false) ∧ (∀ e ∈
      s.m.mesh.ecmds, e.1 ≠ g.val) ∧ (s.m.ni.ucmds = (g.val, c, k) :: rest) ∧ (s.m.vaultReady (g.val / 32) = true) ∧ ((s.m.engine
      g).uq.length < 64) ∧ (s.m.ni.filter.length < 8192) ∧ ((k.src, k.tag) ∉ s.m.ni.filter)) ∧
    (∃ (s : State) (g : EngineIx) (c : EngCmd) (q : List EngCmd), (s.m.frozen = false) ∧ ((s.m.engine g).run = none) ∧ ((s.m.engine g).sq
      = c :: q) ∧ (s.m.cmdBad true c.bytes = false)) ∧
    (∃ (s : State) (g : EngineIx) (c : EngCmd) (q : List EngCmd), (s.m.frozen = false) ∧ ((s.m.engine g).run = none) ∧ ((s.m.engine g).sq
      = c :: q) ∧ (s.m.cmdBad true c.bytes = true) ∧ (c.ten = none)) ∧
    (∃ (s : State) (g : EngineIx) (x : EngRun), (s.m.frozen = false) ∧ ((s.m.engine g).run = none) ∧ ((s.m.engine g).sq = []) ∧
      ((s.m.engine g).susp = some x)) ∧
    (∃ (s : State) (g : EngineIx) (c : EngCmd) (q : List EngCmd), (s.m.frozen = false) ∧ ((s.m.engine g).run = none) ∧ ((s.m.engine g).sq
      = []) ∧ ((s.m.engine g).susp = none) ∧ ((s.m.engine g).uq = c :: q)) ∧
    (∃ (s : State) (g : EngineIx) (x : EngRun), (s.m.frozen = false) ∧ ((s.m.engine g).run = some x) ∧ (x.sched = false) ∧ ((s.m.engine
      g).sq ≠ [])) ∧
    (∃ (s : State) (g : EngineIx) (x : EngRun), (s.m.frozen = false) ∧ ((s.m.engine g).run = some x) ∧ (x.computed = true)) ∧
    (∃ (s : State) (g : EngineIx) (x : EngRun), Computes s.m g 3 x) ∧
    (∃ (s : State) (g : EngineIx) (x : EngRun), Computes s.m g 1 x) ∧
    (∃ (s : State) (g : EngineIx) (x : EngRun), (Computes s.m g 2 x) ∧ (Rec.redMode ⟨x.cmd.bytes⟩ = 0 ∨ Rec.redMode ⟨x.cmd.bytes⟩ = 2)) ∧
    (∃ (s : State) (g : EngineIx) (x : EngRun), (Computes s.m g 4 x ∨ Computes s.m g 5 x) ∧ (Rec.atMode ⟨x.cmd.bytes⟩ = 0 ∨ Rec.atMode
      ⟨x.cmd.bytes⟩ = 2) ∧ ((⟨x.cmd.bytes⟩ : Rec).slotchk = false ∨ s.m.slotBit (⟨x.cmd.bytes⟩ : Rec).tslot = true) ∧ ((⟨x.cmd.bytes⟩ :
      Rec).op = 4)) ∧
    (∃ (s : State) (g : EngineIx) (x : EngRun), (Computes s.m g 4 x ∨ Computes s.m g 5 x) ∧ (Rec.atMode ⟨x.cmd.bytes⟩ = 0 ∨ Rec.atMode
      ⟨x.cmd.bytes⟩ = 2) ∧ ((⟨x.cmd.bytes⟩ : Rec).slotchk = false ∨ s.m.slotBit (⟨x.cmd.bytes⟩ : Rec).tslot = true) ∧ ((⟨x.cmd.bytes⟩ :
      Rec).op = 5)) ∧
    (∃ (s : State) (g : EngineIx) (x : EngRun), (Computes s.m g 4 x ∨ Computes s.m g 5 x) ∧ (Rec.atMode ⟨x.cmd.bytes⟩ = 0 ∨ Rec.atMode
      ⟨x.cmd.bytes⟩ = 2) ∧ ((⟨x.cmd.bytes⟩ : Rec).slotchk = true) ∧ (s.m.slotBit (⟨x.cmd.bytes⟩ : Rec).tslot = false)) :=
  ⟨ ⟨st (((L0.put F.VLT_STATUS_READY 1 7).setMesh fun e => { e with ecmds := [(255, ⟨[], none, 0, 0, 0, 0⟩)] }).setEngine 255
      { sq := List.replicate 15 ⟨[], none, 0, 0, 0, 0⟩ }), 255, ⟨[], none, 0, 0, 0, 0⟩, [], by decide +kernel⟩,
    ⟨st (((L0.put F.VLT_STATUS_READY 1 7).setMesh fun e => { e with ecmds := [(255, ⟨[], none, 0, 0, 0, 0⟩)] }).setEngine 255
      { sq := List.replicate 16 ⟨[], none, 0, 0, 0, 0⟩ }), 255, ⟨[], none, 0, 0, 0, 0⟩, [], by decide +kernel⟩,
    ⟨st (((L0.put F.VLT_STATUS_READY 1 7).setNi fun n => { n with ucmds := [(255, ⟨[], none, 0, 0, 0, 0⟩, ctlPkt 2 7 [])] }).setEngine 255
      { uq := List.replicate 63 ⟨[], none, 0, 0, 0, 0⟩ }), 255, ⟨[], none, 0, 0, 0, 0⟩, ctlPkt 2 7 [], [], by decide +kernel⟩,
    ⟨st (L0.setEngine 255 { sq := [⟨bytesOf 64 [(0, 1, 2), (4, 4, 64), (0x11, 1, 1), (0x14, 4, 256)], none, 0, 0, 0, 0⟩] }), 255, ⟨bytesOf
      64 [(0, 1, 2), (4, 4, 64), (0x11, 1, 1), (0x14, 4, 256)], none, 0, 0, 0, 0⟩, [], by decide +kernel⟩,
    ⟨st (L0.setEngine 255 { sq := [⟨[], none, 0, 0, 0, 0⟩] }), 255, ⟨[], none, 0, 0, 0, 0⟩, [], by decide +kernel⟩,
    ⟨st (L0.setEngine 255 { susp := some ⟨⟨[], none, 0, 0, 0, 0⟩, false, 5, false, none, none⟩ }), 255, ⟨⟨[], none, 0, 0, 0, 0⟩, false, 5,
      false, none, none⟩, by decide +kernel⟩,
    ⟨st (L0.setEngine 255 { uq := [⟨[], none, 0, 0, 0, 0⟩] }), 255, ⟨[], none, 0, 0, 0, 0⟩, [], by decide +kernel⟩,
    ⟨st (L0.setEngine 255 { sq := [⟨[], none, 0, 0, 0, 0⟩], run := some ⟨⟨[], none, 0, 0, 0, 0⟩, false, 5, false, none, none⟩ }), 255,
      ⟨⟨[], none, 0, 0, 0, 0⟩, false, 5, false, none, none⟩, by decide +kernel⟩,
    ⟨st (L0.setEngine 255 { run := some ⟨⟨[], none, 0, 0, 0, 0⟩, false, 5, true, none, none⟩ }), 255, ⟨⟨[], none, 0, 0, 0, 0⟩, false, 5,
      true, none, none⟩, by decide +kernel⟩,
    ⟨st ((L0.put F.VLT_STATUS_READY 1 7).setEngine 255
      { run := some ⟨⟨bytesOf 96 [(0, 1, 3), (4, 4, 96), (0x10, 2, 1), (0x14, 4, 32), (0x1C, 4, 2), (0x40, 4, 1)], none, 0, 0, 0, 0⟩, false, 5, false, none, none⟩ }),
      255, ⟨⟨bytesOf 96 [(0, 1, 3), (4, 4, 96), (0x10, 2, 1), (0x14, 4, 32), (0x1C, 4, 2), (0x40, 4, 1)], none, 0, 0, 0, 0⟩, false, 5,
      false, none, none⟩, (by refine ⟨?_, ?_, ?_, ?_, ?_, ?_, ?_, ?_, ?_, fun _ => rfl⟩ <;> decide +kernel)⟩,
    ⟨st ((L0.put F.VLT_STATUS_READY 1 7).setEngine 255
      { run := some ⟨⟨bytesOf 192 [(0, 1, 1), (4, 4, 192), (0x11, 1, 6), (0x12, 1, 1), (0x13, 1, 4), (0x14, 4, 1), (0x18, 4, 1)], none, 0, 0, 0, 0⟩, false, 5, false, none, none⟩ }),
      255, ⟨⟨bytesOf 192 [(0, 1, 1), (4, 4, 192), (0x11, 1, 6), (0x12, 1, 1), (0x13, 1, 4), (0x14, 4, 1), (0x18, 4, 1)], none, 0, 0, 0,
      0⟩, false, 5, false, none, none⟩, (by refine ⟨?_, ?_, ?_, ?_, ?_, ?_, ?_, ?_, ?_, fun _ => rfl⟩ <;> decide +kernel)⟩,
    ⟨st ((L0.put F.VLT_STATUS_READY 1 7).setEngine 255
      { run := some ⟨⟨bytesOf 64 [(0, 1, 2), (4, 4, 64), (0x11, 1, 1), (0x14, 4, 256), (0x1C, 4, 256)], none, 0, 0, 0, 0⟩, false, 5, false, none, none⟩ }),
      255, ⟨⟨bytesOf 64 [(0, 1, 2), (4, 4, 64), (0x11, 1, 1), (0x14, 4, 256), (0x1C, 4, 256)], none, 0, 0, 0, 0⟩, false, 5, false, none,
      none⟩, (by refine ⟨?_, ?_, ?_, ?_, ?_, ?_, ?_, ?_, ?_, fun _ => rfl⟩ <;> decide +kernel), by decide +kernel⟩,
    ⟨st ((L0.put F.VLT_STATUS_READY 1 7).setEngine 255
      { run := some ⟨⟨bytesOf 128 [(0, 1, 4), (4, 4, 128), (0x10, 2, 1), (0x14, 4, 32), (0x1C, 4, 2), (0x40, 4, 1), (0x60, 4, 0xAABB)], none, 0, 0, 0, 0⟩, false, 5, false, none, none⟩ }),
      255, ⟨⟨bytesOf 128 [(0, 1, 4), (4, 4, 128), (0x10, 2, 1), (0x14, 4, 32), (0x1C, 4, 2), (0x40, 4, 1), (0x60, 4, 0xAABB)], none, 0, 0,
      0, 0⟩, false, 5, false, none, none⟩, .inl (by refine ⟨?_, ?_, ?_, ?_, ?_, ?_, ?_, ?_, ?_, fun _ => rfl⟩ <;> decide +kernel),
      by decide +kernel, by decide +kernel, by decide +kernel⟩,
    ⟨st ((L0.put F.VLT_STATUS_READY 1 7).setEngine 255
      { run := some ⟨⟨bytesOf 96 [(0, 1, 5), (4, 4, 96), (0x10, 2, 1), (0x12, 1, 2), (0x1C, 4, 2), (0x40, 4, 1), (0x44, 4, 5)], none, 0, 0, 0, 0⟩, false, 5, false, none, none⟩ }),
      255, ⟨⟨bytesOf 96 [(0, 1, 5), (4, 4, 96), (0x10, 2, 1), (0x12, 1, 2), (0x1C, 4, 2), (0x40, 4, 1), (0x44, 4, 5)], none, 0, 0, 0, 0⟩,
      false, 5, false, none, none⟩, .inr (by refine ⟨?_, ?_, ?_, ?_, ?_, ?_, ?_, ?_, ?_, fun _ => rfl⟩ <;> decide +kernel),
      by decide +kernel, by decide +kernel, by decide +kernel⟩,
    ⟨st ((L0.put F.VLT_STATUS_READY 1 7).setEngine 255
      { run := some ⟨⟨bytesOf 96 [(0, 1, 5), (1, 1, 1), (2, 2, 8191), (4, 4, 96), (0x10, 2, 1), (0x12, 1, 2), (0x1C, 4, 2), (0x40, 4, 1), (0x44, 4, 5)], none, 0, 0, 0, 0⟩, false, 5, false, none, none⟩ }),
      255, ⟨⟨bytesOf 96 [(0, 1, 5), (1, 1, 1), (2, 2, 8191), (4, 4, 96), (0x10, 2, 1), (0x12, 1, 2), (0x1C, 4, 2), (0x40, 4, 1), (0x44, 4,
      5)], none, 0, 0, 0, 0⟩, false, 5, false, none, none⟩, .inr
      (by refine ⟨?_, ?_, ?_, ?_, ?_, ?_, ?_, ?_, ?_, fun _ => rfl⟩ <;> decide +kernel), by decide +kernel, by decide +kernel,
      by decide +kernel⟩⟩

theorem witness_ControlRings :
    (∃ (s : State) (r : Fin 2), (s.m.cringFull r = false) ∧ (s.m.vaultReady 0 = true)) ∧
    (∃ (s : State), (s.m.cringFull 0 = true) ∧ (s.m.vaultReady 0 = true) ∧ (s.m.get F.VLT_CRING_DROP_COUNT < 0xFFFFFFFE)) ∧
    (∃ (s : State), s.m.cringFull 1 = true) ∧
    (∃ (s : State), s.m.vaultReady 0 = false) ∧
    (∃ (s : State) (r : Fin 2) (v : BitVec 32), (v.toNat < 2 ^ 24) ∧ ((fun (n : Nat) => (n + 2 ^ 24 - s.m.get F.VLT_CRING_CONS 0 r) % 2 ^
      24) v.toNat ≤ (fun (n : Nat) => (n + 2 ^ 24 - s.m.get F.VLT_CRING_CONS 0 r) % 2 ^ 24) (s.m.get F.VLT_CRING_PROD 0 r))) ∧
    (∃ (s : State) (r : Fin 2) (v : BitVec 32), (v.toNat < 2 ^ 24) ∧ ((fun (n : Nat) => (n + 2 ^ 24 - s.m.get F.VLT_CRING_CONS 0 r) % 2 ^
      24) (s.m.get F.VLT_CRING_PROD 0 r) < (fun (n : Nat) => (n + 2 ^ 24 - s.m.get F.VLT_CRING_CONS 0 r) % 2 ^ 24) v.toNat)) :=
  ⟨ ⟨st ((L0.put F.VLT_STATUS_READY 1 0).put F.VLT_CRING_PROD 0xFFFFFF 0 1), 1, by decide +kernel⟩,
    ⟨st (((L0.put F.VLT_STATUS_READY 1 0).put F.VLT_CRING_PROD 4096 0 0).put F.VLT_CRING_DROP_COUNT 0xFFFFFFFD), by decide +kernel⟩,
    ⟨st (L0.put F.VLT_CRING_PROD 8192 0 1), by decide +kernel⟩,
    ⟨st ((L0.put F.VLT_CRING_PROD 4096 0 0).put F.VLT_CRING_DROP_COUNT 0xFFFFFFFD), by decide +kernel⟩,
    ⟨st ((L0.put F.VLT_CRING_PROD 7 0 1).put F.VLT_CRING_CONS 3 0 1), 1, 7#32, by decide +kernel⟩,
    ⟨st ((L0.put F.VLT_CRING_PROD 7 0 1).put F.VLT_CRING_CONS 3 0 1), 1, 8#32, by decide +kernel⟩⟩

theorem witness_MeshSlots :
    (∃ (s : State) (t : TenancyIx) (e : BitVec 16) (im : Image) (x : MeshEntry) (r : VaultRead), (SlotOpen s.m t e im x) ∧ (x.skind = 1) ∧
      (x.sid ≠ 0xFFFF) ∧ (x.dkind = 0) ∧ (s.m.mesh.vreads = [r]) ∧ (r.ten = t.val) ∧ (r.entry = e.toNat) ∧ (r.member = 0)) ∧
    (∃ (s : State) (t : TenancyIx) (e : BitVec 16) (im : Image) (x : MeshEntry) (q : SendEntry) (p : Nat), (SlotOpen s.m t e im x) ∧
      (x.skind = 0) ∧ (x.sid ≠ 0xFFFF) ∧ ((s.m.cell (listGet 0 (im.cellsOf t) x.sid)).sendq = [q]) ∧ ((descOf q.desc).mslot = e.toNat) ∧
      (q.start = none) ∧ ((descOf q.desc).kind = 2) ∧ (s.m.logicalCell (bitsOf (descOf q.desc).dst 47 32) = some p) ∧ ((s.m.cell (listGet
      0 (im.cellsOf t) x.sid)).poison = []) ∧ (0 < (descOf q.desc).bytes) ∧ (q.missed (6250 * s.m.frame + x.start) 256 (descOf
      q.desc).bytes = 0)) ∧
    (∃ (s : State) (t : TenancyIx) (e : BitVec 16) (im : Image) (x : MeshEntry), (SlotOpen s.m t e im x) ∧ (x.skind = 1) ∧ (x.sid ≠
      0xFFFF) ∧ (s.m.mesh.vreads = [])) ∧
    (∃ (s : State) (g : EngineIx) (t : TenancyIx) (e : BitVec 16) (im : Image) (x : MeshEntry) (r : EngResult) (c : Nat), (SlotOpen s.m t
      e im x) ∧ (x.skind = 2) ∧ (x.sid ≠ 0xFFFF) ∧ (32 * bitsOf x.sid 10 8 + bitsOf x.sid 4 0 = g.val) ∧ ((s.m.engine g).results = [r]) ∧
      (r.mslot = e.toNat) ∧ (r.ten = some t.val) ∧ (s.m.logicalCell r.dcell = some c) ∧ (5 * r.at_ + 64 ≤ 4 * (6250 * s.m.frame +
      x.start))) ∧
    (∃ (s : State) (g : EngineIx) (t : TenancyIx) (e : BitVec 16) (im : Image) (x : MeshEntry), (SlotOpen s.m t e im x) ∧ (x.skind = 2) ∧
      (x.sid ≠ 0xFFFF) ∧ (32 * bitsOf x.sid 10 8 + bitsOf x.sid 4 0 = g.val) ∧ (∀ r ∈ (s.m.engine g).results, 4 * (6250 * s.m.frame +
      x.start) < 5 * r.at_ + 64)) :=
  ⟨ ⟨st (((((L0.withImage (image1 [] [9, 1359] [sec 7 0 [bytesOf 48 [(0, 4, 48), (6, 1, 1), (8, 2, 1), (10, 2, 1), (20, 4, 32), (32, 4,
      64), (36, 1, 15)]]])).put F.PLN_TEN_STAT_STATE 1 0 0).setTen 0 { live := true, running := true }).setMesh fun e =>
      { e with vreads := [⟨0, 0, 0, List.replicate 32 7#8⟩] })), 0, 0#16, image1 [] [9, 1359] [sec 7 0 [bytesOf 48 [(0, 4, 48), (6, 1, 1),
      (8, 2, 1), (10, 2, 1), (20, 4, 32), (32, 4, 64), (36, 1, 15)]]], meshEntryOf (bytesOf 48 [(0, 4, 48), (6, 1, 1), (8, 2, 1), (10, 2,
      1), (20, 4, 32), (32, 4, 64), (36, 1, 15)]), ⟨0, 0, 0, List.replicate 32 7#8⟩, by decide +kernel⟩,
    ⟨st ((((L0.withImage
      { image1 [] [9, 1359] [sec 7 0 [bytesOf 48 [(0, 4, 48), (8, 2, 1), (10, 2, 0), (14, 2, 4), (20, 4, 32)]]] with act := [9, 1359] }).put
      F.PLN_TEN_STAT_STATE 1 0 0).setTen 0 { live := true, running := true }).setCell 1359
      { sendq := [{ desc := bytesOf 32 [(0, 1, 2), (8, 4, 32)], left := 32, step := 0, frame := 0, ready := 4 }] }), 0, 0#16,
      { image1 [] [9, 1359] [sec 7 0 [bytesOf 48 [(0, 4, 48), (8, 2, 1), (10, 2, 0), (14, 2, 4), (20, 4, 32)]]] with act := [9, 1359] },
      meshEntryOf (bytesOf 48 [(0, 4, 48), (8, 2, 1), (10, 2, 0), (14, 2, 4), (20, 4, 32)]),
      { desc := bytesOf 32 [(0, 1, 2), (8, 4, 32)], left := 32, step := 0, frame := 0, ready := 4 }, 9, by decide +kernel⟩,
    ⟨st ((((L0.withImage (image1 [] [9, 1359] [sec 7 0 [bytesOf 48 [(0, 4, 48), (6, 1, 1), (8, 2, 1), (10, 2, 1), (20, 4, 32), (32, 4,
      64), (36, 1, 15)]]])).put F.PLN_TEN_STAT_STATE 1 0 0).setTen 0 { live := true, running := true })), 0, 0#16, image1 [] [9, 1359]
      [sec 7 0 [bytesOf 48 [(0, 4, 48), (6, 1, 1), (8, 2, 1), (10, 2, 1), (20, 4, 32), (32, 4, 64), (36, 1, 15)]]], meshEntryOf (bytesOf
      48 [(0, 4, 48), (6, 1, 1), (8, 2, 1), (10, 2, 1), (20, 4, 32), (32, 4, 64), (36, 1, 15)]), by decide +kernel⟩,
    ⟨st (((L0.withImage
      { image1 [] [9, 1359] [sec 7 0 [bytesOf 48 [(0, 4, 48), (6, 1, 2), (8, 2, 0x71F), (14, 2, 20), (20, 4, 32)]]] with act := [0, 1, 2, 3] }).put
      F.PLN_TEN_STAT_STATE 1 0 0).setTen 0 { live := true, running := true } |>.setEngine 255
      { results := [⟨some 0, 0, 3, 5, 64, List.replicate 32 7#8, 3⟩] }), 255, 0, 0#16,
      { image1 [] [9, 1359] [sec 7 0 [bytesOf 48 [(0, 4, 48), (6, 1, 2), (8, 2, 0x71F), (14, 2, 20), (20, 4, 32)]]] with act := [0, 1, 2, 3] },
      meshEntryOf (bytesOf 48 [(0, 4, 48), (6, 1, 2), (8, 2, 0x71F), (14, 2, 20), (20, 4, 32)]), ⟨some 0, 0, 3, 5, 64, List.replicate 32
      7#8, 3⟩, 3, by decide +kernel⟩,
    ⟨st (((L0.withImage
      { image1 [] [9, 1359] [sec 7 0 [bytesOf 48 [(0, 4, 48), (6, 1, 2), (8, 2, 0x71F), (14, 2, 20), (20, 4, 32)]]] with act := [0, 1, 2, 3] }).put
      F.PLN_TEN_STAT_STATE 1 0 0).setTen 0 { live := true, running := true } |>.setEngine 255
      { results := [⟨some 0, 0, 3, 5, 64, List.replicate 32 7#8, 4⟩] }), 255, 0, 0#16,
      { image1 [] [9, 1359] [sec 7 0 [bytesOf 48 [(0, 4, 48), (6, 1, 2), (8, 2, 0x71F), (14, 2, 20), (20, 4, 32)]]] with act := [0, 1, 2, 3] },
      meshEntryOf (bytesOf 48 [(0, 4, 48), (6, 1, 2), (8, 2, 0x71F), (14, 2, 20), (20, 4, 32)]), by decide +kernel⟩⟩

theorem witness_MailboxesWatchdogsResets :
    (∃ (s : State) (n : BlockIx), (s.m.isOn n = true) ∧ ((s.m.get F.BLK_MBOX_CTRL_OWNER n) = 0)) ∧
    (∃ (s : State) (n : BlockIx), (s.m.get F.BLK_MBOX_CTRL_OWNER n) ≠ 0) ∧
    (∃ (s : State) (n : BlockIx) (head : Bool), (s.m.isOn n = true) ∧ ((s.m.get F.BLK_MBOX_CTRL_OWNER n) = (if head then 1 else 2))) ∧
    (∃ (s : State) (n : BlockIx) (head : Bool), s.m.isOn n = false ∨ (s.m.get F.BLK_MBOX_CTRL_OWNER n) ≠ (if head then 1 else 2)) ∧
    (∃ (s : State) (n : BlockIx), s.m.isOn n = true) ∧
    (∃ (s : State) (n : BlockIx), (s.m.isOn n = true) ∧ (s.m.flag F.BLK_STW_WDOG_EXPIRED n = false) ∧ ((s.m.get F.BLK_STW_WDOG_LIMIT n) ≠
      0) ∧ ((s.m.get F.BLK_STW_WDOG_LIMIT n) ≤ (4 * (s.m.frame + 1 - (s.m.steward n).wdog))) ∧ (∀ im, s.m.activeImage = some im →
      im.tenOfBlock n = none)) ∧
    (∃ (s : State) (n : BlockIx) (im : _) (t : _), (s.m.isOn n = true) ∧ (s.m.flag F.BLK_STW_WDOG_EXPIRED n = false) ∧ ((s.m.get
      F.BLK_STW_WDOG_LIMIT n) ≠ 0) ∧ ((s.m.get F.BLK_STW_WDOG_LIMIT n) ≤ (4 * (s.m.frame + 1 - (s.m.steward n).wdog))) ∧ (s.m.activeImage
      = some im) ∧ (im.tenOfBlock n = some t) ∧ (s.m.tenState t = tenRunning) ∧ ((s.m.ten t).fault = none)) ∧
    (∃ (s : State) (n : BlockIx), (s.m.get F.BLK_STW_WDOG_LIMIT n) = 0 ∨ (4 * (s.m.frame + 1 - (s.m.steward n).wdog)) < (s.m.get
      F.BLK_STW_WDOG_LIMIT n)) ∧
    (∃ (s : State) (k : HeadIx) (j : HeadIx), (s.m.flag F.DBG_HS_EXPIRED 0 k = false) ∧ ((s.m.get F.DBG_HS_LIMIT 0 k) ≠ 0) ∧ ((s.m.get
      F.DBG_HS_LIMIT 0 k) ≤ (4 * (s.m.frame + 1 - (s.m.steward (80 + k.val)).wdog))) ∧ (k ≠ j) ∧ (s.m.flag F.DBG_HS_EXPIRED 0 j = false))
      ∧
    (∃ (s : State) (k : HeadIx), (s.m.flag F.DBG_HS_EXPIRED 0 k = false) ∧ ((s.m.get F.DBG_HS_LIMIT 0 k) ≠ 0) ∧ ((s.m.get F.DBG_HS_LIMIT 0
      k) ≤ (4 * (s.m.frame + 1 - (s.m.steward (80 + k.val)).wdog))) ∧ (∀ j : HeadIx, k ≠ j → s.m.flag F.DBG_HS_EXPIRED 0 j = true)) ∧
    (∃ (s : State) (k : HeadIx), (s.m.get F.DBG_HS_LIMIT 0 k) = 0 ∨ (4 * (s.m.frame + 1 - (s.m.steward (80 + k.val)).wdog)) < (s.m.get
      F.DBG_HS_LIMIT 0 k)) ∧
    (∃ (s : State) (n : BlockIx), (s.m.isOn n = true) ∧ (s.m.flag F.BLK_STW_CTRL_HALT n = false)) ∧
    (∃ (s : State) (n : BlockIx), (s.m.isOn n = true) ∧ (s.m.flag F.BLK_STW_CTRL_HALT n = true)) ∧
    (∃ (s : State) (i : StewardIx), (i.val < 80) ∧ (s.m.isOn i = true) ∧ ((s.m.steward i).reset = true) ∧ (s.m.flag F.BLK_STW_CTRL_HALT i
      = false)) ∧
    (∃ (s : State) (i : StewardIx), (i.val < 80) ∧ (s.m.isOn i = true) ∧ ((s.m.steward i).reset = true) ∧ (s.m.flag F.BLK_STW_CTRL_HALT i
      = true)) ∧
    (∃ (s : State) (i : StewardIx), (80 ≤ i.val) ∧ ((s.m.steward i).reset = true) ∧ (2 ≤ s.m.get F.KEP_STATUS_STAGE ∨ i.val = 80 ∧ 1 ≤
      s.m.get F.KEP_STATUS_STAGE)) ∧
    (∃ (s : State) (k : HeadIx) (who : Requester) (loads : Bool), (who ≠ .head k) ∧ (∀ n, who ≠ .block n) ∧ (loads = false ∨ s.m.loadNow =
      none)) :=
  ⟨ ⟨st (L0.setOn 79 true), 79, by decide +kernel⟩,
    ⟨st (L0.put F.BLK_MBOX_CTRL_OWNER 1 79), 79, by decide +kernel⟩,
    ⟨st ((L0.setOn 79 true).put F.BLK_MBOX_CTRL_OWNER 2 79), 79, false, by decide +kernel⟩,
    ⟨st (L0.put F.BLK_MBOX_CTRL_OWNER 1 79), 79, false, by decide +kernel⟩,
    ⟨st (L0.setOn 79 true), 79, by decide +kernel⟩,
    ⟨st ((L0.setOn 79 true).put F.BLK_STW_WDOG_LIMIT 4 79), 79, by decide +kernel⟩,
    ⟨st ((((L0.setOn 79 true).put F.BLK_STW_WDOG_LIMIT 4 79).withImage (image1 [(8, 16, 2 ^ 79)] [] [])).put F.PLN_TEN_STAT_STATE 1 0 0),
      79, image1 [(8, 16, 2 ^ 79)] [] [], 0, by decide +kernel⟩,
    ⟨st (L0.setOn 79 true), 79, by decide +kernel⟩,
    ⟨st (L0.put F.DBG_HS_LIMIT 4 0 3), 3, 0, by decide +kernel⟩,
    ⟨st ((((L0.put F.DBG_HS_LIMIT 4 0 3).put F.DBG_HS_EXPIRED 1 0 0).put F.DBG_HS_EXPIRED 1 0 1).put F.DBG_HS_EXPIRED 1 0 2), 3,
      by decide +kernel⟩,
    ⟨st (L0.setOn 79 true), 79, by decide +kernel⟩,
    ⟨st (((L0.setOn 79 true).put F.BLK_STW_CTRL_HALT 0 79).setSteward 79 { reset := false, x := [(1, 5#64)], isram := [(0, 1#8)] }), 79,
      by decide +kernel⟩,
    ⟨st ((L0.setOn 79 true).put F.BLK_STW_CTRL_HALT 1 79), 79, by decide +kernel⟩,
    ⟨st ((L0.setOn 79 true).put F.BLK_STW_CTRL_HALT 0 79), 79, by decide +kernel⟩,
    ⟨st (L0.setOn 79 true), 79, by decide +kernel⟩,
    ⟨st (L0.put F.KEP_STATUS_STAGE 2), 80, by decide +kernel⟩,
    ⟨st (L0.setSteward 83 { reset := false, x := [(1, 5#64)], isram := [(0, 1#8)] }), 3, .host, false, by decide, (fun _ e => nomatch e),
      .inl rfl⟩⟩

theorem witness_StewardsRun :
    (∃ (s : State) (i : StewardIx) (w : Nat), (AtWord s.m i w) ∧ (w % 128 = 0x13) ∧ (rvF3 w = 0)) ∧
    (∃ (s : State) (i : StewardIx) (w : Nat), (AtWord s.m i w) ∧ (w % 128 = 0x33) ∧ (rvF3 w = 0) ∧ (rvF7 w = 0)) ∧
    (∃ (s : State) (i : StewardIx) (w : Nat) (c : Nat), (AtWord s.m i w) ∧ (w = 0x73 ∧ c = 11 ∨ w % 128 = 0x7B ∧ c = 2)) ∧
    (∃ (s : State) (i : StewardIx), s.m.stwRuns i = false) ∧
    (∃ (s : State) (i : StewardIx), (AtWord s.m i 0x10500073) ∧ (s.m.stwPending i = 0)) ∧
    (∃ (s : State) (i : StewardIx) (w : Nat) (p : Nat) (o : Nat), (AtWord s.m i w) ∧ (w % 128 = 0x73) ∧ (bitsOf w 31 20 = 0x7C8) ∧ (rvF3 w
      = 1) ∧ ((s.m.steward i).rx (rvRs1 w) % 32 = 0) ∧ (spaceFor i ((s.m.steward i).rx (rvRs1 w)) = .store p o) ∧ (s.m.stwReaches i
      (.store p o) = true)) ∧
    (∃ (s : State) (i : StewardIx), (s.m.steward i).csr 0x7C0 / 4000 = s.m.frame) ∧
    (∃ (s : State) (i : StewardIx), (s.m.steward i).csr 0x7C0 / 4000 ≠ s.m.frame) ∧
    (∃ (s : State) (i : StewardIx), (s.m.stwRuns i = true) ∧ (((s.m.steward i).csr 0x300).testBit 3 = true) ∧ (s.m.stwPending i ≠ 0) ∧
      ((s.m.steward i).pc < 2 ^ 64)) ∧
    (∃ (s : State) (i : StewardIx), s.m.stwRuns i = false ∨ ((s.m.steward i).csr 0x300).testBit 3 = false ∨ s.m.stwPending i = 0) :=
  ⟨ ⟨st (L0.setSteward 83 { reset := false, x := [(1, 0xFFFFFFFFFFFFFFFF#64)], isram := ssets 0#8 [] 0 (leBytes 4 0x80008F93) }), 83,
      0x80008F93, by decide +kernel⟩,
    ⟨st (L0.setSteward 83 { reset := false, x := [(1, 0xFFFFFFFFFFFFFFFF#64)], isram := ssets 0#8 [] 0 (leBytes 4 0x00108FB3) }), 83,
      0x00108FB3, by decide +kernel⟩,
    ⟨st (L0.setSteward 83
      { reset := false, csrs := [(0x300, 8#64), (0x305, 0x1000000000101#64)], isram := ssets 0#8 [] 0 (leBytes 4 0x7B) }), 83, 0x7B, 2,
      by decide +kernel⟩,
    ⟨st (L0.setSteward 83 { reset := true }), 83, by decide +kernel⟩,
    ⟨st ((L0.setOn 79 true).setSteward 79 { reset := false, isram := ssets 0#8 [] 0 (leBytes 4 0x10500073) }), 79, by decide +kernel⟩,
    ⟨st ((L0.setOn 79 true).setSteward 83
      { reset := false, x := [(5, 0x3000054FFFFE0#64)], isram := ssets 0#8 [] 0 (leBytes 4 0x7C829073) }), 83, 0x7C829073, 1359, 0xFFFE0,
      by decide +kernel⟩,
    ⟨st (L0.setSteward 79 { csrs := [(0x7C0, 3999#64)] }), 79, by decide +kernel⟩,
    ⟨st (L0.setSteward 83 { reset := true }), 83, by decide +kernel⟩,
    ⟨st ((L0.setOn 79 true).setSteward 79
      { reset := false, opened := true, csrs := [(0x300, 8#64), (0x304, 0x800#64), (0x305, 0x1000000000100#64), (0x7C1, 0xFFFFFFFF#64)] }),
      79, by decide +kernel⟩,
    ⟨st (L0.setSteward 83 { reset := true }), 83, by decide +kernel⟩⟩

theorem witness_LinksTrainAndMove :
    (∃ (s : State) (p : PortIx), s.m.linkState p = 0) ∧
    (∃ (s : State) (p : PortIx), s.m.linkState p = 7 ∨ s.m.linkState p = 8) ∧
    (∃ (s : State) (p : PortIx) (lanes : BitVec 16), (s.m.linkState p = 1) ∧ (lanes.toNat % 256 = 255 ∨ lanes.toNat / 256 = 255)) ∧
    (∃ (lanes : BitVec 16), (lanes.toNat % 256 ≠ 255) ∧ (lanes.toNat / 256 ≠ 255)) ∧
    (∃ (s : State) (p : PortIx) (rx : BitVec 16) (tx : BitVec 16) (wr : Nat × Nat) (wt : Nat × Nat), (s.m.linkState p = 2) ∧ (wr = widthOf
      rx.toNat (s.m.flag F.LNK_CTRL_HALF_EN p && decide (2 ≤ s.m.versions p))) ∧ (wt = widthOf tx.toNat (s.m.flag F.LNK_CTRL_HALF_EN p &&
      decide (2 ≤ s.m.versions p))) ∧ (wr.1 ≠ 0) ∧ (wt.1 ≠ 0)) ∧
    (∃ (s : State) (p : PortIx) (rx : BitVec 16) (tx : BitVec 16), (s.m.linkState p = 9) ∧ (rx = 0xFFFF) ∧ (tx = 0xFFFF)) ∧
    (∃ (s : State) (p : PortIx), s.m.linkState p = 2) ∧
    (∃ (s : State) (p : PortIx) (f : BitVec 512) (both : Nat) (v : Nat), (ctlOk (flitBytes f) = true) ∧ (fieldAt (flitBytes f) 0 1 = 4) ∧
      (s.m.linkState p = 3) ∧ (s.m.flag F.LNK_PEER_EXP_EN p = true → fieldAt (flitBytes f) 4 2 % 2 ^ 14 = s.m.get F.LNK_PEER_EXP_ID p) ∧
      (fieldAt (flitBytes f) 3 1 / 2 % 2 = 1) ∧ (both = s.m.versions p &&& fieldAt (flitBytes f) 1 1) ∧ (v = (if both.testBit 2 then 3
      else if both.testBit 1 then 2 else both % 2)) ∧ (v ≠ 0) ∧ (v = 1 → s.m.get F.LNK_STATUS_RX_WIDTH p ≠ 1 ∧ s.m.get
      F.LNK_STATUS_TX_WIDTH p ≠ 1)) ∧
    (∃ (s : State) (p : PortIx) (f : BitVec 512), (ctlOk (flitBytes f) = true) ∧ (fieldAt (flitBytes f) 0 1 = 4) ∧ (s.m.linkState p = 3) ∧
      (s.m.flag F.LNK_PEER_EXP_EN p = true) ∧ (fieldAt (flitBytes f) 4 2 % 2 ^ 14 ≠ s.m.get F.LNK_PEER_EXP_ID p)) ∧
    (∃ (f : BitVec 512), ctlOk (flitBytes f) = false) ∧
    (∃ (s : State) (p : PortIx), (s.m.linkState p = 4) ∧ (2 ≤ (s.m.ptime p).run) ∧ (s.m.rttUnits p + 128 ≤ s.m.outMax p + 1)) ∧
    (∃ (s : State) (p : PortIx), (s.m.linkState p = 4) ∧ (2 ≤ (s.m.ptime p).run) ∧ (s.m.outMax p + 1 < s.m.rttUnits p + 128)) ∧
    (∃ (s : State) (p : PortIx), (s.m.linkState p = 7) ∧ (s.m.flag F.LNK_CTRL_AUTO_TRAIN p = true)) ∧
    (∃ (s : State) (p : PortIx), (s.m.linkState p = 7) ∧ (s.m.flag F.LNK_CTRL_AUTO_TRAIN p = false)) ∧
    (∃ (s : State) (p : PortIx), s.m.linkState p = 5) ∧
    (∃ (s : State) (p : PortIx), s.m.linkState p = 6) ∧
    (∃ (s : State) (p : PortIx), s.m.linkState p = 9) ∧
    (∃ (s : State) (p : PortIx) (k : Nat), (s.m.linkState p = 6) ∧ ((s.m.port p).peerExpect = some k)) ∧
    (∃ (s : State) (p : PortIx), (s.m.linkState p = 9) ∧ ((s.m.port p).reConf = true) ∧ ((s.m.port p).peerSeen = true)) ∧
    (∃ (s : State) (p : PortIx) (f : BitVec 512), (ctlOk (flitBytes f) = true) ∧ (fieldAt (flitBytes f) 0 1 = 7) ∧ (3 ≤ s.m.linkState p ∧
      s.m.linkState p ≤ 6 ∨ s.m.linkState p = 9)) ∧
    (∃ (s : State) (p : PortIx) (good : BitVec 16), (s.m.linkState p = 5 ∨ s.m.linkState p = 6) ∧ ((s.m.port p).peerCal ≠ some s.m.frame)
      ∧ (stillGood (s.m.get F.LNK_STATUS_RX_WIDTH p) (s.m.get F.LNK_STATUS_RX_HALF p) good.toNat = true)) ∧
    (∃ (s : State) (p : PortIx) (good : BitVec 16), (s.m.linkState p = 5 ∨ s.m.linkState p = 6) ∧ ((s.m.port p).peerCal ≠ some s.m.frame)
      ∧ (stillGood (s.m.get F.LNK_STATUS_RX_WIDTH p) (s.m.get F.LNK_STATUS_RX_HALF p) good.toNat = false) ∧ (s.m.get F.LNK_STATUS_RX_WIDTH
      p ≠ 2 ∨ (widthOf good.toNat (s.m.halfAllowed p)).1 = 0)) ∧
    (∃ (s : State) (p : PortIx) (good : BitVec 16) (h : Nat), (s.m.linkState p = 5 ∨ s.m.linkState p = 6) ∧ ((s.m.port p).peerCal ≠ some
      s.m.frame) ∧ (s.m.get F.LNK_STATUS_RX_WIDTH p = 2) ∧ (widthOf good.toNat (s.m.halfAllowed p) = (1, h))) ∧
    (∃ (s : State) (p : PortIx) (f : BitVec 512), (ctlOk (flitBytes f) = true) ∧ (fieldAt (flitBytes f) 0 1 = 5) ∧ (s.m.linkState p = 5) ∧
      (fieldAt (flitBytes f) 1 1 ≠ 0 ∨ stillGood (s.m.get F.LNK_STATUS_TX_WIDTH p) (s.m.get F.LNK_STATUS_TX_HALF p) (fieldAt (flitBytes f)
      2 2) = true)) ∧
    (∃ (s : State) (p : PortIx) (f : BitVec 512) (h : Nat), (ctlOk (flitBytes f) = true) ∧ (fieldAt (flitBytes f) 0 1 = 5) ∧
      (s.m.linkState p = 5 ∨ s.m.linkState p = 6) ∧ (fieldAt (flitBytes f) 1 1 = 0) ∧ (s.m.get F.LNK_STATUS_TX_WIDTH p = 2) ∧ (widthOf
      (fieldAt (flitBytes f) 2 2) (s.m.halfAllowed p) = (1, h))) :=
  ⟨ ⟨st (L0), 17, by decide +kernel⟩,
    ⟨st ((L0.put F.LNK_STATUS_STATE 8 17).setPort 17 { ut := 5, buffer := [⟨1, 2, [], 0, none⟩] }), 17, by decide +kernel⟩,
    ⟨st (L0.put F.LNK_STATUS_STATE 1 17), 17, 0xFF7F#16, by decide +kernel⟩,
    ⟨0x7FFE#16, by decide +kernel⟩,
    ⟨st ((((L0.put F.LNK_STATUS_STATE 2 17).put F.LNK_CTRL_HALF_EN 1 17).put F.LNK_CTRL_VER_MAX 2 17).put F.MOD_IDENT_LINK_PROTO_MAX 3),
      17, 0xFF00#16, 0xFFFF#16, (1, 1), (2, 0), by decide +kernel⟩,
    ⟨st ((L0.put F.LNK_STATUS_STATE 9 17)), 17, 0xFFFF#16, 0xFFFF#16, by decide +kernel⟩,
    ⟨st ((L0.put F.LNK_STATUS_STATE 2 17).setPort 17 { due := [⟨0, 1, 2⟩] }), 17, by decide +kernel⟩,
    ⟨st (((((L0.put F.LNK_STATUS_STATE 3 17).put F.LNK_PEER_EXP_EN 1 17).put F.LNK_PEER_EXP_ID 5 17).put F.LNK_CTRL_VER_MAX 3 17).put
      F.MOD_IDENT_LINK_PROTO_MAX 3), 17, flit [4, 4, 0, 2, 5], 4, 3, by decide +kernel⟩,
    ⟨st ((((L0.put F.LNK_STATUS_STATE 3 17).put F.LNK_PEER_EXP_EN 1 17).put F.LNK_PEER_EXP_ID 6 17)), 17, flit [4, 4, 0, 2, 5],
      by decide +kernel⟩,
    ⟨flit [8], by decide +kernel⟩,
    ⟨st (((L0.put F.LNK_STATUS_STATE 4 17).setPtime 17 { done := true, run := 2, rtt := 320 * 1920 }).put F.LNK_STATUS_VERSION 1 17), 17,
      by decide +kernel⟩,
    ⟨st (((L0.put F.LNK_STATUS_STATE 4 17).setPtime 17 { done := true, run := 2, rtt := 320 * 1920 + 1 }).put F.LNK_STATUS_VERSION 1 17),
      17, by decide +kernel⟩,
    ⟨st (((L0.put F.LNK_STATUS_STATE 7 17).put F.LNK_CTRL_AUTO_TRAIN 1 17).setPort 17 { ut := 5, buffer := [⟨1, 2, [], 0, none⟩] }), 17,
      by decide +kernel⟩,
    ⟨st ((L0.put F.LNK_STATUS_STATE 7 17).put F.LNK_CTRL_AUTO_TRAIN 0 17), 17, by decide +kernel⟩,
    ⟨st ((L0.put F.LNK_STATUS_STATE 5 17).setPort 17 { ut := 5, buffer := [⟨1, 2, [], 0, none⟩] }), 17, by decide +kernel⟩,
    ⟨st (L0.put F.LNK_STATUS_STATE 6 17), 17, by decide +kernel⟩,
    ⟨st (L0.put F.LNK_STATUS_STATE 9 17), 17, by decide +kernel⟩,
    ⟨st (((L0.put F.LNK_STATUS_STATE 6 17).put F.LNK_SEQ_TX_NEXT 6 17).setPort 17
      { peerExpect := some 5, buffer := [⟨1, 5, [], 0, none⟩] }), 17, 5, by decide +kernel⟩,
    ⟨st ((L0.put F.LNK_STATUS_STATE 9 17).setPort 17 { reConf := true, peerSeen := true }), 17, by decide +kernel⟩,
    ⟨st (L0.put F.LNK_STATUS_STATE 5 17), 17, flit [7], by decide +kernel⟩,
    ⟨st (((L0.put F.LNK_STATUS_STATE 6 17).put F.LNK_STATUS_RX_WIDTH 1 17).put F.LNK_STATUS_RX_HALF 1 17), 17, 0xFF7F#16,
      by decide +kernel⟩,
    ⟨st (((L0.put F.LNK_STATUS_STATE 6 17).put F.LNK_SEQ_TX_NEXT 6 17).setPort 17
      { peerExpect := some 5, buffer := [⟨1, 5, [], 0, none⟩] }), 17, 5, by decide +kernel⟩,
    ⟨st ((((L0.put F.LNK_STATUS_STATE 5 17).put F.LNK_CTRL_HALF_EN 1 17).put F.LNK_STATUS_VERSION 2 17).put F.LNK_STATUS_RX_WIDTH 2 17),
      17, 0xFF7F#16, 1, by decide +kernel⟩,
    ⟨st (L0.put F.LNK_STATUS_STATE 5 17), 17, flit [5, 1, 0xFF, 0, 9], by decide +kernel⟩,
    ⟨st ((((L0.put F.LNK_STATUS_STATE 6 17).put F.LNK_CTRL_HALF_EN 1 17).put F.LNK_STATUS_VERSION 2 17).put F.LNK_STATUS_TX_WIDTH 2 17),
      17, flit [5, 0, 0xFF, 0x7F, 9], 0, by decide +kernel⟩⟩

theorem witness_LinkUnitsAndReplay :
    (∃ (s : State) (p : PortIx) (w : BitVec 544), (s.m.linkState p = 5) ∧ (s.m.frozen = false) ∧ (unitParity w = true) ∧ (unitControl w /
      2 ^ 14 ≠ 0) ∧ (unitControl w % 2 ^ 14 = s.m.get F.LNK_SEQ_RX_EXPECT p)) ∧
    (∃ (s : State) (p : PortIx) (w : BitVec 544) (k : Packet), (s.m.linkState p = 5) ∧ (s.m.frozen = false) ∧ (unitParity w = true) ∧ (k =
      { hdr := unitFlit w }) ∧ (k.fmt = 1) ∧ (k.known = true) ∧ (unitControl w / 2 ^ 14 = vcOf k.tc) ∧ (unitControl w % 2 ^ 14 = s.m.get
      F.LNK_SEQ_RX_EXPECT p) ∧ (∀ q ∈ (s.m.port p).parts, q.1 ≠ vcOf k.tc)) ∧
    (∃ (s : State) (p : PortIx) (w : BitVec 544), (s.m.flag F.LNK_SEQ_DISCARD p = false) ∧ (s.m.receives p = true ∧ unitParity w = false ∨
      s.m.linkState p = 5 ∧ s.m.frozen = false ∧ unitControl w / 2 ^ 14 ≠ 0 ∧ unitControl w % 2 ^ 14 ≠ s.m.get F.LNK_SEQ_RX_EXPECT p)) ∧
    (∃ (s : State) (p : PortIx), (s.m.linkState p = 5) ∧ (s.m.flag F.LNK_SEQ_DISCARD p = true) ∧ ((s.m.port p).nakOut = none) ∧ ((s.m.port
      p).nakAt + s.m.rttUnits p + 256 ≤ s.m.unitNow p)) ∧
    (∃ (s : State) (p : PortIx) (f : BitVec 512) (a : List TxUnit) (u : TxUnit) (b : List TxUnit), (ctlOk (flitBytes f) = true) ∧ (fieldAt
      (flitBytes f) 0 1 = 1) ∧ (fieldAt (flitBytes f) 1 1 % 2 = 1) ∧ ((s.m.port p).buffer = a ++ u :: b) ∧ (u.seq = fieldAt (flitBytes f)
      2 2 % 2 ^ 14) ∧ (∀ v ∈ a, v.seq ≠ u.seq)) ∧
    (∃ (f : BitVec 512), (ctlOk (flitBytes f) = true) ∧ (fieldAt (flitBytes f) 0 1 = 1)) ∧
    (∃ (s : State) (p : PortIx) (f : BitVec 512) (u : TxUnit), (ctlOk (flitBytes f) = true) ∧ (fieldAt (flitBytes f) 0 1 = 2) ∧
      (s.m.linkState p = 5) ∧ ((s.m.port p).buffer.find? (·.seq = fieldAt (flitBytes f) 2 2 % 2 ^ 14) = some u) ∧ (u.count ≠ s.m.replayMax
      p) ∧ ((s.m.port p).due = []) ∧ (∀ v ∈ (s.m.port p).buffer, v.due = none)) ∧
    (∃ (s : State) (p : PortIx) (f : BitVec 512) (u : TxUnit), (ctlOk (flitBytes f) = true) ∧ (fieldAt (flitBytes f) 0 1 = 2) ∧
      (s.m.linkState p = 5) ∧ ((s.m.port p).buffer.find? (·.seq = fieldAt (flitBytes f) 2 2 % 2 ^ 14) = some u) ∧ (u.count = s.m.replayMax
      p) ∧ (s.m.flag F.LNK_STATUS_PROBATION p = false)) ∧
    (∃ (s : State) (p : PortIx) (f : BitVec 512), (ctlOk (flitBytes f) = true) ∧ (fieldAt (flitBytes f) 0 1 = 2) ∧ (s.m.receives p = true)
      ∧ (∀ u ∈ (s.m.port p).buffer, u.seq ≠ fieldAt (flitBytes f) 2 2 % 2 ^ 14)) ∧
    (∃ (s : State) (p : PortIx) (k : Nat), (s.m.port p).nak = some k) ∧
    (∃ (s : State) (p : PortIx), (s.m.port p).probEnd ≤ s.m.frame) ∧
    (∃ (s : State) (p : PortIx), s.m.frame < (s.m.port p).probEnd) ∧
    (∃ (s : State) (p : PortIx), (Transmits p s.m) ∧ ((s.m.port p).due = []) ∧ ((s.m.port p).replay = none) ∧ (fixedAt (s.m.port p).ut
      (unitTimes s.m p) = some true)) ∧
    (∃ (s : State) (p : PortIx), (Transmits p s.m) ∧ ((s.m.port p).due = []) ∧ ((s.m.port p).replay = none) ∧ ((s.m.port p).leaves = []) ∧
      (fixedAt (s.m.port p).ut (unitTimes s.m p) = some false)) ∧
    (∃ (s : State) (p : PortIx) (b : List (BitVec 8)), (Transmits p s.m) ∧ ((s.m.port p).due = []) ∧ ((s.m.port p).replay = none) ∧
      (fixedAt (s.m.port p).ut (unitTimes s.m p) = none) ∧ ((s.m.port p).nakOut = some b)) ∧
    (∃ (s : State) (p : PortIx) (k : Nat) (u : TxUnit), (Transmits p s.m) ∧ (NothingWaits p s.m) ∧ ((s.m.port p).due = []) ∧ (∀ v ∈
      (s.m.port p).buffer, v.due = none) ∧ ((s.m.port p).replay = some k) ∧ ((s.m.port p).buffer.find? (·.seq = k) = some u)) ∧
    (∃ (s : State) (p : PortIx) (d : DueUnit) (f : VcFlit), (Transmits p s.m) ∧ (NothingWaits p s.m) ∧ ((s.m.port p).replay = none) ∧
      ((s.m.port p).due = [d]) ∧ (d.sched = s.m.unitNow p) ∧ (s.m.headFlit p = some (d, f)) ∧ (f.nflit = none) ∧ ((s.m.port
      p).buffer.length < s.m.outMax p)) ∧
    (∃ (s : State) (p : PortIx), (Transmits p s.m) ∧ (NothingWaits p s.m) ∧ ((s.m.port p).replay = none) ∧ ((s.m.port p).due = []) ∧
      ((s.m.port p).leaves = []) ∧ ((s.m.port p).rest = []) ∧ ((s.m.port p).vc1 = []) ∧ ((s.m.port p).vc2 = [])) ∧
    (∃ (s : State) (p : PortIx), (s.m.linkState p = 5) ∧ (s.m.frozen = false) ∧ (s.m.calibrating p = true) ∧ ((s.m.port p).due = []) ∧ (∀
      k, k < 2 → s.m.dueAt p ((s.m.port p).ut + k) = []) ∧ ((s.m.port p).nak = none) ∧ ((s.m.port p).replay = none) ∧ ((s.m.port p).cause
      = none)) ∧
    (∃ (s : State) (p : PortIx) (d : DueUnit), ((s.m.port p).due = [d]) ∧ ((s.m.port p).nak = none) ∧ ((s.m.port p).replay = none) ∧
      (s.m.get F.LNK_SCHED_CARRY_UT p < s.m.unitNow p - d.sched) ∧ (d.ten < 16) ∧ (s.m.tenState d.ten = tenRunning) ∧ ((s.m.ten
      d.ten).fault = none)) ∧
    (∃ (s : State) (p : PortIx), s.m.linkState p = 5) ∧
    (∃ (f : BitVec 512), (ctlOk (flitBytes f) = true) ∧ (fieldAt (flitBytes f) 0 1 = 6)) ∧
    (∃ (s : State) (p : PortIx) (t : Int), 160 < (t - toSigned 16 (s.m.get F.LNK_PLL_TEMP_CAL p)).natAbs) ∧
    (∃ (s : State) (p : PortIx) (t : Int), (t - toSigned 16 (s.m.get F.LNK_PLL_TEMP_CAL p)).natAbs ≤ 160) ∧
    (∃ (s : State) (p : PortIx), s.m.linkState p = 7 ∨ s.m.linkState p = 0 ∧ s.m.flag F.LNK_CTRL_ENABLE p = true) ∧
    (∃ (s : State) (p : PortIx), (s.m.linkState p = 8) ∧ (s.m.get F.LNK_STATUS_PLL p = 0) ∧ (s.m.get F.LNK_TEST_PATTERN p ≤ 4)) ∧
    (∃ (s : State) (p : PortIx), s.m.linkState p ≠ 8) ∧
    (∃ (s : State) (p : PortIx), (s.m.linkState p = 8) ∧ (s.m.get F.LNK_STATUS_PLL p = 0) ∧ (s.m.get F.LNK_TEST_STATUS p = 1)) :=
  ⟨ ⟨st ((L0.put F.LNK_STATUS_STATE 5 17).put F.LNK_SEQ_RX_EXPECT 0x3FFF 17), 17, unitOf 3 0x3FFF [], by decide +kernel⟩,
    ⟨st ((L0.put F.LNK_STATUS_STATE 5 17).put F.LNK_SEQ_RX_EXPECT 0x3FFF 17), 17, unitOf 3 0x3FFF (ctlPkt 0x10 0 []).hdr,
      { hdr := unitFlit (unitOf 3 0x3FFF (ctlPkt 0x10 0 []).hdr) }, by decide +kernel⟩,
    ⟨st ((L0.put F.LNK_STATUS_STATE 5 17).put F.LNK_SEQ_RX_EXPECT 0x3FFF 17), 17, unitOf 1 0 [], by decide +kernel⟩,
    ⟨st (((L0.put F.LNK_STATUS_STATE 5 17).put F.LNK_SEQ_DISCARD 1 17).setPort 17 { ut := 356, nakAt := 100 }), 17, by decide +kernel⟩,
    ⟨st (L0.setPort 17 { buffer := [⟨1, 5, [], 0, none⟩, ⟨1, 6, [], 0, none⟩, ⟨1, 7, [], 0, none⟩] }), 17, flit [1, 1, 6], [⟨1, 5, [], 0,
      none⟩], ⟨1, 6, [], 0, none⟩, [⟨1, 7, [], 0, none⟩], by decide +kernel⟩,
    ⟨flit [1, 1, 6], by decide +kernel⟩,
    ⟨st ((L0.put F.LNK_STATUS_STATE 5 17).setPort 17 { buffer := [⟨1, 6, [], 3, none⟩] }), 17, flit [2, 0, 6], ⟨1, 6, [], 3, none⟩,
      by decide +kernel⟩,
    ⟨st ((L0.put F.LNK_STATUS_STATE 5 17).setPort 17 { buffer := [⟨1, 6, [], ((L0.put F.LNK_STATUS_STATE 5 17)).replayMax 17, none⟩] }),
      17, flit [2, 0, 6], ⟨1, 6, [], ((L0.put F.LNK_STATUS_STATE 5 17)).replayMax 17, none⟩, by decide +kernel⟩,
    ⟨st ((L0.put F.LNK_STATUS_STATE 5 17).setPort 17 { buffer := [⟨1, 6, [], 3, none⟩] }), 17, flit [2, 0, 7], by decide +kernel⟩,
    ⟨st (L0.setPort 17 { nak := some 6, buffer := [⟨1, 5, [], 0, none⟩, ⟨1, 6, [], 3, none⟩] }), 17, 6, by decide +kernel⟩,
    ⟨st (L0.put F.LNK_STATUS_PROBATION 1 17), 17, by decide +kernel⟩,
    ⟨st ((L0.put F.LNK_STATUS_PROBATION 1 17).setPort 17 { probEnd := 1 }), 17, by decide +kernel⟩,
    ⟨st (((L0.put F.LNK_STATUS_STATE 5 17).put F.LNK_STATUS_TX_WIDTH 2 17).setPort 17
      { ut := 12498, scramblers := List.replicate 16 5#31 }), 17, by decide +kernel⟩,
    ⟨st (((L0.put F.LNK_STATUS_STATE 5 17).put F.LNK_STATUS_TX_WIDTH 2 17).setPort 17 { ut := 63, scramblers := List.replicate 16 5#31 }),
      17, by decide +kernel⟩,
    ⟨st (((L0.put F.LNK_STATUS_STATE 5 17).put F.LNK_STATUS_TX_WIDTH 2 17).setPort 17
      { ut := 100, scramblers := List.replicate 16 5#31, nakOut := some [2#8, 0#8, 6#8] }), 17, [2#8, 0#8, 6#8], by decide +kernel⟩,
    ⟨st (((L0.put F.LNK_STATUS_STATE 5 17).put F.LNK_STATUS_TX_WIDTH 2 17).setPort 17
      { ut := 100, scramblers := List.replicate 16 5#31, replay := some 6, buffer := [⟨1, 6, [], 0, none⟩] }), 17, 6, ⟨1, 6, [], 0, none⟩,
      by decide +kernel⟩,
    ⟨st (((L0.put F.LNK_STATUS_STATE 5 17).put F.LNK_STATUS_TX_WIDTH 2 17).setPort 17
      { ut := 100, scramblers := List.replicate 16 5#31, due := [⟨0, 100, 2⟩], flits := [⟨0, 0, [5#8], none, 0, 0, 50⟩] }), 17, ⟨0, 100,
      2⟩, ⟨0, 0, [5#8], none, 0, 0, 50⟩, by decide +kernel⟩,
    ⟨st ((L0.put F.LNK_STATUS_STATE 5 17).put F.LNK_SEQ_DISCARD 1 17), 17, by decide +kernel⟩,
    ⟨st ((L0.put F.LNK_STATUS_STATE 5 17).setPort 17 { ut := 4687, calFrame := some 0, scramblers := List.replicate 16 5#31 }), 17,
      by decide +kernel⟩,
    ⟨st (((L0.put F.LNK_SCHED_CARRY_UT 8 17).put F.PLN_TEN_STAT_STATE 1 0 15).setPort 17 { ut := 109, due := [⟨15, 100, 2⟩] }), 17, ⟨15,
      100, 2⟩, by decide +kernel⟩,
    ⟨st ((L0.put F.LNK_STATUS_STATE 5 17).put F.LNK_SEQ_DISCARD 1 17), 17, by decide +kernel⟩,
    ⟨flit [6, 0, 0, 0, 0, 0, 0, 0, 9, 1], by decide +kernel⟩,
    ⟨st (L0.put F.LNK_PLL_TEMP_CAL 0xFFFF 17), 17, 160, by decide +kernel⟩,
    ⟨st (L0.setPort 17 { nak := some 6, buffer := [⟨1, 5, [], 0, none⟩, ⟨1, 6, [], 3, none⟩] }), 17, 6, by decide +kernel⟩,
    ⟨st (L0.put F.LNK_STATUS_STATE 7 17), 17, by decide +kernel⟩,
    ⟨st (((L0.put F.LNK_STATUS_STATE 8 17).put F.LNK_STATUS_PLL 0 17).put F.LNK_TEST_PATTERN 4 17), 17, by decide +kernel⟩,
    ⟨st (L0.put F.LNK_STATUS_STATE 7 17), 17, by decide +kernel⟩,
    ⟨st (((L0.put F.LNK_STATUS_STATE 8 17).put F.LNK_STATUS_PLL 0 17).put F.LNK_TEST_STATUS 1 17), 17, by decide +kernel⟩⟩

theorem witness_PacketsDelivered :
    (∃ (c : _) (s : State) (k : Packet) (rest : List Packet) (im : Image) (t : Nat), (c ∈ [(Instr.write, 1), (.readData, 3)]) ∧ (Front s.m
      c.2 k rest) ∧ (s.m.keyTen k.pkey = some (im, t)) ∧ (bitsOf k.target 63 62 = 1) ∧ (k.target.testBit 61 = false) ∧ (rangeOk
      (im.vaultMask t) false (k.target % 2 ^ 39) k.bytes = true) ∧ (k.payload ≠ []) ∧ (s.m.protectReason im t (k.target % 2 ^ 39)
      k.payload.length = none) ∧ (s.m.vaultReady (vaultOf (k.target % 2 ^ 39)) = true) ∧ (s.m.moverFull [(k.target % 2 ^ 39,
      k.payload.length)] = false) ∧ (k.slotchk = false ∨ s.m.slotBit k.tslot = true)) ∧
    (∃ (c : _) (s : State) (k : Packet) (rest : List Packet) (im : Image) (t : Nat), (c ∈ [(Instr.write, 1), (.readData, 3)]) ∧ (Front s.m
      c.2 k rest) ∧ (s.m.keyTen k.pkey = some (im, t)) ∧ (bitsOf k.target 63 62 = 1) ∧ (k.target.testBit 61 = false) ∧ (rangeOk
      (im.vaultMask t) false (k.target % 2 ^ 39) k.bytes = true) ∧ (k.payload ≠ []) ∧ (s.m.protectReason im t (k.target % 2 ^ 39)
      k.payload.length = none) ∧ (s.m.vaultReady (vaultOf (k.target % 2 ^ 39)) = true) ∧ (s.m.moverFull [(k.target % 2 ^ 39,
      k.payload.length)] = false) ∧ (k.slotchk = true) ∧ (s.m.slotBit k.tslot = false)) ∧
    (∃ (c : _) (s : State) (k : Packet) (rest : List Packet), (c ∈ [(Instr.write, 1), (.engine, 2), (.readData, 3)]) ∧ (Front s.m c.2 k
      rest) ∧ (s.m.keyTen k.pkey = none)) ∧
    (∃ (s : State) (k : Packet) (rest : List Packet) (im : Image) (t : Nat) (v : Nat) (e : Nat), (Front s.m 2 k rest) ∧ (s.m.keyTen k.pkey
      = some (im, t)) ∧ (bitsOf k.target 63 62 = 2) ∧ (bitsOf (bitsOf k.target 59 44) 10 8 = v) ∧ (bitsOf (bitsOf k.target 59 44) 4 0 = e)
      ∧ ((im.vaultMask t).testBit v = true) ∧ ((k.src, k.tag) ∉ s.m.ni.filter) ∧ (s.m.ni.filter.length < 8192) ∧ (s.m.cmdBad false
      k.payload = false) ∧ (s.m.cmdProtect im t (32 * v + e) k.payload = none)) ∧
    (∃ (s : State) (k : Packet) (rest : List Packet), (Front s.m 4 k rest) ∧ (2 ^ 30 < k.target % 2 ^ 39 + k.bytes)) ∧
    (∃ (s : State) (k : Packet) (rest : List Packet), (Front s.m 4 k rest) ∧ (k.target % 2 ^ 39 + k.bytes ≤ 2 ^ 30) ∧ (s.m.vaultReady 0 =
      true) ∧ (s.m.stageOwner ≠ 3)) ∧
    (∃ (s : State) (k : Packet) (rest : List Packet), (Front s.m 0x12 k rest) ∧ ((k.src, k.tag) ∉ s.m.ni.filter) ∧ (s.m.ni.filter.length <
      8192) ∧ (s.m.ni.reads.length < 256) ∧ (k.f 0x18 8 ≤ 2 ^ 20) ∧ (k.f 0x18 8 % 32 = 0)) ∧
    (∃ (c : _) (s : State) (k : Packet) (rest : List Packet), (c ∈ [(Instr.engine, 2), (.readReq, 0x12), (.msg, 0x15)]) ∧ (Front s.m c.2 k
      rest) ∧ ((k.src, k.tag) ∈ s.m.ni.filter) ∧ (c.2 = 2 → ∃ im t, s.m.keyTen k.pkey = some (im, t) ∧ bitsOf k.target 63 62 = 2 ∧
      (im.vaultMask t).testBit (bitsOf (bitsOf k.target 59 44) 10 8) = true)) ∧
    (∃ (s : State) (k : Packet) (rest : List Packet) (ring : Nat), (Front s.m 0x15 k rest) ∧ ((k.src, k.tag) ∉ s.m.ni.filter) ∧
      (s.m.ni.filter.length < 8192) ∧ (ring = (if k.tc = 2 then 1 else 0)) ∧ (s.m.vaultReady 0 = true) ∧ (s.m.cringFull ring = false)) :=
  ⟨ ⟨(Instr.write, 1), st ((((L0.withImage (image1 [(2, 2, 7), (6, 1, 0x80)] [] [])).put F.VLT_STATUS_READY 1 7).receiving (dataPkt 1 7 (2
      ^ 62 + 7 * 2 ^ 36 + 0xF7FFFFFE0) (List.replicate 32 5#8)))), dataPkt 1 7 (2 ^ 62 + 7 * 2 ^ 36 + 0xF7FFFFFE0) (List.replicate 32
      5#8), [], image1 [(2, 2, 7), (6, 1, 0x80)] [] [], 0, by decide +kernel⟩,
    ⟨(Instr.write, 1), st (((L0.withImage (image1 [(2, 2, 7), (6, 1, 0x80)] [] [])).put F.VLT_STATUS_READY 1 7).receiving (Packet.withCrc
      { hdr := mkHdr 2 1 7 0 9 3 1 1 2 (dataBody (2 ^ 62 + 7 * 2 ^ 36 + 0xF7FFFFFE0) 8191 0 true 32), data := List.replicate 32 5#8 })),
      Packet.withCrc
      { hdr := mkHdr 2 1 7 0 9 3 1 1 2 (dataBody (2 ^ 62 + 7 * 2 ^ 36 + 0xF7FFFFFE0) 8191 0 true 32), data := List.replicate 32 5#8 }, [],
      image1 [(2, 2, 7), (6, 1, 0x80)] [] [], 0, by decide +kernel⟩,
    ⟨(Instr.engine, 2), st (L0.receiving (dataPkt 2 7 (2 ^ 63) (List.replicate 64 5#8))), dataPkt 2 7 (2 ^ 63) (List.replicate 64 5#8),
      [], by decide +kernel⟩,
    ⟨st ((L0.withImage (image1 [(2, 2, 7), (6, 1, 0x80)] [] [])).receiving (dataPkt 2 7 (2 ^ 63 + 0x71F * 2 ^ 44) (bytesOf 64 [(0, 1, 2),
      (4, 4, 64), (0x11, 1, 1), (0x14, 4, 256)]))), dataPkt 2 7 (2 ^ 63 + 0x71F * 2 ^ 44) (bytesOf 64 [(0, 1, 2), (4, 4, 64), (0x11, 1,
      1), (0x14, 4, 256)]), [], image1 [(2, 2, 7), (6, 1, 0x80)] [] [], 0, 7, 31, by decide +kernel⟩,
    ⟨st (L0.receiving (dataPkt 4 0 (2 ^ 30 - 31) (List.replicate 32 5#8))), dataPkt 4 0 (2 ^ 30 - 31) (List.replicate 32 5#8), [],
      by decide +kernel⟩,
    ⟨st ((L0.put F.VLT_STATUS_READY 1 0).receiving (dataPkt 4 0 (2 ^ 30 - 32) (List.replicate 32 5#8))), dataPkt 4 0 (2 ^ 30 - 32)
      (List.replicate 32 5#8), [], by decide +kernel⟩,
    ⟨st (L0.receiving (ctlPkt 0x12 7 (leBytes 8 64 ++ leBytes 8 (2 ^ 20) ++ leBytes 8 (2 ^ 62) ++ [15#8]))), ctlPkt 0x12 7 (leBytes 8 64
      ++ leBytes 8 (2 ^ 20) ++ leBytes 8 (2 ^ 62) ++ [15#8]), [], by decide +kernel⟩,
    ⟨(Instr.msg, 0x15), st ((L0.receiving (ctlPkt 0x15 0 [])).setNi fun n => { n with filter := [(9, 3)] }), ctlPkt 0x15 0 [], [],
      by decide +kernel, by decide +kernel, by decide +kernel, fun h => absurd h (by decide)⟩,
    ⟨st ((L0.receiving (ctlPkt 0x15 0 [])).put F.VLT_STATUS_READY 1 0), ctlPkt 0x15 0 [], [], 0, by decide +kernel⟩⟩

theorem witness_DeliveryResendRouting :
    (∃ (d : _) (s : State) (k : Packet) (rest : List Packet), (d ∈ Spec.deliveries) ∧ (s.m.ni.inbox = k :: rest) ∧ (k.crcOk = true) ∧
      (k.op ≠ d.2)) ∧
    (∃ (d : _) (s : State), (d ∈ Spec.deliveries) ∧ (s.m.ni.inbox = [])) ∧
    (∃ (d : _) (s : State) (k : Packet) (rest : List Packet), (d ∈ Spec.deliveries) ∧ (s.m.ni.inbox = k :: rest) ∧ (k.crcOk = false) ∧
      (s.m.ni.notices.length < 64)) ∧
    (∃ (s : State) (k : Packet) (rest : List Packet) (x : Resend), (Front s.m 0x10 k rest) ∧ (s.m.ni.records.find? (·.tag = k.f 0x10 4) =
      some x)) ∧
    (∃ (s : State) (k : Packet) (rest : List Packet), (Front s.m 0x10 k rest) ∧ (s.m.ni.records.find? (·.tag = k.f 0x10 4) = none)) ∧
    (∃ (s : State) (k : Packet) (rest : List Packet), (Front s.m 0x11 k rest) ∧ (k.f 0x14 1 = 4 ∨ s.m.ni.records.find? (·.tag = k.f 0x10
      4) = none)) ∧
    (∃ (s : State) (k : Packet) (rest : List Packet) (x : Resend), (Front s.m 0x11 k rest) ∧ (s.m.ni.records.find? (·.tag = k.f 0x10 4) =
      some x) ∧ (k.f 0x14 1 = 1) ∧ (x.attempt < attempts s.m)) ∧
    (∃ (s : State) (k : Packet) (rest : List Packet) (x : Resend), (Front s.m 0x11 k rest) ∧ (s.m.ni.records.find? (·.tag = k.f 0x10 4) =
      some x) ∧ (k.f 0x14 1 ≠ 1) ∧ (k.f 0x14 1 ≠ 4) ∧ (x.from_ = .notice ∨ x.from_ = .steward)) ∧
    (∃ (s : State) (x : Resend) (tag : BitVec 32), (s.m.frozen = false) ∧ (s.m.ni.records.find? (·.tag = tag.toNat) = some x) ∧ (s.m.held
      (fieldAt x.hdr 1 1 % 4) = false) ∧ (x.attempt < attempts s.m)) ∧
    (∃ (s : State) (x : Resend) (tag : BitVec 32), (s.m.frozen = false) ∧ (s.m.ni.records.find? (·.tag = tag.toNat) = some x) ∧ (s.m.held
      (fieldAt x.hdr 1 1 % 4) = false) ∧ (attempts s.m ≤ x.attempt) ∧ (x.from_ = .notice ∨ x.from_ = .steward)) ∧
    (∃ (s : State) (x : Resend) (tag : BitVec 32), (s.m.ni.records.find? (·.tag = tag.toNat) = some x) ∧ (s.m.held (fieldAt x.hdr 1 1 % 4)
      = true)) ∧
    (∃ (s : State) (k : Packet) (rest : List Packet) (im : Image) (t : Nat), (Front s.m 0x13 k rest) ∧ (s.m.activeImage = some im) ∧
      ((List.range im.tenancyCount).find? (fun t => im.pkey t == k.pkey) = some t) ∧ (s.m.tenState t = tenRunning) ∧ (k.f 0x10 8 =
      (s.m.ten t).step) ∧ (s.m.frame + 3 ≤ k.f 0x18 8 + im.retryFrames)) ∧
    (∃ (s : State) (k : Packet) (rest : List Packet) (im : Image) (t : Nat), (Front s.m 0x13 k rest) ∧ (s.m.activeImage = some im) ∧
      ((List.range im.tenancyCount).find? (fun t => im.pkey t == k.pkey) = some t) ∧ (s.m.tenState t = tenRunning) ∧ (k.f 0x10 8 ≠
      (s.m.ten t).step ∨ k.f 0x18 8 + im.retryFrames < s.m.frame + 3)) ∧
    (∃ (s : State) (k : Packet) (rest : List Packet) (im : Image) (t : Nat), (Front s.m 0x13 k rest) ∧ (s.m.activeImage = some im) ∧
      ((List.range im.tenancyCount).find? (fun t => im.pkey t == k.pkey) = some t) ∧ (s.m.tenState t = tenFaulted) ∧ (k.f 0x10 8 =
      (s.m.ten t).step) ∧ (k.f 0x18 8 < (s.m.ten t).ff) ∧ (s.m.frame + 3 ≤ k.f 0x18 8 + im.retryFrames)) ∧
    (∃ (s : State) (k : Packet) (rest : List Packet) (im : Image) (t : Nat), (Front s.m 0x14 k rest) ∧ (s.m.activeImage = some im) ∧
      ((List.range im.tenancyCount).find? (fun t => im.pkey t == k.pkey) = some t) ∧ (s.m.tenState t ≠ tenHalted) ∧ ((s.m.ten t).halt =
      none)) ∧
    (∃ (s : State) (p : PortIx) (k : Packet), (s.m.frozen = false) ∧ (s.m.firstReady (s.m.port p).arrived = some k) ∧ (s.m.keyOk p false
      k.tc k.pkey = false) ∧ (k.tc ≠ 0)) ∧
    (∃ (s : State) (p : PortIx) (k : Packet), (s.m.frozen = false) ∧ (s.m.firstReady (s.m.port p).arrived = some k) ∧ (s.m.keyOk p false
      k.tc k.pkey = true) ∧ (k.tc ≠ 0) ∧ (k.dst = s.m.ownId)) ∧
    (∃ (s : State) (p : PortIx) (k : Packet) (q : Nat), (s.m.frozen = false) ∧ (s.m.firstReady (s.m.port p).arrived = some k) ∧ (s.m.keyOk
      p false k.tc k.pkey = true) ∧ (k.tc ≠ 0) ∧ (k.dst ≠ s.m.ownId) ∧ (s.m.outPort p k.dst = some q) ∧ (q < 18) ∧ (s.m.linkState q = 5) ∧
      (k.hops ≠ 0)) ∧
    (∃ (s : State) (p : PortIx) (k : Packet), (s.m.frozen = false) ∧ (s.m.firstReady (s.m.port p).arrived = some k) ∧ (s.m.keyOk p false
      k.tc k.pkey = true) ∧ (k.tc ≠ 0) ∧ (k.dst ≠ s.m.ownId) ∧ (s.m.outPort p k.dst ≠ some 0x1E) ∧ (k.hops = 0)) ∧
    (∃ (s : State) (p : PortIx) (k : Packet), (s.m.frozen = false) ∧ (s.m.firstReady (s.m.port p).arrived = some k) ∧ (s.m.keyOk p false
      k.tc k.pkey = true) ∧ (k.tc ≠ 0) ∧ (k.dst ≠ s.m.ownId) ∧ (s.m.outPort p k.dst = none) ∧ (k.hops ≠ 0)) ∧
    (∃ (s : State) (p : PortIx) (k : Packet), (s.m.frozen = false) ∧ (s.m.firstReady (s.m.port p).arrived = some k) ∧ (s.m.keyOk p false
      k.tc k.pkey = true) ∧ (k.tc = 0) ∧ (k.dst = s.m.ownId) ∧ (s.m.keyRuns k.pkey = true)) ∧
    (∃ (s : State) (p : PortIx) (k : Packet), (s.m.frozen = false) ∧ (s.m.firstReady (s.m.port p).arrived = some k) ∧ (s.m.keyOk p false
      k.tc k.pkey = true) ∧ (k.tc = 0) ∧ (s.m.keyRuns k.pkey = false)) ∧
    (∃ (s : State) (r : BlockIx) (fc : BitVec 13), (NothingToSend s.m) ∧ (s.m.flitsToSend r fc.toNat = [])) ∧
    (∃ (s : State) (r : BlockIx) (fc : BitVec 13) (i : Nat) (q : Nat) (j : Nat) (x : MeshPkt) (rest : List Nat), (s.m.frozen = false) ∧
      (s.m.domainOn r = true) ∧ (NothingToSend s.m) ∧ (s.m.flitsToSend r fc.toNat = [(i, x)]) ∧ (s.m.routerQ r i = [x]) ∧ (x.path = q ::
      rest) ∧ (x.next r = (q, j)) ∧ (q ≠ r) ∧ (s.m.domainOn q = true) ∧ (x.total = x.left)) ∧
    (∃ (s : State) (r : BlockIx) (fc : BitVec 13) (i : Nat) (x : MeshPkt) (ue : List Nat), (s.m.frozen = false) ∧ (s.m.domainOn r = true)
      ∧ (NothingToSend s.m) ∧ (s.m.flitsToSend r fc.toNat = [(i, x)]) ∧ (s.m.routerQ r i = [x]) ∧ (x.path = []) ∧ (x.dest = 18) ∧ (x.total
      = 1) ∧ (x.left = 1) ∧ (s.m.routerQ niNode 0 = []) ∧ (ue = [] ∨ ue = [1])) ∧
    (∃ (s : State) (r : ReadReq) (rest : List ReadReq), (s.m.frozen = false) ∧ (s.m.ni.reads = r :: rest) ∧ (∀ v, v < 8 → s.m.vaultReady v
      = true) ∧ (∀ v, (s.m.vault v).poison = [])) ∧
    (∃ (s : State) (r : ReadReq) (rest : List ReadReq) (h : List (BitVec 8)), (s.m.frozen = false) ∧ (s.m.ni.reads = r :: rest) ∧ (0 <
      r.bytes) ∧ (r.bytes ≤ 2048) ∧ (r.src.testBit 63 = false) ∧ (s.m.vaultReady (vaultOf (r.src % 2 ^ 39)) = true) ∧ ((s.m.vault (vaultOf
      (r.src % 2 ^ 39))).poison = []) ∧ (h = mkHdr 2 1 r.pkey r.dst s.m.ownId s.m.ni.nextTag 3 (ceilDiv r.bytes 64) 0 (dataBody (targetAt
      r.target 0) 0 r.rtally true r.bytes))) ∧
    (∃ (s : State) (addr : BitVec 39), (descOf (s.m.dram (addr.toNat / 32 * 32) 32)).kind ≠ 4) ∧
    (∃ (s : State) (key : BitVec 16) (addr : BitVec 39) (d : Desc) (im : Image) (t : Nat) (dst : Nat), (descOf (s.m.dram (addr.toNat / 32
      * 32) 32) = d) ∧ (d.kind = 4) ∧ (d.remoteBad = false) ∧ (d.tc = 1) ∧ (d.tkind = 1 ∨ d.tkind = 2) ∧ (0 < d.bytes) ∧ (d.bytes ≤ 2048)
      ∧ (key ≠ 0) ∧ (s.m.activeImage = some im) ∧ ((List.range im.tenancyCount).find? (fun t => im.pkey t == key.toNat) = some t) ∧
      (s.m.rankOf t d.rank = some dst)) ∧
    (∃ (s : State) (addr : BitVec 39) (d : Desc), (descOf (s.m.dram (addr.toNat / 32 * 32) 32) = d) ∧ (d.kind = 4) ∧ (d.remoteBad = false)
      ∧ (d.tc = 2 ∨ d.tc = 3) ∧ (d.tkind = 3) ∧ ((s.m.entry16 R.MOD_RANK 0 (d.rank % 16384)).testBit 15 = true)) :=
  ⟨ ⟨(Instr.readReq, 0x12), st (L0.receiving (ctlPkt 0x13 7 [])), ctlPkt 0x13 7 [], [], by decide +kernel⟩,
    ⟨(Instr.write, 1), st (L0), by decide +kernel⟩,
    ⟨(Instr.readReq, 0x12), st (L0.receiving { hdr := mkHdr 1 3 7 0 9 3 0x12 0 0 [] }), { hdr := mkHdr 1 3 7 0 9 3 0x12 0 0 [] }, [],
      by decide +kernel⟩,
    ⟨st ((L0.receiving (ctlPkt 0x10 0 (leBytes 4 77))).setNi fun n =>
      { n with records := [{ tag := 77, hdr := [], src := 0, bytes := 0, from_ := .notice }] }), ctlPkt 0x10 0 (leBytes 4 77), [],
      { tag := 77, hdr := [], src := 0, bytes := 0, from_ := .notice }, by decide +kernel⟩,
    ⟨st (L0.receiving (ctlPkt 0x10 0 (leBytes 4 77))), ctlPkt 0x10 0 (leBytes 4 77), [], by decide +kernel⟩,
    ⟨st (L0.receiving (ctlPkt 0x11 0 (leBytes 4 77 ++ [4#8]))), ctlPkt 0x11 0 (leBytes 4 77 ++ [4#8]), [], by decide +kernel⟩,
    ⟨st (((L0.receiving (ctlPkt 0x11 0 (leBytes 4 77 ++ [1#8]))).put F.MOD_NI_CTRL_RESEND_MAX 0).setNi fun n =>
      { n with records := [{ tag := 77, hdr := [], src := 0, bytes := 0, attempt := 7, from_ := .notice }] }), ctlPkt 0x11 0 (leBytes 4 77
      ++ [1#8]), [], { tag := 77, hdr := [], src := 0, bytes := 0, attempt := 7, from_ := .notice }, by decide +kernel⟩,
    ⟨st ((L0.receiving (ctlPkt 0x11 0 (leBytes 4 77 ++ [3#8]))).setNi fun n =>
      { n with records := [{ tag := 77, hdr := [], src := 0, bytes := 0, from_ := .notice }] }), ctlPkt 0x11 0 (leBytes 4 77 ++ [3#8]),
      [], { tag := 77, hdr := [], src := 0, bytes := 0, from_ := .notice }, by decide +kernel⟩,
    ⟨st ((L0.put F.MOD_NI_CTRL_RESEND_MAX 0).setNi fun n =>
      { n with records := [{ tag := 77, hdr := [], src := 0, bytes := 0, attempt := 7, from_ := .notice }] }),
      { tag := 77, hdr := [], src := 0, bytes := 0, attempt := 7, from_ := .notice }, 77#32, by decide +kernel⟩,
    ⟨st ((L0.put F.MOD_NI_CTRL_RESEND_MAX 0).setNi fun n =>
      { n with records := [{ tag := 77, hdr := [], src := 0, bytes := 0, attempt := 8, from_ := .notice }] }),
      { tag := 77, hdr := [], src := 0, bytes := 0, attempt := 8, from_ := .notice }, 77#32, by decide +kernel⟩,
    ⟨st ((L0.put F.MOD_NI_CTRL_HOLD 1).setNi fun n =>
      { n with records := [{ tag := 77, hdr := mkHdr 2 2 0 0 0 77 1 1 0 [], src := 0, bytes := 0, from_ := .notice }] }),
      { tag := 77, hdr := mkHdr 2 2 0 0 0 77 1 1 0 [], src := 0, bytes := 0, from_ := .notice }, 77#32, by decide +kernel⟩,
    ⟨st ((((L0.withImage { image1 [(2, 2, 7)] [] [] with header := bytesOf 256 [(0x2A, 1, 1), (0x28, 2, 4)] }).put F.PLN_TEN_STAT_STATE 1
      0 0)).receiving (ctlPkt 0x13 7 (leBytes 8 0))), ctlPkt 0x13 7 (leBytes 8 0), [],
      { image1 [(2, 2, 7)] [] [] with header := bytesOf 256 [(0x2A, 1, 1), (0x28, 2, 4)] }, 0, by decide +kernel⟩,
    ⟨st ((((L0.withImage { image1 [(2, 2, 7)] [] [] with header := bytesOf 256 [(0x2A, 1, 1), (0x28, 2, 4)] }).put F.PLN_TEN_STAT_STATE 1
      0 0)).receiving (ctlPkt 0x13 7 (leBytes 8 1))), ctlPkt 0x13 7 (leBytes 8 1), [],
      { image1 [(2, 2, 7)] [] [] with header := bytesOf 256 [(0x2A, 1, 1), (0x28, 2, 4)] }, 0, by decide +kernel⟩,
    ⟨st ((((L0.withImage { image1 [(2, 2, 7)] [] [] with header := bytesOf 256 [(0x2A, 1, 1), (0x28, 2, 4)] }).put F.PLN_TEN_STAT_STATE
      tenFaulted 0 0).setTen 0 { ff := 5 }).receiving (ctlPkt 0x13 7 (leBytes 8 0))), ctlPkt 0x13 7 (leBytes 8 0), [],
      { image1 [(2, 2, 7)] [] [] with header := bytesOf 256 [(0x2A, 1, 1), (0x28, 2, 4)] }, 0, by decide +kernel⟩,
    ⟨st ((((L0.withImage (image1 [(2, 2, 7)] [] [])).put F.PLN_TEN_STAT_STATE 1 0 0)).receiving (ctlPkt 0x14 7 (leBytes 8 0 ++ leBytes 2
      0x302))), ctlPkt 0x14 7 (leBytes 8 0 ++ leBytes 2 0x302), [], image1 [(2, 2, 7)] [] [], 0, by decide +kernel⟩,
    ⟨st (L0.setPort 17 { arrived := [dataPkt 1 7 0 (List.replicate 32 5#8)] }), 17, dataPkt 1 7 0 (List.replicate 32 5#8),
      by decide +kernel⟩,
    ⟨st (((L0.withImage (image1 [(2, 2, 7)] [] [])).put F.MOD_POSID_ID 0).setPort 17
      { arrived := [dataPkt 1 7 0 (List.replicate 32 5#8)] }), 17, dataPkt 1 7 0 (List.replicate 32 5#8), by decide +kernel⟩,
    ⟨st (((((L0.withImage (image1 [(2, 2, 7)] [] [])).put F.MOD_POSID_ID 5).setPort 17
      { arrived := [dataPkt 1 7 0 (List.replicate 32 5#8)] }).setReg R.LNK_ROUTE 0x8003 17 0).put F.LNK_STATUS_STATE 5 3), 17, dataPkt 1 7
      0 (List.replicate 32 5#8), 3, by decide +kernel⟩,
    ⟨st (((L0.withImage (image1 [(2, 2, 7)] [] [])).put F.MOD_POSID_ID 5).setPort 17
      { arrived := [Packet.withCrc { hdr := bytesOf 64 [(0, 1, 2), (1, 1, 1), (2, 2, 7), (14, 1, 1)], data := [] }] }), 17, Packet.withCrc
      { hdr := bytesOf 64 [(0, 1, 2), (1, 1, 1), (2, 2, 7), (14, 1, 1)], data := [] }, by decide +kernel⟩,
    ⟨st (((L0.withImage (image1 [(2, 2, 7)] [] [])).put F.MOD_POSID_ID 5).setPort 17
      { arrived := [dataPkt 1 7 0 (List.replicate 32 5#8)] }), 17, dataPkt 1 7 0 (List.replicate 32 5#8), by decide +kernel⟩,
    ⟨st ((((L0.withImage (image1 [(2, 2, 7)] [] [sec 6 0xFF [bytesOf 24 [(0, 4, 24), (6, 1, 1), (17, 1, 2)]]])).put F.MOD_POSID_ID 0).put
      F.PLN_TEN_STAT_STATE 1 0 0).setPort 0
      { arrived := [Packet.withCrc { hdr := mkHdr 2 0 7 0 9 3 1 1 0 (dataBody 0 0 0 true 32), data := List.replicate 32 5#8 }] }), 0,
      Packet.withCrc { hdr := mkHdr 2 0 7 0 9 3 1 1 0 (dataBody 0 0 0 true 32), data := List.replicate 32 5#8 }, by decide +kernel⟩,
    ⟨st (((L0.withImage (image1 [(2, 2, 7)] [] [sec 6 0xFF [bytesOf 24 [(0, 4, 24), (6, 1, 1), (17, 1, 2)]]])).put F.MOD_POSID_ID
      0).setPort 0
      { arrived := [Packet.withCrc { hdr := mkHdr 2 0 7 0 9 3 1 1 0 (dataBody 0 0 0 true 32), data := List.replicate 32 5#8 }] }), 0,
      Packet.withCrc { hdr := mkHdr 2 0 7 0 9 3 1 1 0 (dataBody 0 0 0 true 32), data := List.replicate 32 5#8 }, by decide +kernel⟩,
    ⟨st (L0), 79, 6249#13, ⟨rfl, rfl, rfl, fun _ => rfl⟩, by decide +kernel⟩,
    ⟨st (((L0.setOn 79 true).setOn 78 true).setRouterQ 79 inBlock [⟨ctlPkt 0x10 0 [], 0, 1, 1, 1, [78], 18, 3, 0⟩]), 79, 6249#13, inBlock,
      78, 79, ⟨ctlPkt 0x10 0 [], 0, 1, 1, 1, [78], 18, 3, 0⟩, [], by decide +kernel, by decide +kernel, ⟨rfl, rfl, rfl, fun _ => rfl⟩,
      by decide +kernel, by decide +kernel, by decide +kernel, by decide +kernel, by decide +kernel, by decide +kernel,
      by decide +kernel⟩,
    ⟨st ((L0.setOn 79 true).setRouterQ 79 inBlock [⟨ctlPkt 0x10 0 [], 0, 1, 1, 1, [], 18, 3, 0⟩]), 79, 6249#13, inBlock, ⟨ctlPkt 0x10 0
      [], 0, 1, 1, 1, [], 18, 3, 0⟩, [1], by decide +kernel, by decide +kernel, ⟨rfl, rfl, rfl, fun _ => rfl⟩, by decide +kernel,
      by decide +kernel, by decide +kernel, by decide +kernel, by decide +kernel, by decide +kernel, by decide +kernel,
      by decide +kernel⟩,
    ⟨st ((vaultsReady L0).setNi fun n => { n with reads := [⟨9, 7, 64, 2048, 0, 0⟩] }), ⟨9, 7, 64, 2048, 0, 0⟩, [], by decide +kernel,
      by decide +kernel, by decide +kernel, fun _ => rfl⟩,
    ⟨st ((vaultsReady L0).setNi fun n => { n with reads := [⟨9, 7, 64, 2048, 0, 0⟩] }), ⟨9, 7, 64, 2048, 0, 0⟩, [], _, by decide +kernel,
      by decide +kernel, by decide +kernel, by decide +kernel, by decide +kernel, by decide +kernel, by decide +kernel, rfl⟩,
    ⟨st (L0), 64#39, by decide +kernel⟩,
    ⟨st (((L0.withImage (image1 [(2, 2, 7)] [] [sec 5 0 [bytesOf 2 []]])).setReg R.MOD_RANK 0x8005).setVault 0
      { dram := ssets 0#8 [] 64 (bytesOf 32 [(0, 1, 4), (4, 4, 96), (8, 4, 32), (16, 8, 2 ^ 62), (24, 8, 0x1000000)]) }), 7#16, 64#39,
      descOf (bytesOf 32 [(0, 1, 4), (4, 4, 96), (8, 4, 32), (16, 8, 2 ^ 62), (24, 8, 0x1000000)]), image1 [(2, 2, 7)] [] [sec 5 0
      [bytesOf 2 []]], 0, 5, by decide +kernel⟩,
    ⟨st ((L0.setReg R.MOD_RANK 0x8005).setVault 0
      { dram := ssets 0#8 [] 64 (bytesOf 32 [(0, 1, 4), (4, 4, 96), (8, 4, 32), (16, 8, 3 * 2 ^ 62), (24, 8, 0x2000000)]) }), 64#39,
      descOf (bytesOf 32 [(0, 1, 4), (4, 4, 96), (8, 4, 32), (16, 8, 3 * 2 ^ 62), (24, 8, 0x2000000)]), by decide +kernel⟩⟩

theorem witness_WeightMover :
    (∃ (c : _) (s : State), (c ∈ [Instr.wgtLoad, .verify]) ∧ (c = .verify ∨ s.m.frozen = false) ∧ (s.m.get F.MOD_WGT_STATUS_STATE ≠ 1) ∧
      (s.m.get F.MOD_WGT_STATUS_STATE ≠ 2) ∧ (MoverRefuses s.m = true)) ∧
    (∃ (c : _) (s : State), (c ∈ [Instr.wgtLoad, .verify]) ∧ (s.m.get F.MOD_WGT_STATUS_STATE = 1 ∨ s.m.get F.MOD_WGT_STATUS_STATE = 2)) ∧
    (∃ (s : State), (s.m.frozen = true) ∧ (s.m.get F.MOD_WGT_STATUS_STATE ≠ 1) ∧ (s.m.get F.MOD_WGT_STATUS_STATE ≠ 2)) ∧
    (∃ (s : State), (s.m.get F.MOD_WGT_STATUS_STATE ≠ 1) ∧ (s.m.get F.MOD_WGT_STATUS_STATE ≠ 2) ∧ (MoverRefuses s.m = false)) ∧
    (∃ (s : State), (s.m.frozen = false) ∧ (s.m.get F.MOD_WGT_STATUS_STATE ≠ 1) ∧ (s.m.get F.MOD_WGT_STATUS_STATE ≠ 2) ∧ (MoverRefuses s.m
      = false) ∧ (s.m.mover.failed = false) ∧ (s.m.flag F.MOD_WGT_CTRL_SRC_OVR = false) ∧ (∀ x ∈ opShards s.m, shardSource x.2 = 1 ∧ 0 <
      shardBytes x.2)) ∧
    (∃ (s : State) (ovr : Bool), (s.m.frozen = false) ∧ (s.m.get F.MOD_WGT_STATUS_STATE ≠ 1) ∧ (s.m.get F.MOD_WGT_STATUS_STATE ≠ 2) ∧
      (MoverRefuses s.m = false) ∧ (s.m.mover.failed = false) ∧ (s.m.flag F.MOD_WGT_CTRL_SRC_OVR = ovr) ∧ (∀ x ∈ opShards s.m, (ovr = true
      ∨ shardSource x.2 = 2) ∧ 0 < shardBytes x.2)) ∧
    (∃ (s : State), (s.m.get F.MOD_WGT_STATUS_STATE = 1 ∨ s.m.get F.MOD_WGT_STATUS_STATE = 2) ∧ (s.m.mover.ten < 16)) ∧
    (∃ (s : State), (s.m.get F.MOD_WGT_STATUS_STATE ≠ 1) ∧ (s.m.get F.MOD_WGT_STATUS_STATE ≠ 2)) ∧
    (∃ (s : State), (s.m.frozen = false) ∧ (s.m.loading = true) ∧ (s.m.get F.MOD_WGT_CTRL_LIMIT ≠ 0) ∧ (s.m.mover.ten < 16)) ∧
    (∃ (s : State), s.m.loading = false ∨ s.m.get F.MOD_WGT_CTRL_LIMIT = 0) ∧
    (∃ (s : State), (s.m.frozen = false) ∧ (s.m.loading = true) ∧ (∀ x ∈ s.m.moverShards, x.1 ∈ s.m.mover.passed) ∧ (s.m.mover.forward =
      []) ∧ (s.m.mover.unacked = 0) ∧ (s.m.mover.ten < 16)) ∧
    (∃ (s : State), s.m.loading = false ∨ s.m.mover.forward ≠ [] ∨ s.m.mover.unacked ≠ 0) ∧
    (∃ (s : State), (s.m.frozen = false) ∧ (s.m.get F.MOD_WGT_STATUS_STATE = 2) ∧ (∀ x ∈ s.m.moverShards, s.m.shardOk x.1 = true) ∧
      (s.m.mover.ten < 16)) ∧
    (∃ (s : State) (x : Nat × List (BitVec 8)), (s.m.frozen = false) ∧ (s.m.get F.MOD_WGT_STATUS_STATE = 2) ∧ (s.m.moverShards.find? (fun
      x => !s.m.shardOk x.1) = some x) ∧ (s.m.mover.ten < 16)) ∧
    (∃ (s : State) (c : Chunk), (s.m.frozen = false) ∧ (s.m.loading = true) ∧ (FullChunk s.m c) ∧ (s.m.mover.forward = []) ∧
      (s.m.shardChildren (s.m.moverShard c.shard) = []) ∧ ((completed s.m c).toFetch = []) ∧ (∀ x ∈ s.m.moverShards, x.1 ∉
      s.m.mover.passed → ∃ i, i < shardChunks x.2 ∧ (x.1, i) ∉ (completed s.m c).mover.done)) ∧
    (∃ (s : State) (c : Chunk) (r : List (BitVec 8)), (s.m.frozen = false) ∧ (s.m.loading = true) ∧ (FullChunk s.m c) ∧ (s.m.mover.forward
      = []) ∧ (s.m.shardChildren (s.m.moverShard c.shard) = []) ∧ ((completed s.m c).toFetch = []) ∧ (s.m.moverShards.find? (fun x =>
      !s.m.mover.passed.contains x.1 && (List.range (shardChunks x.2)).all fun i => (completed s.m c).mover.done.contains (x.1, i)) = some
      (c.shard, r)) ∧ (s.m.mover.ten < 16) ∧ ((completed s.m c).foldedCrc c.shard = fieldAt r 0x2C 4)) ∧
    (∃ (s : State) (c : Chunk) (r : List (BitVec 8)), (s.m.frozen = false) ∧ (s.m.loading = true) ∧ (FullChunk s.m c) ∧ (s.m.mover.forward
      = []) ∧ (s.m.shardChildren (s.m.moverShard c.shard) = []) ∧ ((completed s.m c).toFetch = []) ∧ (s.m.moverShards.find? (fun x =>
      !s.m.mover.passed.contains x.1 && (List.range (shardChunks x.2)).all fun i => (completed s.m c).mover.done.contains (x.1, i)) = some
      (c.shard, r)) ∧ (s.m.mover.ten < 16) ∧ ((completed s.m c).foldedCrc c.shard ≠ fieldAt r 0x2C 4)) ∧
    (∃ (s : State) (c : Chunk), (s.m.frozen = false) ∧ (s.m.loading = true) ∧ (FullChunk s.m c) ∧ (s.m.forwarding = true)) ∧
    (∃ (s : State), s.m.loading = false ∨ s.m.mover.open_ = []) :=
  ⟨ ⟨Instr.verify, st (L0), by decide +kernel⟩,
    ⟨Instr.wgtLoad, st (L0.put F.MOD_WGT_STATUS_STATE 2), by decide +kernel⟩,
    ⟨st (L0.put F.DBG_STATUS_FROZEN 1), by decide +kernel⟩,
    ⟨st ((L0.withImage (image1 [] [] [sec 10 0 [bytesOf 64 [(2, 1, 1)]]])).put F.MOD_WGT_CTRL_BANK 1), by decide +kernel⟩,
    ⟨st ((L0.withImage (image1 [] [] [sec 10 0 [bytesOf 64 [(2, 1, 1)]]])).put F.MOD_WGT_CTRL_BANK 1), by decide +kernel⟩,
    ⟨st ((L0.withImage (image1 [] [] [sec 10 0 [bytesOf 64 [(2, 1, 1)], bytesOf 64 [(2, 1, 2), (5, 1, 2), (16, 8, 2048)]]])).put
      F.MOD_WGT_CTRL_BANK 1), false, by decide +kernel⟩,
    ⟨st ((L0.put F.MOD_WGT_STATUS_STATE 1).setMover fun _ => { ten := 15, bank := true }), by decide +kernel⟩,
    ⟨st (L0.put F.MOD_WGT_STATUS_STATE 4), by decide +kernel⟩,
    ⟨st ((L0.put F.MOD_WGT_STATUS_STATE 1).put F.MOD_WGT_CTRL_LIMIT 60), by decide +kernel⟩,
    ⟨st ((L0.withImage (image1 [] [] [sec 10 0 [bytesOf 64 [(2, 1, 1)]]])).put F.MOD_WGT_CTRL_BANK 1), by decide +kernel⟩,
    ⟨st ((L0.put F.MOD_WGT_STATUS_STATE 1).setMover fun _ => { ten := 15, bank := true }), by decide +kernel⟩,
    ⟨st ((L0.withImage (image1 [] [] [sec 10 0 [bytesOf 64 [(2, 1, 1)]]])).put F.MOD_WGT_CTRL_BANK 1), by decide +kernel⟩,
    ⟨st (((L0.withImage (image1 [] [] [sec 10 0 [bytesOf 64 [(2, 1, 2)]]])).put F.MOD_WGT_STATUS_STATE 2).setMover fun _ =>
      { bank := true }), by decide +kernel⟩,
    ⟨st ((L0.withImage (image1 [] [] [sec 10 0 [bytesOf 64 [(2, 1, 2), (0x2C, 4, 1)]]])).put F.MOD_WGT_STATUS_STATE 2), (0, bytesOf 64
      [(2, 1, 2), (0x2C, 4, 1)]), by decide +kernel⟩,
    ⟨st (((L0.withImage (image1 [] [] [sec 10 0 [bytesOf 64 [(2, 1, 2), (5, 2, 0xFF01), (16, 8, 1050624)]]])).put F.MOD_WGT_STATUS_STATE
      1).setMover fun _ => { open_ := [{ shard := 0, chunk := 1, marks := [512] }] }), { shard := 0, chunk := 1, marks := [512] },
      by decide +kernel⟩,
    ⟨st (((L0.withImage (image1 [(6, 1, 1)] [] [sec 10 0 [bytesOf 64 [(2, 1, 2), (5, 2, 0xFF01), (0x2C, 4, 0)]]])).put
      F.MOD_WGT_STATUS_STATE 1).setMover fun _ => { open_ := [{ shard := 0, chunk := 0, marks := [] }] }),
      { shard := 0, chunk := 0, marks := [] }, bytesOf 64 [(2, 1, 2), (5, 2, 0xFF01), (0x2C, 4, 0)], by decide +kernel⟩,
    ⟨st (((L0.withImage (image1 [(6, 1, 1)] [] [sec 10 0 [bytesOf 64 [(2, 1, 2), (5, 2, 0xFF01), (0x2C, 4, 5)]]])).put
      F.MOD_WGT_STATUS_STATE 1).setMover fun _ => { open_ := [{ shard := 0, chunk := 0, marks := [] }] }),
      { shard := 0, chunk := 0, marks := [] }, bytesOf 64 [(2, 1, 2), (5, 2, 0xFF01), (0x2C, 4, 5)], by decide +kernel⟩,
    ⟨st ((((L0.withImage (image1 [(6, 1, 1)] [] [sec 10 0 [bytesOf 64 [(2, 1, 2), (5, 2, 0xFF01), (16, 8, 2048), (0x2C, 4, 0)]]])).put
      F.MOD_WGT_STATUS_STATE 1).setMover fun _ => { open_ := [{ shard := 0, chunk := 0, marks := [1] }] }).setNi fun n =>
      { n with waiting := [{ tag := 0, hdr := [], src := 0, bytes := 0, from_ := .mover true 0 }] }),
      { shard := 0, chunk := 0, marks := [1] }, by decide +kernel⟩,
    ⟨st ((L0.withImage (image1 [] [] [sec 10 0 [bytesOf 64 [(2, 1, 1)]]])).put F.MOD_WGT_CTRL_BANK 1), by decide +kernel⟩⟩

theorem witness_TellerAndLedger :
    (∃ (s : State), s.m.isLead = true) ∧
    (∃ (s : State), s.m.isLead = false) ∧
    (∃ (s : State) (e : BitVec 512) (im : Image) (t : Nat) (i : Nat), (TakesEntry s.m im t i) ∧ (s.m.refusal im t (flitBytes e) = 0) ∧
      (fieldAt (flitBytes e) 1 1 % 2 = 0)) ∧
    (∃ (s : State) (e : BitVec 512) (im : Image) (t : Nat) (i : Nat), (TakesEntry s.m im t i) ∧ (s.m.refusal im t (flitBytes e) ≠ 0)) ∧
    (∃ (s : State) (i : BitVec 13) (ts : List (BitVec 32)) (r : TlrReq), (s.m.req i.toNat = some r) ∧ (s.m.hostHeld = false) ∧ (s.m.frozen
      = false) ∧ (r.decode = false) ∧ (s.m.promptNext i.toNat r < r.promptLen) ∧ (min 4096 (r.promptLen - s.m.promptNext i.toNat r) ≤
      ts.length)) ∧
    (∃ (c : _) (s : State) (i : BitVec 13) (g : BitVec 32), (c ∈ [false, true]) ∧ (s.m.isLead = true) ∧ (∀ r, s.m.req i.toNat = some r →
      r.reqId % 2 ^ 32 ≠ g.toNat)) ∧
    (∃ (c : _) (s : State) (i : BitVec 13) (g : BitVec 32) (r : TlrReq), (c ∈ [false, true]) ∧ (s.m.isLead = true) ∧ (LooseRequest s.m
      i.toNat r) ∧ (r.reqId % 2 ^ 32 = g.toNat) ∧ (r.ended = none) ∧ (r.cancelled = none)) ∧
    (∃ (s : State) (i : BitVec 13) (g : BitVec 32) (r : TlrReq), (s.m.isLead = true) ∧ (s.m.req i.toNat = some r) ∧ (s.m.placedNow i.toNat
      = true) ∧ (r.reqId % 2 ^ 32 = g.toNat) ∧ (r.ended = none) ∧ (r.cancelled = none)) ∧
    (∃ (s : State) (i : BitVec 13) (g : BitVec 32) (r : TlrReq), (s.m.isLead = true) ∧ (s.m.req i.toNat = some r) ∧ (s.m.placedNow i.toNat
      = true) ∧ (r.reqId % 2 ^ 32 = g.toNat) ∧ (r.ended = none) ∧ (r.cancelled = none) ∧ (r.state ≠ 4)) ∧
    (∃ (s : State) (i : BitVec 13) (r : TlrReq), (s.m.req i.toNat = some r) ∧ (r.ended ≠ none) ∧ (s.m.cqFull = true)) ∧
    (∃ (s : State) (i : BitVec 13) (r : TlrReq) (e : Nat × Nat × Bool), (LooseRequest s.m i.toNat r) ∧ (r.ended = some e)) ∧
    (∃ (s : State) (i : BitVec 13) (r : TlrReq), (LooseRequest s.m i.toNat r) ∧ (r.ended = none) ∧ (r.cancelled = none)) ∧
    (∃ (s : State) (i : BitVec 13) (r : TlrReq), (s.m.req i.toNat = some r) ∧ (r.ended ≠ none)) ∧
    (∃ (s : State), s.m.served = none) ∧
    (∃ (s : State) (im : Image) (t : Nat), (s.m.served = some (im, t)) ∧ (s.m.frozen = false) ∧ (∀ v, (s.m.vault v).poison = [])) ∧
    (∃ (s : State) (a : BitVec 16), (s.m.keepsLedger = true) ∧ (Fits ((s.m.account a.toNat).refill s.m.ticks).bal)) ∧
    (∃ (s : State) (a : BitVec 16), (s.m.keepsLedger = true) ∧ (Fits ((s.m.account a.toNat).refill s.m.ticks).bal) ∧ (Fits (((s.m.account
      a.toNat).refill s.m.ticks).bal + toSigned 64 (s.m.reg R.TLR_ACCT_DATA 0 0)))) ∧
    (∃ (s : State) (a : BitVec 16), (s.m.keepsLedger = true) ∧ (Fits ((s.m.account a.toNat).refill s.m.ticks).bal) ∧ (¬ Fits
      (((s.m.account a.toNat).refill s.m.ticks).bal + toSigned 64 (s.m.reg R.TLR_ACCT_DATA 0 0)))) ∧
    (∃ (s : State) (a : BitVec 16) (c : _), (s.m.keepsLedger = false) ∧ (c ∈ [Instr.acctRead a, .acctWrite a, .acctAdd a])) ∧
    (∃ (x : Account) (t : Nat), x.last ≤ t) ∧
    (∃ (x : Account) (t : Nat), (x.last ≤ t) ∧ (x.bal < x.cap)) ∧
    (∃ (x : Account) (t : Nat), (x.last ≤ t) ∧ ((x.cap : Int) < x.bal)) :=
  ⟨ ⟨st (lead), by decide +kernel⟩,
    ⟨st (L0), by decide +kernel⟩,
    ⟨st (lead), sqEntry 2 3 77 10 5 7, serveIm, 0, 0, by decide +kernel⟩,
    ⟨st (lead), sqEntry 0 3 77 100 5 7, serveIm, 0, 0, by decide +kernel⟩,
    ⟨st (leadReq { promptLen := 3, done := 1 }), 0#13, [7#32, 8#32, 9#32], { promptLen := 3, done := 1 }, by decide +kernel⟩,
    ⟨true, st (lead), 1#13, 77#32, by decide, by decide +kernel, fun _ e => nomatch (show (none : Option TlrReq) = some _ from e)⟩,
    ⟨false, st (leadReq { reqId := 0x100000004D }), 0#13, 77#32, { reqId := 0x100000004D }, by decide +kernel⟩,
    ⟨st ((leadReq { reqId := 0x100000004D }).setTeller fun t =>
      { t with batches := [{ step := 1, variant := 0, rows := [{ pos := 0, slot := 0, decode := false, nin := 1, cost := 1 }], upc := 0, dnc := 0 }] }),
      0#13, 77#32, { reqId := 0x100000004D }, by decide +kernel⟩,
    ⟨st ((leadReq { reqId := 0x100000004D }).setTeller fun t =>
      { t with batches := [{ step := 1, variant := 0, rows := [{ pos := 0, slot := 0, decode := false, nin := 1, cost := 1 }], upc := 0, dnc := 0 }] }),
      0#13, 77#32, { reqId := 0x100000004D }, by decide +kernel⟩,
    ⟨st ((leadReq { ended := some (2, 1, true) }).put F.TLR_CQ_PTR_TAIL 63), 0#13, { ended := some (2, 1, true) }, by decide +kernel⟩,
    ⟨st (leadReq { ended := some (2, 1, true) }), 0#13, { ended := some (2, 1, true) }, (2, 1, true), by decide +kernel⟩,
    ⟨st (leadReq {}), 0#13, {}, by decide +kernel⟩,
    ⟨st ((leadReq { ended := some (2, 1, true) }).put F.TLR_CQ_PTR_TAIL 63), 0#13, { ended := some (2, 1, true) }, by decide +kernel⟩,
    ⟨st (L0), by decide +kernel⟩,
    ⟨st (lead), serveIm, 0, by decide +kernel, by decide +kernel, fun _ => rfl⟩,
    ⟨st ((lead.setReg R.TLR_ACCT_DATA (2 ^ 64 - 5)).setHall fun h => { h with lat := 2000000007 }), 3#16, by decide +kernel⟩,
    ⟨st ((lead.setReg R.TLR_ACCT_DATA (2 ^ 64 - 5)).setHall fun h => { h with lat := 2000000007 }), 3#16, by decide +kernel⟩,
    ⟨st ((lead.setReg R.TLR_ACCT_DATA 1).setTeller fun t => { t with accounts := [(3, { bal := 2 ^ 63 - 1 })] }), 3#16,
      by decide +kernel⟩,
    ⟨st (lead.put F.MOD_POSID_ID 1), 3#16, .acctAdd 3#16, by decide +kernel⟩,
    ⟨{ bal := 5, cap := 100, rate := 7, last := 10 }, 3000000010, by decide +kernel⟩,
    ⟨{ bal := 5, cap := 100, rate := 7, last := 10 }, 3000000010, by decide +kernel⟩,
    ⟨{ bal := 101, cap := 100, rate := 7, last := 10 }, 3000000010, by decide +kernel⟩⟩

theorem witness_DigestsCompared :
    (∃ (s : State) (i : BitVec 15) (a : List (BitVec 8)) (b : List (BitVec 8)), (ComparedRecords s.m i.toNat a b) ∧ (SameDigests s.m a b))
      ∧
    (∃ (s : State) (i : BitVec 15) (a : List (BitVec 8)) (b : List (BitVec 8)), (ComparedRecords s.m i.toNat a b) ∧ (¬ SameDigests s.m a
      b)) ∧
    (∃ (s : State) (i : BitVec 15), ¬ ComparedRecords s.m i.toNat (s.m.dram (detLog i.toNat) 32) (s.m.dram (detInbox i.toNat) 32)) ∧
    (∃ (s : State) (x : DetWait), (s.m.frozen = false) ∧ (s.m.det.waits.find? (fun x => decide (x.closed + (if s.m.get F.MOD_DET_CTRL_WAIT
      = 0 then 64 else s.m.get F.MOD_DET_CTRL_WAIT) ≤ s.m.frame)) = some x)) ∧
    (∃ (s : State), s.m.det.waits = []) :=
  ⟨ ⟨st (((L0.put F.VLT_STATUS_READY 1 0).dramWrite (detLog 5) (bytesOf 32 [(0, 8, 2 ^ 40 + 9), (8, 2, 3), (11, 1, 7), (0x18, 8,
      1)])).dramWrite (detInbox 5) (bytesOf 32 [(0, 8, 2 ^ 40 + 9), (8, 2, 3), (11, 1, 7), (0x18, 8, 1)])), 5#15, bytesOf 32 [(0, 8, 2 ^
      40 + 9), (8, 2, 3), (11, 1, 7), (0x18, 8, 1)], bytesOf 32 [(0, 8, 2 ^ 40 + 9), (8, 2, 3), (11, 1, 7), (0x18, 8, 1)],
      by decide +kernel⟩,
    ⟨st (((L0.put F.VLT_STATUS_READY 1 0).dramWrite (detLog 32767) (bytesOf 32 [(0, 8, 9), (8, 2, 3), (11, 1, 7), (0x18, 8,
      1)])).dramWrite (detInbox 32767) (bytesOf 32 [(0, 8, 9), (8, 2, 3), (11, 1, 7), (0x18, 8, 2)])), 32767#15, bytesOf 32 [(0, 8, 9),
      (8, 2, 3), (11, 1, 7), (0x18, 8, 1)], bytesOf 32 [(0, 8, 9), (8, 2, 3), (11, 1, 7), (0x18, 8, 2)], by decide +kernel⟩,
    ⟨st (L0), 0#15, by decide +kernel⟩,
    ⟨st (((L0.put F.MOD_DET_CTRL_WAIT 0).setDet fun d => { d with waits := [{ step := 1, frame := 2, closed := 6 }] }).setHall fun h =>
      { h with lat := 437500 }), { step := 1, frame := 2, closed := 6 }, by decide +kernel⟩,
    ⟨st (L0), by decide +kernel⟩⟩

theorem witness_EndpointStates :
    (∃ (s : State), s.m.hostHeld = true) ∧
    (∃ (s : State), s.m.hostHeld = false) ∧
    (∃ (s : State) (k : Fin 16), (s.m.hostHeld = false) ∧ (s.m.sourcePending k = true) ∧ (k.val ∉ s.m.host.signalled)) ∧
    (∃ (s : State) (k : Fin 16), (s.m.hostHeld = false) ∧ (s.m.sourcePending k = false ∨ k.val ∈ s.m.host.signalled) ∧ (s.m.get
      F.HST_IRQ_MAP_VECTOR 0 k ∈ s.m.host.pba)) ∧
    (∃ (s : State) (k : Fin 16), (s.m.sourcePending k = false) ∧ (s.m.get F.HST_IRQ_MAP_VECTOR 0 k ∉ s.m.host.pba)) ∧
    (∃ (s : State) (k : Fin 16), (s.m.hostHeld = false) ∧ (k.val = 15 ∧ s.m.flag F.HST_IRQ_MAP_EN 0 15 = true ∨ s.m.sourcePending k =
      true)) ∧
    (∃ (s : State) (b : Fin 8), (s.m.get F.HST_STATUS_DSTATE = 3) ∧ ((s.m.get F.HST_WAKE_REASON).testBit b = true) ∧ ((s.m.get
      F.HST_WAKE_EN).testBit b = true) ∧ (b.val ∉ s.m.host.served) ∧ (s.m.flag F.HST_WAKE_ASSERTING = false)) ∧
    (∃ (s : State), s.m.get F.HST_STATUS_DSTATE ≠ 3 ∨ s.m.get F.HST_WAKE_REASON = 0 ∨ s.m.flag F.HST_WAKE_ASSERTING = true) ∧
    (∃ (s : State), s.m.flag F.HST_WAKE_ASSERTING = true) ∧
    (∃ (s : State), (s.m.host.inReset = false) ∧ (s.m.configReady = true)) ∧
    (∃ (s : State), s.m.host.inReset = true ∨ s.m.configReady = false) ∧
    (∃ (s : State), (s.m.isOn 110 = true) ∧ (s.m.host.inReset = true ∨ s.m.get F.HST_STATUS_LSTATE = 4)) ∧
    (∃ (s : State), s.m.get F.HST_STATUS_LSTATE ≤ 2) ∧
    (∃ (s : State), 2 < s.m.get F.HST_STATUS_LSTATE) ∧
    (∃ (s : State), ∀ w ∈ s.m.host.hwq, w.owner = none) :=
  ⟨ ⟨st (L0), by decide +kernel⟩,
    ⟨st ((lead.put F.HST_IRQ_MAP_EN 1 0 15).put F.HST_IRQ_MAP_VECTOR 33 0 15), by decide +kernel⟩,
    ⟨st ((lead.put F.HST_IRQ_MAP_EN 1 0 1).event F.TLR_EVENT_CQ_WRITTEN), 1, by decide +kernel⟩,
    ⟨st (lead.setHost fun h => { h with pba := [0] }), 1, by decide +kernel⟩,
    ⟨st (lead), 1, by decide +kernel⟩,
    ⟨st ((lead.put F.HST_IRQ_MAP_EN 1 0 1).event F.TLR_EVENT_CQ_WRITTEN), 1, by decide +kernel⟩,
    ⟨st (((((L0.put F.HST_STATUS_DSTATE 3).put F.HST_WAKE_REASON 128).put F.HST_WAKE_EN 128).put F.HST_WAKE_ASSERTING 0).setHost fun h =>
      { h with inReset := true, served := [] }), 7, by decide +kernel⟩,
    ⟨st (L0), by decide +kernel⟩,
    ⟨st ((L0.put F.HST_WAKE_ASSERTING 1).put F.HST_WAKE_REASON 129), by decide +kernel⟩,
    ⟨st (hostM), by decide +kernel⟩,
    ⟨st (L0), by decide +kernel⟩,
    ⟨st (lead.put F.HST_STATUS_LSTATE 4), by decide +kernel⟩,
    ⟨st (lead.put F.HST_STATUS_LSTATE 2), by decide +kernel⟩,
    ⟨st (L0), by decide +kernel⟩,
    ⟨st (L0), by decide +kernel⟩⟩

theorem witness_EthernetAndHostMailbox :
    (∃ (s : State) (e : EthIx), (s.m.isOn (108 + e) = true) ∧ (s.m.flag F.ETH_CTRL_ENABLE e = true) ∧ (s.m.flag F.ETH_STATUS_LINK_UP e =
      false)) ∧
    (∃ (s : State) (e : EthIx), s.m.flag F.ETH_STATUS_LINK_UP e = true) ∧
    (∃ (s : State) (e : EthIx), s.m.ethUp e = true) ∧
    (∃ (s : State) (e : EthIx) (en : BitVec 8), (s.m.ethUp e = true) ∧ (s.m.flag F.ETH_CTRL_PFC_EN e = true) ∧ (en.toNat.testBit (s.m.get
      F.ETH_CTRL_PFC_PRIO e) = true)) ∧
    (∃ (s : State) (e : EthIx) (f : List Byte), (s.m.ethUp e = true) ∧ (f.length ≤ 9216)) ∧
    (∃ (s : State) (e : EthIx) (i : BitVec 8), (s.m.ethUp e = true) ∧ (∀ t, (s.m.qp e i.toNat).cnpAt = some t → t + 78125 ≤ s.m.hall.lat))
      ∧
    (∃ (s : State) (e : EthIx) (i : BitVec 8) (t : Nat), ((s.m.qp e i.toNat).cnpAt = some t) ∧ (s.m.hall.lat < t + 78125)) ∧
    (∃ (s : State), s.m.frozen = false) ∧
    (∃ (s : State) (e : EthIx) (i : BitVec 8), (s.m.frozen = false) ∧ (s.m.qpState e i.toNat = 1) ∧ ((s.m.qp e i.toNat).ops ≠ []) ∧
      ((s.m.qp e i.toNat).tries < s.m.get F.ETH_CTRL_RETRY e)) ∧
    (∃ (s : State) (e : EthIx) (i : BitVec 8), (s.m.frozen = false) ∧ (s.m.qpState e i.toNat = 1) ∧ ((s.m.qp e i.toNat).ops ≠ []) ∧
      (OnlyChunks (s.m.qp e i.toNat).ops) ∧ (s.m.loading = false) ∧ (s.m.get F.ETH_CTRL_RETRY e ≤ (s.m.qp e i.toNat).tries)) ∧
    (∃ (s : State) (e : EthIx) (i : BitVec 8), (s.m.frozen = false) ∧ (s.m.ethUp e = true) ∧ (s.m.qpState e i.toNat = 1) ∧ (OnlyChunks
      (s.m.qp e i.toNat).ops) ∧ (s.m.loading = false)) ∧
    (∃ (s : State) (e : EthIx) (i : BitVec 8) (psn : Nat) (gone : List RoceOp), (s.m.frozen = false) ∧ (s.m.ethUp e = true) ∧ (s.m.qpState
      e i.toNat = 1) ∧ (gone = (s.m.qp e i.toNat).ops.takeWhile (fun o => !o.read && psnLe (o.psn + o.n - 1) psn)) ∧ (gone ≠ []) ∧ (psnLe
      (s.m.get F.ETH_QP_CTRL_PSN_TX e i.toNat) psn = false)) ∧
    (∃ (s : State) (e : EthIx) (i : BitVec 8) (psn : Nat) (op : Nat) (n : Nat) (c : Nat) (mtu : Nat) (off : Nat) (x : RoceOp) (rest : List
      RoceOp), (s.m.frozen = false) ∧ (s.m.ethUp e = true) ∧ (s.m.qpState e i.toNat = 1) ∧ ((s.m.qp e i.toNat).ops = x :: rest) ∧ (x.read
      = true) ∧ (psn % 2 ^ 24 = (x.psn + x.got) % 2 ^ 24) ∧ (psn % 2 ^ 24 = s.m.get F.ETH_QP_KEY_PSN_RX e i.toNat) ∧ (x.owner = .chunk op
      n c) ∧ (s.m.loading = true) ∧ (s.m.mover.op = op) ∧ ((n, c) ∈ s.m.mover.fetching) ∧ (mtu = pmtuBytes (s.m.get F.ETH_QP_CTRL_PMTU e
      i.toNat)) ∧ (off = x.got * mtu)) ∧
    (∃ (s : State) (e : EthIx) (i : BitVec 8) (v : Word), (s.m.isOn (108 + e) = true) ∧ (s.m.qpState e i.toNat = 0) ∧ (bitsOf v.toNat 63
      62 = 1)) ∧
    (∃ (s : State) (e : EthIx) (i : BitVec 8) (v : Word), (s.m.qpState e i.toNat ≠ 0) ∧ (bitsOf v.toNat 63 62 = 1 ∨ bitsOf v.toNat 63 62 =
      2)) ∧
    (∃ (s : State) (e : EthIx) (i : BitVec 8) (v : Word), (s.m.isOn (108 + e) = true) ∧ (OnlyChunks (s.m.qp e i.toNat).ops) ∧ (s.m.loading
      = false) ∧ (s.m.qpState e i.toNat ≠ 0) ∧ (bitsOf v.toNat 63 62 = 0 ∨ bitsOf v.toNat 63 62 = 3)) ∧
    (∃ (s : State) (e : EthIx), s.m.isOn (108 + e) = false) ∧
    (∃ (s : State) (e : EthIx) (d : Byte), HearsPtp e d s.m) ∧
    (∃ (s : State) (e : EthIx) (d : Byte) (q : Nat) (b : Int), (HearsPtp e d s.m) ∧ ((s.m.eth e).sync = some (q, none, b))) ∧
    (∃ (s : State) (e : EthIx) (d : Byte), (HearsPtp e d s.m) ∧ ((s.m.eth e).master = none)) ∧
    (∃ (s : State) (e : EthIx) (d : Byte) (q : Nat) (t : Int) (b : Int), (HearsPtp e d s.m) ∧ ((s.m.eth e).sync = some (q, some t, b))) ∧
    (∃ (s : State) (e : EthIx) (d : Byte), ¬ HearsPtp e d s.m) ∧
    (∃ (s : State), (s.m.flag F.HST_MBOX_STATUS_BUSY = false) ∧ (s.m.flag F.HST_MBOX_STATUS_READY = false)) ∧
    (∃ (s : State), s.m.flag F.HST_MBOX_STATUS_BUSY = true ∨ s.m.flag F.HST_MBOX_STATUS_READY = true) ∧
    (∃ (s : State), s.m.flag F.HST_MBOX_STATUS_BUSY = true) ∧
    (∃ (s : State), s.m.flag F.HST_MBOX_STATUS_BUSY = false) ∧
    (∃ (s : State) (q : BitVec 16), (s.m.flag F.HST_MBOX_STATUS_READY = true) ∧ (s.m.get F.HST_MBOX_STATUS_SEQ = q.toNat)) ∧
    (∃ (s : State) (q : BitVec 16), s.m.flag F.HST_MBOX_STATUS_READY = false ∨ s.m.get F.HST_MBOX_STATUS_SEQ ≠ q.toNat) ∧
    (∃ (s : State), s.m.flag F.HST_MBOX_STATUS_READY = true) ∧
    (∃ (s : State), s.m.flag F.HST_MBOX_STATUS_READY = false) ∧
    (∃ (s : State), (s.m.flag F.HST_MBOX_STATUS_BUSY = true) ∧ (s.m.get F.HST_MBOX_STATUS_OPCODE = 1)) ∧
    (∃ (s : State), (s.m.flag F.HST_MBOX_STATUS_BUSY = true) ∧ (s.m.get F.HST_MBOX_STATUS_OPCODE = 0 ∨ 5 < s.m.get
      F.HST_MBOX_STATUS_OPCODE)) :=
  ⟨ ⟨st (((L0.setOn 109 true).put F.ETH_CTRL_ENABLE 1 1)), 1, by decide +kernel⟩,
    ⟨st (L0.put F.ETH_STATUS_LINK_UP 1 1), 1, by decide +kernel⟩,
    ⟨st (ethM.setQp 1 255 { rate := 1500000000 }), 1, by decide +kernel⟩,
    ⟨st ((ethM.put F.ETH_CTRL_PFC_EN 1 1).put F.ETH_CTRL_PFC_PRIO 3 1), 1, 8#8, by decide +kernel⟩,
    ⟨st (ethM), 1, [1#8, 2#8], by decide +kernel⟩,
    ⟨st ((ethM.put F.ETH_CTRL_PFC_EN 1 1).put F.ETH_CTRL_PFC_PRIO 3 1), 1, 8#8, by decide +kernel⟩,
    ⟨st ((ethM.setQp 1 255 { cnpAt := some 0 }).setHall fun h => { h with lat := 78124 }), 1, 255#8, 0, by decide +kernel⟩,
    ⟨st (ethM.setQp 1 255 { rate := 750000000000 }), by decide +kernel⟩,
    ⟨st (((ethM.put F.ETH_QP_CTRL_STATE 1 1 255).put F.ETH_CTRL_RETRY 7 1).setQp 1 255
      { ops := [{ psn := 1, n := 1, len := 9, addr := 0, data := [], read := false, owner := .chunk 0 0 0 }], tries := 6 }), 1, 255#8,
      by decide +kernel⟩,
    ⟨st (((ethM.put F.ETH_QP_CTRL_STATE 1 1 255).put F.ETH_CTRL_RETRY 7 1).setQp 1 255
      { ops := [{ psn := 1, n := 1, len := 9, addr := 0, data := [], read := false, owner := .chunk 0 0 0 }], tries := 7 }), 1, 255#8,
      by decide +kernel, by decide +kernel, by decide +kernel, (show ∀ o ∈
      [({ psn := 1, n := 1, len := 9, addr := 0, data := [], read := false, owner := .chunk 0 0 0 } : RoceOp)], ∃ op n c, o.owner =
      RoceOwner.chunk op n c from List.forall_mem_singleton.2 ⟨0, 0, 0, rfl⟩), by decide +kernel, by decide +kernel⟩,
    ⟨st (((ethM.put F.ETH_QP_CTRL_STATE 1 1 255).put F.ETH_CTRL_RETRY 7 1).setQp 1 255
      { ops := [{ psn := 1, n := 1, len := 9, addr := 0, data := [], read := false, owner := .chunk 0 0 0 }] }), 1, 255#8,
      by decide +kernel, by decide +kernel, by decide +kernel, (show ∀ o ∈
      [({ psn := 1, n := 1, len := 9, addr := 0, data := [], read := false, owner := .chunk 0 0 0 } : RoceOp)], ∃ op n c, o.owner =
      RoceOwner.chunk op n c from List.forall_mem_singleton.2 ⟨0, 0, 0, rfl⟩), by decide +kernel⟩,
    ⟨st (((ethM.put F.ETH_QP_CTRL_STATE 1 1 255).put F.ETH_QP_CTRL_PSN_TX 2 1 255).setQp 1 255
      { ops := [{ psn := 0xFFFFFF, n := 2, len := 9, addr := 0, data := [], owner := .ring 0 0, read := false }, { psn := 1, n := 1, len := 9, addr := 0, data := [], owner := .chunk 0 0 0, read := true }] }),
      1, 255#8, 0, [{ psn := 0xFFFFFF, n := 2, len := 9, addr := 0, data := [], owner := .ring 0 0, read := false }], by decide +kernel⟩,
    ⟨st (((((ethM.put F.ETH_QP_CTRL_STATE 1 1 255).put F.ETH_QP_KEY_PSN_RX 7 1 255).setQp 1 255
      { ops := [{ psn := 7, n := 1, len := 9, addr := 0, data := [], owner := .chunk 4 0 1, read := true }] }).put F.MOD_WGT_STATUS_STATE
      1).setMover fun _ => { op := 4, fetching := [(0, 1)] }), 1, 255#8, 7, 4, 0, 1, 4096, 0,
      { psn := 7, n := 1, len := 9, addr := 0, data := [], owner := .chunk 4 0 1, read := true }, [], by decide +kernel⟩,
    ⟨st (ethM), 1, 255#8, 0x4020FFFFFFFFFFFF#64, by decide +kernel⟩,
    ⟨st (ethM.put F.ETH_QP_CTRL_STATE 2 1 255), 1, 255#8, 0x4020FFFFFFFFFFFF#64, by decide +kernel⟩,
    ⟨st (ethM.put F.ETH_QP_CTRL_STATE 2 1 255), 1, 255#8, 0x0020FFFFFFFFFFFF#64, by decide +kernel, (show ∀ o ∈ ([] : List RoceOp), ∃ op n
      c, o.owner = RoceOwner.chunk op n c from fun _ h => nomatch h), by decide +kernel⟩,
    ⟨st (L0.put F.ETH_STATUS_LINK_UP 1 1), 1, by decide +kernel⟩,
    ⟨st ((ethM.put F.ETH_CTRL_PTP_EN 1 1).put F.ETH_PTP_DOMAIN 24 1), 1, 24#8, by decide +kernel⟩,
    ⟨st (((ethM.put F.ETH_CTRL_PTP_EN 1 1).put F.ETH_PTP_DOMAIN 24 1).setEth 1 { sync := some (5, none, -3) }), 1, 24#8, 5, -3,
      by decide +kernel⟩,
    ⟨st ((ethM.put F.ETH_CTRL_PTP_EN 1 1).put F.ETH_PTP_DOMAIN 24 1), 1, 24#8, by decide +kernel⟩,
    ⟨st (((ethM.put F.ETH_CTRL_PTP_EN 1 1).put F.ETH_PTP_DOMAIN 24 1).setEth 1 { sync := some (5, some 9, -3) }), 1, 24#8, 5, 9, -3,
      by decide +kernel⟩,
    ⟨st ((ethM.put F.ETH_CTRL_PFC_EN 1 1).put F.ETH_CTRL_PFC_PRIO 3 1), 1, 8#8, by decide +kernel⟩,
    ⟨st (L0.put F.HST_MBOX_STATUS_SEQ 65535), by decide +kernel⟩,
    ⟨st (L0.put F.HST_MBOX_STATUS_BUSY 1), by decide +kernel⟩,
    ⟨st (L0.put F.HST_MBOX_STATUS_BUSY 1), by decide +kernel⟩,
    ⟨st (L0), by decide +kernel⟩,
    ⟨st (((L0.put F.HST_MBOX_STATUS_READY 1).put F.HST_MBOX_STATUS_SEQ 65535).put F.HST_MBOX_STATUS_CODE 9), 65535#16, by decide +kernel⟩,
    ⟨st (((L0.setOn 109 true).put F.ETH_CTRL_ENABLE 1 1)), 1, by decide +kernel⟩,
    ⟨st (L0.put F.HST_MBOX_STATUS_READY 1), by decide +kernel⟩,
    ⟨st (L0), by decide +kernel⟩,
    ⟨st ((L0.put F.HST_MBOX_STATUS_BUSY 1).put F.HST_MBOX_STATUS_OPCODE 1), by decide +kernel⟩,
    ⟨st (L0.put F.HST_MBOX_STATUS_BUSY 1), by decide +kernel⟩⟩

theorem witness_PowerDomains :
    (∃ (s : State) (d : BitVec 7), (SequencerFree s.m) ∧ (d.toNat < 110) ∧ (s.m.isOn d.toNat = false) ∧ (80 ≤ d.toNat ∨ s.m.isOn (80 +
      d.toNat / 5) = true)) ∧
    (∃ (s : State) (d : BitVec 7), (SequencerFree s.m) ∧ (d.toNat < 80) ∧ (s.m.isOn d.toNat = false) ∧ (s.m.isOn (80 + d.toNat / 5) =
      false)) ∧
    (∃ (s : State) (d : BitVec 7), (SequencerFree s.m) ∧ (d.toNat < 110) ∧ (s.m.isOn d.toNat = true)) ∧
    (∃ (s : State) (d : BitVec 7), (SequencerFree s.m) ∧ (96 ≤ d.toNat) ∧ (d.toNat < 104) ∧ (s.m.isOn d.toNat = true) ∧ (s.m.lockedOn
      d.toNat = false)) ∧
    (∃ (s : State) (d : BitVec 7), (SequencerFree s.m) ∧ (d.toNat < 80) ∧ (s.m.isOn d.toNat = true) ∧ (s.m.lockedOn d.toNat = false)) ∧
    (∃ (s : State) (d : BitVec 7), (SequencerFree s.m) ∧ (104 ≤ d.toNat) ∧ (d.toNat < 110) ∧ (s.m.isOn d.toNat = true) ∧ (s.m.lockedOn
      d.toNat = false) ∧ (∀ p ∈ quadrantPorts d.toNat, s.m.linkState p = 0 ∨ s.m.linkState p = 7)) ∧
    (∃ (s : State) (d : BitVec 7), (SequencerFree s.m) ∧ (80 ≤ d.toNat) ∧ (d.toNat < 96) ∧ (s.m.isOn d.toNat = true) ∧ (s.m.lockedOn
      d.toNat = false)) ∧
    (∃ (s : State) (d : BitVec 7), (SequencerFree s.m) ∧ (d.toNat < 110) ∧ (s.m.isOn d.toNat = false) ∧ (s.m.lockedOn d.toNat = false) ∧
      (∀ x ∈ blocksOff s.m d.toNat, d.toNat < 80 ∨ 96 ≤ d.toNat)) ∧
    (∃ (d : BitVec 7), 110 ≤ d.toNat) ∧
    (∃ (s : State) (d : BitVec 7), (d.toNat < 110) ∧ (s.m.frozen = true)) ∧
    (∃ (s : State) (d : BitVec 7), (d.toNat < 110) ∧ (s.m.frozen = false) ∧ (s.m.flag F.PWR_EVENT_TRIP = true)) ∧
    (∃ (s : State) (d : BitVec 7), (d.toNat < 110) ∧ (s.m.frozen = false) ∧ (s.m.power.job ≠ none ∨ s.m.power.wait ≠ []) ∧ (s.m.flag
      F.PWR_EVENT_TRIP = false)) ∧
    (∃ (s : State) (d : BitVec 7), (d.toNat < 110) ∧ (s.m.frozen = false) ∧ (s.m.power.job ≠ none ∨ s.m.power.wait ≠ [])) ∧
    (∃ (s : State) (d : BitVec 7), (SequencerFree s.m) ∧ (d.toNat < 110) ∧ (s.m.lockedOn d.toNat = true)) ∧
    (∃ (s : State) (src : Nat) (d : Nat), (s.m.power.job = some ⟨src, [(d, true)]⟩) ∧ (s.m.power.wait = []) ∧ (d < 110)) ∧
    (∃ (s : State) (d : Nat), (s.m.power.job = some ⟨0, [(d, false)]⟩) ∧ (s.m.power.wait = [])) ∧
    (∃ (s : State) (d : Nat), (d < 80) ∧ (s.m.isOn d = false) ∧ (s.m.power.job = some ⟨0, [(80 + d / 5, true), (d, true)]⟩)) ∧
    (∃ (s : State), s.m.power.job = none) ∧
    (∃ (s : State) (d : Nat), (s.m.power.job = some ⟨0, [(d, true)]⟩) ∧ (s.m.power.wait = []) ∧ (96 ≤ d) ∧ (d < 110)) ∧
    (∃ (s : State) (d : Nat) (l : Load), (s.m.power.job = some ⟨1, [(d, true)]⟩) ∧ (s.m.power.wait = []) ∧ (96 ≤ d) ∧ (d < 110) ∧
      (s.m.plan.load = some l) ∧ (l.slot < 4)) ∧
    (∃ (s : State) (d : Nat), (s.m.power.job = some ⟨0, [(d, true)]⟩) ∧ (s.m.power.wait = []) ∧ (d < 96)) :=
  ⟨ ⟨st (L0), 103#7, by decide +kernel⟩,
    ⟨st (L0), 79#7, by decide +kernel⟩,
    ⟨st (L0.setOn 80 true), 80#7, by decide +kernel⟩,
    ⟨st ((L0.setOn 103 true).setVault 7 { dram := [(0, 1#8)] }), 103#7, by decide +kernel⟩,
    ⟨st (L0.setOn 79 true), 79#7, by decide +kernel⟩,
    ⟨st (linksDown (L0.setOn 107 true)), 107#7, by decide +kernel⟩,
    ⟨st (L0.setOn 80 true), 80#7, by decide +kernel⟩,
    ⟨st (L0), 103#7, by decide +kernel⟩,
    ⟨110#7, by decide +kernel⟩,
    ⟨st (L0.put F.DBG_STATUS_FROZEN 1), 109#7, by decide +kernel⟩,
    ⟨st (L0.put F.PWR_EVENT_TRIP 1), 109#7, by decide +kernel⟩,
    ⟨st (L0.setPower fun p => { p with job := some ⟨0, [(103, true)]⟩ }), 103, by decide +kernel⟩,
    ⟨st (L0.setPower fun p => { p with job := some ⟨0, [(103, true)]⟩ }), 103, by decide +kernel⟩,
    ⟨st ((L0.setOn 101 true).withImage (image1 [] [] [sec 2 0xFF [bytesOf 112 [(101, 1, 1)]]])), 101#7, by decide +kernel⟩,
    ⟨st (L0.setPower fun p => { p with job := some ⟨0, [(109, true)]⟩ }), 0, 109, by decide +kernel⟩,
    ⟨st (L0.setPower fun p => { p with job := some ⟨0, [(103, false)]⟩ }), 103, by decide +kernel⟩,
    ⟨st (L0.setPower fun p => { p with job := some ⟨0, [(95, true), (79, true)]⟩ }), 79, by decide +kernel⟩,
    ⟨st (L0), by decide +kernel⟩,
    ⟨st (L0.setPower fun p => { p with job := some ⟨0, [(103, true)]⟩ }), 103, by decide +kernel⟩,
    ⟨st ((L0.setPower fun p => { p with job := some ⟨1, [(103, true)]⟩ }).setPlan fun p => { p with load := some { slot := 3 } }), 103,
      { slot := 3 }, by decide +kernel⟩,
    ⟨st (L0.setPower fun p => { p with job := some ⟨0, [(95, true)]⟩ }), 95, by decide +kernel⟩⟩

theorem witness_MonitorClocksRetire :
    (∃ (ts : List Int) (vs : List Int), (∀ t ∈ ts, t < 1680) ∧ (∀ t ∈ vs, t < 1600)) ∧
    (∃ (s : State) (ts : List Int) (vs : List Int), (3000000000 * (s.m.power.samples.take 10).length < ((s.m.power.samples.take 10).map
      fun x => x.1 * x.2).sum) ∧ (∀ t ∈ ts, t < 1680) ∧ (∀ t ∈ vs, t < 1600)) ∧
    (∃ (s : State) (ms : List Byte) (ts : List Int) (vs : List Int), (((s.m.power.samples.take 10).map fun x => x.1 * x.2).sum ≤
      3000000000 * (s.m.power.samples.take 10).length) ∧ (((s.m.power.samples.take 10).map (·.2)).sum ≤ 80000 * (s.m.power.samples.take
      10).length) ∧ (40000 * (s.m.power.samples.take 10).length ≤ ((s.m.power.samples.take 10).map (·.1)).sum) ∧ (∀ t ∈ ts, t < 1600) ∧ (∀
      t ∈ vs, t < 1600) ∧ (∀ x ∈ ms, 8 ≤ x.toNat) ∧ (∀ v, v < 8 → s.m.isOn (96 + v) = true → s.m.get F.VLT_STATUS_BAND v ≠ 2)) ∧
    (∃ (s : State) (ts : List Int) (vs : List Int), (s.m.flag F.PWR_EVENT_TRIP = false) ∧ ((∃ t ∈ ts.take 64, 1680 ≤ t) ∨ (∃ t ∈ vs.take
      8, 1600 ≤ t))) ∧
    (∃ (s : State), (s.m.flag F.PWR_PMB_CTRL_POLL_EN = true) ∧ ((s.m.get F.PWR_CLKEN_EN).testBit 0 = true) ∧ (s.m.get F.DBG_SMB_STATE =
      0)) ∧
    (∃ (s : State), s.m.flag F.PWR_PMB_CTRL_POLL_EN = false ∨ (s.m.get F.PWR_CLKEN_EN).testBit 0 = false ∨ s.m.get F.DBG_SMB_STATE ≠ 0) ∧
    (∃ (s : State), ((s.m.get F.PWR_CLKEN_EN).testBit 1 = true) ∧ (cmuSource (s.m.get F.PWR_CMU_CTRL_SRC) = true) ∧ (8 ≤ s.m.get
      F.PWR_CMU_CTRL_GATE) ∧ (s.m.get F.PWR_CMU_CTRL_GATE ≤ 24)) ∧
    (∃ (s : State), ((s.m.get F.PWR_CLKEN_EN).testBit 1 = true) ∧ (cmuSource (s.m.get F.PWR_CMU_CTRL_SRC) = false ∨ s.m.get
      F.PWR_CMU_CTRL_GATE < 8 ∨ 24 < s.m.get F.PWR_CMU_CTRL_GATE)) ∧
    (∃ (s : State), (s.m.get F.PWR_CLKEN_EN).testBit 1 = false) ∧
    (∃ (s : State), s.m.power.measuring = true) ∧
    (∃ (s : State), s.m.power.measuring = false) ∧
    (∃ (s : State) (c : BitVec 11), (c.toNat < 1360) ∧ (s.m.cellRetired c.toNat = false) ∧ (s.m.cellFused c.toNat = false)) ∧
    (∃ (s : State) (c : BitVec 11) (i : Fin 17), (c.toNat < 1360) ∧ (s.m.cellRetired c.toNat = false) ∧ (s.m.cellFused c.toNat = false) ∧
      ((s.m.get F.DBG_BLOCK_ACTIVE 0 (c.toNat / 17)).testBit (c.toNat % 17) = true) ∧ (∀ j, j ≤ i.val → ((s.m.get F.DBG_BLOCK_ACTIVE 0
      (c.toNat / 17)).testBit j = false ∧ s.m.cellRetired (c.toNat / 17 * 17 + j) = false ∧ s.m.cellFused (c.toNat / 17 * 17 + j) = false
      ↔ j = i.val))) ∧
    (∃ (s : State) (c : BitVec 11) (im : Image) (t : Nat), (c.toNat < 1360) ∧ (s.m.cellRetired c.toNat = false) ∧ (s.m.cellFused c.toNat =
      false) ∧ (s.m.cellActive c.toNat = true) ∧ (s.m.activeImage = some im) ∧ (t < im.tenancyCount) ∧ (t < 16) ∧ (s.m.tenState t ≠
      tenHalted) ∧ (c.toNat ∈ im.cellsOf t)) ∧
    (∃ (s : State) (c : BitVec 11), s.m.cellRetired c.toNat = true ∨ s.m.cellFused c.toNat = true) ∧
    (∃ (s : State) (u : BitVec 11), (u.toNat < 80) ∧ (∃ c, c < 1360 ∧ c / 17 = u.toNat ∧ s.m.cellRetired c = false ∧ s.m.cellFused c =
      false)) ∧
    (∃ (s : State) (u : BitVec 11), (u.toNat < 16) ∧ (∃ c, c < 1360 ∧ c / 85 = u.toNat ∧ s.m.cellRetired c = false ∧ s.m.cellFused c =
      false)) ∧
    (∃ (k : BitVec 2) (u : BitVec 11), k = 3 ∨ k = 0 ∧ 1360 ≤ u.toNat ∨ k = 1 ∧ 80 ≤ u.toNat ∨ k = 2 ∧ 16 ≤ u.toNat) :=
  ⟨ ⟨[1679], [1599], by decide +kernel⟩,
    ⟨st ((L0.setOn 95 true).setPower fun p => { p with samples := List.replicate 12 (50000, 60001) }), [1679], [1599], by decide +kernel⟩,
    ⟨st ((L0.setOn 95 true).setPower fun p => { p with samples := List.replicate 12 (50000, 60000) }), [8#8], [1599], [1599],
      by decide +kernel⟩,
    ⟨st (L0), [1680], [], by decide +kernel⟩,
    ⟨st (((L0.put F.PWR_PMB_CTRL_POLL_EN 1).put F.PWR_CLKEN_EN 1).put F.DBG_SMB_STATE 0), by decide +kernel⟩,
    ⟨st (((L0.put F.PWR_CLKEN_EN 2).put F.PWR_CMU_CTRL_SRC 0).put F.PWR_CMU_CTRL_GATE 24), by decide +kernel⟩,
    ⟨st (((L0.put F.PWR_CLKEN_EN 2).put F.PWR_CMU_CTRL_SRC 0).put F.PWR_CMU_CTRL_GATE 24), by decide +kernel⟩,
    ⟨st (((L0.put F.PWR_CLKEN_EN 2).put F.PWR_CMU_CTRL_SRC 255).put F.PWR_CMU_CTRL_GATE 24), by decide +kernel⟩,
    ⟨st (((L0.put F.PWR_PMB_CTRL_POLL_EN 1).put F.PWR_CLKEN_EN 1).put F.DBG_SMB_STATE 0), by decide +kernel⟩,
    ⟨st (L0.setPower fun p => { p with measuring := true }), by decide +kernel⟩,
    ⟨st (L0), by decide +kernel⟩,
    ⟨st ((((L0.put F.PWR_PMB_CTRL_POLL_EN 1).put F.PWR_CLKEN_EN 1).put F.DBG_SMB_STATE 0).setPower fun p =>
      { p with missed := [(11, 2)] }), 11, by decide +kernel⟩,
    ⟨st (L0), 1343#11, 16, by decide +kernel⟩,
    ⟨st (L0.withImage (image1 [(8, 16, 2 ^ 79)] [1358] [])), 1358#11, image1 [(8, 16, 2 ^ 79)] [1358] [], 0, by decide +kernel⟩,
    ⟨st (L0.put F.DBG_BLOCK_RETIRED 0x20 0 0), 5#11, by decide +kernel⟩,
    ⟨st ((((L0.put F.PWR_PMB_CTRL_POLL_EN 1).put F.PWR_CLKEN_EN 1).put F.DBG_SMB_STATE 0).setPower fun p =>
      { p with missed := [(11, 2)] }), 11, by decide +kernel⟩,
    ⟨st ((((L0.put F.PWR_PMB_CTRL_POLL_EN 1).put F.PWR_CLKEN_EN 1).put F.DBG_SMB_STATE 0).setPower fun p =>
      { p with missed := [(11, 2)] }), 11, by decide +kernel⟩,
    ⟨0#2, 1360#11, by decide +kernel⟩⟩

theorem witness_BootStages :
    (∃ (s : State), (s.m.get F.KEP_STATUS_STAGE = 0) ∧ (s.m.site.powered = true)) ∧
    (∃ (s : State) (mv : BitVec 16), (s.m.get F.KEP_STATUS_STAGE = 0) ∧ (s.m.site.powered = true) ∧ (LogRoom s.m) ∧ (2600 ≤ mv.toNat)) ∧
    (∃ (s : State) (mv : BitVec 16), (s.m.get F.KEP_STATUS_STAGE = 0) ∧ (s.m.site.powered = true) ∧ (2600 ≤ mv.toNat)) ∧
    (∃ (s : State), s.m.get F.KEP_STATUS_STAGE ≠ 0 ∨ s.m.site.powered = false) ∧
    (∃ (s : State) (i : Nat), (s.m.get F.KEP_STATUS_STAGE = 1) ∧ (s.m.dir.1.active = i) ∧ (i < 2) ∧ (s.m.dir.1.state i = 3 ∨
      s.m.dir.1.state i = 2 ∧ s.m.dir.1.attempts = 0)) ∧
    (∃ (s : State) (i : Nat), (s.m.get F.KEP_STATUS_STAGE = 1) ∧ (s.m.dir.1.active = i) ∧ (i < 2) ∧ (s.m.dir.1.state i = 2) ∧ (1 ≤
      s.m.dir.1.attempts) ∧ (s.m.dir.1.state (1 - i) ≠ 2) ∧ (s.m.dir.1.state (1 - i) ≠ 3) ∧ (LogRoom s.m)) ∧
    (∃ (s : State), (s.m.get F.KEP_STATUS_STAGE = 1) ∧ (s.m.dir.1.state 0 = 0) ∧ (s.m.dir.1.state 1 = 0) ∧ (s.m.isOn 96 = false) ∧
      (s.m.power.job = none) ∧ (s.m.power.wait = [])) ∧
    (∃ (s : State), s.m.get F.KEP_STATUS_STAGE ≠ 1) ∧
    (∃ (s : State), (s.m.get F.KEP_STATUS_STAGE = 2) ∧ (vaultsOn s.m ≠ []) ∧ (s.m.power.job = none) ∧ (s.m.power.wait = [])) ∧
    (∃ (s : State), (s.m.get F.KEP_STATUS_STAGE = 2) ∧ (vaultsOn s.m ≠ []) ∧ (s.m.power.job ≠ none)) ∧
    (∃ (s : State), s.m.get F.KEP_STATUS_STAGE ≠ 2 ∨ vaultsOn s.m = []) ∧
    (∃ (s : State), (s.m.get F.KEP_STATUS_STAGE = 2) ∧ (∀ v, v < 4 → s.m.vaultReady v = true)) ∧
    (∃ (s : State), s.m.get F.KEP_STATUS_STAGE ≠ 2 ∨ ∃ v, v < 4 ∧ s.m.vaultReady v = false) :=
  ⟨ ⟨st (L0), by decide +kernel⟩,
    ⟨st (L0), 2600#16, by decide +kernel⟩,
    ⟨st (L0), 2600#16, by decide +kernel⟩,
    ⟨st (L0.put F.KEP_STATUS_STAGE 3), by decide +kernel⟩,
    ⟨st ((L0.withDir 1 0 3).put F.KEP_STATUS_STAGE 1), 1, by decide +kernel⟩,
    ⟨st ((L0.flashWrite 0 (Dir.bytes { dseq := 1, active := 1, stateA := 0, stateB := 2, attempts := 1, verA := 5, verB := 6 })).put
      F.KEP_STATUS_STAGE 1), 1, by decide +kernel⟩,
    ⟨st (L0.put F.KEP_STATUS_STAGE 1), by decide +kernel⟩,
    ⟨st (L0.put F.KEP_STATUS_STAGE 3), by decide +kernel⟩,
    ⟨st (L0.put F.KEP_STATUS_STAGE 2), by decide +kernel⟩,
    ⟨st ((L0.put F.KEP_STATUS_STAGE 2).setPower fun p => { p with job := some ⟨0, [(103, true)]⟩ }), by decide +kernel⟩,
    ⟨st (L0.put F.KEP_STATUS_STAGE 3), by decide +kernel⟩,
    ⟨st (((((L0.put F.KEP_STATUS_STAGE 2).put F.VLT_STATUS_READY 1 0).put F.VLT_STATUS_READY 1 1).put F.VLT_STATUS_READY 1 2).put
      F.VLT_STATUS_READY 1 3), by decide +kernel⟩,
    ⟨st (L0.put F.KEP_STATUS_STAGE 3), by decide +kernel⟩⟩

theorem witness_KeepRecords :
    (∃ (s : State) (mv : BitVec 16), (s.m.keep.src = 0) ∧ (mv.toNat < 2600) ∧ (LogRoom s.m)) ∧
    (∃ (s : State) (mv : BitVec 16), (s.m.keep.src = 0) ∧ (2600 ≤ mv.toNat)) ∧
    (∃ (s : State), s.m.keep.src ≠ 0) ∧
    (∃ (s : State) (o : Bool), (s.m.flag F.KEP_STATUS_LOOP_OPEN = !o) ∧ (LogRoom s.m)) ∧
    (∃ (s : State) (o : Bool), s.m.flag F.KEP_STATUS_LOOP_OPEN = o) ∧
    (∃ (s : State) (o : Bool) (r : LogRec), (s.m.flag F.KEP_STATUS_LOOP_OPEN = !o) ∧ (s.m.keep.log.length = 1024) ∧ ((s.m.keep.log.find?
      fun r => !(r.needs && !r.acked)) = some r)) ∧
    (∃ (s : State) (o : Bool), (s.m.flag F.KEP_STATUS_LOOP_OPEN = !o) ∧ (s.m.keep.log.length = 1024) ∧ ((s.m.keep.log.find? fun r =>
      !(r.needs && !r.acked)) = none) ∧ (s.m.reg R.KEP_LOG_LOST < 0xFFFFFFFE)) ∧
    (∃ (s : State), s.m.mboxHas 2 = true) ∧
    (∃ (s : State), s.m.mboxHas 2 = false) :=
  ⟨ ⟨st (L0), 2599#16, by decide +kernel⟩,
    ⟨st (L0), 2600#16, by decide +kernel⟩,
    ⟨st (L0.setKeep fun k => { k with src := 1 }), by decide +kernel⟩,
    ⟨st (L0), true, by decide +kernel⟩,
    ⟨st (L0), false, by decide +kernel⟩,
    ⟨st (L0.setKeep fun k => { k with log := ⟨7, 4, 0, false, false, 0, []⟩ :: List.replicate 1023 ⟨8, 4, 0, true, false, 0, []⟩ }), true,
      ⟨7, 4, 0, false, false, 0, []⟩, by decide +kernel⟩,
    ⟨st (L0.setKeep fun k => { k with log := List.replicate 1024 ⟨8, 4, 0, true, false, 0, []⟩ }), true, by decide +kernel⟩,
    ⟨st (((L0.asked 2).setReg R.HST_MBOX_REQ 7).setKeep fun k =>
      { k with log := [⟨7, 4, 0, true, false, 0, []⟩, ⟨8, 4, 0, true, false, 0, []⟩] }), by decide +kernel⟩,
    ⟨st (L0), by decide +kernel⟩⟩

theorem witness_FirmwareUpdate :
    (∃ (s : State), (s.m.mboxHas 4 = true) ∧ (s.m.dir.1.state s.m.dir.1.active ≠ 2) ∧ (s.m.keep.commit = none)) ∧
    (∃ (s : State), (s.m.mboxHas 4 = true) ∧ (s.m.dir.1.state s.m.dir.1.active = 2 ∨ s.m.keep.commit ≠ none)) ∧
    (∃ (s : State), s.m.mboxHas 4 = false) ∧
    (∃ (s : State), (s.m.mboxHas 5 = true) ∧ (CanActivate s.m) ∧ (s.m.reg R.HST_MBOX_REQ 0 0 % 2 = 0) ∧ (s.m.get F.KEP_STATUS_STAGE ≠ 4))
      ∧
    (∃ (s : State), (s.m.mboxHas 5 = true) ∧ (CanActivate s.m) ∧ (s.m.reg R.HST_MBOX_REQ 0 0 % 2 = 1) ∧ (s.m.planActive = false)) ∧
    (∃ (s : State), (s.m.mboxHas 5 = true) ∧ (CanActivate s.m) ∧ (s.m.reg R.HST_MBOX_REQ 0 0 % 2 = 1) ∧ (s.m.planActive = true)) ∧
    (∃ (s : State), (s.m.mboxHas 5 = true) ∧ (s.m.dir.1.state s.m.dir.1.active = 2)) ∧
    (∃ (s : State), (s.m.mboxHas 5 = true) ∧ (s.m.dir.1.state s.m.dir.1.active ≠ 2) ∧ (s.m.dir.1.state (1 - s.m.dir.1.active) ≠ 1)) ∧
    (∃ (s : State), s.m.mboxHas 5 = false) ∧
    (∃ (s : State) (c : Nat) (svn : Nat), (s.m.flag F.KEP_STATUS_TRIAL = true) ∧ (LogRoom s.m) ∧ (fieldAt (s.m.slotReader (s.m.get
      F.KEP_STATUS_SLOT) 0xC 1) 0 1 = c) ∧ (c ≤ 3) ∧ (fieldAt (s.m.slotReader (s.m.get F.KEP_STATUS_SLOT) 0xD 1) 0 1 = svn)) ∧
    (∃ (s : State), s.m.flag F.KEP_STATUS_TRIAL = false) ∧
    (∃ (s : State), s.m.flag F.KEP_STATUS_TRIAL = true) ∧
    (∃ (c : _) (s : State), (c ∈ [Instr.abortStage, .stageHoldExpire]) ∧ (s.m.stageOwner ≠ 0) ∧ (s.m.keep.commit = none)) ∧
    (∃ (c : _) (s : State), (c ∈ [Instr.abortStage, .stageHoldExpire]) ∧ (s.m.stageOwner = 0 ∨ s.m.keep.commit ≠ none)) ∧
    (∃ (s : State), s.m.keep.commit = none) ∧
    (∃ (s : State) (c : Commit) (n : Nat), (s.m.keep.commit = some c) ∧ (s.m.get F.KEP_STAGE_STATE = 2) ∧ (s.m.fwCheck s.m.stageReader
      c.len = n) ∧ (n ≠ 0)) ∧
    (∃ (s : State) (c : Commit), (s.m.keep.commit = some c) ∧ (s.m.get F.KEP_STAGE_STATE = 2)) ∧
    (∃ (s : State) (c : Commit), (s.m.keep.commit = some c) ∧ (s.m.get F.KEP_STAGE_STATE ≠ 2) ∧ (∀ k, k < fwBlocks s.m.stageReader →
      fwBlockOk s.m.stageReader (k + 1) = true)) ∧
    (∃ (s : State) (bad : Bool) (c : Commit), (s.m.keep.commit = some c) ∧ (s.m.get F.KEP_STAGE_STATE ≠ 2) ∧ (bad = true ∨ ∃ k, k <
      fwBlocks s.m.stageReader ∧ fwBlockOk s.m.stageReader (k + 1) = false)) :=
  ⟨ ⟨st ((L0.asked 4).setReg R.HST_MBOX_REQ 0x30000), by decide +kernel⟩,
    ⟨st ((L0.asked 4).setKeep fun k => { k with commit := some ⟨1, 2, 3⟩ }), by decide +kernel⟩,
    ⟨st ((L0.asked 5).withDir 0 3 1), by decide +kernel⟩,
    ⟨st ((L0.asked 5).withDir 0 3 1), by decide +kernel⟩,
    ⟨st (((L0.asked 5).withDir 0 3 1).setReg R.HST_MBOX_REQ 1), by decide +kernel⟩,
    ⟨st ((((L0.asked 5).withDir 0 3 1).setReg R.HST_MBOX_REQ 1).put F.PLN_ACT_HANDLE 1), by decide +kernel⟩,
    ⟨st ((L0.asked 5).withDir 0 2 0), by decide +kernel⟩,
    ⟨st ((L0.asked 5).withDir 0 3 3), by decide +kernel⟩,
    ⟨st ((L0.asked 4).setReg R.HST_MBOX_REQ 0x30000), by decide +kernel⟩,
    ⟨st ((((L0.withDir 1 3 2).put F.KEP_STATUS_TRIAL 1).put F.KEP_STATUS_SLOT 1).flashWrite 0x200000C [3#8, 128#8, 0#8, 15#8]), 3, 128,
      by decide +kernel⟩,
    ⟨st (L0), by decide +kernel⟩,
    ⟨st ((L0.put F.KEP_STATUS_TRIAL 1).setCell 5 { st := 4 }), by decide +kernel⟩,
    ⟨Instr.stageHoldExpire, st ((L0.put F.KEP_STAGE_OWNER 3).setKeep fun k => { k with got := [(0, 5)] }), by decide +kernel⟩,
    ⟨Instr.abortStage, st ((L0.put F.KEP_STAGE_OWNER 3).setKeep fun k => { k with commit := some ⟨1, 2, 3⟩ }), by decide +kernel⟩,
    ⟨st (L0), by decide +kernel⟩,
    ⟨st (((L0.put F.KEP_STAGE_STATE 2).put F.KEP_STAGE_OWNER 2).setKeep fun k => { k with commit := some ⟨2, 0x30000, 3⟩ }), ⟨2, 0x30000,
      3⟩, 0x1001, by decide +kernel⟩,
    ⟨st (((L0.put F.KEP_STAGE_STATE 2).put F.KEP_STAGE_OWNER 2).setKeep fun k => { k with commit := some ⟨2, 0x30000, 3⟩ }), ⟨2, 0x30000,
      3⟩, by decide +kernel⟩,
    ⟨st ((L0.put F.KEP_STAGE_STATE 3).setKeep fun k => { k with commit := some ⟨2, 0x30000, 3⟩ }), ⟨2, 0x30000, 3⟩, by decide +kernel⟩,
    ⟨st (((L0.put F.KEP_STAGE_STATE 3).put F.KEP_STAGE_OWNER 2).setKeep fun k => { k with commit := some ⟨2, 0x30000, 3⟩ }), true, ⟨2,
      0x30000, 3⟩, by decide +kernel⟩⟩

theorem witness_ServicePort :
    (∃ (s : State), s.m.svcServes 1 = true) ∧
    (∃ (s : State) (q : BitVec 16) (i : BitVec 14) (w : BitVec 32) (z : BitVec 32) (d : List Byte) (r : SpdmRequest) (b : Bool) (x : _),
      (x ∈ [(1, Instr.svcIdent q), (2, .svcSpdm q r), (3, .stageWrite q w d), (4, .stageQuery q), (5, .stageCommit q w), (6,
      .svcFwActivate q b), (7, .setPosition q i), (8, .logRead q w z)]) ∧ (s.m.svcServes x.1 = false) ∧ (s.m.flag F.MOD_SVC_LINK_UP =
      false ∨ s.m.get F.KEP_STATUS_STAGE ≠ 4)) ∧
    (∃ (s : State) (q : BitVec 16) (i : BitVec 14) (w : BitVec 32) (z : BitVec 32) (x : _), (s.m.flag F.MOD_SVC_LINK_UP = true) ∧ (s.m.get
      F.KEP_STATUS_STAGE = 4) ∧ (x ∈ [(7, Instr.setPosition q i), (8, .logRead q w z)])) ∧
    (∃ (s : State), s.m.svcServes 2 = true) ∧
    (∃ (s : State) (o : BitVec 32) (d : List Byte), (s.m.svcServes 3 = true) ∧ (s.m.stageOwner = 0 ∨ s.m.stageOwner = 2) ∧ (s.m.vaultReady
      0 = true) ∧ (o.toNat + d.length ≤ 0x2000000) ∧ (d.length ≤ 1024)) ∧
    (∃ (s : State), (s.m.svcServes 3 = true) ∧ (s.m.stageOwner ≠ 0) ∧ (s.m.stageOwner ≠ 2)) ∧
    (∃ (s : State) (o : BitVec 32) (d : List Byte), (s.m.svcServes 3 = true) ∧ (s.m.stageOwner = 0 ∨ s.m.stageOwner = 2) ∧ (0x2000000 <
      o.toNat + d.length ∨ 1024 < d.length ∨ s.m.vaultReady 0 = false)) ∧
    (∃ (s : State), s.m.svcServes 4 = true) ∧
    (∃ (s : State), (s.m.svcServes 5 = true) ∧ (s.m.dir.1.state s.m.dir.1.active ≠ 2) ∧ (s.m.keep.commit = none)) ∧
    (∃ (s : State), (s.m.svcServes 5 = true) ∧ (s.m.dir.1.state s.m.dir.1.active = 2 ∨ s.m.keep.commit ≠ none)) ∧
    (∃ (s : State), (s.m.svcServes 6 = true) ∧ (CanActivate s.m) ∧ (s.m.get F.KEP_STATUS_STAGE ≠ 4)) ∧
    (∃ (s : State) (b : Bool), (s.m.svcServes 6 = true) ∧ (CanActivate s.m) ∧ (b = true ∧ s.m.planActive = false ∨ b = false ∧ s.m.get
      F.KEP_STATUS_STAGE = 4)) ∧
    (∃ (s : State), (s.m.svcServes 6 = true) ∧ (CanActivate s.m) ∧ (s.m.planActive = true)) ∧
    (∃ (s : State), (s.m.svcServes 6 = true) ∧ (s.m.dir.1.state s.m.dir.1.active = 2 ∨ s.m.dir.1.state (1 - s.m.dir.1.active) ≠ 1)) ∧
    (∃ (s : State), (s.m.svcServes 7 = true) ∧ (s.m.planActive = false)) ∧
    (∃ (s : State), (s.m.svcServes 7 = true) ∧ (s.m.planActive = true)) ∧
    (∃ (s : State), s.m.svcServes 8 = true) :=
  ⟨ ⟨st (L0.served1), by decide +kernel⟩,
    ⟨st (L0), 1#16, 2#14, 3#32, 4#32, [], .getVersion, true, (8, .logRead 1#16 3#32 4#32), by decide +kernel⟩,
    ⟨st (L0.served1.put F.KEP_STATUS_STAGE 4), 1#16, 2#14, 3#32, 4#32, (8, .logRead 1#16 3#32 4#32), by decide +kernel⟩,
    ⟨st (L0.served1), by decide +kernel⟩,
    ⟨st ((L0.served1.put F.KEP_STAGE_OWNER 2).put F.VLT_STATUS_READY 1 0), 0x1FFFFFE#32, [5#8, 6#8], by decide +kernel⟩,
    ⟨st (L0.served1.put F.KEP_STAGE_OWNER 1), by decide +kernel⟩,
    ⟨st ((L0.served1.put F.KEP_STAGE_OWNER 2).put F.VLT_STATUS_READY 1 0), 0x1FFFFFF#32, [5#8, 6#8], by decide +kernel⟩,
    ⟨st (L0.served1.setKeep fun k => { k with got := [(0, 131072)] }), by decide +kernel⟩,
    ⟨st (L0.served1.withDir 0 3 0), by decide +kernel⟩,
    ⟨st (L0.served1.withDir 0 2 0), by decide +kernel⟩,
    ⟨st (L0.served1.withDir 1 1 3), by decide +kernel⟩,
    ⟨st (L0.served1.withDir 1 1 3), true, by decide +kernel⟩,
    ⟨st ((L0.served1.withDir 1 1 3).put F.PLN_ACT_HANDLE 1), by decide +kernel⟩,
    ⟨st (L0.served1), by decide +kernel⟩,
    ⟨st (L0.served1), by decide +kernel⟩,
    ⟨st (L0.served1.put F.PLN_ACT_HANDLE 1), by decide +kernel⟩,
    ⟨st (L0.served1.setKeep fun k => { k with log := [⟨7, 4, 0, true, false, 0, []⟩, ⟨8, 4, 0, true, false, 0, []⟩] }),
      by decide +kernel⟩⟩

theorem witness_AttestAndChain :
    (∃ (sl : BitVec 4) (o : BitVec 16) (n : BitVec 16) (x : List Byte) (i : Byte) (c : _), c ∈ [(Instr.getVersion,
      SpdmRequest.getVersion), (.getCapabilities, .getCapabilities), (.negotiateAlgorithms, .negotiateAlgorithms), (.getDigests,
      .getDigests), (.getCertificate sl o n, .getCertificate sl.toNat o.toNat n.toNat), (.challenge sl x, .challenge sl.toNat x),
      (.getMeasurements i x, .getMeasurements i.toNat x)]) ∧
    (∃ (s : State), s.m.mboxHas 3 = true) ∧
    (∃ (s : State), s.m.mboxHas 3 = false) ∧
    (∃ (s : State) (g : BitVec 128), OfferFits s.m g) ∧
    (∃ (s : State) (g : BitVec 128), ¬ OfferFits s.m g) ∧
    (∃ (s : State) (src : BitVec 14) (h : Nat), HopIs s.m src h) ∧
    (∃ (s : State) (src : BitVec 14), s.m.hopOf src.toNat = none) ∧
    (∃ (s : State) (src : BitVec 14) (code : BitVec 16) (h : Nat), (HopIs s.m src h) ∧ (code ≠ 0)) ∧
    (∃ (s : State) (src : BitVec 14) (h : Nat), (HopIs s.m src h) ∧ (¬ Receives s.m src)) ∧
    (∃ (s : State) (src : BitVec 14), (s.m.hopOf src.toNat = none) ∧ (Receives s.m src)) ∧
    (∃ (s : State) (src : BitVec 14), (s.m.hopOf src.toNat = none) ∧ (¬ Receives s.m src)) ∧
    (∃ (s : State) (h : Fin 4), sget 0 s.m.keep.hops h = 1) ∧
    (∃ (s : State) (h : Fin 4), sget 0 s.m.keep.hops h = 2) ∧
    (∃ (s : State) (h : Fin 4), sget 0 s.m.keep.hops h ≠ 1) ∧
    (∃ (s : State) (h : Fin 4), sget 0 s.m.keep.hops h ≠ 2) ∧
    (∃ (s : State), s.m.get F.KEP_STAGE_STATE ≠ 4) ∧
    (∃ (s : State), s.m.get F.KEP_STAGE_STATE = 4) :=
  ⟨ ⟨0#4, 1#16, 2#16, [7#8], 3#8, (.getMeasurements 3#8 [7#8], .getMeasurements 3 [7#8]), by decide +kernel⟩,
    ⟨st ((L0.asked 3).setReg R.HST_MBOX_REQ 4096 0 1), by decide +kernel⟩,
    ⟨st (L0.put F.KEP_CHAIN_ACCEPT 1), by decide +kernel⟩,
    ⟨st (L0.put F.KEP_CHAIN_ACCEPT 1), 5#128, by decide +kernel⟩,
    ⟨st (hopM 1), 3, by decide +kernel⟩,
    ⟨st (hopM 2), 9#14, 3, by decide +kernel⟩,
    ⟨st (L0), 9#14, by decide +kernel⟩,
    ⟨st (hopM 2), 9#14, 1#16, 3, by decide +kernel⟩,
    ⟨st (hopM 2), 9#14, 3, by decide +kernel⟩,
    ⟨st ((L0.put F.KEP_STAGE_OWNER 3).setKeep fun k => { k with offerer := 9 }), 9#14, by decide +kernel⟩,
    ⟨st (L0), 9#14, by decide +kernel⟩,
    ⟨st (hopM 1), 3, by decide +kernel⟩,
    ⟨st (hopM 2), 3, by decide +kernel⟩,
    ⟨st (hopM 2), 3, by decide +kernel⟩,
    ⟨st (hopM 1), 3, by decide +kernel⟩,
    ⟨st (L0), by decide +kernel⟩,
    ⟨st (L0.put F.KEP_STAGE_STATE 4), by decide +kernel⟩⟩

theorem witness_RemovalAndInsertion :
    (∃ (c : _) (s : State), (c ∈ [false, true]) ∧ (s.m.site.flush = 0) ∧ (c = true → s.m.flag F.MOD_PINS_EB = true)) ∧
    (∃ (c : _) (s : State), (c ∈ [false, true]) ∧ (s.m.site.flush = 0) ∧ (c = true → s.m.flag F.MOD_PINS_EB = true) ∧ (∀ t, s.m.tenState t
      ≠ tenRunning) ∧ (∀ p, s.m.linkState p = 0 ∨ s.m.linkState p = 7) ∧ (LogRoom s.m)) ∧
    (∃ (s : State), s.m.site.flush ≠ 0) ∧
    (∃ (s : State), s.m.site.flush ≠ 0 ∨ s.m.flag F.MOD_PINS_EB = false) ∧
    (∃ (s : State), (s.m.site.flush ≠ 0) ∧ (s.m.site.off = false) ∧ (s.m.site.again = false) ∧ (∀ p, s.m.linkState p = 0 ∨ s.m.linkState p
      = 7)) ∧
    (∃ (s : State), (s.m.site.flush ≠ 0) ∧ (s.m.site.off = false) ∧ (s.m.site.again = true) ∧ (∀ p, s.m.linkState p = 0 ∨ s.m.linkState p
      = 7)) ∧
    (∃ (s : State), s.m.site.flush = 0 ∨ s.m.site.off = true) ∧
    (∃ (s : State), (s.m.site.flush ≠ 0) ∧ (s.m.site.off = false)) ∧
    (∃ (s : State), (s.m.site.flush ≠ 0) ∧ (s.m.site.off = true)) ∧
    (∃ (s : State), s.m.site.flush = 0) ∧
    (∃ (s : State), s.m.site.flush = 0 ∨ s.m.site.off = false) ∧
    (∃ (s : State), s.m.site.powered = false) ∧
    (∃ (s : State), s.m.site.powered = true) ∧
    (∃ (s : State), (s.m.flag F.MOD_PINS_PRES = true) ∧ (s.m.flag F.MOD_PINS_EB = true) ∧ (s.m.site.flush = 0)) ∧
    (∃ (s : State), (s.m.flag F.MOD_PINS_PRES = true) ∧ (s.m.flag F.MOD_PINS_EB = true) ∧ (s.m.site.flush ≠ 0) ∧ (s.m.site.off = false)) ∧
    (∃ (s : State), (s.m.flag F.MOD_PINS_PRES = true) ∧ (s.m.flag F.MOD_PINS_EB = true) ∧ (s.m.site.flush ≠ 0) ∧ (s.m.site.off = true)) ∧
    (∃ (s : State), s.m.flag F.MOD_PINS_PRES = false ∨ s.m.flag F.MOD_PINS_EB = false) ∧
    (∃ (s : State), (s.m.site.input = true) ∧ (s.m.site.powered = true) ∧ (s.m.site.flush = 0) ∧ (s.m.isOn 110 = false)) ∧
    (∃ (s : State), s.m.site.input = false ∨ s.m.site.powered = false ∨ s.m.site.flush ≠ 0 ∨ s.m.isOn 110 = true) ∧
    (∃ (s : State) (v : VaultIx), ((s.m.vault v).training = true) ∧ (s.m.vaultReady v = false)) ∧
    (∃ (s : State) (v : VaultIx), (s.m.vault v).training = false ∨ s.m.vaultReady v = true) :=
  ⟨ ⟨true, st (L0.put F.MOD_PINS_EB 1), by decide +kernel⟩,
    ⟨true, st (L0.put F.MOD_PINS_EB 1), by decide, by decide +kernel, (fun _ => by decide +kernel), (fun t h => absurd ((eb_ten
      t).symm.trans h) (by decide)), (fun p => .inl (eb_link p)), by decide +kernel⟩,
    ⟨st (L0.setSite fun x => { x with flush := 2 }), by decide +kernel⟩,
    ⟨st (L0.setSite fun x => { x with flush := 2 }), by decide +kernel⟩,
    ⟨st (L0.setSite fun x => { x with flush := 2 }), by decide +kernel, by decide +kernel, by decide +kernel, fun p => .inl (reset_link
      p)⟩,
    ⟨st (L0.setSite fun x => { x with flush := 2, again := true }), by decide +kernel, by decide +kernel, by decide +kernel, fun p => .inl
      (reset_link p)⟩,
    ⟨st (L0), by decide +kernel⟩,
    ⟨st (L0.setSite fun x => { x with flush := 1 }), by decide +kernel⟩,
    ⟨st (((L0.put F.KEP_STATUS_STAGE 3).setCell 5 { st := 4 }).setSite fun x => { x with flush := 2, off := true }), by decide +kernel⟩,
    ⟨st (L0), by decide +kernel⟩,
    ⟨st (L0.setSite fun x => { x with flush := 2 }), by decide +kernel⟩,
    ⟨st ((L0.put F.KEP_STATUS_STAGE 3).setSite fun x => { x with powered := false }), by decide +kernel⟩,
    ⟨st (L0), by decide +kernel⟩,
    ⟨st ((L0.put F.MOD_PINS_PRES 1).put F.MOD_PINS_EB 1), by decide +kernel⟩,
    ⟨st (L0.setSite fun x => { x with flush := 2 }), by decide +kernel⟩,
    ⟨st (((L0.put F.KEP_STATUS_STAGE 3).setCell 5 { st := 4 }).setSite fun x => { x with flush := 2, off := true }), by decide +kernel⟩,
    ⟨st (L0.put F.MOD_PINS_EB 0), by decide +kernel⟩,
    ⟨st (L0), by decide +kernel⟩,
    ⟨st (L0.setSite fun x => { x with flush := 2 }), by decide +kernel⟩,
    ⟨st (L0.setVault 7 { training := true }), 7, by decide +kernel⟩,
    ⟨st (L0.put F.VLT_STATUS_READY 1 7), 7, by decide +kernel⟩⟩

theorem witness_ReferencesSmbusJtag :
    (∃ (s : State), s.m.flag F.MOD_PINS_HREF_OK = false) ∧
    (∃ (s : State), s.m.flag F.MOD_PINS_HREF_OK = true) ∧
    (∃ (s : State), (s.m.flag F.MOD_PINS_HREF_OK = true) ∧ (s.m.planActive = false)) ∧
    (∃ (s : State), s.m.flag F.MOD_PINS_HREF_OK = false ∨ s.m.planActive = true) ∧
    (∃ (s : State), (s.m.smbOn = true) ∧ (s.m.get F.DBG_SMB_STATE = 0)) ∧
    (∃ (s : State), s.m.get F.DBG_SMB_STATE ≠ 0) ∧
    (∃ (s : State), s.m.get F.DBG_SMB_STATE = 2) ∧
    (∃ (s : State), s.m.get F.DBG_SMB_STATE ≠ 2) ∧
    (∃ (s : State), (s.m.smbOn = true) ∧ (s.m.get F.DBG_SMB_STATE = 0 ∨ s.m.get F.DBG_SMB_STATE = 3)) ∧
    (∃ (s : State), (s.m.get F.DBG_SMB_STATE ≠ 0) ∧ (s.m.get F.DBG_SMB_STATE ≠ 3)) ∧
    (∃ (s : State), s.m.smbOn = false) ∧
    (∃ (s : State), s.m.flag F.DBG_CTRL_JTAG_LOCK = true) ∧
    (∃ (s : State), (s.m.flag F.DBG_CTRL_JTAG_LOCK = false) ∧ (s.m.jtag.run = none)) ∧
    (∃ (s : State), (s.m.flag F.DBG_CTRL_JTAG_LOCK = false) ∧ (s.m.jtag.run ≠ none)) ∧
    (∃ (s : State) (v : Nat), s.m.jtag.run = some (false, R.BLF_LIMITS.addr 0 0, v)) ∧
    (∃ (s : State) (v : Nat), s.m.jtag.run = some (true, R.PWR_ENV.addr 0 0, v)) ∧
    (∃ (s : State) (w : Bool) (a : Nat) (v : Nat), (s.m.jtag.run = some (w, a, v)) ∧ (a % 8 ≠ 0 ∨ findBlock a = none)) ∧
    (∃ (s : State), s.m.jtag.run = none) :=
  ⟨ ⟨st (L0.put F.MOD_PINS_HREF_OK 0), by decide +kernel⟩,
    ⟨st (L0.put F.MOD_PINS_HREF_OK 1), by decide +kernel⟩,
    ⟨st ((L0.put F.MOD_PINS_HREF_OK 1).put F.MOD_PINS_CLK_SRC 1), by decide +kernel⟩,
    ⟨st ((L0.put F.MOD_PINS_HREF_OK 0).put F.MOD_PINS_CLK_SRC 1), by decide +kernel⟩,
    ⟨st ((L0.put F.PWR_CLKEN_EN 1).put F.DBG_SMB_STATE 0), by decide +kernel⟩,
    ⟨st (L0.put F.DBG_SMB_STATE 2), by decide +kernel⟩,
    ⟨st (L0.put F.DBG_SMB_STATE 2), by decide +kernel⟩,
    ⟨st (L0.put F.DBG_SMB_STATE 3), by decide +kernel⟩,
    ⟨st ((L0.put F.PWR_CLKEN_EN 1).put F.DBG_SMB_STATE 0), by decide +kernel⟩,
    ⟨st (L0.put F.DBG_SMB_STATE 2), by decide +kernel⟩,
    ⟨st (L0.put F.PWR_CLKEN_EN 2), by decide +kernel⟩,
    ⟨st (L0.put F.DBG_CTRL_JTAG_LOCK 1), by decide +kernel⟩,
    ⟨st (L0.put F.DBG_CTRL_JTAG_LOCK 0), by decide +kernel⟩,
    ⟨st ((L0.put F.DBG_CTRL_JTAG_LOCK 0).setJtag fun j => { j with run := some (false, 0, 7) }), by decide +kernel⟩,
    ⟨st (L0.setJtag fun j => { j with run := some (false, R.BLF_LIMITS.addr 0 0, 7) }), 7, by decide +kernel⟩,
    ⟨st (L0.setJtag fun j => { j with run := some (true, R.PWR_ENV.addr 0 0, 0x12345) }), 0x12345, by decide +kernel⟩,
    ⟨st (L0.setJtag fun j => { j with run := some (true, R.PWR_ENV.addr 0 0 + 4, 0x12345) }), true, R.PWR_ENV.addr 0 0 + 4, 0x12345,
      by decide +kernel⟩,
    ⟨st (L0), by decide +kernel⟩⟩

theorem witness_HostWindows :
    (∃ (s : State) (o : BitVec 25), (s.m.hostReaches = true) ∧ (s.m.bar0 o.toNat = R.BLF_LIMITS.addr 0 0)) ∧
    (∃ (s : State) (o : BitVec 25), (s.m.hostReaches = true) ∧ (s.m.bar0 o.toNat = R.BLF_LIMITS.addr 0 0) ∧ (s.m.planActive = false)) ∧
    (∃ (s : State) (o : BitVec 25) (n : Nat), (s.m.hostReaches = true) ∧ (n ≠ 8 ∨ s.m.bar0 o.toNat % 8 ≠ 0 ∨ findBlock (s.m.bar0 o.toNat)
      = none)) ∧
    (∃ (s : State), s.m.hostReaches = false) ∧
    (∃ (s : State), (s.m.hostReaches = true) ∧ (s.m.vaultReady (s.m.get F.HST_MWIN_VAULT) = true) ∧ ((s.m.vault (s.m.get
      F.HST_MWIN_VAULT)).poison = [])) ∧
    (∃ (s : State), (s.m.hostReaches = true) ∧ (s.m.vaultReady (s.m.get F.HST_MWIN_VAULT) = true)) ∧
    (∃ (s : State), (s.m.hostReaches = true) ∧ (s.m.vaultReady (s.m.get F.HST_MWIN_VAULT) = false)) ∧
    (∃ (s : State) (o : BitVec 36) (d : List Byte), (s.m.hostReaches = true) ∧ (s.m.protects (s.m.bar2 o.toNat) d.length = false) ∧
      (s.m.vaultReady (s.m.get F.HST_MWIN_VAULT) = true) ∧ (inCring (s.m.bar2 o.toNat) d.length = false) ∧ (inStage (s.m.bar2 o.toNat)
      d.length = false) ∧ (InVault s.m o.toNat d.length)) ∧
    (∃ (s : State) (o : BitVec 36) (d : List Byte), (s.m.hostReaches = true) ∧ (s.m.protects (s.m.bar2 o.toNat) d.length = false) ∧
      (s.m.vaultReady 0 = true) ∧ (s.m.get F.HST_MWIN_VAULT = 0) ∧ (inCring o.toNat d.length = false) ∧ (inStage o.toNat d.length = true)
      ∧ (s.m.stageOwner = 0 ∨ s.m.stageOwner = 1) ∧ (o.toNat + d.length ≤ 2 ^ 36)) ∧
    (∃ (s : State) (o : BitVec 36) (d : List Byte), (s.m.hostReaches = true) ∧ (s.m.vaultReady (s.m.get F.HST_MWIN_VAULT) = false ∨
      inCring (s.m.bar2 o.toNat) d.length = true ∨ inStage (s.m.bar2 o.toNat) d.length = true ∧ s.m.stageOwner ≠ 0 ∧ s.m.stageOwner ≠ 1 ∨
      s.m.protects (s.m.bar2 o.toNat) d.length = true)) :=
  ⟨ ⟨st (hostM), BitVec.ofNat 25 (R.BLF_LIMITS.addr 0 0), by decide +kernel⟩,
    ⟨st ((hostM.setPlan fun p => { p with active := none }).put F.PLN_ACT_HANDLE 0), BitVec.ofNat 25 (R.BLF_LIMITS.addr 0 0),
      by decide +kernel⟩,
    ⟨st (hostM), BitVec.ofNat 25 (R.BLF_LIMITS.addr 0 0), 4, by decide +kernel⟩,
    ⟨st (L0), by decide +kernel⟩,
    ⟨st (((hostM.put F.HST_MWIN_VAULT 7).put F.VLT_STATUS_READY 1 7).setVault 7 { dram := [(2, 9#8)] }), by decide +kernel⟩,
    ⟨st (((hostM.put F.HST_MWIN_VAULT 7).put F.VLT_STATUS_READY 1 7).setVault 7 { dram := [(2, 9#8)], poison := [0] }),
      by decide +kernel⟩,
    ⟨st (hostM.put F.HST_MWIN_VAULT 7), by decide +kernel⟩,
    ⟨st ((hostM.put F.HST_MWIN_VAULT 7).put F.VLT_STATUS_READY 1 7), 0xFFFFFFFFE#36, [1#8, 2#8], by decide +kernel⟩,
    ⟨st ((hostM.put F.HST_MWIN_VAULT 0).put F.VLT_STATUS_READY 1 0), 0xFA1FFFFFE#36, [1#8, 2#8], by decide +kernel⟩,
    ⟨st ((hostM.put F.HST_MWIN_VAULT 0).put F.VLT_STATUS_READY 1 0), 0xFFF000000#36, [1#8], by decide +kernel⟩⟩

theorem witness_AccessAndCapture :
    (∃ (f : _) (s : State) (who : Requester), (f ∈ [F.BLF_LIMITS_BOUND_LIM, F.BLF_LIMITS_FAULT_LIM, F.BLF_PARENT_CAND0,
      F.BLF_PARENT_CAND3, F.BLF_EPOCH_TAI_EPOCH]) ∧ (s.m.power.ruleKept = true) ∧ (mayWrite who (f.reg.addr 0 0) = true)) ∧
    (∃ (f : _) (s : State) (who : Requester), (f ∈ [F.BLF_EVENT_LOCK_GAINED, F.BLF_EVENT_HOLDOVER, F.BLF_EVENT_TIME_FAULT,
      F.KEP_EVENT_INTRUSION, F.PLN_EVENT_PFAULT]) ∧ (s.m.power.ruleKept = true) ∧ (mayWrite who (f.reg.addr 0 0) = true)) ∧
    (∃ (s : State) (who : Requester), (s.m.power.ruleKept = true) ∧ (mayWrite who (R.PWR_ENV.addr 0 0) = true)) ∧
    (∃ (f : _) (s : State), (f ∈ [F.BLF_STATUS_STATE, F.BLF_STATUS_PARENT_PORT, F.PLN_ACT_HANDLE]) ∧ (s.m.power.ruleKept = true)) ∧
    (∃ (s : State) (n : BlockIx), (s.m.power.ruleKept = true) ∧ (s.m.isOn n = true)) ∧
    (∃ (n : BlockIx) (k : BlockIx), k ≠ n) ∧
    (∃ (a : BitVec 48), a.toNat < 0x1000000) ∧
    (∃ (who : Requester) (a : BitVec 48), (a.toNat % 8 ≠ 0 ∨ findBlock a.toNat = none) ∧ (who ≠ .host)) ∧
    (∃ (a : BitVec 48), a.toNat % 8 ≠ 0 ∨ findBlock a.toNat = none) ∧
    (∃ (s : State) (k : Fin 32) (u : Nat) (q : Nat), (s.m.get F.DBG_RB_ADDR_CLASS = 2) ∧ (s.m.get F.DBG_RB_ADDR_UNIT = u) ∧ (u < 1360) ∧
      (s.m.get F.DBG_RB_ADDR_OFFSET = 8 * q) ∧ (8 * q + 8 * k.val + 8 ≤ 0x100000) ∧ (s.m.isOn (u / 17) = true) ∧ (s.m.cellFused u = false)
      ∧ ((s.m.cell u).st ∈ [0, 2, 3, 4] ∨ s.m.flag F.DBG_STATUS_FROZEN = true)) ∧
    (∃ (s : State) (k : Fin 32) (u : Nat) (q : Nat), (s.m.get F.DBG_RB_ADDR_CLASS = 2) ∧ (s.m.get F.DBG_RB_ADDR_UNIT = u) ∧ (u < 1360) ∧
      (s.m.get F.DBG_RB_ADDR_OFFSET = 8 * q) ∧ (8 * q + 8 * k.val + 8 ≤ 0x100000) ∧ (s.m.isOn (u / 17) = true) ∧ (s.m.cellFused u = false)
      ∧ ((s.m.cell u).st = 1) ∧ (s.m.flag F.DBG_STATUS_FROZEN = false)) ∧
    (∃ (s : State) (k : Fin 32) (u : Nat) (q : Nat), (s.m.get F.DBG_RB_ADDR_CLASS = 6) ∧ (s.m.get F.DBG_RB_ADDR_UNIT = u) ∧ (u < 80) ∧
      (s.m.get F.DBG_RB_ADDR_OFFSET = 8 * q) ∧ (0x20000 ≤ 8 * q) ∧ (8 * q + 8 * k.val + 8 ≤ 0x30000) ∧ (s.m.isOn u = true) ∧ ((s.m.steward
      u).reset = true ∨ s.m.flag F.DBG_STATUS_FROZEN = true)) ∧
    (∃ (s : State) (k : Fin 32) (u : Nat) (q : Nat), (s.m.get F.DBG_RB_ADDR_CLASS = 6) ∧ (s.m.get F.DBG_RB_ADDR_UNIT = u) ∧ (u < 80) ∧
      (s.m.get F.DBG_RB_ADDR_OFFSET = 8 * q) ∧ (8 * q + 8 * k.val + 8 ≤ 0x30000) ∧ (s.m.isOn u = true) ∧ ((s.m.steward u).reset = false) ∧
      (s.m.flag F.DBG_STATUS_FROZEN = false)) ∧
    (∃ (s : State), s.m.get F.DBG_RB_ADDR_CLASS = 0 ∨ s.m.get F.DBG_RB_ADDR_CLASS = 2 ∧ (1360 ≤ s.m.get F.DBG_RB_ADDR_UNIT ∨ s.m.cellFused
      (s.m.get F.DBG_RB_ADDR_UNIT) = true)) ∧
    (∃ (s : State), s.m.flag F.DBG_STATUS_FROZEN = false) ∧
    (∃ (s : State), (s.m.flag F.DBG_STATUS_FROZEN = true) ∧ (s.m.get F.DBG_CAP_STAT_STATE ≠ 1)) ∧
    (∃ (s : State), (s.m.flag F.DBG_STATUS_FROZEN = true) ∧ (s.m.get F.DBG_CAP_STAT_STATE = 1)) ∧
    (∃ (s : State), s.m.get F.DBG_CAP_STAT_STATE = 1) ∧
    (∃ (s : State), s.m.get F.DBG_CAP_STAT_STATE ≠ 1) ∧
    (∃ (s : State), (s.m.get F.DBG_CAP_STAT_STATE = 1) ∧ (s.m.flag F.DBG_CAP_CTRL_DEST = true) ∧ (s.m.hostHeld = true)) ∧
    (∃ (s : State), (s.m.get F.DBG_CAP_STAT_STATE = 1) ∧ (s.m.flag F.DBG_CAP_CTRL_DEST = false)) ∧
    (∃ (s : State), (s.m.get F.DBG_CAP_STAT_STATE = 1) ∧ (s.m.flag F.DBG_CAP_CTRL_DEST = false) ∧ (s.m.get F.DBG_CAP_CTRL_CLASSES = 0) ∧
      (s.m.vaultReady 0 = true)) :=
  ⟨ ⟨F.BLF_PARENT_CAND3, st (L0), .host, by decide +kernel⟩,
    ⟨F.BLF_EVENT_TIME_FAULT, st (L0.event F.BLF_EVENT_TIME_FAULT), .head 3, by decide +kernel⟩,
    ⟨st (L0), .head 0, by decide +kernel⟩,
    ⟨F.PLN_ACT_HANDLE, st (L0.put F.PLN_ACT_HANDLE 5), by decide +kernel⟩,
    ⟨st (L0.setOn 79 true), 79, by decide +kernel⟩,
    ⟨3, 4, by decide +kernel⟩,
    ⟨0xFFFFF8#48, by decide +kernel⟩,
    ⟨.head 1, 4#48, by decide +kernel⟩,
    ⟨0xFFFFFFFFFFF8#48, by decide +kernel⟩,
    ⟨st ((((L0.put F.DBG_RB_ADDR_CLASS 2).put F.DBG_RB_ADDR_UNIT 1359).put F.DBG_RB_ADDR_OFFSET 0xFFF00).setOn 79 true |>.setCell 1359
      { store := [(0xFFFF9, 7#8)] }), 31, 1359, 0x1FFE0, by decide +kernel⟩,
    ⟨st ((((L0.put F.DBG_RB_ADDR_CLASS 2).put F.DBG_RB_ADDR_UNIT 1359).put F.DBG_RB_ADDR_OFFSET 0xFFF00).setOn 79 true |>.setCell 1359
      { st := 1, store := [(0xFFFF9, 7#8)] }), 31, 1359, 0x1FFE0, by decide +kernel⟩,
    ⟨st ((((L0.put F.DBG_RB_ADDR_CLASS 6).put F.DBG_RB_ADDR_UNIT 79).put F.DBG_RB_ADDR_OFFSET 0x2FF00).setOn 79 true), 31, 79, 0x5FE0,
      by decide +kernel⟩,
    ⟨st (((((L0.put F.DBG_RB_ADDR_CLASS 6).put F.DBG_RB_ADDR_UNIT 79).put F.DBG_RB_ADDR_OFFSET 0x2FF00).setOn 79 true).setSteward 79
      { reset := false }), 31, 79, 0x5FE0, by decide +kernel⟩,
    ⟨st (L0.put F.DBG_RB_ADDR_CLASS 0), by decide +kernel⟩,
    ⟨st (L0), by decide +kernel⟩,
    ⟨st (L0.put F.DBG_STATUS_FROZEN 1), by decide +kernel⟩,
    ⟨st ((L0.put F.DBG_STATUS_FROZEN 1).put F.DBG_CAP_STAT_STATE 1), by decide +kernel⟩,
    ⟨st (L0.put F.DBG_CAP_STAT_STATE 1), by decide +kernel⟩,
    ⟨st (L0.put F.DBG_CAP_STAT_STATE 2), by decide +kernel⟩,
    ⟨st ((L0.put F.DBG_CAP_STAT_STATE 1).put F.DBG_CAP_CTRL_DEST 1), by decide +kernel⟩,
    ⟨st (L0.put F.DBG_CAP_STAT_STATE 1), by decide +kernel⟩,
    ⟨st (((L0.put F.DBG_CAP_STAT_STATE 1).put F.DBG_CAP_CTRL_CLASSES 0).put F.VLT_STATUS_READY 1 0), by decide +kernel⟩⟩

theorem witness_BundleDecodeEncode :
    ∃ (b : Bundle), b.wf = true :=
  ⟨{ len := 8, s := some (.add, 0x04061100, none) }, by decide +kernel⟩

theorem witness_BundleEncodeDecode :
    ∃ (bytes : List (BitVec 8)) (b : Bundle), (decodeBundle bytes = .ok b) ∧ (b.len ≤ bytes.length) :=
  ⟨leBytes 4 0x80000000 ++ leBytes 4 0x04061100, { len := 8, s := some (.add, 0x04061100, none) }, ⟨rfl, by decide⟩⟩

end Sys2Proof.Tests
end

section
/-! SUPPORT. Counter groups: the registers that a SNAP latches, what their latches hold after it, and what a read returns (R13). -/
open Sys2Proof.Spec

namespace Sys2Proof.Machine

/-! ## Commands that act on the module alone -/

theorem does_of_on {c : Instr} {s : State} {f : Lanorun → Lanorun} {m : Lanorun} (he : exec c s = .next (s.on f)) (hm : f s.m = m) :
    Does c s m := hm ▸ he

theorem gives_of_on {c : Instr} {s : State} {f : Lanorun → Lanorun} {m : Lanorun} {P : Lanorun → Prop}
    (he : exec c s = .next (s.on f)) (hm : f s.m = m) (hp : P m) : Gives c s P := ⟨m, does_of_on he hm, hp⟩

/-! ## The registers of a group -/

/-- The registers of a counter group with each of their indices, in the order in which SNAP latches them. -/
def grpEntries (g : Grp) : List (Reg × Nat) :=
  ((regsOf g.blk).filter fun e => e.1.grp = some g).flatMap fun e => (List.range e.1.count).map fun j => (e.1, j)

theorem mem_grpEntries {g : Grp} {p : Reg × Nat} :
    p ∈ grpEntries g ↔ ∃ e ∈ regsOf g.blk, e.1.grp = some g ∧ p.1 = e.1 ∧ p.2 < e.1.count := by
  obtain ⟨r, j⟩ := p
  simp only [grpEntries, List.mem_flatMap, List.mem_filter, List.mem_map, List.mem_range, decide_eq_true_eq, Prod.mk.injEq]
  constructor
  · rintro ⟨e, ⟨he, hg⟩, k, hk, rfl, rfl⟩
    exact ⟨e, he, hg, rfl, hk⟩
  · rintro ⟨e, he, hg, rfl, hj⟩
    exact ⟨e, ⟨he, hg⟩, j, hj, rfl, rfl⟩

/-- A group's registers stand in its block at offsets apart, and the bits that read from the latch lie within their words. -/
theorem grpEntries_layout (g : Grp) :
    (∀ p ∈ grpEntries g, p.1.blk = g.blk ∧ p.1.latched < 2 ^ 64) ∧
    (grpEntries g).Pairwise fun p q => p.1.off + p.1.stride * p.2 ≠ q.1.off + q.1.stride * q.2 := by
  cases g <;> decide +kernel

/-- No two registers of a group share an address. -/
theorem grpEntries_addr_pairwise (g : Grp) (u : Nat) :
    (grpEntries g).Pairwise fun p q => p.1.addr u p.2 ≠ q.1.addr u q.2 := by
  obtain ⟨hb, hp⟩ := grpEntries_layout g
  refine hp.imp_of_mem fun {p q} hp hq h => ?_
  simp only [Reg.addr, (hb p hp).1, (hb q hq).1, Nat.add_assoc]
  exact fun e => h (Nat.add_left_cancel e)

/-- RGN_FSTAT, which a region's SNAP writes, stands apart from the registers it latches. -/
theorem fstat_addr_ne (u : Nat) : ∀ p ∈ grpEntries .rgn, p.1.addr u p.2 ≠ R.RGN_FSTAT.addr u 0 := by
  have hoff : ∀ p ∈ grpEntries .rgn, p.1.off + p.1.stride * p.2 ≠ 0x28 := by decide +kernel
  intro p hp
  have hb : p.1.blk = .rgn := ((grpEntries_layout .rgn).1 p hp).1
  have := hoff p hp
  change blkBase p.1.blk u + p.1.off + p.1.stride * p.2 ≠ blkBase .rgn u + 0x28 + 0x0 * 0
  rw [hb]
  omega

/-! ## Latching a list of registers -/

theorem forN_eq_foldl {σ : Type} (f : Nat → σ → σ) (i n : Nat) (s : σ) :
    forN f i n s = (List.range' i n).foldl (fun s j => f j s) s := by
  induction n generalizing i s with
  | zero => rfl
  | succ n ih => rw [forN, ih, List.range'_succ, List.foldl_cons]

/-- Latches the listed registers of block number u one after another. -/
def Lanorun.latchAll (u : Nat) (es : List (Reg × Nat)) (s : Lanorun) : Lanorun :=
  es.foldl (fun s p => s.latchOne u p.1 p.2) s

theorem snap_eq_latchAll (s : Lanorun) (g : Grp) (u : Nat) : s.snap g u = s.latchAll u (grpEntries g) := by
  unfold Lanorun.snap Lanorun.latchAll grpEntries
  induction regsOf g.blk generalizing s with
  | nil => rfl
  | cons e es ih =>
    by_cases hg : e.1.grp = some g
    · rw [List.foldl_cons, if_pos hg, ih, List.filter_cons_of_pos (by simpa using hg), List.flatMap_cons, List.foldl_append,
        forN_eq_foldl, List.foldl_map, List.range_eq_range']
    · rw [List.foldl_cons, if_neg hg, ih, List.filter_cons_of_neg (by simpa using hg)]

variable (u : Nat) (es : List (Reg × Nat)) (s : Lanorun)

/-- Latching changes the latches alone. -/
theorem latchAll_frame : s.latchAll u es = { s with latch := (s.latchAll u es).latch } := by
  induction es generalizing s with
  | nil => rfl
  | cons p es ih => exact (ih (s.latchOne u p.1 p.2)).trans rfl

theorem latchAll_latched_ne (q : Reg) (v j : Nat) (h : ∀ p ∈ es, q.addr v j ≠ p.1.addr u p.2) :
    (s.latchAll u es).latched q v j = s.latched q v j := by
  induction es generalizing s with
  | nil => rfl
  | cons p es ih =>
    obtain ⟨hp, hes⟩ := List.forall_mem_cons.1 h
    exact (ih (s.latchOne u p.1 p.2) hes).trans
      (by simp [Lanorun.latched, Lanorun.latchOne, sget_sset_ne _ _ _ _ _ _ hp])

theorem latched_latchOne (r : Reg) (j : Nat) : (s.latchOne u r j).latched r u j = s.reg r u j := by
  rw [Lanorun.latched, Lanorun.latchOne, sget_sset, if_pos rfl, BitVec.toNat_ofNat, Nat.mod_eq_of_lt (reg_lt s r u j)]

/-- Where no two of the registers share an address, each latch holds its register's live value. -/
theorem latchAll_latched_mem (hes : es.Pairwise fun p q => p.1.addr u p.2 ≠ q.1.addr u q.2) :
    ∀ p ∈ es, (s.latchAll u es).latched p.1 u p.2 = s.reg p.1 u p.2 := by
  induction es generalizing s with
  | nil => simp
  | cons q es ih =>
    obtain ⟨hq, hes⟩ := List.pairwise_cons.1 hes
    refine List.forall_mem_cons.2 ⟨?_, fun p hp => ih (s.latchOne u q.1 q.2) hes p hp⟩
    exact (latchAll_latched_ne u es (s.latchOne u q.1 q.2) q.1 u q.2 hq).trans (latched_latchOne u s q.1 q.2)

/-! ## What SNAP leaves, and what a read returns -/

theorem snap_frame (g : Grp) : s.snap g u = { s with latch := (s.snap g u).latch } := by
  rw [snap_eq_latchAll]; exact latchAll_frame u _ s

@[simp] theorem snap_regs (g : Grp) : (s.snap g u).regs = s.regs := by rw [snap_frame]

theorem snapGroup_of_ne {g : Grp} (hg : g ≠ .rgn) : s.snapGroup g u = s.snap g u := by
  simp [Lanorun.snapGroup, hg]

theorem snapGroup_frame (g : Grp) :
    s.snapGroup g u = { s with latch := (s.snapGroup g u).latch, regs := (s.snapGroup g u).regs } := by
  by_cases hg : g = .rgn
  · subst hg
    change (s.snap .rgn u).put F.RGN_FSTAT_MAX_SYNC_RC 0 u = _
    rw [snap_frame]; rfl
  · rw [snapGroup_of_ne u s hg, snap_regs]
    exact snap_frame u s g

@[simp] theorem snapGroup_latch (g : Grp) : (s.snapGroup g u).latch = (s.snap g u).latch := by
  unfold Lanorun.snapGroup; split <;> rfl

theorem snapGroup_regs_rgn : (s.snapGroup .rgn u).regs = (s.put F.RGN_FSTAT_MAX_SYNC_RC 0 u).regs := by
  change ((s.snap .rgn u).put F.RGN_FSTAT_MAX_SYNC_RC 0 u).regs = _
  rw [snap_frame]; rfl

theorem snapGroup_regs_of_ne {g : Grp} (hg : g ≠ .rgn) : (s.snapGroup g u).regs = s.regs := by
  rw [snapGroup_of_ne u s hg, snap_regs]

/-- SNAP leaves the live value of every register of its group. -/
theorem snapGroup_reg {g : Grp} {p : Reg × Nat} (hp : p ∈ grpEntries g) :
    (s.snapGroup g u).reg p.1 u p.2 = s.reg p.1 u p.2 := by
  by_cases hg : g = .rgn
  · subst hg
    rw [Lanorun.reg, snapGroup_regs_rgn]
    exact reg_put_ne s F.RGN_FSTAT_MAX_SYNC_RC p.1 0 u 0 u p.2 (fstat_addr_ne u p hp)
  · rw [Lanorun.reg, snapGroup_regs_of_ne u s hg]; rfl

/-- After a SNAP the latch of every register of its group holds the live value. -/
theorem snapGroup_latched {g : Grp} {p : Reg × Nat} (hp : p ∈ grpEntries g) :
    (s.snapGroup g u).latched p.1 u p.2 = s.reg p.1 u p.2 := by
  rw [Lanorun.latched, snapGroup_latch, snap_eq_latchAll]
  exact latchAll_latched_mem u _ s (grpEntries_addr_pairwise g u) p hp

/-- SNAP leaves the latches at other addresses than its group's. -/
theorem snapGroup_latched_ne (g : Grp) (q : Reg) (v j : Nat) (h : ∀ p ∈ grpEntries g, q.addr v j ≠ p.1.addr u p.2) :
    (s.snapGroup g u).latched q v j = s.latched q v j := by
  rw [Lanorun.latched, snapGroup_latch, snap_eq_latchAll]
  exact latchAll_latched_ne u _ s q v j h

/-- A read shows the latch on the latched bits. -/
theorem regRead_and_latched (r : Reg) (j : Nat) : s.regRead r u j &&& r.latched = s.latched r u j &&& r.latched := by
  have hdisj : (2 ^ 64 - 1 - r.latched) &&& r.latched = 0 := by
    by_cases hl : r.latched < 2 ^ 64
    · refine Nat.eq_of_testBit_eq fun k => ?_
      have e : 2 ^ 64 - 1 - r.latched = 2 ^ 64 - (r.latched + 1) := by omega
      rw [e, Nat.testBit_and, Nat.testBit_two_pow_sub_succ hl]
      cases r.latched.testBit k <;> simp
    · have e : 2 ^ 64 - 1 - r.latched = 0 := by omega
      rw [e, Nat.zero_and]
  rw [Lanorun.regRead, Nat.and_or_distrib_right, Nat.and_assoc, hdisj, Nat.and_zero, Nat.zero_or, Nat.and_assoc, Nat.and_self]

/-- Where latch and live value agree, a read returns that value. -/
theorem regRead_eq_reg {r : Reg} {j : Nat} (hl : r.latched < 2 ^ 64) (h : s.latched r u j = s.reg r u j) :
    s.regRead r u j = s.reg r u j := by
  refine Nat.eq_of_testBit_eq fun k => ?_
  have e : 2 ^ 64 - 1 - r.latched = 2 ^ 64 - (r.latched + 1) := by omega
  rw [Lanorun.regRead, h, e, Nat.testBit_or, Nat.testBit_and, Nat.testBit_and, Nat.testBit_two_pow_sub_succ hl]
  by_cases hk : k < 64
  · cases r.latched.testBit k <;> simp [hk]
  · have : (s.reg r u j).testBit k = false :=
      Nat.testBit_lt_two_pow
        (Nat.lt_of_lt_of_le (reg_lt s r u j) (Nat.pow_le_pow_right (by decide) (Nat.le_of_not_lt hk)))
    simp [this]

/-- A write of 1 to SNAP where the register answers snaps the register's group. -/
theorem snapAt_of_answers {a i : Nat} {r : Reg} {fs : List Fld} {g : Grp} (hf : findReg a = some (r, fs, u, i))
    (hg : snapGrp r = some g) (ha : s.answers r u = true) : s.snapAt a = s.snapGroup g u := by
  simp [Lanorun.snapAt, hf, hg, ha]

end Sys2Proof.Machine

namespace Sys2Proof.Proofs
open Sys2Proof.Machine

/-- Settles O11: SNAP is a run of latches at distinct addresses, none of which is RGN_FSTAT. -/
theorem snapLatchesGroup : Obligations.SnapLatchesGroup := by
  refine ⟨fun s a r fs u i g hf hg ha => gives_of_on (exec_counterSnap a s) (snapAt_of_answers u s.m hf hg ha)
    ⟨snapGroup_frame u s.m g, ?_, fun hne => snapGroup_regs_of_ne u s.m hne, fun e he heg j hj => ?_, fun q v j h => ?_⟩,
    fun m q u j hm hq => ?_⟩
  · rintro rfl; exact snapGroup_regs_rgn u s.m
  · have hp : (e.1, j) ∈ grpEntries g := mem_grpEntries.2 ⟨e, he, heg, rfl, hj⟩
    have hreg := snapGroup_reg u s.m hp
    have hlat := snapGroup_latched u s.m hp
    refine ⟨(regRead_eq_reg u _ ((grpEntries_layout g).1 _ hp).2 (hlat.trans hreg.symm)).trans hreg, fun n hn => ?_⟩
    rw [regRead_and_latched, ← hlat, Lanorun.latched, Lanorun.latched, hn]
  · refine snapGroup_latched_ne u s.m g q v j fun p hp => ?_
    obtain ⟨e, he, heg, hr, hk⟩ := mem_grpEntries.1 hp
    rw [hr]; exact h e he heg p.2 hk
  · rw [regRead_and_latched, Lanorun.latched, hm]
    exact congrArg (· &&& q.latched) (Nat.mod_eq_of_lt hq)

end Sys2Proof.Proofs
end

section
/-! SUPPORT. Writes of the control space: a field after a write by its access code, the register that an address reaches, and the
writes that a requester may not make (R9, R10, R12, R23, R251, R438). -/
open Sys2Proof.Spec

namespace Sys2Proof.Machine

/-! ## Access codes -/

/-- What a field that reads o holds after v is written to it, by its access code (R9). -/
def Fld.next (f : Fld) (locked : Bool) (o v : Nat) : Nat :=
  match f.acc with
  | .ro | .wo => o
  | .rw => v
  | .rwl => if locked then o else v
  | .w1c => o &&& (2 ^ (f.hi - f.lo + 1) - 1 - v)
  | .w1s => o ||| v

/-- The fields lie inside the word, and no two of them share a bit. -/
abbrev FieldsOk (fs : List Fld) : Prop :=
  (∀ f ∈ fs, f.ok) ∧ fs.Pairwise fun f g => g.hi < f.lo ∨ f.hi < g.lo

/-- The fields of a register, as its block's table lists them. -/
def Reg.fields (r : Reg) : List Fld := ((regsOf r.blk).lookup r).getD []

theorem bitsOf_writeFld (l : Bool) (w v : Nat) {f : Fld} (h : f.ok) :
    bitsOf (writeFld l w v f) f.hi f.lo = f.next l (bitsOf w f.hi f.lo) (bitsOf v f.hi f.lo) := by
  have hset : ∀ x, x < 2 ^ (f.hi - f.lo + 1) → bitsOf (setBits w f.hi f.lo x) f.hi f.lo = x := fun x hx => by
    rw [bitsOf_setBits h.1, Nat.mod_eq_of_lt hx]
  have ho := bitsOf_lt w f.hi f.lo
  have hv := bitsOf_lt v f.hi f.lo
  cases ha : f.acc <;> simp only [writeFld, Fld.next, ha]
  case rw => exact hset _ hv
  case rwl => cases l <;> simp [hset _ hv]
  case w1c => exact hset _ (Nat.lt_of_le_of_lt Nat.and_le_left ho)
  case w1s => exact hset _ (Nat.or_lt_two_pow ho hv)

theorem bitsOf_writeFld_apart (l : Bool) (w v : Nat) {f g : Fld} (hf : f.ok) (hg : g.ok) (h : g.hi < f.lo ∨ f.hi < g.lo) :
    bitsOf (writeFld l w v f) g.hi g.lo = bitsOf w g.hi g.lo := by
  have hset : ∀ x, bitsOf (setBits w f.hi f.lo x) g.hi g.lo = bitsOf w g.hi g.lo := fun x => bitsOf_setBits_apart hf.1 h hg.1
  cases ha : f.acc <;> simp only [writeFld, ha, hset]
  case rwl => cases l <;> simp [hset]

theorem writeFld_lt (l : Bool) {w : Nat} (v : Nat) {f : Fld} (h : f.ok) (hw : w < 2 ^ 64) : writeFld l w v f < 2 ^ 64 := by
  have hset : ∀ x, setBits w f.hi f.lo x < 2 ^ 64 := fun x => setBits_lt h.1 h.2 hw
  cases ha : f.acc <;> simp only [writeFld, ha, hset, hw]
  case rwl => cases l <;> simp only [hset, hw, if_true, if_false, Bool.false_eq_true]

theorem foldl_writeFld_lt (l : Bool) (v : Nat) {fs : List Fld} (h : ∀ f ∈ fs, f.ok) {w : Nat} (hw : w < 2 ^ 64) :
    fs.foldl (fun w f => writeFld l w v f) w < 2 ^ 64 := by
  induction fs generalizing w with
  | nil => exact hw
  | cons f fs ih =>
    obtain ⟨hf, hfs⟩ := List.forall_mem_cons.1 h
    exact ih hfs (writeFld_lt l v hf hw)

/-- Writing further fields apart from g leaves g. -/
theorem bitsOf_foldl_writeFld_apart (l : Bool) (v : Nat) {fs : List Fld} {g : Fld} (hg : g.ok)
    (h : ∀ f ∈ fs, f.ok ∧ (g.hi < f.lo ∨ f.hi < g.lo)) (w : Nat) :
    bitsOf (fs.foldl (fun w f => writeFld l w v f) w) g.hi g.lo = bitsOf w g.hi g.lo := by
  induction fs generalizing w with
  | nil => rfl
  | cons f fs ih =>
    obtain ⟨⟨hf, ha⟩, hfs⟩ := List.forall_mem_cons.1 h
    exact (ih hfs _).trans (bitsOf_writeFld_apart l w v hf hg ha)

/-- Each field of a register takes what its own access code gives. -/
theorem bitsOf_foldl_writeFld (l : Bool) (v : Nat) {fs : List Fld} (h : FieldsOk fs) {g : Fld} (hg : g ∈ fs) (w : Nat) :
    bitsOf (fs.foldl (fun w f => writeFld l w v f) w) g.hi g.lo = g.next l (bitsOf w g.hi g.lo) (bitsOf v g.hi g.lo) := by
  induction fs generalizing w with
  | nil => cases hg
  | cons f fs ih =>
    obtain ⟨hf, hfs⟩ := List.forall_mem_cons.1 h.1
    obtain ⟨ha, has⟩ := List.pairwise_cons.1 h.2
    rw [List.foldl_cons]
    rcases List.mem_cons.1 hg with rfl | hg
    · rw [bitsOf_foldl_writeFld_apart l v hf fun f' hf' => ⟨hfs f' hf', (ha f' hf').symm⟩, bitsOf_writeFld l w v hf]
    · rw [ih ⟨hfs, has⟩ hg, bitsOf_writeFld_apart l w v hf (hfs g hg) (ha g hg)]

/-- A field after a write of its register. -/
theorem get_regWrite (s : Lanorun) {fs : List Fld} (h : FieldsOk fs) {f : Fld} (hf : f ∈ fs) (v u i : Nat) :
    (s.regWrite f.reg fs v u i).get f u i = f.next s.planActive (s.get f u i) (bitsOf v f.hi f.lo) := by
  rw [Lanorun.get, Lanorun.regWrite, reg_setReg_same, Nat.mod_eq_of_lt (foldl_writeFld_lt _ v h.1 (reg_lt ..)),
    bitsOf_foldl_writeFld _ v h hf]
  rfl

theorem plain_of_not_errCounter (s : Lanorun) {r : Reg} {fs : List Fld} (h : isErrCounter fs = false) (v u i : Nat) :
    s.plain r fs v u i = s.regWrite r fs v u i := by
  simp [Lanorun.plain, h]

theorem bitsOf_single (w k : Nat) : bitsOf w k k = (w.testBit k).toNat := by
  rw [bitsOf, Nat.sub_self, Nat.testBit_eq_decide_div_mod_eq, Nat.shiftRight_eq_div_pow]
  rcases Nat.mod_two_eq_zero_or_one (w / 2 ^ k) with h | h <;> simp [h]

/-! ## What a write amounts to -/

/-- The written word loses the bits that hardware sets in its cycle: W1C bits that are set. -/
theorem writeValue_of_target {s : Lanorun} {a : Nat} {r : Reg} {fs : List Fld} {u i : Nat} (ht : s.target a = .reg r fs u i)
    (v e : Nat) : s.writeValue a v e = v &&& (2 ^ 64 - 1 - (s.reg r u i &&& e &&& w1cMask fs)) := by
  simp [Lanorun.writeValue, ht]

theorem writeValue_lt {s : Lanorun} {a : Nat} {r : Reg} {fs : List Fld} {u i : Nat} (ht : s.target a = .reg r fs u i)
    {v : Nat} (e : Nat) (hv : v < 2 ^ 64) : s.writeValue a v e < 2 ^ 64 := by
  rw [writeValue_of_target ht]; exact Nat.lt_of_le_of_lt Nat.and_le_left hv

/-- Where the register has no W1C field the word is written as it is. -/
theorem writeValue_of_no_w1c {s : Lanorun} {a : Nat} {r : Reg} {fs : List Fld} {u i : Nat} (ht : s.target a = .reg r fs u i)
    (hm : w1cMask fs = 0) {v : Nat} (e : Nat) (hv : v < 2 ^ 64) : s.writeValue a v e = v := by
  rw [writeValue_of_target ht, hm, Nat.and_zero, Nat.sub_zero, Nat.and_two_pow_sub_one_of_lt_two_pow hv]

theorem testBit_writeValue {s : Lanorun} {a : Nat} {r : Reg} {fs : List Fld} {u i : Nat} (ht : s.target a = .reg r fs u i)
    {k : Nat} (hk : k < 64) (hm : (w1cMask fs).testBit k = true) (v e : Nat) :
    (s.writeValue a v e).testBit k = (v.testBit k && !((s.reg r u i).testBit k && e.testBit k)) := by
  have hlt : s.reg r u i &&& e &&& w1cMask fs < 2 ^ 64 := by
    rw [Nat.and_assoc]; exact Nat.lt_of_le_of_lt Nat.and_le_left (reg_lt s r u i)
  have e1 : 2 ^ 64 - 1 - (s.reg r u i &&& e &&& w1cMask fs) = 2 ^ 64 - ((s.reg r u i &&& e &&& w1cMask fs) + 1) := by omega
  rw [writeValue_of_target ht, e1, Nat.testBit_and, Nat.testBit_two_pow_sub_succ hlt]
  simp [hk, hm]

/-! ## Writes that arrive and writes that do not -/

/-- A register outside the CEL_ windows, the gated peripherals and the firmware's windows, in a domain that is on, is reached. -/
theorem target_of_on {s : Lanorun} {a : Nat} {b : Blk} {r : Reg} {fs : List Fld} {u o i : Nat}
    (hb : findBlock a = some (b, u, o)) (he : findEntry (regsOf b) o = some (r, fs, i)) (hd : s.isOn (blkDomain b u) = true)
    (hw : b ≠ .cel ∧ gateBit b o = none ∧ ¬ (b = .kep ∧ 0x8000 ≤ o ∧ o < 0xC000 ∨ b = .mod ∧ 0x800 ≤ o ∧ o < 0x1000) ∧
      onlyFirst r = false) : s.target a = .reg r fs u i := by
  obtain ⟨hc, hg, hf, ho⟩ := hw
  simp only [Lanorun.target, hb, he, hd, hg, hf, ho, hc, false_and, if_false, not_true, Bool.false_eq_true]

/-- An access that does not pass the steward bridge after its rule was broken, to an address that the requester may write and that
reaches a register, writes that register. -/
theorem does_regWrite_of_target {s : State} {who : Requester} {a : Nat} {r : Reg} {fs : List Fld} {u i : Nat} (ha : a < 2 ^ 48)
    (h8 : a % 8 = 0) (hw : mayWrite who a = true) (hb : s.m.bridgeBad who = false) (ht : s.m.target a = .reg r fs u i) (v e : Word) :
    Does (.regWrite who (BitVec.ofNat 48 a) ⟨v, e⟩) s (s.m.writeReg who r fs (s.m.writeValue a v.toNat e.toNat) u i) := by
  have hc : s.m.ctrlWrite who a (s.m.writeValue a v.toNat e.toNat) =
      some (s.m.writeReg who r fs (s.m.writeValue a v.toNat e.toNat) u i) := by
    simp only [Lanorun.ctrlWrite, h8, hw, hb, Lanorun.writeAt, ht, Nat.mod_eq_of_lt (writeValue_lt ht e.toNat v.isLt)]
    rfl
  refine does_of_on (exec_regWrite who _ ⟨v, e⟩ s) ?_
  simp only [Lanorun.regWriteBy, BitVec.toNat_ofNat, Nat.mod_eq_of_lt ha, Nat.mod_eq_of_lt v.isLt, hc]

/-- A misaligned or unmapped address, or one that the requester may not write, is a bus error. -/
theorem ctrlWrite_eq_none {s : Lanorun} {who : Requester} {a : Nat}
    (h : a % 8 ≠ 0 ∨ findBlock a = none ∨ mayWrite who a = false) (v : Nat) : s.ctrlWrite who a v = none := by
  by_cases hc : a % 8 ≠ 0 ∨ mayWrite who a = false
  · simp only [Lanorun.ctrlWrite, hc, if_true]
  · have hn : findBlock a = none := by
      rcases h with h8 | h | hw
      · exact absurd (.inl h8) hc
      · exact h
      · exact absurd (.inr hw) hc
    have ht : s.target a = .error := by simp only [Lanorun.target, hn]
    simp only [Lanorun.ctrlWrite, if_neg hc, Lanorun.writeAt, ht, ite_self]

/-- A bus error is shown where it is the host's, and has no other effect. -/
theorem does_regWrite_busErr {s : State} {who : Requester} {a : BitVec 48}
    (h : a.toNat % 8 ≠ 0 ∨ findBlock a.toNat = none ∨ mayWrite who a.toNat = false) (v e : Word) :
    Does (.regWrite who a ⟨v, e⟩) s (if fromHost who then s.m.hostBusErr false a.toNat else s.m) := by
  refine does_of_on (exec_regWrite who a ⟨v, e⟩ s) ?_
  simp only [Lanorun.regWriteBy, ctrlWrite_eq_none h]

theorem bridgeBad_of_ruleKept {s : Lanorun} (h : s.power.ruleKept = true) (who : Requester) : s.bridgeBad who = false := by
  simp [Lanorun.bridgeBad, h]

theorem mayWrite_of_not_block {who : Requester} (h : ∀ n, who ≠ .block n) (a : Nat) : mayWrite who a = true := by
  cases who with
  | block n => exact absurd rfl (h n)
  | head _ | host | jtag => rfl

/-- No block's or cell's window lies below 0x1000000 (R21, R22). -/
theorem findBlock_below {a : Nat} (h : a < 0x1000000) {b : Blk} {u o : Nat} (hf : findBlock a = some (b, u, o)) :
    b ≠ .blk ∧ b ≠ .cel := by
  have hn : ¬ (0x1000000 ≤ a ∧ a < 0x2000000) := by omega
  unfold findBlock at hf
  rw [if_neg hn] at hf
  repeat' split at hf
  all_goals cases hf
  all_goals exact ⟨nofun, nofun⟩

theorem mayWrite_block_below {a : Nat} (h : a < 0x1000000) (n : Nat) : mayWrite (.block n) a = false := by
  unfold mayWrite
  split
  case h_1 _ _ _ _ hf => exact absurd rfl (findBlock_below h hf).1
  case h_2 _ _ _ _ hf => exact absurd rfl (findBlock_below h hf).2
  case h_3 => rfl
  case h_4 hne _ _ => exact (hne n rfl).elim

theorem mayWrite_block_blk {a u o : Nat} (hf : findBlock a = some (.blk, u, o)) (n : Nat) : mayWrite (.block n) a = (u == n) := by
  simp only [mayWrite, hf]

/-! ## Registers without an effect beyond their fields' access codes -/

/-- Registers of the blocks that are always on, whose write is that of their fields and nothing else. -/
def plainRegs : List Reg :=
  [R.BLF_PARENT, R.BLF_EPOCH_TAI, R.BLF_EVENT, R.BLF_STATUS, R.KEP_EVENT, R.PLN_EVENT, R.PLN_ACT, R.PWR_ENV]

/-- Those, with BLF_LIMITS, whose write judges the error bound again, and DBG_CTRL, whose write may SNAP. -/
def alwaysOnRegs : List Reg := R.BLF_LIMITS :: R.DBG_CTRL :: plainRegs

theorem alwaysOnRegs_layout : ∀ r ∈ alwaysOnRegs,
    r.addr 0 0 < 2 ^ 48 ∧ r.addr 0 0 % 8 = 0 ∧ FieldsOk r.fields ∧ isErrCounter r.fields = false := by decide +kernel

theorem alwaysOnRegs_entry : ∀ r ∈ alwaysOnRegs,
    findBlock (r.addr 0 0) = some (r.blk, 0, r.off) ∧ findEntry (regsOf r.blk) r.off = some (r, r.fields, 0) ∧
    blkDomain r.blk 0 = 111 ∧ r.blk ≠ .cel ∧ gateBit r.blk r.off = none ∧
    ¬ (r.blk = .kep ∧ 0x8000 ≤ r.off ∧ r.off < 0xC000 ∨ r.blk = .mod ∧ 0x800 ≤ r.off ∧ r.off < 0x1000) ∧
    onlyFirst r = false := by decide +kernel

theorem alwaysOnRegs_target (s : Lanorun) {r : Reg} (hr : r ∈ alwaysOnRegs) :
    s.target (r.addr 0 0) = .reg r r.fields 0 0 := by
  obtain ⟨hb, he, hd, hw⟩ := alwaysOnRegs_entry r hr
  exact target_of_on hb he (by rw [hd]; rfl) hw

section
variable (s : Lanorun) (who : Requester) {r : Reg} (fs : List Fld) (v u i : Nat)

theorem blfWrite_plain (h : r ≠ R.BLF_CMD_TICK ∧ r ≠ R.BLF_CMD_CTRL ∧ r ≠ R.BLF_CTRL ∧ r ≠ R.BLF_LIMITS) :
    s.blfWrite r fs v u i = s.plain r fs v u i := by
  simp only [Lanorun.blfWrite, h, if_false]

theorem blfWrite_limits :
    s.blfWrite R.BLF_LIMITS fs v u i =
      (s.plain R.BLF_LIMITS fs v u i).setBound (s.plain R.BLF_LIMITS fs v u i).hall.bound := by
  have h : R.BLF_LIMITS ≠ R.BLF_CMD_TICK ∧ R.BLF_LIMITS ≠ R.BLF_CMD_CTRL ∧ R.BLF_LIMITS ≠ R.BLF_CTRL := by decide
  simp only [Lanorun.blfWrite, h, if_false, if_true]

theorem plnWrite_plain (h : r ≠ R.PLN_CTRL) : s.plnWrite r fs v u i = s.plain r fs v u i := by
  simp only [Lanorun.plnWrite, h, if_false]

theorem kepWrite_plain (h : r ≠ R.KEP_RTC ∧ r ≠ R.KEP_CHAIN ∧ r ≠ R.KEP_CTRL) :
    s.kepWrite r fs v u i = s.plain r fs v u i := by
  simp only [Lanorun.kepWrite, h, if_false]

theorem pwrWrite_plain (h : r ≠ R.PWR_CLKEN ∧ r ≠ R.PWR_CPCLK ∧ r ≠ R.PWR_CTRL ∧ r ≠ R.PWR_EVENT ∧ r ≠ R.PWR_PD_CTRL ∧
    r ≠ R.PWR_CMU_CTRL) : s.pwrWrite r fs v u i = s.plain r fs v u i := by
  simp only [Lanorun.pwrWrite, h, if_false, false_and]

/-- A write of one of these registers has no effect beyond its fields' access codes. -/
theorem plainRegs_writeReg : ∀ r ∈ plainRegs, s.writeReg who r fs v u i = s.plain r fs v u i := by
  simp only [plainRegs, List.forall_mem_cons, List.not_mem_nil, false_imp_iff, implies_true, and_true]
  exact ⟨blfWrite_plain s fs v u i (by decide), blfWrite_plain s fs v u i (by decide), blfWrite_plain s fs v u i (by decide),
    blfWrite_plain s fs v u i (by decide), kepWrite_plain s fs v u i (by decide),
    plnWrite_plain (r := R.PLN_EVENT) s fs v u i (by decide), plnWrite_plain (r := R.PLN_ACT) s fs v u i (by decide),
    pwrWrite_plain s fs v u i (by decide)⟩

end

/-- A write by who may, not over a bridge whose rule was broken, is the write of the register. -/
theorem does_regWrite_alwaysOn {s : State} {who : Requester} {r : Reg} (hr : r ∈ alwaysOnRegs)
    (hb : s.m.bridgeBad who = false) (hw : mayWrite who (r.addr 0 0) = true) (v e : Word) :
    Does (.regWrite who (BitVec.ofNat 48 (r.addr 0 0)) ⟨v, e⟩) s
      (s.m.writeReg who r r.fields (s.m.writeValue (r.addr 0 0) v.toNat e.toNat) 0 0) := by
  obtain ⟨ha, h8, -, -⟩ := alwaysOnRegs_layout r hr
  exact does_regWrite_of_target ha h8 hw hb (alwaysOnRegs_target s.m hr) v e

theorem mem_alwaysOnRegs {r : Reg} (hr : r ∈ plainRegs) : r ∈ alwaysOnRegs :=
  List.mem_cons_of_mem _ (List.mem_cons_of_mem _ hr)

theorem plain_alwaysOn (s : Lanorun) {r : Reg} (hr : r ∈ alwaysOnRegs) (v u i : Nat) :
    s.plain r r.fields v u i = s.regWrite r r.fields v u i := by
  obtain ⟨-, -, -, he⟩ := alwaysOnRegs_layout r hr
  exact plain_of_not_errCounter s he v u i

/-- A write of one of these registers, by who may, changes its own word alone: each field by its access code. -/
theorem does_regWrite_plain {s : State} {who : Requester} {r : Reg} (hr : r ∈ plainRegs) (hk : s.m.power.ruleKept = true)
    (hw : mayWrite who (r.addr 0 0) = true) (v e : Word) :
    Does (.regWrite who (BitVec.ofNat 48 (r.addr 0 0)) ⟨v, e⟩) s
      (s.m.regWrite r r.fields (s.m.writeValue (r.addr 0 0) v.toNat e.toNat) 0 0) := by
  have h := does_regWrite_alwaysOn (mem_alwaysOnRegs hr) (bridgeBad_of_ruleKept hk who) hw v e
  rwa [plainRegs_writeReg s.m who _ _ _ _ r hr, plain_alwaysOn s.m (mem_alwaysOnRegs hr)] at h

theorem get_regWrite_alwaysOn (s : Lanorun) {f : Fld} (hr : f.reg ∈ alwaysOnRegs)
    (hf : f ∈ f.reg.fields) (v : Nat) :
    (s.regWrite f.reg f.reg.fields v 0 0).get f = f.next s.planActive (s.get f) (bitsOf v f.hi f.lo) := by
  obtain ⟨-, -, hfs, -⟩ := alwaysOnRegs_layout f.reg hr
  exact get_regWrite s hfs hf v 0 0

theorem get_setBound (s : Lanorun) (b : Nat) {f : Fld} (u i : Nat) (h : f.reg.addr u i ≠ R.BLF_STATUS.addr 0 0) :
    (s.setBound b).get f u i = s.get f u i :=
  get_put_ne (s.setHall fun x => { x with bound := min b 0xFFFF }) F.BLF_STATUS_BOUND_OK f _ 0 0 u i h

/-- RWL: the written bits, or the old ones under an active plan. -/
theorem gives_regWrite_rwl {s : State} {who : Requester} {f : Fld} (hr : f.reg ∈ plainRegs ∨ f.reg = R.BLF_LIMITS)
    (hf : f ∈ f.reg.fields) (hacc : f.acc = .rwl) (hm : w1cMask f.reg.fields = 0) (hk : s.m.power.ruleKept = true)
    (hw : mayWrite who (f.reg.addr 0 0) = true) (v e : Word) :
    Gives (.regWrite who (BitVec.ofNat 48 (f.reg.addr 0 0)) ⟨v, e⟩) s fun m => m = { s.m with regs := m.regs, hall := m.hall } ∧
      m.get f = if s.m.planActive then s.m.get f else bitsOf v.toNat f.hi f.lo := by
  have hr' : f.reg ∈ alwaysOnRegs := hr.elim mem_alwaysOnRegs fun h => h ▸ List.mem_cons_self
  have hv : s.m.writeValue (f.reg.addr 0 0) v.toNat e.toNat = v.toNat :=
    writeValue_of_no_w1c (alwaysOnRegs_target s.m hr') hm e.toNat v.isLt
  have hget : (s.m.regWrite f.reg f.reg.fields v.toNat 0 0).get f =
      if s.m.planActive then s.m.get f else bitsOf v.toNat f.hi f.lo := by
    rw [get_regWrite_alwaysOn s.m hr' hf, Fld.next, hacc]
  rcases hr with hp | hl
  · have h := does_regWrite_plain hp hk hw v e
    rw [hv] at h
    exact ⟨_, h, rfl, hget⟩
  · have h := does_regWrite_alwaysOn hr' (bridgeBad_of_ruleKept hk who) hw v e
    have hwr : s.m.writeReg who f.reg f.reg.fields v.toNat 0 0 =
        (s.m.regWrite f.reg f.reg.fields v.toNat 0 0).setBound s.m.hall.bound := by
      rw [← plain_alwaysOn s.m hr', hl]
      exact blfWrite_limits s.m _ _ 0 0
    rw [hv, hwr] at h
    have hne : f.reg.addr 0 0 ≠ R.BLF_STATUS.addr 0 0 := by rw [hl]; decide
    exact ⟨_, h, rfl, (get_setBound _ _ 0 0 hne).trans hget⟩

/-- W1C: a bit written 1 is cleared, unless hardware sets it in the same cycle. -/
theorem gives_regWrite_w1c {s : State} {who : Requester} {f : Fld} (hr : f.reg ∈ plainRegs) (hf : f ∈ f.reg.fields)
    (hacc : f.acc = .w1c) (h1 : f.hi = f.lo) (hlt : f.lo < 64) (hm : (w1cMask f.reg.fields).testBit f.lo = true)
    (hk : s.m.power.ruleKept = true) (hw : mayWrite who (f.reg.addr 0 0) = true) (v e : Word) :
    Gives (.regWrite who (BitVec.ofNat 48 (f.reg.addr 0 0)) ⟨v, e⟩) s fun m => m = { s.m with regs := m.regs } ∧
      m.flag f = (s.m.flag f && (!v.toNat.testBit f.lo || e.toNat.testBit f.lo)) := by
  refine ⟨_, does_regWrite_plain hr hk hw v e, rfl, ?_⟩
  rw [Lanorun.flag, Lanorun.flag, get_regWrite_alwaysOn s.m (mem_alwaysOnRegs hr) hf, Fld.next, hacc, Lanorun.get, h1, bitsOf_single,
    bitsOf_single, testBit_writeValue (alwaysOnRegs_target s.m (mem_alwaysOnRegs hr)) hlt hm, Nat.sub_self]
  dsimp only
  generalize (s.m.reg f.reg).testBit f.lo = o
  generalize v.toNat.testBit f.lo = n
  generalize e.toNat.testBit f.lo = x
  revert o n x
  decide

/-- RO: a write leaves the value, whoever writes it. -/
theorem gives_regWrite_ro {s : State} {f : Fld} (hr : f.reg ∈ plainRegs) (hf : f ∈ f.reg.fields) (hacc : f.acc = .ro)
    (hk : s.m.power.ruleKept = true) (who : Requester) (v e : Word) :
    Gives (.regWrite who (BitVec.ofNat 48 (f.reg.addr 0 0)) ⟨v, e⟩) s fun m => m.get f = s.m.get f := by
  cases hw : mayWrite who (f.reg.addr 0 0) with
  | true =>
    have hget := get_regWrite_alwaysOn s.m (mem_alwaysOnRegs hr) hf (s.m.writeValue (f.reg.addr 0 0) v.toNat e.toNat)
    rw [Fld.next, hacc] at hget
    exact ⟨_, does_regWrite_plain hr hk hw v e, hget⟩
  | false =>
    have ha : (BitVec.ofNat 48 (f.reg.addr 0 0)).toNat = f.reg.addr 0 0 := by
      rw [BitVec.toNat_ofNat, Nat.mod_eq_of_lt (alwaysOnRegs_layout _ (mem_alwaysOnRegs hr)).1]
    have hh : fromHost who = false := by
      cases who with
      | host => exact absurd hw (by simp [mayWrite_of_not_block])
      | _ => rfl
    refine ⟨_, does_regWrite_busErr (.inr (.inr (by rw [ha, hw]))) v e, ?_⟩
    rw [hh]; rfl

/-- RW: the written bits. -/
theorem gives_regWrite_rw {s : State} {who : Requester} {f : Fld} (hr : f.reg ∈ plainRegs) (hf : f ∈ f.reg.fields)
    (hacc : f.acc = .rw) (hm : w1cMask f.reg.fields = 0) (hk : s.m.power.ruleKept = true)
    (hw : mayWrite who (f.reg.addr 0 0) = true) (v e : Word) :
    Gives (.regWrite who (BitVec.ofNat 48 (f.reg.addr 0 0)) ⟨v, e⟩) s fun m => m.get f = bitsOf v.toNat f.hi f.lo := by
  have hget := get_regWrite_alwaysOn s.m (mem_alwaysOnRegs hr) hf v.toNat
  have hd := does_regWrite_plain hr hk hw v e
  rw [Fld.next, hacc] at hget
  rw [writeValue_of_no_w1c (alwaysOnRegs_target s.m (mem_alwaysOnRegs hr)) hm e.toNat v.isLt] at hd
  exact ⟨_, hd, hget⟩

/-! ## JTAG_LOCK, a block's own registers, and bus errors -/

theorem writeReg_dbgCtrl (s : Lanorun) (who : Requester) (fs : List Fld) (v : Nat) :
    s.writeReg who R.DBG_CTRL fs v 0 0 = (s.plain R.DBG_CTRL fs v 0 0).snapBy R.DBG_CTRL 0 v := by
  have h : R.DBG_CTRL ≠ R.DBG_STATUS := by decide
  change s.dbgWrite who R.DBG_CTRL fs v 0 0 = _
  simp only [Lanorun.dbgWrite, h, if_false, if_true]

/-- The SNAP of a group other than a region's leaves the registers. -/
theorem snapBy_regs (s : Lanorun) {r : Reg} (h : snapGrp r ≠ some .rgn) (u v : Nat) : (s.snapBy r u v).regs = s.regs := by
  unfold Lanorun.snapBy
  split
  · next g hg =>
    split
    · exact snapGroup_regs_of_ne u s fun hr => h (hr ▸ hg)
    · rfl
  · rfl

theorem flag_congr_regs {s t : Lanorun} (h : t.regs = s.regs) (f : Fld) (u i : Nat) : t.flag f u i = s.flag f u i := by
  rw [Lanorun.flag, Lanorun.get, Lanorun.reg, h]; rfl

/-- W1S: JTAG locks itself out, and nothing unlocks. -/
theorem gives_regWrite_jtagLock (s : State) (v e : Word) :
    Gives (.regWrite .jtag (BitVec.ofNat 48 (R.DBG_CTRL.addr 0 0)) ⟨v, e⟩) s fun m =>
      m.flag F.DBG_CTRL_JTAG_LOCK = (s.m.flag F.DBG_CTRL_JTAG_LOCK || v.toNat.testBit 2) := by
  have hr : R.DBG_CTRL ∈ alwaysOnRegs := by decide
  have hb : s.m.bridgeBad .jtag = false := Bool.and_false _
  have hd := does_regWrite_alwaysOn hr hb rfl v e
  rw [writeValue_of_no_w1c (alwaysOnRegs_target s.m hr) (by decide) e.toNat v.isLt, writeReg_dbgCtrl, plain_alwaysOn s.m hr] at hd
  have hget := get_regWrite_alwaysOn s.m (f := F.DBG_CTRL_JTAG_LOCK) hr (by decide) v.toNat
  refine ⟨_, hd, (flag_congr_regs (snapBy_regs _ (by decide) 0 _) F.DBG_CTRL_JTAG_LOCK 0 0).trans
    ((congrArg (· == 1) hget).trans ?_)⟩
  change (bitsOf (s.m.reg R.DBG_CTRL) 2 2 ||| bitsOf v.toNat 2 2 == 1) = (bitsOf (s.m.reg R.DBG_CTRL) 2 2 == 1 || _)
  rw [bitsOf_single, bitsOf_single]
  generalize (s.m.reg R.DBG_CTRL).testBit 2 = o
  generalize v.toNat.testBit 2 = n
  revert o n
  decide

theorem findBlock_stwWdog : ∀ n : BlockIx, findBlock (R.BLK_STW_WDOG.addr n 0) = some (.blk, n.val, 8) ∧
    R.BLK_STW_WDOG.addr n 0 < 2 ^ 48 ∧ R.BLK_STW_WDOG.addr n 0 % 8 = 0 := by decide +kernel

theorem toNat_stwWdog (n : BlockIx) : (BitVec.ofNat 48 (R.BLK_STW_WDOG.addr n 0)).toNat = R.BLK_STW_WDOG.addr n 0 := by
  rw [BitVec.toNat_ofNat, Nat.mod_eq_of_lt (findBlock_stwWdog n).2.1]

theorem get_limit_wdogKick (s : Lanorun) (n : Nat) :
    (s.wdogKick n).get F.BLK_STW_WDOG_LIMIT n = s.get F.BLK_STW_WDOG_LIMIT n := by
  unfold Lanorun.wdogKick
  split
  · rw [Lanorun.setSteward_at_get]
    exact get_put_apart s F.BLK_STW_WDOG_EXPIRED F.BLK_STW_WDOG_LIMIT 0 n 0 (by decide) (by decide) rfl (by decide)
  · rfl

/-- A block steward sets its own watchdog's limit. -/
theorem gives_regWrite_wdogLimit {s : State} {n : BlockIx} (hk : s.m.power.ruleKept = true) (hon : s.m.isOn n = true) (v e : Word) :
    Gives (.regWrite (.block n) (BitVec.ofNat 48 (R.BLK_STW_WDOG.addr n 0)) ⟨v, e⟩) s fun m =>
      m.get F.BLK_STW_WDOG_LIMIT n = bitsOf v.toNat 31 1 := by
  obtain ⟨hb, ha, h8⟩ := findBlock_stwWdog n
  have ht : s.m.target (R.BLK_STW_WDOG.addr n 0) = .reg R.BLK_STW_WDOG R.BLK_STW_WDOG.fields n 0 :=
    target_of_on hb (by decide +kernel) hon (by decide)
  have hw : mayWrite (.block n) (R.BLK_STW_WDOG.addr n 0) = true := by rw [mayWrite_block_blk hb, beq_self_eq_true]
  refine ⟨_, does_regWrite_of_target ha h8 hw (bridgeBad_of_ruleKept hk _) ht v e, ?_⟩
  rw [writeValue_of_no_w1c ht (by decide) e.toNat v.isLt]
  have hget : (s.m.plain R.BLK_STW_WDOG R.BLK_STW_WDOG.fields v.toNat n 0).get F.BLK_STW_WDOG_LIMIT n =
      bitsOf v.toNat 31 1 := by
    rw [plain_of_not_errCounter s.m (by decide)]
    exact get_regWrite s.m (f := F.BLK_STW_WDOG_LIMIT) (by decide) (by decide) v.toNat n 0
  have h : R.BLK_STW_WDOG ≠ R.BLK_STW_CTRL ∧ R.BLK_STW_WDOG ≠ R.BLK_MBOX_DATA := by decide
  change (s.m.blkWrite (.block n) R.BLK_STW_WDOG R.BLK_STW_WDOG.fields v.toNat n 0).get F.BLK_STW_WDOG_LIMIT n = _
  simp only [Lanorun.blkWrite, h, if_false, if_true]
  split
  · exact (get_limit_wdogKick _ n).trans hget
  · exact hget

/-- The host sees its bus error with its space and address. -/
theorem hostBusErr_shown (s : Lanorun) {a : Nat} (ha : a < 2 ^ 48) :
    (s.hostBusErr false a).flag F.HST_EVENT_BUS_ERR = true ∧ (s.hostBusErr false a).get F.HST_BUSERR_SPACE = 0 ∧
    (s.hostBusErr false a).get F.HST_BUSERR_ADDR = a := by
  refine ⟨?_, ?_, ?_⟩
  · rw [Lanorun.flag, Lanorun.hostBusErr, get_put_ne _ F.HST_BUSERR_ADDR _ _ _ _ _ _ (by decide),
      get_put_ne _ F.HST_BUSERR_SPACE _ _ _ _ _ _ (by decide)]
    exact flag_event_same s F.HST_EVENT_BUS_ERR 0 0 (by decide)
  · rw [Lanorun.hostBusErr, get_put_apart _ F.HST_BUSERR_ADDR F.HST_BUSERR_SPACE _ _ _ (by decide) (by decide) rfl (by decide),
      get_put_same _ F.HST_BUSERR_SPACE _ _ _ (by decide)]
    rfl
  · rw [Lanorun.hostBusErr, get_put_same _ F.HST_BUSERR_ADDR _ _ _ (by decide)]
    exact Nat.mod_eq_of_lt ha

end Sys2Proof.Machine

namespace Sys2Proof.Proofs
open Sys2Proof.Machine

/-- Access codes, rights and bus errors of a control-space write (R9, R10, R12, R23, R251, R438). -/
theorem accessCodes : Sys2Proof.Spec.AccessCodes := by
  have hrwl : ∀ f ∈ [F.BLF_LIMITS_BOUND_LIM, F.BLF_LIMITS_FAULT_LIM, F.BLF_PARENT_CAND0, F.BLF_PARENT_CAND3,
      F.BLF_EPOCH_TAI_EPOCH], (f.reg ∈ plainRegs ∨ f.reg = R.BLF_LIMITS) ∧ f ∈ f.reg.fields ∧ f.acc = .rwl ∧ w1cMask f.reg.fields = 0 := by
    decide +kernel
  have hw1c : ∀ f ∈ [F.BLF_EVENT_LOCK_GAINED, F.BLF_EVENT_HOLDOVER, F.BLF_EVENT_TIME_FAULT, F.KEP_EVENT_INTRUSION,
      F.PLN_EVENT_PFAULT], f.reg ∈ plainRegs ∧ f ∈ f.reg.fields ∧ f.acc = .w1c ∧ f.hi = f.lo ∧ f.lo < 64 ∧
      (w1cMask f.reg.fields).testBit f.lo = true := by decide +kernel
  have hro : ∀ f ∈ [F.BLF_STATUS_STATE, F.BLF_STATUS_PARENT_PORT, F.PLN_ACT_HANDLE],
      f.reg ∈ plainRegs ∧ f ∈ f.reg.fields ∧ f.acc = .ro := by decide +kernel
  refine ⟨fun f hf s who v e hk hw => ?_, fun f hf s who v e hk hw => ?_, fun s who v e hk hw => ?_, fun f hf s who v e hk => ?_,
    gives_regWrite_jtagLock, fun s n v e hk hon => gives_regWrite_wdogLimit hk hon v e, fun s n k v e hne => ?_,
    fun s n a v e ha => ?_, fun s who a v e h hne => ?_, fun s a v e h => ?_⟩
  · obtain ⟨hr, hf, hacc, hm⟩ := hrwl f hf
    exact gives_regWrite_rwl hr hf hacc hm hk hw v e
  · obtain ⟨hr, hf, hacc, h1, hlt, hm⟩ := hw1c f hf
    exact gives_regWrite_w1c hr hf hacc h1 hlt hm hk hw v e
  · exact gives_regWrite_rw (f := F.PWR_ENV_SW_W) (by decide) (by decide) rfl (by decide) hk hw v e
  · obtain ⟨hr, hf, hacc⟩ := hro f hf
    exact gives_regWrite_ro hr hf hacc hk who v e
  · refine does_regWrite_busErr (.inr (.inr ?_)) v e
    rw [toNat_stwWdog, mayWrite_block_blk (findBlock_stwWdog k).1]
    exact beq_false_of_ne fun h => hne (Fin.ext h)
  · exact does_regWrite_busErr (.inr (.inr (mayWrite_block_below ha n))) v e
  · have hd := does_regWrite_busErr (s := s) (who := who) (h.imp_right .inl) v e
    rwa [show fromHost who = false from beq_false_of_ne hne] at hd
  · obtain ⟨hev, hsp, had⟩ := hostBusErr_shown s.m a.isLt
    exact ⟨_, does_regWrite_busErr (h.imp_right .inl) v e, hev, hsp, had, rfl⟩

end Sys2Proof.Proofs
end

section
/-! SUPPORT. The readback window and captures: what a read of the window shows, what a capture's writes leave, and the states that a
capture passes through (R537 to R539). -/
open Sys2Proof.Spec

namespace Sys2Proof.Machine

/-! ## The window -/

theorem leNat_lt (bs : List (BitVec 8)) : leNat bs < 256 ^ bs.length := by
  induction bs with
  | nil => simp [leNat]
  | cons b bs ih =>
    have hb := b.isLt
    rw [leNat, List.length_cons, Nat.pow_succ]
    omega

/-- The doubleword at offset o of a unit's layout. -/
def Lanorun.rbWord (s : Lanorun) (cls u draw o : Nat) : Nat := leNat ((List.range 8).map fun i => s.rbByte cls u draw (o + i))

theorem rbWord_lt (s : Lanorun) (cls u draw o : Nat) : s.rbWord cls u draw o < 2 ^ 64 := by
  have h := leNat_lt ((List.range 8).map fun i => s.rbByte cls u draw (o + i))
  rwa [List.length_map, List.length_range] at h

theorem rbDataReg_addr_ne (k : Nat) : R.DBG_RB_STAT.addr 0 0 ≠ R.DBG_RB_DATA.addr 0 k := by
  change 0x80000 + 0x108 + 0 * 0 ≠ 0x80000 + 0x200 + 8 * k
  omega

section
variable {s : State} {cls u o : Nat} (hc : s.m.get F.DBG_RB_ADDR_CLASS = cls) (hu : s.m.get F.DBG_RB_ADDR_UNIT = u)
include hc hu

/-- A read of the window shows the status, and the doubleword where that is 0; the cells stay. -/
theorem gives_rbDataRead (k : Fin 32) (ho : s.m.get F.DBG_RB_ADDR_OFFSET / 8 * 8 + 8 * k.val = o) :
    Gives (.rbDataRead k) s fun m => m.get F.DBG_RB_STAT_STATUS = s.m.rbStatus cls u o ∧
      m.reg R.DBG_RB_DATA 0 k = (if s.m.rbStatus cls u o = 0 then s.m.rbWord cls u s.m.freeCtr o else 0) ∧
      m.cells = s.m.cells := by
  subst hc hu ho
  refine ⟨_, exec_rbDataRead k s, ?_, ?_, rfl⟩
  · refine (congrArg (bitsOf · 1 0) (reg_setReg_ne _ _ R.DBG_RB_STAT _ _ _ 0 0 (rbDataReg_addr_ne k))).trans
      ((get_put_same _ F.DBG_RB_STAT_STATUS _ 0 0 (by decide)).trans (Nat.mod_eq_of_lt ?_))
    unfold Lanorun.rbStatus
    split
    · decide
    · split <;> decide
  · refine (reg_setReg_same _ _ _ _ _).trans (Nat.mod_eq_of_lt ?_)
    split
    · exact rbWord_lt ..
    · decide

theorem gives_rbDataRead_ok (k : Fin 32) (ho : s.m.get F.DBG_RB_ADDR_OFFSET / 8 * 8 + 8 * k.val = o)
    (he : s.m.rbExists cls u = true) (hl : o + 8 ≤ s.m.rbLength cls u) (hs : s.m.rbStopped cls u = true) :
    Gives (.rbDataRead k) s fun m => m.get F.DBG_RB_STAT_STATUS = 0 ∧
      m.reg R.DBG_RB_DATA 0 k = s.m.rbWord cls u s.m.freeCtr o ∧ m.cells = s.m.cells := by
  have h : s.m.rbStatus cls u o = 0 := by simp [Lanorun.rbStatus, he, hs, Nat.not_lt.2 hl]
  simpa only [h, if_true] using gives_rbDataRead hc hu k ho

theorem gives_rbDataRead_running (k : Fin 32) (ho : s.m.get F.DBG_RB_ADDR_OFFSET / 8 * 8 + 8 * k.val = o)
    (he : s.m.rbExists cls u = true) (hl : o + 8 ≤ s.m.rbLength cls u) (hs : s.m.rbStopped cls u = false) :
    Gives (.rbDataRead k) s fun m => m.get F.DBG_RB_STAT_STATUS = 1 ∧ m.reg R.DBG_RB_DATA 0 k = 0 := by
  have h : s.m.rbStatus cls u o = 1 := by simp [Lanorun.rbStatus, he, hs, Nat.not_lt.2 hl]
  obtain ⟨m, hd, hst, hr, -⟩ := gives_rbDataRead hc hu k ho
  exact ⟨m, hd, by rw [hst, h], by rw [hr, h]; rfl⟩

theorem gives_rbDataRead_noUnit (k : Fin 32) (he : s.m.rbExists cls u = false) :
    Gives (.rbDataRead k) s fun m => m.get F.DBG_RB_STAT_STATUS = 2 ∧ m.reg R.DBG_RB_DATA 0 k = 0 := by
  obtain ⟨m, hd, hst, hr, -⟩ := gives_rbDataRead hc hu k rfl
  have h : ∀ o, s.m.rbStatus cls u o = 2 := fun o => by simp [Lanorun.rbStatus, he]
  exact ⟨m, hd, by rw [hst, h], by rw [hr, h]; rfl⟩

end

theorem rbExists_store (s : Lanorun) (u : Nat) :
    s.rbExists 2 u = (decide (u < 1360) && s.isOn (u / 17) && !s.cellFused u) := rfl

theorem rbExists_steward {s : Lanorun} {u : Nat} (hu : u < 80) (hon : s.isOn u = true) : s.rbExists 6 u = true := by
  simp [Lanorun.rbExists, hu, hon]

theorem rbStopped_store (s : Lanorun) (u : Nat) :
    s.rbStopped 2 u = (s.flag F.DBG_STATUS_FROZEN || [0, 2, 3, 4].contains (s.cell u).st) := rfl

theorem rbStopped_steward (s : Lanorun) {u : Nat} (hu : u < 80) :
    s.rbStopped 6 u = (s.flag F.DBG_STATUS_FROZEN || (s.steward u).reset) := by
  simp [Lanorun.rbStopped, stwOfUnit, hu]

/-- A cell-store read of one byte answers one byte. -/
theorem length_storeBytes_one (x : Cell) (a : Nat) : (x.storeBytes a 1).length = 1 := by
  have ha : a % 0x100000 + 1 ≤ 0x100000 := Nat.mod_lt a (by decide)
  simp only [Cell.storeBytes, ha, if_true]
  split <;> simp

theorem rbWord_store (s : Lanorun) (u draw o : Nat) :
    s.rbWord 2 u draw o = leNat ((List.range 8).map fun i => ((s.cell u).storeBytes (o + i) 1).headD 0#8) := by
  refine congrArg leNat (List.map_congr_left fun i _ => ?_)
  obtain ⟨b, hb⟩ := List.length_eq_one_iff.1 (length_storeBytes_one (s.cell u) (o + i))
  change ((s.cell u).storeBytes (o + i) 1)[0]?.getD _ = _
  rw [hb]; rfl

theorem rbWord_dsram (s : Lanorun) {u : Nat} (draw : Nat) {o : Nat} (hu : u < 80) (ho : 0x20000 ≤ o) :
    s.rbWord 6 u draw o = leNat ((List.range 8).map fun i => sget 0#8 (s.steward u).dsram (o + i - 0x20000)) := by
  refine congrArg leNat (List.map_congr_left fun i _ => ?_)
  have h1 : ¬ o + i < 0x100 := by omega
  have h2 : ¬ o + i < 0x108 := by omega
  have h3 : ¬ (0x1000 ≤ o + i ∧ o + i < 0x9000) := by omega
  have h4 : ¬ (0x10000 ≤ o + i ∧ o + i < 0x20000) := by omega
  have h5 : 0x20000 ≤ o + i := by omega
  change (s.rbSteward (stwOfUnit u) (o + i)).getD _ = _
  simp only [Lanorun.rbSteward, stwOfUnit, hu, if_true, h1, h2, h3, h4, h5, if_false, Option.getD_some]

/-! ## Captures -/

theorem dramWrite_regs_cells (s : Lanorun) (a : Nat) (bs : List (BitVec 8)) :
    (s.dramWrite a bs).regs = s.regs ∧ (s.dramWrite a bs).cells = s.cells := by
  dsimp only [Lanorun.dramWrite]
  split <;> exact ⟨rfl, rfl⟩

/-- A capture to the buffers of the vaults writes no register and no cell. -/
theorem capWrite_regs_cells {s : Lanorun} (hd : s.flag F.DBG_CAP_CTRL_DEST = false) (o : Nat) (bs : List (BitVec 8)) :
    (s.capWrite o bs).regs = s.regs ∧ (s.capWrite o bs).cells = s.cells := by
  simp only [Lanorun.capWrite, hd, Bool.false_eq_true, if_false]
  split
  · exact dramWrite_regs_cells ..
  · simp only [dramWrite_regs_cells, and_self]

theorem capRecords_regs_cells {s : Lanorun} (hd : s.flag F.DBG_CAP_CTRL_DEST = false) (o : Nat) (us : List (Nat × Nat)) :
    (s.capRecords o us).2.2.regs = s.regs ∧ (s.capRecords o us).2.2.cells = s.cells := by
  induction us generalizing s o with
  | nil => exact ⟨rfl, rfl⟩
  | cons p us ih =>
    dsimp only [Lanorun.capRecords]
    split
    · exact ⟨rfl, rfl⟩
    · obtain ⟨hr, hc⟩ := capWrite_regs_cells (s := s.draw.2) hd o (s.draw.2.capRecord p.1 p.2 s.draw.1)
      obtain ⟨hr', hc'⟩ := ih ((flag_congr_regs hr _ 0 0).trans hd) (o + (s.draw.2.capRecord p.1 p.2 s.draw.1).length)
      exact ⟨hr'.trans hr, hc'.trans hc⟩

/-- A capture's end: its state, and the event. -/
theorem capEnded (s : Lanorun) {st : Nat} (h : st < 16) :
    ((s.put F.DBG_CAP_STAT_STATE st).event F.DBG_EVENT_CAP_DONE).get F.DBG_CAP_STAT_STATE = st ∧
    ((s.put F.DBG_CAP_STAT_STATE st).event F.DBG_EVENT_CAP_DONE).flag F.DBG_EVENT_CAP_DONE = true := by
  refine ⟨?_, flag_event_same _ F.DBG_EVENT_CAP_DONE 0 0 (by decide)⟩
  rw [Lanorun.event, get_put_ne _ F.DBG_EVENT_CAP_DONE F.DBG_CAP_STAT_STATE _ _ _ _ _ (by decide),
    get_put_same _ F.DBG_CAP_STAT_STATE _ _ _ (by decide)]
  exact Nat.mod_eq_of_lt h

theorem capStart_not_frozen {s : Lanorun} (h : s.flag F.DBG_STATUS_FROZEN = false) :
    s.capStart = s.put F.DBG_CAP_STAT_STATE 5 := by
  simp only [Lanorun.capStart, h, if_true]

theorem capStart_running {s : Lanorun} (h : s.flag F.DBG_STATUS_FROZEN = true) (hr : s.get F.DBG_CAP_STAT_STATE = 1) :
    s.capStart = s := by
  simp only [Lanorun.capStart, h, hr, if_true, Bool.true_eq_false, if_false]

theorem capStart_starts {s : Lanorun} (h : s.flag F.DBG_STATUS_FROZEN = true) (hr : s.get F.DBG_CAP_STAT_STATE ≠ 1) :
    s.capStart = s.setReg R.DBG_CAP_STAT 1 := by
  simp only [Lanorun.capStart, h, hr, Bool.true_eq_false, if_false]

theorem get_setReg_same (s : Lanorun) (f : Fld) (v u i : Nat) :
    (s.setReg f.reg v u i).get f u i = bitsOf (v % 2 ^ 64) f.hi f.lo := by
  rw [Lanorun.get, reg_setReg_same]

theorem capAbort_running {s : Lanorun} (h : s.get F.DBG_CAP_STAT_STATE = 1) :
    s.capAbort = (s.put F.DBG_CAP_STAT_STATE 3).event F.DBG_EVENT_CAP_DONE := by
  simp only [Lanorun.capAbort, h, if_true]

theorem capAbort_not_running {s : Lanorun} (h : s.get F.DBG_CAP_STAT_STATE ≠ 1) : s.capAbort = s := by
  simp only [Lanorun.capAbort, h, if_false]

theorem capDone_waits {s : Lanorun}
    (h : s.get F.DBG_CAP_STAT_STATE ≠ 1 ∨ (s.flag F.DBG_CAP_CTRL_DEST = true ∧ s.hostHeld = true)) : s.capDone = s := by
  simp only [Lanorun.capDone, h, if_true]

/-- A running capture to the vaults ends full, or with its end record. -/
theorem capDone_to_vaults {s : Lanorun} (h : s.get F.DBG_CAP_STAT_STATE = 1) (hd : s.flag F.DBG_CAP_CTRL_DEST = false) :
    s.capDone =
      let c := s.capRecords 0 s.capUnits
      if c.2.1 then
        (((c.2.2.put F.DBG_CAP_STAT_BYTES c.1).put F.DBG_CAP_STAT_CODE 0x110A).put F.DBG_CAP_STAT_STATE 4).event
          F.DBG_EVENT_CAP_DONE
      else (((c.2.2.capWrite c.1 (capEnd c.1)).put F.DBG_CAP_STAT_BYTES (c.1 + 32)).put F.DBG_CAP_STAT_STATE 2).event
        F.DBG_EVENT_CAP_DONE := by
  simp only [Lanorun.capDone, h, hd, ne_eq, not_true, Bool.false_eq_true, false_and, or_false, if_false]

theorem capDone_ended {s : Lanorun} (h : s.get F.DBG_CAP_STAT_STATE = 1) (hd : s.flag F.DBG_CAP_CTRL_DEST = false) :
    (s.capDone.get F.DBG_CAP_STAT_STATE = 2 ∨ s.capDone.get F.DBG_CAP_STAT_STATE = 4) ∧
    s.capDone.flag F.DBG_EVENT_CAP_DONE = true ∧ s.capDone.cells = s.cells := by
  obtain ⟨hr, hc⟩ := capRecords_regs_cells hd 0 s.capUnits
  rw [capDone_to_vaults h hd]
  generalize s.capRecords 0 s.capUnits = c at hr hc
  obtain ⟨n, full, t⟩ := c
  dsimp only at hr hc ⊢
  split
  · obtain ⟨hst, hev⟩ := capEnded ((t.put F.DBG_CAP_STAT_BYTES n).put F.DBG_CAP_STAT_CODE 0x110A) (st := 4) (by decide)
    exact ⟨.inr hst, hev, hc⟩
  · obtain ⟨hst, hev⟩ := capEnded ((t.capWrite n (capEnd n)).put F.DBG_CAP_STAT_BYTES (n + 32)) (st := 2) (by decide)
    exact ⟨.inl hst, hev, (capWrite_regs_cells ((flag_congr_regs hr _ 0 0).trans hd) n (capEnd n)).2.trans hc⟩

/-- A capture of no class has no record. -/
theorem capUnits_of_no_class {s : Lanorun} (h : s.get F.DBG_CAP_CTRL_CLASSES = 0) : s.capUnits = [] := by
  simp [Lanorun.capUnits, h]

theorem length_leBytes (k n : Nat) : (leBytes k n).length = k := by
  induction k generalizing n with
  | zero => rfl
  | succ k ih => rw [leBytes, List.length_cons, ih]

theorem length_capEnd (n : Nat) : (capEnd n).length = 32 := by
  simp [capEnd, length_leBytes]

/-- The first bytes of a capture lie from 0xFE0000000 of vault 0 on. -/
theorem capWrite_at_zero {s : Lanorun} (hd : s.flag F.DBG_CAP_CTRL_DEST = false) {bs : List (BitVec 8)}
    (h : bs.length ≤ capBuffer) : s.capWrite 0 bs = s.dramWrite 0xFE0000000 bs := by
  have hk : capBuffer - 0 % capBuffer = capBuffer := by decide
  have ha : 0 / capBuffer * 2 ^ 36 + 0xFE0000000 + 0 % capBuffer = 0xFE0000000 := by decide
  simp only [Lanorun.capWrite, hd, Bool.false_eq_true, if_false, hk, ha, h, if_true, List.take_of_length_le]

theorem sgets_dramWrite (s : Lanorun) {v o : Nat} (bs : List (BitVec 8)) (hr : s.vaultReady v = true) (hv : v < 8) (ho : o < 2 ^ 36) :
    sgets 0#8 ((s.dramWrite (v * 2 ^ 36 + o) bs).vault v).dram o bs.length = bs := by
  have h1 : vaultOf (v * 2 ^ 36 + o) = v := by unfold vaultOf; omega
  have h2 : vaultOffset (v * 2 ^ 36 + o) = o := by unfold vaultOffset; omega
  simp only [Lanorun.dramWrite, h1, h2, hr, if_true, Lanorun.vault_setVault]
  exact sgets_ssets ..

/-- A running capture of no class to the vaults writes its end record alone. -/
theorem capDone_empty {s : Lanorun} (h : s.get F.DBG_CAP_STAT_STATE = 1) (hd : s.flag F.DBG_CAP_CTRL_DEST = false)
    (hn : s.get F.DBG_CAP_CTRL_CLASSES = 0) :
    s.capDone = (((s.dramWrite 0xFE0000000 (capEnd 0)).put F.DBG_CAP_STAT_BYTES 32).put F.DBG_CAP_STAT_STATE 2).event
      F.DBG_EVENT_CAP_DONE := by
  have hw : s.capWrite 0 (capEnd 0) = s.dramWrite 0xFE0000000 (capEnd 0) :=
    capWrite_at_zero hd (by rw [length_capEnd]; decide)
  rw [capDone_to_vaults h hd, capUnits_of_no_class hn, ← hw]
  rfl

end Sys2Proof.Machine

namespace Sys2Proof.Proofs
open Sys2Proof.Machine

/-- The readback window and the states of a capture (R537 to R539). -/
theorem readbackAndCapture : Sys2Proof.Spec.ReadbackAndCapture := by
  refine ⟨fun s k u q hc hu hlt ho hle hon hf hst => ?_, fun s k u q hc hu hlt ho hle hon hf hst hfr => ?_,
    fun s k u q hc hu hlt ho hlo hle hon hst => ?_, fun s k u q hc hu hlt ho hle hon hst hfr => ?_, fun s k h => ?_,
    fun s h => ?_, fun s h hr => ?_, fun s h hr => ?_, fun s h => ?_, fun s h => ?_, fun s h hd hh => ?_, fun s h hd => ?_,
    fun s h hd hn hv => ?_⟩
  · have he : s.m.rbExists 2 u = true := by simp [rbExists_store, hlt, hon, hf]
    have hs : s.m.rbStopped 2 u = true := by
      rw [rbStopped_store, Bool.or_eq_true, List.contains_iff_mem]; exact hst.symm
    rw [← rbWord_store s.m u s.m.freeCtr]
    exact gives_rbDataRead_ok hc hu k (by omega) he hle hs
  · have he : s.m.rbExists 2 u = true := by simp [rbExists_store, hlt, hon, hf]
    have hs : s.m.rbStopped 2 u = false := by rw [rbStopped_store, hfr, hst]; rfl
    exact gives_rbDataRead_running hc hu k (o := 8 * q + 8 * k.val) (by omega) he hle hs
  · have hs : s.m.rbStopped 6 u = true := by
      rw [rbStopped_steward s.m hlt, Bool.or_eq_true]; exact hst.symm
    rw [← rbWord_dsram s.m s.m.freeCtr hlt (by omega)]
    obtain ⟨m, hd, hst, hr, -⟩ := gives_rbDataRead_ok hc hu k (o := 8 * q + 8 * k.val) (by omega) (rbExists_steward hlt hon) hle hs
    exact ⟨m, hd, hst, hr⟩
  · have hs : s.m.rbStopped 6 u = false := by rw [rbStopped_steward s.m hlt, hfr, hst]; rfl
    exact gives_rbDataRead_running hc hu k (o := 8 * q + 8 * k.val) (by omega) (rbExists_steward hlt hon) hle hs
  · refine gives_rbDataRead_noUnit rfl rfl k ?_
    rcases h with h | ⟨h, hu | hu⟩
    · rw [h]; rfl
    · rw [h, rbExists_store, decide_eq_false (Nat.not_lt.2 hu)]; rfl
    · rw [h, rbExists_store, hu]; exact Bool.and_false _
  · exact does_of_on (exec_capStart s) (capStart_not_frozen h)
  · exact gives_of_on (exec_capStart s) (capStart_starts h hr)
      ⟨get_setReg_same s.m F.DBG_CAP_STAT_STATE 1 0 0, get_setReg_same s.m F.DBG_CAP_STAT_BYTES 1 0 0, rfl⟩
  · exact does_of_on (exec_capStart s) (capStart_running h hr)
  · obtain ⟨hst, hev⟩ := capEnded s.m (st := 3) (by decide)
    exact gives_of_on (exec_capAbort s) (capAbort_running h) ⟨hst, hev, rfl⟩
  · exact ⟨does_of_on (exec_capAbort s) (capAbort_not_running h), does_of_on (exec_capDone s) (capDone_waits (.inl h))⟩
  · exact does_of_on (exec_capDone s) (capDone_waits (.inr ⟨hd, hh⟩))
  · exact gives_of_on (exec_capDone s) rfl (capDone_ended h hd)
  · obtain ⟨hst, hev⟩ := capEnded ((s.m.dramWrite 0xFE0000000 (capEnd 0)).put F.DBG_CAP_STAT_BYTES 32) (st := 2) (by decide)
    refine gives_of_on (exec_capDone s) (capDone_empty h hd hn) ⟨hst, ?_, hev, ?_⟩
    · rw [Lanorun.event, get_put_ne _ F.DBG_EVENT_CAP_DONE F.DBG_CAP_STAT_BYTES _ _ _ _ _ (by decide),
        get_put_apart _ F.DBG_CAP_STAT_STATE F.DBG_CAP_STAT_BYTES _ _ _ (by decide) (by decide) rfl (by decide),
        get_put_same _ F.DBG_CAP_STAT_BYTES _ _ _ (by decide)]
      rfl
    · rw [Lanorun.event_at_vault, Lanorun.put_at_vault, Lanorun.put_at_vault]
      have hw := sgets_dramWrite s.m (o := 0xFE0000000) (capEnd 0) hv (by decide) (by decide)
      rwa [length_capEnd] at hw

/-- Settles O58: writes of the control space by access code and requester, and the windows that show the state. -/
theorem accessAndCapture : Obligations.AccessAndCapture := ⟨accessCodes, readbackAndCapture⟩

end Sys2Proof.Proofs
end
